-- ==== Sys2Proof/Word.lean ====
section
/-! DEFINITION. The word types of the HX-512: bytes, halves, 32-bit and 64-bit words, 48-bit stamps, microwords.
Everything that could need mending (bit fields, byte order, modular comparison) is in Machine/Bits.lean. -/

namespace Sys2Proof

/-- One byte of a stream, a buffer or a memory. -/
abbrev Byte := BitVec 8

/-- A 64-bit word: DTIME, state words, link data. -/
abbrev Word := BitVec 64

/-- A STAMP48 or a match value (R34, R95). -/
abbrev Stamp := BitVec 48

/-- Bits [127:0] of a microword; PAR is held beside them (R126). -/
abbrev Microword := BitVec 128

end Sys2Proof
end

