-- ==== Sys2Proof/Syntax.lean ====
section
/-! DEFINITION. The commands of the HX-512: one constructor per row of the table of operations and events. A command says
that the step happens in the TCLK the model is in; its operands are what comes from outside the device (levels, stamps,
data of a transfer, a measured quantity). What the device already holds is never an operand. -/

namespace Sys2Proof

/-- A dictionary connection (R394): an SDO server or USDO client of a bus, or the host-port session. -/
inductive Conn where
  | can (bus : Fin 2) (client : BitVec 7)
  | host
deriving DecidableEq, Repr

/-- Where an NMT command comes from (R397). -/
inductive NmtSource where
  | can0 | can1 | mailbox
deriving DecidableEq, Repr

/-- An SDO or USDO request (R401). -/
inductive SdoReq where
  | read (idx : BitVec 16) (sub : BitVec 8)
  | write (idx : BitVec 16) (sub : BitVec 8) (data : List Byte)
  | badToggle
  | unsupported
deriving DecidableEq, Repr

/-- The instants of a PWM period at which an output can switch (R269, R270). -/
inductive PwmEdge where
  | refRise | refFall | turnOnH | turnOnL
deriving DecidableEq, Repr

/-- An output of the PWM unit that is read back (R294). -/
inductive PwmOut where
  | pairH (u : Fin 24) | pairL (u : Fin 24) | arm (j : Fin 2)
deriving DecidableEq, Repr

/-- What a SECDED read finds (R24). -/
inductive EccResult where
  | clean | single | double
deriving DecidableEq, Repr

/-- The 8-byte words, by their fabric addresses, in which the reads of a command find an error, and whether it is a double-bit one (R24). -/
abbrev EccWords := List (BitVec 40 × Bool)

/-- An edge as a filter accepts it: its direction and its stamp. -/
structure Edge where
  rising : Bool
  stamp : Stamp
deriving DecidableEq, Repr

/-- A read of a DMA channel, with the words in which it finds an error. -/
structure DmaRead where
  c : Fin 32
  ecc : EccWords := []
deriving DecidableEq, Repr

/-- A beat of a burst; of a compare, which of its two reads, that at SRC or that at DST (R351). -/
structure BurstBeat where
  beat : Fin 64
  second : Bool := false
deriving DecidableEq, Repr

/-- The length of a read of the host, with the words in which it finds an error. -/
structure HostBytes where
  len : Nat
  ecc : EccWords := []
deriving DecidableEq, Repr

/-- A read of the drain object over a connection, with the words in which it finds an error. -/
structure DrainRead where
  conn : Conn
  ecc : EccWords := []
deriving DecidableEq, Repr

/-- The wake latches (R383). -/
inductive WakeKind where
  | trip (i : Fin 16) | pps | can (bus : Fin 2) | chipSelect | tpin (n : Fin 192)
deriving DecidableEq, Repr

/-- The reset domains in the order of their release (R444, R445). -/
inductive Domain where
  | clk | aon | prot | mem | core | comm
deriving DecidableEq, Repr

/-- A result of one converter slot: the code as converted with unit gain and zero offset (R313), and whether an input clamp conducted
(R302). -/
structure AdcSample where
  code : BitVec 16
  clamp : Bool
deriving DecidableEq, Repr

/-- Calibration factors of one input mode (R312, R313): offset in LSB and gain error in 0.01 %. -/
structure Factors where
  offset : Int := 0
  gain : Int := 0
deriving DecidableEq, Repr

/-- What a calibration measures on one converter, single-ended and differential (R312). -/
structure CalResult where
  single : Factors := {}
  diff : Factors := {}
deriving DecidableEq, Repr

/-- The identity an LSS service names (R409). -/
structure LssAddress where
  vendor : BitVec 32
  product : BitVec 32
  revision : BitVec 32
  serial : BitVec 32
deriving DecidableEq, Repr

inductive Instr where
  -- Clocks, device time and aligned time
  | pllLock
  | referenceHold
  | refLost
  | referenceRelock
  | stampWrap
  | atimeSecondBoundary
  | ppsOutWidthEnd
  | ppsInEdge (fine : BitVec 6)
  | ppsInLevelEnd
  | ppsLongPulse
  | ppsProcess
  | holdoverTimeout
  | timeReceived (days : BitVec 16) (ms : BitVec 28)
  | secondsSet (conn : Conn) (value : BitVec 40)
  -- Snapshots and commit groups
  | snapshotTake (conn : Conn)
  | snapshotHold (conn : Conn)
  | snapshotRelease (conn : Conn)
  | periodicSnapshot
  | snapshotCopyDone
  | holdExpired
  | configObjectWrite (conn : Conn) (idx : BitVec 16) (sub : BitVec 8) (data : List Byte)
  | statusW1cWrite (conn : Conn) (idx : BitVec 16) (sub : BitVec 8) (data : List Byte)
  | groupArm (conn : Conn) (g : Fin 64)
  | groupDisarm (conn : Conn) (g : Fin 64)
  | groupDiscard (conn : Conn) (g : Fin 64)
  | addMember (conn : Conn) (g : Fin 64) (entry : BitVec 32)
  | removeMember (conn : Conn) (g : Fin 64) (entry : BitVec 32)
  -- The channel array
  | matchFire (c : Fin 512)
  | inputEdge (c : Fin 512) (stamp : Stamp) (rising : Bool)
  | captureFifoPop (conn : Conn) (c : Fin 512)
  | hostCommand (conn : Conn) (c : Fin 512) (value : Byte)
  | linkRequest (target : Fin 512) (lnkd : Word)
  | tpinReadback (n : Fin 192) (level : Bool)
  | tpinShortClear (conn : Conn) (n : Fin 192)
  -- Microengines
  | routineStart (k : Fin 8)
  | microwordExecute (k : Fin 8) (upset : Option (Fin 136))
  | aluPass (k : Fin 8) (wid : BitVec 2) (a b : Word)
  | aluAdd (k : Fin 8) (wid : BitVec 2) (a b : Word)
  | aluSub (k : Fin 8) (wid : BitVec 2) (a b : Word)
  | aluAnd (k : Fin 8) (wid : BitVec 2) (a b : Word)
  | aluOr (k : Fin 8) (wid : BitVec 2) (a b : Word)
  | aluXor (k : Fin 8) (wid : BitVec 2) (a b : Word)
  | aluShl (k : Fin 8) (wid : BitVec 2) (a b : Word)
  | aluShr (k : Fin 8) (wid : BitVec 2) (a b : Word)
  | aluSar (k : Fin 8) (wid : BitVec 2) (a b : Word)
  | aluMul (k : Fin 8) (wid : BitVec 2) (a b : Word)
  | aluDiv (k : Fin 8) (wid : BitVec 2) (a b : Word)
  | aluMinu (k : Fin 8) (wid : BitVec 2) (a b : Word)
  | aluMaxu (k : Fin 8) (wid : BitVec 2) (a b : Word)
  | aluFfs (k : Fin 8) (wid : BitVec 2) (a b : Word)
  | aluSel (k : Fin 8) (wid : BitVec 2) (a b : Word) (cond : BitVec 6) (cpol : Bool)
  | aluAndn (k : Fin 8) (wid : BitVec 2) (a b : Word)
  | stateWordRead (k : Fin 8) (sw : BitVec 5)
  | stateWordWrite (k : Fin 8) (sw : BitVec 5) (result : Word)
  | tableReadStart (k : Fin 8) (result : Word)
  | tableReadDone (k : Fin 8) (ecc : EccResult)
  | nextGo (k : Fin 8) (naddr : BitVec 12)
  | nextTwoWay (k : Fin 8) (naddr : BitVec 12) (c' : Bool)
  | nextDispatch (k : Fin 8) (naddr : BitVec 12)
  | nextEnd (k : Fin 8) (naddr : BitVec 12)
  | microCommit (k : Fin 8)
  | microwordWait (k : Fin 8)
  | waitRelease (k : Fin 8)
  | waitTimeout (k : Fin 8)
  | matchaLoad (k : Fin 8) (result : Word) (fine : BitVec 6)
  | matchbLoad (k : Fin 8) (result : Word) (fine : BitVec 6)
  | matchaLoadFineLayout (k : Fin 8) (result : Word)
  | matchbLoadFineLayout (k : Fin 8) (result : Word)
  | disarmA (k : Fin 8)
  | disarmB (k : Fin 8)
  | disarmAAndB (k : Fin 8)
  | armA (k : Fin 8)
  | armB (k : Fin 8)
  | fifoPop (k : Fin 8)
  | cctlModeLoad (k : Fin 8) (result : Word)
  | pinActionSet (k : Fin 8) (fine : BitVec 6)
  | pinActionClear (k : Fin 8) (fine : BitVec 6)
  | pinActionToggle (k : Fin 8) (fine : BitVec 6)
  | pinActionResult (k : Fin 8) (fine : BitVec 6) (result : Word)
  | pinActionCondition (k : Fin 8) (fine : BitVec 6) (c' : Bool)
  | flagSet (k : Fin 8) (mask : Byte)
  | flagClear (k : Fin 8) (mask : Byte)
  | linkAllTargets (k : Fin 8) (result : Word)
  | linkOneTarget (k : Fin 8) (n : BitVec 3) (result : Word)
  | irqRequest (k : Fin 8)
  | dmaRequestRaise (k : Fin 8)
  | eventPost (k : Fin 8)
  | logWrite (k : Fin 8) (result : Word)
  | routineAbandon (k : Fin 8)
  | runaway (k : Fin 8)
  | mcRecoveryDone (k : Fin 8) (mramOk readbackOk : Bool) (romReads : BitVec 3)
  | scrubRead (k : Fin 8) (upset : Option (Fin 136))
  | scrubRepairDone (k : Fin 8) (ok : Bool)
  | loadMeasure
  | microcodeImageWrite (conn : Conn) (data : List Byte)
  | microcodeActivate (conn : Conn)
  | activationClusterDone (readbackOk : Bool)
  -- The event table
  | eventInsert (conn : Conn) (data : List Byte)
  | eventCancel (conn : Conn) (value : BitVec 32)
  | insertWalkDone
  | queueFlush (conn : Conn) (q : Fin 16)
  | eventPrearm
  | eventFire (e : BitVec 12)
  | eventPinLand (e : BitVec 12)
  | kickChannel (q : Fin 16) (c : Fin 512)
  | eventPinSet (q : Fin 16) (n : Fin 192) (fine : BitVec 6)
  | eventPinClear (q : Fin 16) (n : Fin 192) (fine : BitVec 6)
  | eventPinToggle (q : Fin 16) (n : Fin 192) (fine : BitVec 6)
  | commitTrigger (q : Fin 16) (g : Fin 64)
  | startSequence (q : Fin 16) (s : Fin 4)
  | ssiFrameRequest (q : Fin 16) (n : Fin 8)
  | applyOverlay (q : Fin 16) (slot : Fin 13)
  | dmaRequest (q : Fin 16) (c : Fin 32)
  | pinEngineFlags (q : Fin 16) (e : Fin 16) (setMask clrMask : Byte)
  | logMark (q : Fin 16) (arg : BitVec 32)
  | eventSnapshot (q : Fin 16)
  | eventReadRequest (conn : Conn) (value : BitVec 16)
  | eventListingDone
  | eventImageWrite (conn : Conn) (data : List Byte)
  -- Wheel trackers
  | toothEdge (w : Fin 4) (edge : Edge)
  | virtualTooth (w : Fin 4)
  | toothTimeoutLost (w : Fin 4)
  | gapLate (w : Fin 4)
  | trackerStall (w : Fin 4)
  | laneHold (w : Fin 4)
  | catchupEnd (w : Fin 4)
  | camMissing (w : Fin 4)
  -- Feedback ports
  | quadratureTransition (n : Fin 8) (stamp : Stamp) (a b : Bool)
  | indexEdge (n : Fin 8) (edge : Edge)
  | indexArm (conn : Conn) (n : Fin 8)
  | indexDisarm (conn : Conn) (n : Fin 8)
  | presetPosition (conn : Conn) (n : Fin 8) (value : BitVec 48)
  | hallChange (n : Fin 8) (stamp : Stamp) (lines : BitVec 3)
  | ssiPeriodicRequest (n : Fin 8)
  | ssiFrameStart (n : Fin 8) (level : Bool)
  | ssiStartBit (n : Fin 8) (level : Bool)
  | ssiStartTimeout (n : Fin 8)
  | ssiFrameEvaluate (n : Fin 8) (raw : BitVec 48)
  | ssiRecoveryEnd (n : Fin 8)
  | observerUpdate (n : Fin 8)
  | standstill (n : Fin 8)
  | probeEdge (n : Fin 8) (edge : Edge)
  | feedbackOutputReadback (n : Fin 8) (isDe level : Bool)
  | startingToRunning (n : Fin 8)
  -- PWM, trip and arming
  | pwmBoundary (u : Fin 24)
  | pwmMidReload (u : Fin 24)
  | pwmOutputEdge (u : Fin 24) (edge : PwmEdge)
  | streamBeatWrite (u : Fin 24) (beat : Word)
  | dlineCalibration (u : Fin 24) (isL : Bool) (taps : Byte)
  | pairStart (u : Fin 24)
  | tripDecision (i : Fin 16) (stamp : Stamp) (active : Bool)
  | blankLimit (i : Fin 16)
  | tripClear (conn : Conn) (i : Fin 16)
  | clearAllTrips (conn : Conn)
  | armCommand (conn : Conn)
  | disarmCommand (conn : Conn)
  | armStart
  | armToggle
  | pwmReadback (out : PwmOut) (level : Bool)
  -- Analogue conversion
  | sequenceStart (conn : Conn) (s : Fin 4)
  | sequenceStop (conn : Conn) (s : Fin 4)
  | stepStart (s : Fin 4)
  | stepResult (s : Fin 4) (r0 r1 r2 r3 : AdcSample)
  | adcFifoRead (k : Fin 4)
  | calibrate (conn : Conn)
  | calibrationDone (r0 r1 r2 r3 : CalResult) (dieTemp : BitVec 16)
  | limitTripClear (conn : Conn) (a : Fin 48)
  -- Pin engines
  | nop (e : Fin 16)
  | delay (e : Fin 16)
  | delayEnd (e : Fin 16)
  | wait (e : Fin 16) (pins : Byte)
  | peWaitRelease (e : Fin 16) (pins : Byte)
  | peWaitTimeout (e : Fin 16) (pins : Byte)
  | drive (e : Fin 16)
  | emit (e : Fin 16) (pins : Byte)
  | sample (e : Fin 16) (pins : Byte)
  | fetch (e : Fin 16)
  | deposit (e : Fin 16)
  | branch (e : Fin 16) (pins : Byte)
  | setlc (e : Fin 16)
  | loop (e : Fin 16)
  | signal (e : Fin 16)
  | txdWrite (e : Fin 16) (word : BitVec 32)
  | rxdRead (e : Fin 16)
  | peFlagSet (e : Fin 16) (mask : Byte)
  | peFlagClear (e : Fin 16) (mask : Byte)
  | flush (e : Fin 16)
  | forceSwap (e : Fin 16)
  | programWrite (conn : Conn) (e : Fin 16) (data : List Byte)
  | bankSwap (e : Fin 16)
  | peReadback (e : Fin 16) (j : Fin 8) (level : Bool)
  -- DMA and the log
  | dmaRequestTake (c : Fin 32)
  | dmaBurstDone (read : DmaRead)
  | fenceReadDone (read : DmaRead)
  | descriptorFetchDone (read : DmaRead)
  | dmaBusError (c : Fin 32) (dir : BitVec 2) (beat : BurstBeat)
  | dmaStart (conn : Conn) (c : Fin 32)
  | dmaDisable (conn : Conn) (c : Fin 32)
  | dmaContinue (conn : Conn) (c : Fin 32)
  | dmaSoftwareRequest (conn : Conn) (c : Fin 32)
  | memoryLoad (conn : Conn) (data : List Byte)
  | logAdmit (unit : BitVec 10)
  | logStagingMove
  | logLossRecord
  | logDrainRead (addr : BitVec 16) (bytes : HostBytes)
  | logDrainObjectRead (read : DrainRead)
  | releaseRecords (conn : Conn) (n : BitVec 32)
  | stagingFlushDone
  | patrolScrub (region : Fin 9) (offset : BitVec 28) (ecc : EccResult)
  | lpddrZeroingDone
  -- Interrupts and doze
  | irqClaim (n : Fin 4) (g : BitVec 6)
  | irqComplete (n : Fin 4) (g : BitVec 6)
  | holdOffEnd (g : Fin 40)
  | claimTimeout (g : Fin 40)
  | latchClear (g : Fin 40) (mask : Word)
  | dozeCommand (conn : Conn)
  | dozeEnter
  | wakeLatch (kind : WakeKind)
  | wakeComplete
  -- Dictionary, networks and host port
  | sdoRequest (conn : Conn) (req : SdoReq)
  | sdoProtocolTimeout (conn : Conn)
  | expertKey (conn : Conn) (key : BitVec 32)
  | newKey (conn : Conn) (key : BitVec 32)
  | unlockTimeout (conn : Conn)
  | keyLockoutEnd (conn : Conn)
  | nmtStart (src : NmtSource)
  | nmtStop (src : NmtSource)
  | nmtEnterPreOperational (src : NmtSource)
  | nmtResetNode (src : NmtSource)
  | nmtResetCommunication (src : NmtSource)
  | syncReceived (bus : Fin 2) (counter : Option Byte)
  | syncLost (bus : Fin 2)
  | tpdoEventTimer (p : Fin 16)
  | synchronousWindowEnd (unsent : BitVec 16)
  | rpdoReceived (bus : Fin 2) (p : Fin 16) (data : List Byte)
  | rpdoDeadline (p : Fin 16)
  | emcyInhibitEnd (bus : Fin 2)
  | heartbeatProduce (bus : Fin 2)
  | heartbeatReceived (bus : Fin 2) (node : BitVec 7) (nodeState : Byte)
  | hbTimeout (bus : Fin 2) (i : Fin 4)
  | errorPassive (bus : Fin 2)
  | busOff (bus : Fin 2)
  | busOffRecovery (bus : Fin 2)
  | rxOverrun (bus : Fin 2)
  | lssSwitchStateGlobal (bus : Fin 2) (mode : Byte)
  | lssSwitchStateSelective (bus : Fin 2) (addr : LssAddress)
  | lssConfigureNodeId (bus : Fin 2) (id : Byte)
  | lssConfigureBitTiming (bus : Fin 2) (table entry : Byte)
  | lssActivateBitTiming (bus : Fin 2) (delayMs : BitVec 16)
  | lssStoreConfiguration (bus : Fin 2)
  | lssInquireIdentity (bus : Fin 2) (which : Fin 4)
  | lssInquireNodeId (bus : Fin 2)
  | lssIdentifyRemoteSlave (bus : Fin 2) (lo hi : LssAddress)
  | lssIdentifyNonConfiguredSlave (bus : Fin 2)
  | lssFastscan (bus : Fin 2) (idNumber : BitVec 32) (bitCheck lssSub lssNext : Byte)
  | commObjectWrite (conn : Conn) (idx : BitVec 16) (sub : BitVec 8) (data : List Byte)
  | errorListClear (conn : Conn) (value : Byte)
  | storeAll (conn : Conn) (signature : BitVec 32)
  | restoreDefaults (conn : Conn) (signature : BitVec 32)
  | storeComplete (readbackOk : Bool)
  | hostRead (addr : BitVec 40) (bytes : HostBytes) (csLong : Bool) (late : Option Nat)
  | hostWrite (addr : BitVec 40) (data : List Byte) (csLong : Bool)
  | hostInvalidOpcode (opcode : Byte)
  | hpcfgWrite (value : BitVec 32)
  | sessionOpen (generation : BitVec 16)
  | sessionClose
  | reqProdWrite (value : Byte)
  | rspConsWrite (value : Byte)
  | mailboxRead
  | mailboxWrite
  | mailboxNmt
  | mailboxResync
  | mailboxInvalidOpcode
  -- Configurations and resync
  | baseImageWrite (conn : Conn) (data : List Byte)
  | overlaySlotWrite (conn : Conn) (slot : Fin 12) (data : List Byte)
  | applyOverlayImmediate (conn : Conn) (slot : BitVec 4)
  | applyOverlayNextPps (conn : Conn) (slot : BitVec 4)
  | overlayCancel (conn : Conn) (value : Byte)
  | customerDataWrite (conn : Conn) (data : List Byte)
  | resync (conn : Conn)
  | summaryReady
  -- Reset, start-up and life-cycle
  | powerOn
  | brownOut (rail : Fin 3)
  | resetN (low : Bool)
  | warmN (low : Bool)
  | domainRelease (d : Domain)
  | startUpCommit
  | selfTest (failed : BitVec 4)
  | enterPreOperational
  | watchdogStage1
  | watchdogStage2
  | softwareWarmReset (conn : Conn) (signature : BitVec 32)
  | blockResetAssert (conn : Conn) (code : Byte)
  | blockResetRelease (conn : Conn) (code : Byte)
  | blockResetPulse (conn : Conn) (code : Byte)
  | blockResetPulseEnd (code : Byte)
  | supplySample (core v18 vio : BitVec 16) (temp : BitVec 16)
  | lifecycleTransition (conn : Conn) (value : BitVec 32)
  | journalWrite
  | journalReadRequest (conn : Conn) (value : Word)
  | journalClear (conn : Conn) (signature : BitVec 32)
  | errorActive (bus : Fin 2)
  | tpdoInhibitEnd (p : Fin 16)
deriving DecidableEq, Repr

end Sys2Proof
end

