-- ==== Sys2Proof/Config.lean ====
section
/-! DEFINITION. What the spec leaves open, as constants without a body: free values, unspecified ROM words, roundings the
spec does not state, and the numbers of one delivered part. Nothing in Lean can evaluate or prove a value of them. -/

namespace Sys2Proof.Config

/-- Free values, drawn by the model's counter `freeIdx` (log entry 3). -/
opaque freeValue : Nat → Word

/-- How long after a release of CORE the supervisor stops, in TCLK, if it does in that run (R15, R452; log entry 61). -/
opaque supervisorStop : Nat → Option Nat

/-- Contents of ROM addresses that R131 does not list: "Their contents are not specified" (log entry 4). -/
opaque romWord : Nat → Microword

/-- Whether a quotient `num / den` whose rounding the spec does not state is taken one unit up (log entry 5). -/
opaque roundUp : Int → Nat → Bool

/-- θ = atan2(s, c) as a 16-bit fraction of a period, formed by CORDIC (R250); its rounding is not stated (log entry 6). -/
opaque theta : Int → Int → BitVec 16

/-- A converter's code corrected by an offset and a gain error, for which the spec gives no formula (R313; log entry 113). -/
opaque corrected : Int → Int → BitVec 16 → BitVec 16

/-- The write of an object of the DMA unit that the host would make, of index, sub-index and value, for which a DMA write of a word at an
address of the unit's control space stands: the spec does not give that space's layout (R351; log entry 34). -/
opaque dmaSpace : Nat → Word → Option (Nat × Nat × List Byte)

/-- Vendor-ID of Caervin, 0x1018:01; the spec gives no number (log entry 7). -/
opaque vendorId : BitVec 32

/-- Serial number, 0x1018:04 (log entry 7). -/
opaque serialNumber : BitVec 32

/-- 0x1009:00, the silicon revision, and 0x100A:00, the supervisor ROM version, as strings (log entry 7). -/
opaque hardwareVersion : List Byte
opaque softwareVersion : List Byte

/-- The electronic data sheet of 0x1021:00 in the CiA 306 format (log entry 7). -/
opaque storeEds : List Byte

/-- The part is one of the extended temperature grade, whose maximum is 125 °C, and not 105 °C (R1; log entry 7). -/
opaque extendedGrade : Bool

end Sys2Proof.Config
end

