-- ==== Sys2Proof/Machine/ObjectTable.lean ====
section
/-! DEFINITION. The object tables of the spec as data: one row per line of an object table (R60, R61, R87, R88, R122, R180,
R181, R205–R207, R230, R231, R265, R266, R298, R299, R323, R324, R344, R370, R371, R388, R389, R395, R400, R404, R419, R420,
R440, R441, R465, R466), with the limits its notes give. A width of 0 stands for DOMAIN, OCTET_STRING and VISIBLE_STRING. -/

namespace Sys2Proof.Machine

inductive Access where
  | ro | rw | wo
deriving DecidableEq, Repr

/-- A line of an object table: indices idx to idx + n − 1, subindices sub to sub + m − 1. -/
structure ObjRow where
  idx : Nat
  n : Nat
  sub : Nat
  m : Nat
  bits : Nat
  signed : Bool
  acc : Access
  expert : Bool
  ovl : Bool
  dflt : Nat
  /-- Added to the default per index (2 × e of R344). -/
  dstep : Nat
  lo : Int
  hi : Int
deriving DecidableEq, Repr

/-- Objects of 0x1000. -/
def objs10 : List ObjRow := [
  ⟨0x1000, 1, 0x00, 1, 32, false, .ro, false, false, 0x0, 0, 0x0, 0xFFFFFFFF⟩,
  ⟨0x1001, 1, 0x00, 1, 8, false, .ro, false, false, 0x0, 0, 0x0, 0xFF⟩,
  ⟨0x1003, 1, 0x00, 1, 8, false, .rw, false, false, 0x0, 0, 0x0, 0x0⟩,
  ⟨0x1003, 1, 0x01, 8, 32, false, .ro, false, false, 0x0, 0, 0x0, 0xFFFFFFFF⟩,
  ⟨0x1005, 1, 0x00, 1, 32, false, .rw, false, false, 0x80, 0, 0x0, 0xFFFFFFFF⟩,
  ⟨0x1006, 1, 0x00, 1, 32, false, .rw, false, false, 0x0, 0, 0x0, 0xFFFFFFFF⟩,
  ⟨0x1007, 1, 0x00, 1, 32, false, .rw, false, false, 0x0, 0, 0x0, 0xFFFFFFFF⟩,
  ⟨0x1008, 1, 0x00, 1, 0, false, .ro, false, false, 0x0, 0, 0x0, 0x0⟩,
  ⟨0x1009, 1, 0x00, 1, 0, false, .ro, false, false, 0x0, 0, 0x0, 0x0⟩,
  ⟨0x100A, 1, 0x00, 1, 0, false, .ro, false, false, 0x0, 0, 0x0, 0x0⟩,
  ⟨0x1010, 1, 0x01, 1, 32, false, .rw, false, false, 0x1, 0, 0x0, 0xFFFFFFFF⟩,
  ⟨0x1011, 1, 0x01, 1, 32, false, .rw, false, false, 0x1, 0, 0x0, 0xFFFFFFFF⟩,
  ⟨0x1012, 1, 0x00, 1, 32, false, .rw, false, false, 0x80000100, 0, 0x0, 0xFFFFFFFF⟩,
  ⟨0x1014, 1, 0x00, 1, 32, false, .rw, false, false, 0x80, 0, 0x0, 0xFFFFFFFF⟩,
  ⟨0x1015, 1, 0x00, 1, 16, false, .rw, false, false, 0x0, 0, 0x0, 0xFFFF⟩,
  ⟨0x1016, 1, 0x01, 8, 32, false, .rw, false, false, 0x0, 0, 0x0, 0xFFFFFFFF⟩,
  ⟨0x1017, 1, 0x00, 1, 16, false, .rw, false, false, 0x0, 0, 0x0, 0xFFFF⟩,
  ⟨0x1018, 1, 0x01, 4, 32, false, .ro, false, false, 0x0, 0, 0x0, 0xFFFFFFFF⟩,
  ⟨0x1019, 1, 0x00, 1, 8, false, .rw, false, false, 0x0, 0, 0x0, 0xF0⟩,
  ⟨0x1021, 1, 0x00, 1, 0, false, .ro, false, false, 0x0, 0, 0x0, 0x0⟩,
  ⟨0x1022, 1, 0x00, 1, 8, false, .ro, false, false, 0x0, 0, 0x0, 0xFF⟩,
  ⟨0x1029, 1, 0x01, 1, 8, false, .rw, false, false, 0x0, 0, 0x0, 0x2⟩]

/-- Objects of 0x1200. -/
def objs12 : List ObjRow := [
  ⟨0x1200, 1, 0x01, 2, 32, false, .ro, false, false, 0x0, 0, 0x0, 0xFFFFFFFF⟩,
  ⟨0x1201, 1, 0x01, 2, 32, false, .ro, false, false, 0x0, 0, 0x0, 0xFFFFFFFF⟩]

/-- Objects of 0x1400. -/
def objs14 : List ObjRow := [
  ⟨0x1400, 16, 0x01, 1, 32, false, .rw, false, false, 0x80000200, 0, 0x0, 0xFFFFFFFF⟩,
  ⟨0x1400, 16, 0x02, 1, 8, false, .rw, false, false, 0xFF, 0, 0x0, 0xFF⟩,
  ⟨0x1400, 16, 0x05, 1, 16, false, .rw, false, false, 0x0, 0, 0x0, 0xFFFF⟩]

/-- Objects of 0x1600. -/
def objs16 : List ObjRow := [
  ⟨0x1600, 16, 0x00, 65, 32, false, .rw, false, false, 0x0, 0, 0x0, 0xFFFFFFFF⟩]

/-- Objects of 0x1800. -/
def objs18 : List ObjRow := [
  ⟨0x1800, 16, 0x01, 1, 32, false, .rw, false, false, 0x80000180, 0, 0x0, 0xFFFFFFFF⟩,
  ⟨0x1800, 16, 0x02, 1, 8, false, .rw, false, false, 0xFF, 0, 0x0, 0xFF⟩,
  ⟨0x1800, 16, 0x03, 1, 16, false, .rw, false, false, 0x0, 0, 0x0, 0xFFFF⟩,
  ⟨0x1800, 16, 0x05, 1, 16, false, .rw, false, false, 0x0, 0, 0x0, 0xFFFF⟩,
  ⟨0x1800, 16, 0x06, 1, 8, false, .rw, false, false, 0x0, 0, 0x0, 0xFF⟩]

/-- Objects of 0x1A00. -/
def objs1A : List ObjRow := [
  ⟨0x1A00, 16, 0x00, 65, 32, false, .rw, false, false, 0x0, 0, 0x0, 0xFFFFFFFF⟩]

/-- Objects of 0x2000. -/
def objs20 : List ObjRow := [
  ⟨0x2000, 1, 0x01, 1, 8, false, .ro, false, false, 0x0, 0, 0x0, 0xFF⟩,
  ⟨0x2000, 1, 0x02, 1, 8, false, .rw, false, false, 0x1, 0, 0x0, 0x1⟩,
  ⟨0x2000, 1, 0x03, 1, 8, false, .rw, false, false, 0x0, 0, 0x0, 0x1⟩,
  ⟨0x2000, 1, 0x04, 1, 8, false, .rw, false, false, 0x1, 0, 0x0, 0x1⟩,
  ⟨0x2000, 1, 0x05, 1, 8, false, .rw, false, false, 0x1, 0, 0x0, 0x2⟩,
  ⟨0x2000, 1, 0x06, 1, 32, false, .rw, false, false, 0x3E8, 0, 0xA, 0x4E20⟩,
  ⟨0x2000, 1, 0x07, 1, 8, false, .rw, false, false, 0x2, 0, 0x0, 0x2⟩,
  ⟨0x2000, 1, 0x08, 1, 32, false, .rw, false, false, 0x186A0, 0, 0x1, 0x7A120⟩,
  ⟨0x2000, 1, 0x09, 1, 32, true, .rw, false, false, 0x0, 0, (-100000), 0x186A0⟩,
  ⟨0x2000, 1, 0x0A, 1, 32, true, .rw, false, false, 0x0, 0, (-100000), 0x186A0⟩,
  ⟨0x2000, 1, 0x0B, 1, 40, false, .wo, false, false, 0x0, 0, 0x0, 0xFFFFFFFFFF⟩,
  ⟨0x2000, 1, 0x0C, 1, 8, false, .rw, false, false, 0x1, 0, 0x0, 0x1⟩,
  ⟨0x2000, 1, 0x10, 1, 8, false, .wo, false, false, 0x0, 0, 0x1, 0x1⟩,
  ⟨0x2000, 1, 0x11, 1, 8, false, .rw, false, false, 0x10, 0, 0x0, 0x3F⟩,
  ⟨0x2000, 1, 0x12, 3, 64, false, .rw, false, false, 0x0, 0, 0x0, 0xFFFFFFFFFFFFFFFF⟩,
  ⟨0x2000, 1, 0x15, 1, 8, false, .rw, false, false, 0x0, 0, 0x0, 0x2⟩,
  ⟨0x2000, 1, 0x20, 1, 16, false, .rw, false, false, 0x1F4, 0, 0x0, 0xFFFF⟩,
  ⟨0x2000, 1, 0x22, 1, 16, false, .rw, false, false, 0x1F4, 0, 0x0, 0xFFFF⟩,
  ⟨0x2000, 1, 0x21, 1, 16, false, .rw, false, false, 0x0, 0, 0x0, 0xFFFF⟩,
  ⟨0x2000, 1, 0x23, 1, 16, false, .rw, false, false, 0x0, 0, 0x0, 0xFFFF⟩,
  ⟨0x2000, 1, 0x24, 1, 8, false, .ro, false, false, 0xFF, 0, 0x0, 0xFF⟩,
  ⟨0x2000, 1, 0x25, 1, 8, false, .ro, false, false, 0xFF, 0, 0x0, 0xFF⟩,
  ⟨0x2000, 1, 0x26, 1, 8, false, .rw, false, false, 0x0, 0, 0x0, 0x1⟩,
  ⟨0x2000, 1, 0x27, 1, 8, false, .rw, false, false, 0x0, 0, 0x0, 0x1⟩,
  ⟨0x2000, 1, 0x28, 1, 16, false, .rw, false, false, 0x0, 0, 0x0, 0xFFFF⟩,
  ⟨0x2000, 1, 0x29, 1, 16, false, .rw, false, false, 0x0, 0, 0x0, 0xFFFF⟩,
  ⟨0x2000, 1, 0x2A, 1, 8, false, .rw, false, false, 0x0, 0, 0x0, 0x1⟩,
  ⟨0x2000, 1, 0x2B, 1, 8, false, .rw, false, false, 0x0, 0, 0x0, 0x1⟩,
  ⟨0x2000, 1, 0x2C, 1, 0, false, .rw, false, false, 0x0, 0, 0x0, 0x0⟩,
  ⟨0x2000, 1, 0x30, 1, 8, false, .rw, false, false, 0x0, 0, 0x0, 0x2⟩]

/-- Objects of 0x2100. -/
def objs21 : List ObjRow := [
  ⟨0x2100, 8, 0x01, 1, 8, false, .rw, false, false, 0x1, 0, 0x0, 0x1⟩,
  ⟨0x2100, 8, 0x02, 1, 8, false, .rw, false, false, 0x1, 0, 0x0, 0x1⟩]

/-- Objects of 0x2200. -/
def objs22 : List ObjRow := [
  ⟨0x2200, 512, 0x01, 1, 8, false, .rw, false, false, 0x0, 0, 0x0, 0xF⟩,
  ⟨0x2200, 512, 0x02, 1, 8, false, .rw, false, false, 0x0, 0, 0x0, 0x1⟩,
  ⟨0x2200, 512, 0x03, 1, 8, false, .rw, false, false, 0x0, 0, 0x0, 0x1⟩,
  ⟨0x2200, 512, 0x04, 1, 8, false, .rw, false, false, 0xFF, 0, 0x0, 0xFF⟩,
  ⟨0x2200, 512, 0x05, 1, 8, false, .rw, false, false, 0x0, 0, 0x0, 0xFF⟩,
  ⟨0x2200, 512, 0x06, 1, 8, false, .rw, false, false, 0x0, 0, 0x0, 0x1⟩,
  ⟨0x2200, 512, 0x07, 1, 8, false, .rw, false, false, 0x0, 0, 0x0, 0x1⟩,
  ⟨0x2200, 512, 0x08, 1, 16, false, .rw, false, false, 0xFFFF, 0, 0x0, 0xFFFF⟩,
  ⟨0x2200, 512, 0x09, 1, 8, false, .rw, false, false, 0x1, 0, 0x1, 0x8⟩,
  ⟨0x2200, 512, 0x0A, 1, 8, false, .wo, false, false, 0x0, 0, 0x0, 0xFF⟩,
  ⟨0x2200, 512, 0x10, 16, 64, false, .rw, false, true, 0x0, 0, 0x0, 0xFFFFFFFFFFFFFFFF⟩]

/-- Objects of 0x2400. -/
def objs24 : List ObjRow := [
  ⟨0x2400, 24, 0x01, 1, 8, false, .rw, false, false, 0x0, 0, 0x0, 0x1⟩,
  ⟨0x2400, 24, 0x02, 1, 8, false, .rw, false, false, 0x0, 0, 0x0, 0x1⟩,
  ⟨0x2400, 24, 0x03, 1, 32, false, .rw, false, true, 0x0, 0, 0x0, 0xFFFFFFFF⟩,
  ⟨0x2400, 24, 0x04, 1, 32, false, .rw, false, true, 0x0, 0, 0x0, 0x10000⟩,
  ⟨0x2400, 24, 0x05, 1, 32, false, .rw, false, false, 0x0, 0, 0x0, 0xFFFFFFFF⟩,
  ⟨0x2400, 24, 0x06, 1, 32, false, .rw, false, false, 0x0, 0, 0x0, 0xFFFFFFFF⟩,
  ⟨0x2400, 24, 0x07, 1, 8, false, .rw, false, false, 0x0, 0, 0x0, 0x1⟩,
  ⟨0x2400, 24, 0x08, 1, 8, false, .rw, false, false, 0x0, 0, 0x0, 0x1⟩,
  ⟨0x2400, 24, 0x09, 1, 8, false, .rw, false, false, 0x0, 0, 0x0, 0x1⟩,
  ⟨0x2400, 24, 0x0A, 1, 8, false, .rw, false, false, 0x2, 0, 0x0, 0x2⟩,
  ⟨0x2400, 24, 0x0B, 1, 8, false, .rw, false, false, 0x2, 0, 0x0, 0x2⟩,
  ⟨0x2400, 24, 0x0C, 1, 8, false, .rw, false, false, 0x0, 0, 0x0, 0x1⟩,
  ⟨0x2400, 24, 0x0D, 1, 16, false, .rw, false, false, 0x1, 0, 0x1, 0x100⟩,
  ⟨0x2400, 24, 0x0E, 1, 8, false, .rw, false, false, 0x0, 0, 0x0, 0x1⟩,
  ⟨0x2418, 1, 0x01, 1, 8, false, .rw, false, false, 0x1, 0, 0x0, 0x1⟩,
  ⟨0x2418, 1, 0x02, 1, 8, false, .wo, false, false, 0x0, 0, 0x1, 0x2⟩,
  ⟨0x2418, 1, 0x03, 1, 16, false, .rw, false, false, 0x3E8, 0, 0x0, 0x2710⟩,
  ⟨0x2418, 1, 0x04, 1, 8, false, .wo, false, false, 0x0, 0, 0x0, 0xFF⟩,
  ⟨0x2420, 16, 0x01, 1, 8, false, .rw, false, false, 0x1, 0, 0x0, 0x1⟩,
  ⟨0x2420, 16, 0x02, 1, 8, false, .rw, false, false, 0x0, 0, 0x0, 0x1⟩,
  ⟨0x2420, 16, 0x03, 1, 8, false, .rw, false, false, 0x0, 0, 0x0, 0x1⟩,
  ⟨0x2420, 16, 0x04, 1, 8, false, .rw, false, false, 0x10, 0, 0x1, 0xFF⟩,
  ⟨0x2420, 16, 0x05, 1, 16, false, .rw, false, false, 0xFFFF, 0, 0x0, 0xFFFF⟩,
  ⟨0x2420, 16, 0x06, 1, 16, false, .rw, false, false, 0xFA0, 0, 0x1, 0xFFFF⟩,
  ⟨0x2420, 16, 0x07, 1, 32, false, .rw, false, false, 0xFFFFFF, 0, 0x0, 0xFFFFFF⟩,
  ⟨0x2420, 16, 0x08, 1, 8, false, .wo, false, false, 0x0, 0, 0x0, 0xFF⟩]

/-- Objects of 0x2500. -/
def objs25 : List ObjRow := [
  ⟨0x2500, 8, 0x01, 1, 8, false, .rw, false, false, 0x0, 0, 0x0, 0x5⟩,
  ⟨0x2500, 8, 0x02, 1, 8, false, .rw, false, false, 0x0, 0, 0x0, 0x1⟩,
  ⟨0x2500, 8, 0x03, 1, 16, false, .rw, false, false, 0x8, 0, 0x1, 0xFFF⟩,
  ⟨0x2500, 8, 0x04, 1, 32, false, .rw, false, false, 0x0, 0, 0x0, 0xFFFFFFFF⟩,
  ⟨0x2500, 8, 0x05, 1, 8, false, .rw, false, false, 0x0, 0, 0x0, 0x2⟩,
  ⟨0x2500, 8, 0x06, 1, 8, false, .rw, false, false, 0x0, 0, 0x0, 0x1⟩,
  ⟨0x2500, 8, 0x07, 1, 8, false, .rw, false, false, 0x0, 0, 0x0, 0x4⟩,
  ⟨0x2500, 8, 0x08, 1, 48, false, .rw, false, false, 0x0, 0, 0x0, 0xFFFFFFFFFFFF⟩,
  ⟨0x2500, 8, 0x09, 1, 8, false, .wo, false, false, 0x0, 0, 0x1, 0x2⟩,
  ⟨0x2500, 8, 0x0A, 1, 48, false, .wo, false, false, 0x0, 0, 0x0, 0xFFFFFFFFFFFF⟩,
  ⟨0x2500, 8, 0x0B, 1, 8, false, .rw, false, true, 0x1, 0, 0x0, 0x3⟩,
  ⟨0x2500, 8, 0x0C, 1, 32, false, .rw, false, true, 0x186A0, 0, 0x3E8, 0x989680⟩,
  ⟨0x2500, 8, 0x0D, 1, 16, false, .rw, false, true, 0x2, 0, 0x1, 0xFFFF⟩,
  ⟨0x2500, 8, 0x0E, 1, 8, false, .rw, false, true, 0x0, 0, 0x0, 0x1⟩,
  ⟨0x2500, 8, 0x0F, 1, 8, false, .rw, false, false, 0x0, 0, 0x0, 0x3⟩,
  ⟨0x2500, 8, 0x10, 1, 8, false, .rw, false, false, 0x4, 0, 0x0, 0xFF⟩,
  ⟨0x2500, 8, 0x11, 1, 8, false, .rw, false, false, 0x0, 0, 0x0, 0x1⟩,
  ⟨0x2500, 8, 0x12, 1, 32, false, .rw, false, false, 0x3E8, 0, 0x64, 0x2710⟩,
  ⟨0x2500, 8, 0x13, 1, 8, false, .rw, false, false, 0x18, 0, 0x8, 0x30⟩,
  ⟨0x2500, 8, 0x14, 1, 8, false, .rw, false, false, 0x0, 0, 0x0, 0x8⟩,
  ⟨0x2500, 8, 0x15, 1, 8, false, .rw, false, false, 0x0, 0, 0x0, 0x10⟩,
  ⟨0x2500, 8, 0x16, 1, 8, false, .rw, false, false, 0x1, 0, 0x0, 0x1⟩,
  ⟨0x2500, 8, 0x17, 1, 32, false, .rw, false, true, 0x0, 0, 0x0, 0xF4240⟩,
  ⟨0x2500, 8, 0x18, 1, 8, false, .rw, false, false, 0x14, 0, 0x1, 0x64⟩,
  ⟨0x2500, 8, 0x19, 1, 8, false, .rw, false, false, 0x0, 0, 0x0, 0x1⟩,
  ⟨0x2500, 8, 0x1A, 1, 8, false, .rw, false, false, 0x3, 0, 0x1, 0xFF⟩,
  ⟨0x2500, 8, 0x1B, 1, 8, false, .rw, false, false, 0xFF, 0, 0x0, 0xFF⟩,
  ⟨0x2500, 8, 0x1C, 1, 8, true, .rw, false, false, 0x1, 0, (-1), 0x1⟩,
  ⟨0x2500, 8, 0x1D, 1, 16, false, .rw, false, false, 0xFFFF, 0, 0x0, 0xFFFF⟩,
  ⟨0x2500, 8, 0x1E, 1, 8, false, .rw, false, false, 0xA, 0, 0x2, 0xE⟩,
  ⟨0x2500, 8, 0x1F, 1, 16, false, .rw, false, false, 0x100, 0, 0x10, 0xFFFF⟩]

/-- Objects of 0x2600. -/
def objs26 : List ObjRow := [
  ⟨0x2600, 4, 0x01, 1, 8, false, .rw, false, false, 0x0, 0, 0x0, 0x1⟩,
  ⟨0x2600, 4, 0x02, 1, 8, false, .rw, false, false, 0xFF, 0, 0x0, 0xFF⟩,
  ⟨0x2600, 4, 0x03, 1, 8, false, .rw, false, false, 0x0, 0, 0x0, 0x1⟩,
  ⟨0x2600, 4, 0x04, 1, 16, false, .rw, false, false, 0x0, 0, 0x0, 0xFFF⟩,
  ⟨0x2600, 4, 0x05, 1, 16, false, .rw, false, false, 0x3C, 0, 0x8, 0x100⟩,
  ⟨0x2600, 4, 0x06, 1, 8, false, .rw, false, false, 0x2, 0, 0x1, 0x2⟩,
  ⟨0x2600, 4, 0x07, 1, 8, false, .rw, false, false, 0x0, 0, 0x0, 0x1⟩,
  ⟨0x2600, 4, 0x08, 1, 8, false, .rw, false, false, 0x0, 0, 0x0, 0x1⟩,
  ⟨0x2600, 4, 0x09, 1, 32, false, .rw, false, false, 0x1400, 0, 0x40, 0x20000⟩,
  ⟨0x2600, 4, 0x0A, 1, 32, false, .rw, false, false, 0x3D090, 0, 0x3E8, 0x989680⟩,
  ⟨0x2610, 1, 0x01, 4, 8, false, .rw, false, false, 0xFF, 0, 0x0, 0xFF⟩]

/-- Objects of 0x2700. -/
def objs27 : List ObjRow := [
  ⟨0x2700, 48, 0x01, 1, 8, false, .rw, false, false, 0x0, 0, 0x0, 0x1⟩,
  ⟨0x2700, 48, 0x02, 1, 8, false, .rw, false, true, 0x0, 0, 0x0, 0x2⟩,
  ⟨0x2700, 48, 0x03, 1, 32, true, .rw, false, true, 0x325AA0, 0, (-2147483648), 0x7FFFFFFF⟩,
  ⟨0x2700, 48, 0x04, 1, 32, true, .rw, false, true, 0x0, 0, (-2147483648), 0x7FFFFFFF⟩,
  ⟨0x2700, 48, 0x05, 1, 32, false, .rw, false, false, 0x0, 0, 0x0, 0xFFFFFF⟩,
  ⟨0x2700, 48, 0x06, 1, 8, false, .rw, false, false, 0x0, 0, 0x0, 0x2⟩,
  ⟨0x2700, 48, 0x07, 1, 32, true, .rw, false, false, 0x0, 0, (-2147483648), 0x7FFFFFFF⟩,
  ⟨0x2700, 48, 0x08, 1, 8, false, .wo, false, false, 0x0, 0, 0x0, 0xFF⟩,
  ⟨0x2730, 4, 0x01, 1, 8, false, .rw, false, false, 0x1, 0, 0x0, 0x1⟩,
  ⟨0x2730, 4, 0x02, 1, 8, false, .rw, false, false, 0x2, 0, 0x2, 0x40⟩,
  ⟨0x2730, 4, 0x03, 1, 8, false, .rw, false, false, 0x0, 0, 0x0, 0x1⟩,
  ⟨0x2740, 4, 0x01, 1, 8, false, .rw, false, false, 0x0, 0, 0x0, 0x1⟩,
  ⟨0x2740, 4, 0x02, 1, 8, false, .rw, false, false, 0x1, 0, 0x1, 0x20⟩,
  ⟨0x2740, 4, 0x03, 1, 8, false, .wo, false, false, 0x0, 0, 0x1, 0x2⟩,
  ⟨0x2740, 4, 0x10, 32, 64, false, .rw, false, false, 0x40001FFFFFFFF, 0, 0x0, 0xFFFFFFFFFFFFFFFF⟩,
  ⟨0x2750, 1, 0x01, 1, 8, false, .rw, false, false, 0x1, 0, 0x0, 0x1⟩,
  ⟨0x2750, 1, 0x02, 1, 8, false, .wo, false, false, 0x0, 0, 0x0, 0xFF⟩,
  ⟨0x2750, 1, 0x03, 1, 8, false, .rw, false, false, 0x1, 0, 0x0, 0x1⟩]

/-- Objects of 0x2800. -/
def objs28 : List ObjRow := [
  ⟨0x2800, 16, 0x01, 1, 8, false, .rw, false, false, 0x0, 0, 0x0, 0xD⟩,
  ⟨0x2800, 16, 0x02, 1, 8, false, .rw, false, true, 0x0, 0, 0x0, 0x1⟩,
  ⟨0x2800, 16, 0x03, 1, 32, false, .rw, false, true, 0x0, 0, 0x0, 0xFFFFFFFF⟩,
  ⟨0x2800, 16, 0x04, 1, 32, false, .rw, false, false, 0x1, 0, 0x1, 0xFFFFFFFF⟩,
  ⟨0x2800, 16, 0x05, 1, 8, false, .rw, false, false, 0x0, 0, 0x0, 0x1⟩,
  ⟨0x2800, 16, 0x06, 1, 8, false, .rw, false, false, 0x2, 0, 0x0, 0x2⟩,
  ⟨0x2800, 16, 0x07, 1, 8, false, .wo, false, false, 0x0, 0, 0x0, 0xFF⟩,
  ⟨0x2810, 1, 0x01, 1, 0, false, .rw, false, false, 0x0, 0, 0x0, 0x0⟩,
  ⟨0x2810, 1, 0x02, 1, 32, false, .rw, false, false, 0x0, 0, 0x0, 0xFFFFFFFF⟩,
  ⟨0x2810, 1, 0x03, 1, 16, false, .ro, false, false, 0xFFFF, 0, 0x0, 0xFFFF⟩,
  ⟨0x2811, 1, 0x01, 1, 0, false, .wo, false, false, 0x0, 0, 0x0, 0x0⟩,
  ⟨0x2811, 1, 0x02, 1, 0, false, .ro, false, false, 0x0, 0, 0x0, 0x0⟩,
  ⟨0x2811, 1, 0x03, 1, 16, false, .wo, false, false, 0x0, 0, 0x0, 0xFFFF⟩,
  ⟨0x2811, 1, 0x04, 1, 8, false, .ro, false, false, 0x0, 0, 0x0, 0xFF⟩]

/-- Objects of 0x2900. -/
def objs29 : List ObjRow := [
  ⟨0x2900, 16, 0x01, 1, 8, false, .rw, false, false, 0x0, 0, 0x0, 0x1⟩,
  ⟨0x2900, 16, 0x02, 1, 8, false, .rw, false, false, 0x0, 2, 0x0, 0x1F⟩,
  ⟨0x2900, 16, 0x03, 1, 8, false, .rw, false, false, 0x2, 0, 0x1, 0x8⟩,
  ⟨0x2900, 16, 0x04, 1, 32, false, .rw, false, false, 0x400, 0, 0x400, 0xFFFFFF⟩,
  ⟨0x2900, 16, 0x05, 1, 8, false, .rw, false, false, 0x20, 0, 0x1, 0x20⟩,
  ⟨0x2900, 16, 0x06, 1, 8, false, .rw, false, false, 0x0, 0, 0x0, 0x1⟩,
  ⟨0x2900, 16, 0x07, 1, 8, false, .rw, false, false, 0x0, 0, 0x0, 0xFF⟩,
  ⟨0x2900, 16, 0x08, 1, 8, false, .rw, false, false, 0x0, 0, 0x0, 0xFF⟩,
  ⟨0x2900, 16, 0x09, 1, 16, false, .rw, false, false, 0x5555, 0, 0x0, 0xFFFF⟩,
  ⟨0x2900, 16, 0x0A, 1, 8, false, .rw, false, false, 0x0, 0, 0x0, 0xFF⟩,
  ⟨0x2900, 16, 0x0B, 1, 8, false, .rw, false, false, 0x0, 0, 0x0, 0xFF⟩,
  ⟨0x2900, 16, 0x0C, 1, 8, false, .rw, false, false, 0x0, 0, 0x0, 0xFF⟩,
  ⟨0x2900, 16, 0x0D, 1, 0, false, .rw, false, false, 0x0, 0, 0x0, 0x0⟩,
  ⟨0x2900, 16, 0x0E, 1, 8, false, .rw, false, false, 0x0, 0, 0x0, 0x1⟩,
  ⟨0x2900, 16, 0x0F, 1, 16, false, .wo, false, false, 0x0, 0, 0x0, 0xFFFF⟩]

/-- Objects of 0x2A00. -/
def objs2A : List ObjRow := [
  ⟨0x2A00, 32, 0x01, 1, 8, false, .rw, false, false, 0xFE, 0, 0x0, 0xFF⟩,
  ⟨0x2A00, 32, 0x02, 1, 8, false, .rw, false, false, 0x0, 0, 0x0, 0x3⟩,
  ⟨0x2A00, 32, 0x03, 1, 0, false, .rw, false, false, 0x0, 0, 0x0, 0x0⟩,
  ⟨0x2A00, 32, 0x04, 1, 8, false, .rw, false, false, 0x0, 0, 0x0, 0x1⟩,
  ⟨0x2A00, 32, 0x05, 1, 8, false, .wo, false, false, 0x0, 0, 0x1, 0x4⟩,
  ⟨0x2A20, 1, 0x01, 28, 16, false, .rw, false, false, 0xFFFF, 0, 0x0, 0xFFFF⟩,
  ⟨0x2A21, 1, 0x01, 1, 0, false, .wo, false, false, 0x0, 0, 0x0, 0x0⟩,
  ⟨0x2A40, 1, 0x01, 1, 8, false, .rw, false, false, 0x1, 0, 0x0, 0x1⟩,
  ⟨0x2A40, 1, 0x02, 1, 40, false, .rw, false, false, 0x120000000, 0, 0x0, 0xFFFFFFFFFF⟩,
  ⟨0x2A40, 1, 0x03, 1, 16, false, .rw, false, false, 0x0, 0, 0x0, 0xE00⟩,
  ⟨0x2A40, 1, 0x04, 1, 8, false, .rw, false, false, 0x0, 0, 0x0, 0x1⟩,
  ⟨0x2A40, 1, 0x05, 1, 32, false, .wo, false, false, 0x0, 0, 0x0, 0xFFFFFFFF⟩]

/-- Objects of 0x2B00. -/
def objs2B : List ObjRow := [
  ⟨0x2B00, 40, 0x01, 1, 64, false, .rw, false, false, 0x0, 0, 0x0, 0xFFFFFFFFFFFFFFFF⟩,
  ⟨0x2B00, 40, 0x02, 1, 8, false, .rw, false, false, 0x8, 0, 0x0, 0xF⟩,
  ⟨0x2B00, 40, 0x03, 1, 8, false, .rw, false, false, 0xFF, 0, 0x0, 0xFF⟩,
  ⟨0x2B00, 40, 0x04, 1, 16, false, .rw, false, false, 0x0, 0, 0x0, 0xFFFF⟩,
  ⟨0x2B00, 40, 0x05, 1, 16, false, .rw, false, false, 0x0, 0, 0x0, 0xFFFF⟩]

/-- Objects of 0x2C00. -/
def objs2C : List ObjRow := [
  ⟨0x2C00, 64, 0x01, 1, 8, false, .rw, false, false, 0x0, 0, 0x0, 0x4⟩,
  ⟨0x2C00, 64, 0x02, 1, 8, false, .rw, false, false, 0x0, 0, 0x0, 0x17⟩,
  ⟨0x2C00, 64, 0x03, 1, 8, false, .wo, false, false, 0x0, 0, 0x1, 0x3⟩,
  ⟨0x2C00, 64, 0x04, 1, 32, false, .wo, false, false, 0x0, 0, 0x0, 0xFFFFFFFF⟩,
  ⟨0x2C00, 64, 0x05, 1, 32, false, .wo, false, false, 0x0, 0, 0x0, 0xFFFFFFFF⟩,
  ⟨0x2C00, 64, 0x06, 1, 0, false, .ro, false, false, 0x0, 0, 0x0, 0x0⟩,
  ⟨0x2C80, 1, 0x01, 1, 32, false, .rw, false, false, 0x0, 0, 0x0, 0x989680⟩,
  ⟨0x2C80, 1, 0x02, 1, 8, false, .rw, false, false, 0x1, 0, 0x0, 0x1⟩,
  ⟨0x2C80, 1, 0x03, 1, 8, false, .wo, false, false, 0x0, 0, 0x1, 0x3⟩]

/-- Objects of 0x2D00. -/
def objs2D : List ObjRow := [
  ⟨0x2D00, 192, 0x01, 1, 8, false, .rw, false, false, 0x0, 0, 0x0, 0x2⟩,
  ⟨0x2D00, 192, 0x02, 1, 16, false, .rw, false, false, 0xFFFF, 0, 0x0, 0xFFFF⟩,
  ⟨0x2D00, 192, 0x03, 1, 8, false, .rw, false, false, 0x0, 0, 0x0, 0x2⟩,
  ⟨0x2D00, 192, 0x04, 1, 8, false, .rw, false, false, 0x1, 0, 0x0, 0x2⟩]

/-- Objects of 0x2E00. -/
def objs2E : List ObjRow := [
  ⟨0x2E00, 1, 0x01, 1, 0, false, .wo, false, false, 0x0, 0, 0x0, 0x0⟩,
  ⟨0x2E00, 1, 0x02, 1, 8, false, .rw, false, false, 0x0, 0, 0x0, 0xC⟩,
  ⟨0x2E00, 1, 0x03, 1, 16, false, .wo, false, false, 0x0, 0, 0x0, 0xFFFF⟩,
  ⟨0x2E00, 1, 0x04, 1, 8, false, .rw, false, false, 0x0, 0, 0x0, 0xC⟩,
  ⟨0x2E00, 1, 0x05, 1, 8, false, .wo, false, false, 0x0, 0, 0x1, 0x1⟩,
  ⟨0x2E00, 1, 0x11, 12, 0, false, .rw, false, false, 0x0, 0, 0x0, 0x0⟩,
  ⟨0x2E00, 1, 0x20, 1, 32, false, .rw, false, false, 0x0, 0, 0x0, 0x97FF8⟩,
  ⟨0x2E00, 1, 0x21, 1, 0, false, .rw, false, false, 0x0, 0, 0x0, 0x0⟩]

/-- Objects of 0x2F00. -/
def objs2F : List ObjRow := [
  ⟨0x2F00, 1, 0x01, 1, 8, false, .rw, false, false, 0x0, 0, 0x0, 0x1⟩]

/-- Objects of 0x3000. -/
def objs30 : List ObjRow := [
  ⟨0x3000, 1, 0x01, 1, 64, false, .ro, false, false, 0x0, 0, 0x0, 0xFFFFFFFFFFFFFFFF⟩,
  ⟨0x3000, 1, 0x02, 1, 64, false, .ro, false, false, 0x0, 0, 0x0, 0xFFFFFFFFFFFFFFFF⟩,
  ⟨0x3000, 1, 0x03, 1, 8, false, .ro, false, false, 0x1, 0, 0x0, 0xFF⟩,
  ⟨0x3000, 1, 0x04, 1, 16, false, .rw, false, false, 0x400, 0, 0x0, 0xFFFF⟩,
  ⟨0x3000, 1, 0x05, 1, 64, true, .ro, false, false, 0x0, 0, (-9223372036854775808), 0x7FFFFFFFFFFFFFFF⟩,
  ⟨0x3000, 1, 0x06, 1, 32, true, .ro, false, false, 0x0, 0, (-2147483648), 0x7FFFFFFF⟩,
  ⟨0x3000, 1, 0x07, 1, 32, false, .ro, false, false, 0x0, 0, 0x0, 0xFFFFFFFF⟩,
  ⟨0x3000, 1, 0x08, 1, 8, false, .ro, false, false, 0x0, 0, 0x0, 0xFF⟩,
  ⟨0x3000, 1, 0x09, 1, 8, false, .ro, false, false, 0x0, 0, 0x0, 0xFF⟩,
  ⟨0x3000, 1, 0x0A, 1, 8, false, .ro, false, false, 0x0, 0, 0x0, 0xFF⟩,
  ⟨0x3000, 1, 0x0B, 1, 8, false, .ro, false, false, 0x0, 0, 0x0, 0xFF⟩,
  ⟨0x3000, 1, 0x0C, 1, 64, false, .ro, false, false, 0x0, 0, 0x0, 0xFFFFFFFFFFFFFFFF⟩,
  ⟨0x3000, 1, 0x0D, 1, 32, false, .ro, false, false, 0x0, 0, 0x0, 0xFFFFFFFF⟩,
  ⟨0x3000, 1, 0x0E, 1, 8, false, .ro, false, false, 0x0, 0, 0x0, 0xFF⟩,
  ⟨0x3000, 1, 0x10, 1, 8, false, .rw, false, false, 0x0, 0, 0x0, 0xFF⟩,
  ⟨0x3000, 1, 0x11, 1, 8, false, .ro, false, false, 0xFF, 0, 0x0, 0xFF⟩,
  ⟨0x3000, 1, 0x12, 1, 64, false, .ro, false, false, 0x0, 0, 0x0, 0xFFFFFFFFFFFFFFFF⟩,
  ⟨0x3000, 1, 0x20, 1, 16, false, .rw, false, false, 0x3, 0, 0x0, 0xFFFF⟩,
  ⟨0x3000, 1, 0x21, 1, 16, false, .rw, false, false, 0x3, 0, 0x0, 0xFFFF⟩,
  ⟨0x3000, 1, 0x22, 1, 8, false, .ro, false, false, 0x0, 0, 0x0, 0xFF⟩,
  ⟨0x3000, 1, 0x23, 1, 8, false, .ro, false, false, 0x0, 0, 0x0, 0xFF⟩,
  ⟨0x3000, 1, 0x24, 1, 8, false, .ro, false, false, 0x0, 0, 0x0, 0xFF⟩,
  ⟨0x3000, 1, 0x25, 1, 8, false, .ro, false, false, 0x0, 0, 0x0, 0xFF⟩,
  ⟨0x3000, 1, 0x26, 1, 8, false, .ro, false, false, 0x0, 0, 0x0, 0xFF⟩,
  ⟨0x3000, 1, 0x27, 1, 8, false, .ro, false, false, 0x0, 0, 0x0, 0xFF⟩]

/-- Objects of 0x3100. -/
def objs31 : List ObjRow := [
  ⟨0x3100, 8, 0x01, 1, 8, false, .ro, false, false, 0x0, 0, 0x0, 0xFF⟩,
  ⟨0x3100, 8, 0x02, 1, 8, false, .ro, false, false, 0x0, 0, 0x0, 0xFF⟩,
  ⟨0x3100, 8, 0x03, 1, 8, false, .rw, false, false, 0x0, 0, 0x0, 0xFF⟩,
  ⟨0x3100, 8, 0x04, 1, 8, false, .ro, false, false, 0x0, 0, 0x0, 0xFF⟩,
  ⟨0x3100, 8, 0x05, 1, 8, false, .ro, false, false, 0x0, 0, 0x0, 0xFF⟩,
  ⟨0x3100, 8, 0x06, 1, 8, false, .ro, false, false, 0x0, 0, 0x0, 0xFF⟩,
  ⟨0x3100, 8, 0x07, 1, 8, false, .ro, false, false, 0x0, 0, 0x0, 0xFF⟩,
  ⟨0x3100, 8, 0x08, 1, 8, false, .ro, false, false, 0x0, 0, 0x0, 0xFF⟩,
  ⟨0x3100, 8, 0x09, 1, 16, false, .ro, false, false, 0x0, 0, 0x0, 0xFFFF⟩]

/-- Objects of 0x3200. -/
def objs32 : List ObjRow := [
  ⟨0x3200, 512, 0x01, 1, 16, false, .rw, false, false, 0x0, 0, 0x0, 0xFFFF⟩,
  ⟨0x3200, 512, 0x02, 1, 8, false, .rw, false, false, 0x0, 0, 0x0, 0xFF⟩,
  ⟨0x3200, 512, 0x03, 4, 48, false, .ro, false, false, 0x0, 0, 0x0, 0xFFFFFFFFFFFF⟩,
  ⟨0x3200, 512, 0x07, 1, 64, false, .ro, false, false, 0x0, 0, 0x0, 0xFFFFFFFFFFFFFFFF⟩,
  ⟨0x3200, 512, 0x08, 1, 16, false, .ro, false, false, 0x0, 0, 0x0, 0xFFFF⟩,
  ⟨0x3200, 512, 0x09, 1, 8, false, .ro, false, false, 0x0, 0, 0x0, 0xFF⟩,
  ⟨0x3200, 512, 0x0A, 1, 8, false, .ro, false, false, 0x0, 0, 0x0, 0xFF⟩,
  ⟨0x3200, 512, 0x0B, 1, 8, false, .ro, false, false, 0x0, 0, 0x0, 0xFF⟩,
  ⟨0x3200, 512, 0x0C, 1, 8, false, .ro, false, false, 0x0, 0, 0x0, 0xFF⟩,
  ⟨0x3200, 512, 0x10, 16, 64, false, .ro, false, false, 0x0, 0, 0x0, 0xFFFFFFFFFFFFFFFF⟩]

/-- Objects of 0x3400. -/
def objs34 : List ObjRow := [
  ⟨0x3400, 24, 0x01, 1, 8, false, .ro, false, false, 0x0, 0, 0x0, 0xFF⟩,
  ⟨0x3400, 24, 0x02, 1, 16, false, .rw, false, false, 0x0, 0, 0x0, 0xFFFF⟩,
  ⟨0x3400, 24, 0x03, 1, 64, false, .ro, false, false, 0x0, 0, 0x0, 0xFFFFFFFFFFFFFFFF⟩,
  ⟨0x3400, 24, 0x04, 1, 32, false, .ro, false, false, 0x0, 0, 0x0, 0xFFFFFFFF⟩,
  ⟨0x3400, 24, 0x05, 1, 32, false, .ro, false, false, 0x0, 0, 0x0, 0xFFFFFFFF⟩,
  ⟨0x3400, 24, 0x06, 1, 16, false, .ro, false, false, 0x0, 0, 0x0, 0xFFFF⟩,
  ⟨0x3400, 24, 0x07, 1, 8, false, .ro, false, false, 0x0, 0, 0x0, 0xFF⟩,
  ⟨0x3400, 24, 0x08, 1, 8, false, .ro, false, false, 0x0, 0, 0x0, 0xFF⟩,
  ⟨0x3400, 24, 0x09, 1, 8, false, .ro, false, false, 0x0, 0, 0x0, 0xFF⟩,
  ⟨0x3400, 24, 0x0A, 1, 64, false, .ro, false, false, 0x0, 0, 0x0, 0xFFFFFFFFFFFFFFFF⟩,
  ⟨0x3418, 1, 0x01, 1, 8, false, .ro, false, false, 0x0, 0, 0x0, 0xFF⟩,
  ⟨0x3418, 1, 0x02, 1, 16, false, .rw, false, false, 0x0, 0, 0x0, 0xFFFF⟩,
  ⟨0x3418, 1, 0x03, 1, 8, false, .ro, false, false, 0x0, 0, 0x0, 0xFF⟩,
  ⟨0x3418, 1, 0x04, 1, 8, false, .ro, false, false, 0x0, 0, 0x0, 0xFF⟩,
  ⟨0x3418, 1, 0x05, 1, 64, false, .ro, false, false, 0x0, 0, 0x0, 0xFFFFFFFFFFFFFFFF⟩,
  ⟨0x3418, 1, 0x06, 1, 64, false, .ro, false, false, 0x0, 0, 0x0, 0xFFFFFFFFFFFFFFFF⟩,
  ⟨0x3420, 16, 0x01, 1, 8, false, .rw, false, false, 0x0, 0, 0x0, 0xFF⟩,
  ⟨0x3420, 16, 0x02, 1, 8, false, .ro, false, false, 0x0, 0, 0x0, 0xFF⟩,
  ⟨0x3420, 16, 0x03, 1, 8, false, .ro, false, false, 0x0, 0, 0x0, 0xFF⟩,
  ⟨0x3420, 16, 0x04, 1, 64, false, .ro, false, false, 0x0, 0, 0x0, 0xFFFFFFFFFFFFFFFF⟩]

/-- Objects of 0x3500. -/
def objs35 : List ObjRow := [
  ⟨0x3500, 8, 0x01, 1, 8, false, .ro, false, false, 0x0, 0, 0x0, 0xFF⟩,
  ⟨0x3500, 8, 0x02, 1, 32, false, .rw, false, false, 0x0, 0, 0x0, 0xFFFFFFFF⟩,
  ⟨0x3500, 8, 0x03, 1, 48, false, .ro, false, false, 0x0, 0, 0x0, 0xFFFFFFFFFFFF⟩,
  ⟨0x3500, 8, 0x04, 1, 64, false, .ro, false, false, 0x0, 0, 0x0, 0xFFFFFFFFFFFFFFFF⟩,
  ⟨0x3500, 8, 0x05, 1, 64, true, .ro, false, false, 0x0, 0, (-9223372036854775808), 0x7FFFFFFFFFFFFFFF⟩,
  ⟨0x3500, 8, 0x06, 1, 32, true, .ro, false, false, 0x0, 0, (-2147483648), 0x7FFFFFFF⟩,
  ⟨0x3500, 8, 0x07, 1, 64, true, .ro, false, false, 0x0, 0, (-9223372036854775808), 0x7FFFFFFFFFFFFFFF⟩,
  ⟨0x3500, 8, 0x08, 1, 64, false, .ro, false, false, 0x0, 0, 0x0, 0xFFFFFFFFFFFFFFFF⟩,
  ⟨0x3500, 8, 0x09, 1, 48, false, .ro, false, false, 0x0, 0, 0x0, 0xFFFFFFFFFFFF⟩,
  ⟨0x3500, 8, 0x0A, 1, 64, false, .ro, false, false, 0x0, 0, 0x0, 0xFFFFFFFFFFFFFFFF⟩,
  ⟨0x3500, 8, 0x0B, 1, 64, false, .ro, false, false, 0x0, 0, 0x0, 0xFFFFFFFFFFFFFFFF⟩,
  ⟨0x3500, 8, 0x0C, 1, 64, false, .ro, false, false, 0x0, 0, 0x0, 0xFFFFFFFFFFFFFFFF⟩,
  ⟨0x3500, 8, 0x0D, 1, 64, false, .ro, false, false, 0x0, 0, 0x0, 0xFFFFFFFFFFFFFFFF⟩,
  ⟨0x3500, 8, 0x0E, 1, 64, false, .ro, false, false, 0x0, 0, 0x0, 0xFFFFFFFFFFFFFFFF⟩,
  ⟨0x3500, 8, 0x0F, 1, 8, false, .ro, false, false, 0xFF, 0, 0x0, 0xFF⟩,
  ⟨0x3500, 8, 0x10, 1, 16, false, .ro, false, false, 0x0, 0, 0x0, 0xFFFF⟩,
  ⟨0x3500, 8, 0x11, 1, 8, false, .ro, false, false, 0x0, 0, 0x0, 0xFF⟩,
  ⟨0x3500, 8, 0x12, 1, 8, false, .ro, false, false, 0x0, 0, 0x0, 0xFF⟩,
  ⟨0x3500, 8, 0x13, 1, 8, false, .ro, false, false, 0x0, 0, 0x0, 0xFF⟩,
  ⟨0x3500, 8, 0x14, 1, 8, false, .ro, false, false, 0x0, 0, 0x0, 0xFF⟩,
  ⟨0x3500, 8, 0x15, 1, 8, false, .ro, false, false, 0x0, 0, 0x0, 0xFF⟩,
  ⟨0x3500, 8, 0x16, 1, 8, false, .ro, false, false, 0x0, 0, 0x0, 0xFF⟩,
  ⟨0x3500, 8, 0x17, 1, 32, false, .ro, false, false, 0x0, 0, 0x0, 0xFFFFFFFF⟩]

/-- Objects of 0x3600. -/
def objs36 : List ObjRow := [
  ⟨0x3600, 4, 0x01, 1, 8, false, .ro, false, false, 0x0, 0, 0x0, 0xFF⟩,
  ⟨0x3600, 4, 0x02, 1, 16, false, .rw, false, false, 0x0, 0, 0x0, 0xFFFF⟩,
  ⟨0x3600, 4, 0x03, 1, 32, false, .ro, false, false, 0x0, 0, 0x0, 0xFFFFFFFF⟩,
  ⟨0x3600, 4, 0x04, 1, 32, false, .ro, false, false, 0x0, 0, 0x0, 0xFFFFFFFF⟩,
  ⟨0x3600, 4, 0x05, 1, 32, false, .ro, false, false, 0xF000, 0, 0x0, 0xFFFFFFFF⟩,
  ⟨0x3600, 4, 0x06, 1, 32, false, .ro, false, false, 0x0, 0, 0x0, 0xFFFFFFFF⟩,
  ⟨0x3600, 4, 0x07, 1, 32, false, .ro, false, false, 0x0, 0, 0x0, 0xFFFFFFFF⟩,
  ⟨0x3600, 4, 0x08, 1, 32, false, .ro, false, false, 0x0, 0, 0x0, 0xFFFFFFFF⟩,
  ⟨0x3600, 4, 0x09, 1, 16, false, .ro, false, false, 0x0, 0, 0x0, 0xFFFF⟩,
  ⟨0x3600, 4, 0x0A, 1, 48, false, .ro, false, false, 0x0, 0, 0x0, 0xFFFFFFFFFFFF⟩,
  ⟨0x3600, 4, 0x0B, 1, 8, false, .ro, false, false, 0x0, 0, 0x0, 0xFF⟩,
  ⟨0x3600, 4, 0x0C, 1, 8, false, .ro, false, false, 0x0, 0, 0x0, 0xFF⟩,
  ⟨0x3600, 4, 0x0D, 1, 8, false, .ro, false, false, 0x0, 0, 0x0, 0xFF⟩,
  ⟨0x3600, 4, 0x0E, 1, 8, false, .ro, false, false, 0x0, 0, 0x0, 0xFF⟩,
  ⟨0x3600, 4, 0x0F, 1, 8, false, .ro, false, false, 0x0, 0, 0x0, 0xFF⟩,
  ⟨0x3610, 1, 0x01, 4, 32, false, .ro, false, false, 0x0, 0, 0x0, 0xFFFFFFFF⟩,
  ⟨0x3610, 1, 0x11, 4, 64, false, .ro, false, false, 0x0, 0, 0x0, 0xFFFFFFFFFFFFFFFF⟩]

/-- Objects of 0x3700. -/
def objs37 : List ObjRow := [
  ⟨0x3700, 48, 0x01, 1, 8, false, .rw, false, false, 0x0, 0, 0x0, 0xFF⟩,
  ⟨0x3700, 48, 0x02, 1, 8, false, .ro, false, false, 0x0, 0, 0x0, 0xFF⟩,
  ⟨0x3700, 48, 0x03, 1, 8, false, .ro, false, false, 0x0, 0, 0x0, 0xFF⟩,
  ⟨0x3700, 48, 0x04, 1, 8, false, .ro, false, false, 0x0, 0, 0x0, 0xFF⟩,
  ⟨0x3700, 48, 0x05, 1, 64, false, .ro, false, false, 0x0, 0, 0x0, 0xFFFFFFFFFFFFFFFF⟩,
  ⟨0x3730, 4, 0x01, 1, 8, false, .rw, false, false, 0x4, 0, 0x0, 0xFF⟩,
  ⟨0x3730, 4, 0x02, 1, 8, false, .ro, false, false, 0x0, 0, 0x0, 0xFF⟩,
  ⟨0x3730, 4, 0x03, 1, 8, false, .ro, false, false, 0x0, 0, 0x0, 0xFF⟩,
  ⟨0x3740, 4, 0x01, 1, 8, false, .rw, false, false, 0x0, 0, 0x0, 0xFF⟩,
  ⟨0x3740, 4, 0x02, 1, 32, false, .ro, false, false, 0x0, 0, 0x0, 0xFFFFFFFF⟩,
  ⟨0x3740, 4, 0x03, 1, 8, false, .ro, false, false, 0x0, 0, 0x0, 0xFF⟩,
  ⟨0x3740, 4, 0x04, 1, 8, false, .ro, false, false, 0x0, 0, 0x0, 0xFF⟩,
  ⟨0x3740, 4, 0x05, 1, 64, false, .ro, false, false, 0x0, 0, 0x0, 0xFFFFFFFFFFFFFFFF⟩,
  ⟨0x3740, 4, 0x40, 128, 32, false, .ro, false, false, 0x8000000, 0, 0x0, 0xFFFFFFFF⟩,
  ⟨0x3750, 1, 0x01, 1, 8, false, .rw, false, false, 0x0, 0, 0x0, 0xFF⟩,
  ⟨0x3750, 1, 0x02, 1, 16, true, .ro, false, false, 0x0, 0, (-32768), 0x7FFF⟩]

/-- Objects of 0x3800. -/
def objs38 : List ObjRow := [
  ⟨0x3800, 16, 0x01, 1, 16, false, .rw, false, false, 0x0, 0, 0x0, 0xFFFF⟩,
  ⟨0x3800, 16, 0x02, 1, 16, false, .ro, false, false, 0x0, 0, 0x0, 0xFFFF⟩,
  ⟨0x3800, 16, 0x03, 1, 16, false, .ro, false, false, 0x0, 0, 0x0, 0xFFFF⟩,
  ⟨0x3800, 16, 0x04, 1, 48, false, .ro, false, false, 0x0, 0, 0x0, 0xFFFFFFFFFFFF⟩,
  ⟨0x3800, 16, 0x05, 1, 32, false, .ro, false, false, 0x0, 0, 0x0, 0xFFFFFFFF⟩,
  ⟨0x3800, 16, 0x06, 1, 8, false, .ro, false, false, 0x0, 0, 0x0, 0xFF⟩,
  ⟨0x3800, 16, 0x07, 1, 8, false, .ro, false, false, 0x0, 0, 0x0, 0xFF⟩,
  ⟨0x3800, 16, 0x08, 1, 8, false, .ro, false, false, 0x0, 0, 0x0, 0xFF⟩,
  ⟨0x3800, 16, 0x09, 1, 32, false, .ro, false, false, 0x0, 0, 0x0, 0xFFFFFFFF⟩,
  ⟨0x3800, 16, 0x0A, 1, 8, false, .ro, false, false, 0x0, 0, 0x0, 0xFF⟩,
  ⟨0x3810, 1, 0x01, 1, 16, false, .ro, false, false, 0x1000, 0, 0x0, 0xFFFF⟩,
  ⟨0x3810, 1, 0x02, 1, 8, false, .rw, false, false, 0x0, 0, 0x0, 0xFF⟩,
  ⟨0x3810, 1, 0x03, 1, 8, false, .ro, false, false, 0x0, 0, 0x0, 0xFF⟩,
  ⟨0x3810, 1, 0x04, 1, 8, false, .ro, false, false, 0x0, 0, 0x0, 0xFF⟩]

/-- Objects of 0x3900. -/
def objs39 : List ObjRow := [
  ⟨0x3900, 16, 0x01, 1, 8, false, .ro, false, false, 0x0, 0, 0x0, 0xFF⟩,
  ⟨0x3900, 16, 0x02, 1, 32, false, .rw, false, false, 0x0, 0, 0x0, 0xFFFFFFFF⟩,
  ⟨0x3900, 16, 0x03, 1, 8, false, .ro, false, false, 0x0, 0, 0x0, 0xFF⟩,
  ⟨0x3900, 16, 0x04, 1, 8, false, .ro, false, false, 0x0, 0, 0x0, 0xFF⟩,
  ⟨0x3900, 16, 0x05, 1, 8, false, .ro, false, false, 0x0, 0, 0x0, 0xFF⟩,
  ⟨0x3900, 16, 0x06, 1, 8, false, .ro, false, false, 0x0, 0, 0x0, 0xFF⟩,
  ⟨0x3900, 16, 0x07, 1, 8, false, .ro, false, false, 0x0, 0, 0x0, 0xFF⟩,
  ⟨0x3900, 16, 0x08, 1, 8, false, .ro, false, false, 0x0, 0, 0x0, 0xFF⟩,
  ⟨0x3900, 16, 0x09, 1, 8, false, .ro, false, false, 0x0, 0, 0x0, 0xFF⟩]

/-- Objects of 0x3A00. -/
def objs3A : List ObjRow := [
  ⟨0x3A00, 32, 0x01, 1, 8, false, .ro, false, false, 0x0, 0, 0x0, 0xFF⟩,
  ⟨0x3A00, 32, 0x02, 1, 8, false, .rw, false, false, 0x0, 0, 0x0, 0xFF⟩,
  ⟨0x3A00, 32, 0x03, 1, 32, false, .ro, false, false, 0x0, 0, 0x0, 0xFFFFFFFF⟩,
  ⟨0x3A00, 32, 0x04, 1, 40, false, .ro, false, false, 0x0, 0, 0x0, 0xFFFFFFFFFF⟩,
  ⟨0x3A00, 32, 0x05, 1, 40, false, .ro, false, false, 0x0, 0, 0x0, 0xFFFFFFFFFF⟩,
  ⟨0x3A00, 32, 0x06, 1, 32, false, .ro, false, false, 0x0, 0, 0x0, 0xFFFFFFFF⟩,
  ⟨0x3A00, 32, 0x07, 1, 8, false, .ro, false, false, 0x0, 0, 0x0, 0xFF⟩,
  ⟨0x3A00, 32, 0x08, 1, 8, false, .ro, false, false, 0x0, 0, 0x0, 0xFF⟩,
  ⟨0x3A40, 1, 0x01, 1, 8, false, .rw, false, false, 0x0, 0, 0x0, 0xFF⟩,
  ⟨0x3A40, 1, 0x02, 1, 32, false, .ro, false, false, 0x0, 0, 0x0, 0xFFFFFFFF⟩,
  ⟨0x3A40, 1, 0x03, 1, 32, false, .ro, false, false, 0x0, 0, 0x0, 0xFFFFFFFF⟩,
  ⟨0x3A40, 1, 0x04, 1, 32, false, .ro, false, false, 0x0, 0, 0x0, 0xFFFFFFFF⟩,
  ⟨0x3A40, 1, 0x05, 1, 32, false, .ro, false, false, 0x0, 0, 0x0, 0xFFFFFFFF⟩,
  ⟨0x3A40, 1, 0x06, 1, 32, false, .ro, false, false, 0x0, 0, 0x0, 0xFFFFFFFF⟩,
  ⟨0x3A40, 1, 0x07, 1, 64, false, .ro, false, false, 0x0, 0, 0x0, 0xFFFFFFFFFFFFFFFF⟩,
  ⟨0x3A40, 1, 0x08, 1, 8, false, .ro, false, false, 0x0, 0, 0x0, 0xFF⟩,
  ⟨0x3A40, 1, 0x09, 1, 32, false, .ro, false, false, 0x0, 0, 0x0, 0xFFFFFFFF⟩,
  ⟨0x3A40, 1, 0x10, 1, 0, false, .ro, false, false, 0x0, 0, 0x0, 0x0⟩]

/-- Objects of 0x3B00. -/
def objs3B : List ObjRow := [
  ⟨0x3B00, 40, 0x01, 1, 8, false, .ro, false, false, 0x0, 0, 0x0, 0xFF⟩,
  ⟨0x3B00, 40, 0x02, 1, 64, false, .ro, false, false, 0x0, 0, 0x0, 0xFFFFFFFFFFFFFFFF⟩,
  ⟨0x3B00, 40, 0x03, 1, 8, false, .ro, false, false, 0x0, 0, 0x0, 0xFF⟩,
  ⟨0x3B00, 40, 0x04, 1, 8, false, .rw, false, false, 0x0, 0, 0x0, 0xFF⟩]

/-- Objects of 0x3C00. -/
def objs3C : List ObjRow := [
  ⟨0x3C00, 64, 0x01, 1, 8, false, .ro, false, false, 0x0, 0, 0x0, 0xFF⟩,
  ⟨0x3C00, 64, 0x02, 1, 8, false, .rw, false, false, 0x0, 0, 0x0, 0xFF⟩,
  ⟨0x3C00, 64, 0x03, 1, 8, false, .ro, false, false, 0x0, 0, 0x0, 0xFF⟩,
  ⟨0x3C00, 64, 0x04, 1, 8, false, .ro, false, false, 0x0, 0, 0x0, 0xFF⟩,
  ⟨0x3C00, 64, 0x05, 1, 64, false, .ro, false, false, 0x0, 0, 0x0, 0xFFFFFFFFFFFFFFFF⟩,
  ⟨0x3C00, 64, 0x06, 1, 16, false, .ro, false, false, 0x0, 0, 0x0, 0xFFFF⟩,
  ⟨0x3C00, 64, 0x07, 1, 16, false, .ro, false, false, 0x0, 0, 0x0, 0xFFFF⟩,
  ⟨0x3C80, 1, 0x01, 1, 32, false, .ro, false, false, 0x0, 0, 0x0, 0xFFFFFFFF⟩,
  ⟨0x3C80, 1, 0x02, 1, 64, false, .ro, false, false, 0x0, 0, 0x0, 0xFFFFFFFFFFFFFFFF⟩,
  ⟨0x3C80, 1, 0x03, 1, 8, false, .rw, false, false, 0x0, 0, 0x0, 0xFF⟩,
  ⟨0x3C80, 1, 0x04, 1, 8, false, .ro, false, false, 0x0, 0, 0x0, 0xFF⟩,
  ⟨0x3C80, 1, 0x05, 1, 16, false, .ro, false, false, 0x0, 0, 0x0, 0xFFFF⟩]

/-- Objects of 0x3D00. -/
def objs3D : List ObjRow := [
  ⟨0x3D00, 192, 0x01, 1, 8, false, .rw, false, false, 0x0, 0, 0x0, 0xFF⟩,
  ⟨0x3D00, 192, 0x02, 1, 8, false, .ro, false, false, 0x0, 0, 0x0, 0xFF⟩]

/-- Objects of 0x3E00. -/
def objs3E : List ObjRow := [
  ⟨0x3E00, 1, 0x01, 1, 8, false, .rw, false, false, 0x0, 0, 0x0, 0xFF⟩,
  ⟨0x3E00, 1, 0x02, 1, 8, false, .ro, false, false, 0x0, 0, 0x0, 0xFF⟩,
  ⟨0x3E00, 1, 0x03, 1, 8, false, .ro, false, false, 0x0, 0, 0x0, 0xFF⟩,
  ⟨0x3E00, 1, 0x04, 1, 8, false, .ro, false, false, 0xFF, 0, 0x0, 0xFF⟩,
  ⟨0x3E00, 1, 0x05, 1, 32, false, .ro, false, false, 0x0, 0, 0x0, 0xFFFFFFFF⟩,
  ⟨0x3E00, 1, 0x06, 1, 8, false, .ro, false, false, 0x0, 0, 0x0, 0xFF⟩,
  ⟨0x3E00, 1, 0x07, 1, 8, false, .ro, false, false, 0x0, 0, 0x0, 0xFF⟩,
  ⟨0x3E00, 1, 0x08, 1, 64, false, .ro, false, false, 0x0, 0, 0x0, 0xFFFFFFFFFFFFFFFF⟩,
  ⟨0x3E00, 1, 0x09, 1, 16, false, .ro, false, false, 0x0, 0, 0x0, 0xFFFF⟩]

/-- Objects of 0x3F00. -/
def objs3F : List ObjRow := [
  ⟨0x3F00, 1, 0x01, 8, 16, false, .ro, false, false, 0xFF00, 0, 0x0, 0xFFFF⟩,
  ⟨0x3F00, 1, 0x11, 8, 32, true, .ro, false, false, 0x0, 0, (-2147483648), 0x7FFFFFFF⟩]

/-- Objects of 0x4000. -/
def objs40 : List ObjRow := [
  ⟨0x4000, 1, 0x20, 1, 8, false, .rw, true, false, 0x8, 0, 0x1, 0x40⟩,
  ⟨0x4000, 1, 0x21, 1, 8, false, .rw, true, false, 0x4, 0, 0x0, 0x8⟩,
  ⟨0x4000, 1, 0x22, 1, 32, true, .rw, true, false, 0x0, 0, (-2147483648), 0x7FFFFFFF⟩]

/-- Objects of 0x4100. -/
def objs41 : List ObjRow := [
  ⟨0x4100, 8, 0x20, 1, 16, false, .rw, true, false, 0x80, 0, 0x10, 0x1000⟩,
  ⟨0x4100, 8, 0x21, 1, 8, false, .rw, true, false, 0x0, 0, 0x0, 0x1⟩]

/-- Objects of 0x4200. -/
def objs42 : List ObjRow := [
  ⟨0x4200, 512, 0x10, 16, 64, false, .rw, true, true, 0x0, 0, 0x0, 0xFFFFFFFFFFFFFFFF⟩,
  ⟨0x4200, 512, 0x20, 1, 32, false, .rw, true, false, 0x0, 0, 0x0, 0xFFFFFFFF⟩]

/-- Objects of 0x4400. -/
def objs44 : List ObjRow := [
  ⟨0x4400, 24, 0x20, 1, 32, false, .rw, true, true, 0x4E200, 0, 0x0, 0x3FFFFF⟩,
  ⟨0x4400, 24, 0x21, 1, 32, false, .rw, true, true, 0x0, 0, 0x0, 0x3FFFFF⟩,
  ⟨0x4400, 24, 0x22, 1, 16, false, .rw, true, false, 0x0, 0, 0x0, 0xFFFF⟩,
  ⟨0x4400, 24, 0x23, 1, 32, false, .rw, true, false, 0x0, 0, 0x0, 0x3FFFFF⟩]

/-- Objects of 0x4500. -/
def objs45 : List ObjRow := [
  ⟨0x4500, 8, 0x20, 1, 32, false, .rw, true, true, 0x1EE213A, 0, 0x0, 0xFFFFFFFF⟩,
  ⟨0x4500, 8, 0x21, 1, 32, false, .rw, true, true, 0x2F5FC5, 0, 0x0, 0xFFFFFFFF⟩,
  ⟨0x4500, 8, 0x22, 1, 32, false, .rw, true, true, 0x183941, 0, 0x0, 0xFFFFFFFF⟩,
  ⟨0x4500, 8, 0x23, 1, 16, false, .rw, true, false, 0x3, 0, 0x0, 0xFFFF⟩,
  ⟨0x4500, 8, 0x24, 1, 8, false, .rw, true, false, 0x0, 0, 0x0, 0x1⟩,
  ⟨0x4500, 8, 0x25, 1, 8, false, .rw, true, false, 0x0, 0, 0x0, 0xFF⟩,
  ⟨0x4500, 8, 0x26, 1, 8, false, .rw, true, false, 0x1, 0, 0x0, 0x1⟩,
  ⟨0x4500, 8, 0x27, 1, 16, false, .rw, true, false, 0x0, 0, 0x0, 0xFA0⟩,
  ⟨0x4500, 8, 0x28, 1, 8, false, .rw, true, false, 0x0, 0, 0x0, 0x10⟩,
  ⟨0x4500, 8, 0x29, 1, 16, false, .rw, true, false, 0x4, 0, 0x0, 0xFFFF⟩,
  ⟨0x4500, 8, 0x2A, 1, 16, false, .rw, true, false, 0x4, 0, 0x0, 0xFFFF⟩,
  ⟨0x4500, 8, 0x2B, 1, 32, false, .rw, true, false, 0x40, 0, 0x10, 0x80000000⟩,
  ⟨0x4500, 8, 0x2C, 1, 16, true, .rw, true, false, 0x0, 0, (-32768), 0x7FFF⟩,
  ⟨0x4500, 8, 0x2D, 1, 16, true, .rw, true, false, 0x0, 0, (-32768), 0x7FFF⟩,
  ⟨0x4500, 8, 0x2E, 1, 16, false, .rw, true, false, 0x1365, 0, 0x0, 0xFFFF⟩,
  ⟨0x4500, 8, 0x2F, 1, 16, false, .rw, true, false, 0x1F4, 0, 0x0, 0xFFFF⟩,
  ⟨0x4500, 8, 0x30, 1, 16, false, .rw, true, false, 0x5DC, 0, 0x0, 0xFFFF⟩]

/-- Objects of 0x4600. -/
def objs46 : List ObjRow := [
  ⟨0x4600, 4, 0x20, 1, 16, false, .rw, true, false, 0x15E, 0, 0x0, 0xFFFF⟩,
  ⟨0x4600, 4, 0x21, 1, 16, false, .rw, true, false, 0x2BC, 0, 0x0, 0xFFFF⟩,
  ⟨0x4600, 4, 0x22, 1, 16, false, .rw, true, false, 0x578, 0, 0x0, 0xFFFF⟩,
  ⟨0x4600, 4, 0x23, 1, 16, false, .rw, true, false, 0x640, 0, 0x0, 0xFFFF⟩,
  ⟨0x4600, 4, 0x24, 1, 16, false, .rw, true, false, 0x960, 0, 0x0, 0xFFFF⟩,
  ⟨0x4600, 4, 0x25, 1, 16, false, .rw, true, false, 0x320, 0, 0x0, 0xFFFF⟩,
  ⟨0x4600, 4, 0x26, 1, 16, false, .rw, true, false, 0x4E2, 0, 0x0, 0xFFFF⟩]

/-- Objects of 0x4700. -/
def objs47 : List ObjRow := [
  ⟨0x4700, 48, 0x20, 1, 32, true, .rw, true, true, 0xFFFF, 0, (-2147483648), 0x7FFFFFFF⟩,
  ⟨0x4700, 48, 0x21, 1, 32, true, .rw, true, true, 0x0, 0, (-2147483648), 0x7FFFFFFF⟩]

/-- Objects of 0x5000. -/
def objs50 : List ObjRow := [
  ⟨0x5000, 1, 0x20, 1, 32, true, .ro, true, false, 0x0, 0, (-2147483648), 0x7FFFFFFF⟩,
  ⟨0x5000, 1, 0x21, 1, 32, true, .ro, true, false, 0x0, 0, (-2147483648), 0x7FFFFFFF⟩]

/-- Objects of 0x5100. -/
def objs51 : List ObjRow := [
  ⟨0x5100, 8, 0x20, 1, 8, false, .ro, true, false, 0xFF, 0, 0x0, 0xFF⟩,
  ⟨0x5100, 8, 0x21, 1, 32, false, .ro, true, false, 0x0, 0, 0x0, 0xFFFFFFFF⟩,
  ⟨0x5100, 8, 0x22, 1, 32, false, .ro, true, false, 0x0, 0, 0x0, 0xFFFFFFFF⟩]

/-- Objects of 0x5200. -/
def objs52 : List ObjRow := [
  ⟨0x5200, 512, 0x20, 1, 8, false, .ro, true, false, 0x0, 0, 0x0, 0xFF⟩,
  ⟨0x5200, 512, 0x21, 1, 64, false, .ro, true, false, 0x0, 0, 0x0, 0xFFFFFFFFFFFFFFFF⟩,
  ⟨0x5200, 512, 0x22, 1, 8, false, .ro, true, false, 0x0, 0, 0x0, 0xFF⟩,
  ⟨0x5200, 512, 0x23, 1, 8, false, .ro, true, false, 0x0, 0, 0x0, 0xFF⟩,
  ⟨0x5200, 512, 0x24, 1, 16, false, .ro, true, false, 0x0, 0, 0x0, 0xFFFF⟩,
  ⟨0x5200, 512, 0x25, 1, 16, false, .ro, true, false, 0x800, 0, 0x0, 0xFFFF⟩]

/-- Objects of 0x5400. -/
def objs54 : List ObjRow := [
  ⟨0x5400, 24, 0x20, 1, 8, false, .ro, true, false, 0x0, 0, 0x0, 0xFF⟩,
  ⟨0x5400, 24, 0x21, 1, 8, false, .ro, true, false, 0x0, 0, 0x0, 0xFF⟩]

/-- Objects of 0x5500. -/
def objs55 : List ObjRow := [
  ⟨0x5500, 8, 0x20, 1, 16, false, .ro, true, false, 0x0, 0, 0x0, 0xFFFF⟩,
  ⟨0x5500, 8, 0x21, 1, 32, true, .ro, true, false, 0x0, 0, (-2147483648), 0x7FFFFFFF⟩,
  ⟨0x5500, 8, 0x22, 1, 32, true, .ro, true, false, 0x0, 0, (-2147483648), 0x7FFFFFFF⟩]

/-- Objects of 0x5600. -/
def objs56 : List ObjRow := [
  ⟨0x5610, 1, 0x21, 4, 64, false, .ro, true, false, 0x0, 0, 0x0, 0xFFFFFFFFFFFFFFFF⟩]

/-- Objects of 0x5900. -/
def objs59 : List ObjRow := [
  ⟨0x5900, 16, 0x20, 1, 8, false, .ro, true, false, 0x0, 0, 0x0, 0xFF⟩,
  ⟨0x5900, 16, 0x21, 1, 8, false, .ro, true, false, 0x0, 0, 0x0, 0xFF⟩,
  ⟨0x5900, 16, 0x22, 1, 0, false, .ro, true, false, 0x0, 0, 0x0, 0x0⟩,
  ⟨0x5900, 16, 0x23, 1, 16, false, .ro, true, false, 0x0, 0, 0x0, 0xFFFF⟩]

/-- Objects of 0x5E00. -/
def objs5E : List ObjRow := [
  ⟨0x5E30, 1, 0x01, 1, 32, false, .rw, true, false, 0x0, 0, 0x0, 0x7FFFF⟩,
  ⟨0x5E30, 1, 0x02, 1, 0, false, .ro, true, false, 0x0, 0, 0x0, 0x0⟩,
  ⟨0x5E31, 1, 0x01, 1, 0, false, .wo, true, false, 0x0, 0, 0x0, 0x0⟩,
  ⟨0x5E31, 1, 0x02, 1, 8, false, .wo, true, false, 0x0, 0, 0x1, 0x1⟩,
  ⟨0x5E31, 1, 0x03, 1, 8, false, .ro, true, false, 0x0, 0, 0x0, 0xFF⟩,
  ⟨0x5E31, 1, 0x04, 1, 16, false, .ro, true, false, 0x0, 0, 0x0, 0xFFFF⟩,
  ⟨0x5E31, 1, 0x05, 1, 8, false, .ro, true, false, 0x0, 0, 0x0, 0xFF⟩,
  ⟨0x5E00, 1, 0x01, 1, 8, false, .wo, false, false, 0x0, 0, 0x0, 0xFF⟩,
  ⟨0x5E00, 1, 0x02, 1, 8, false, .ro, false, false, 0x0, 0, 0x0, 0xFF⟩,
  ⟨0x5E01, 1, 0x00, 1, 0, false, .ro, false, false, 0x0, 0, 0x0, 0x0⟩,
  ⟨0x5E40, 1, 0x01, 1, 32, false, .wo, true, false, 0x0, 0, 0x0, 0xFFFFFFFF⟩,
  ⟨0x5E40, 1, 0x02, 1, 16, false, .wo, true, false, 0x0, 0, 0x0, 0xFFFF⟩,
  ⟨0x5E10, 1, 0x02, 1, 32, false, .wo, true, false, 0x0, 0, 0x0, 0xFFFFFFFF⟩,
  ⟨0x5E20, 1, 0x01, 1, 64, false, .wo, false, false, 0x0, 0, 0x0, 0xFFFFFFFFFFFFFFFF⟩,
  ⟨0x5E20, 1, 0x07, 1, 32, false, .wo, true, false, 0x0, 0, 0x0, 0xFFFFFFFF⟩,
  ⟨0x5E40, 1, 0x10, 1, 16, false, .ro, false, false, 0x0, 0, 0x0, 0xFFFF⟩,
  ⟨0x5E40, 1, 0x11, 1, 32, false, .rw, false, false, 0x0, 0, 0x0, 0xFFFFFFFF⟩,
  ⟨0x5E40, 1, 0x12, 1, 32, false, .ro, false, false, 0x0, 0, 0x0, 0xFFFFFFFF⟩,
  ⟨0x5E40, 1, 0x13, 1, 8, false, .ro, false, false, 0x0, 0, 0x0, 0xFF⟩,
  ⟨0x5E40, 1, 0x14, 1, 16, false, .rw, false, false, 0x0, 0, 0x0, 0xFFFF⟩,
  ⟨0x5E40, 1, 0x15, 1, 64, false, .ro, false, false, 0x0, 0, 0x0, 0xFFFFFFFFFFFFFFFF⟩,
  ⟨0x5E40, 1, 0x16, 1, 16, false, .ro, false, false, 0xFFFF, 0, 0x0, 0xFFFF⟩,
  ⟨0x5E40, 1, 0x17, 1, 8, false, .ro, false, false, 0x0, 0, 0x0, 0xFF⟩,
  ⟨0x5E40, 1, 0x18, 1, 8, false, .ro, false, false, 0x0, 0, 0x0, 0xFF⟩,
  ⟨0x5E40, 1, 0x19, 1, 8, false, .ro, false, false, 0x0, 0, 0x0, 0xFF⟩,
  ⟨0x5E40, 1, 0x1A, 1, 16, true, .ro, false, false, 0x0, 0, (-32768), 0x7FFF⟩,
  ⟨0x5E10, 1, 0x01, 1, 8, false, .ro, false, false, 0x0, 0, 0x0, 0xFF⟩,
  ⟨0x5E10, 1, 0x03, 1, 16, false, .ro, false, false, 0x0, 0, 0x0, 0xFFFF⟩,
  ⟨0x5E20, 1, 0x02, 1, 0, false, .ro, false, false, 0x0, 0, 0x0, 0x0⟩,
  ⟨0x5E20, 1, 0x03, 1, 32, false, .ro, false, false, 0x0, 0, 0x0, 0xFFFFFFFF⟩,
  ⟨0x5E20, 1, 0x04, 1, 16, false, .ro, false, false, 0x0, 0, 0x0, 0xFFFF⟩,
  ⟨0x5E20, 1, 0x05, 1, 8, false, .rw, false, false, 0x0, 0, 0x0, 0xFF⟩,
  ⟨0x5E20, 1, 0x06, 1, 8, false, .ro, false, false, 0x0, 0, 0x0, 0xFF⟩]

/-- Objects of 0x5F00. -/
def objs5F : List ObjRow := [
  ⟨0x5FF0, 1, 0x01, 1, 32, false, .wo, false, false, 0x0, 0, 0x0, 0xFFFFFFFF⟩,
  ⟨0x5FF0, 1, 0x02, 1, 32, false, .wo, true, false, 0x0, 0, 0x0, 0xFFFFFFFF⟩,
  ⟨0x5FF0, 1, 0x03, 1, 8, false, .ro, false, false, 0x0, 0, 0x0, 0xFF⟩]

/-- The tables that can hold an index, by its page. Objects of channels fill two pages. -/
def objPage : Nat → List ObjRow
  | 0x10 => objs10
  | 0x12 => objs12
  | 0x14 => objs14
  | 0x16 => objs16
  | 0x18 => objs18
  | 0x1A => objs1A
  | 0x20 => objs20
  | 0x21 => objs21
  | 0x22 => objs22
  | 0x23 => objs22
  | 0x24 => objs24
  | 0x25 => objs25
  | 0x26 => objs26
  | 0x27 => objs27
  | 0x28 => objs28
  | 0x29 => objs29
  | 0x2A => objs2A
  | 0x2B => objs2B
  | 0x2C => objs2C
  | 0x2D => objs2D
  | 0x2E => objs2E
  | 0x2F => objs2F
  | 0x30 => objs30
  | 0x31 => objs31
  | 0x32 => objs32
  | 0x33 => objs32
  | 0x34 => objs34
  | 0x35 => objs35
  | 0x36 => objs36
  | 0x37 => objs37
  | 0x38 => objs38
  | 0x39 => objs39
  | 0x3A => objs3A
  | 0x3B => objs3B
  | 0x3C => objs3C
  | 0x3D => objs3D
  | 0x3E => objs3E
  | 0x3F => objs3F
  | 0x40 => objs40
  | 0x41 => objs41
  | 0x42 => objs42
  | 0x43 => objs42
  | 0x44 => objs44
  | 0x45 => objs45
  | 0x46 => objs46
  | 0x47 => objs47
  | 0x50 => objs50
  | 0x51 => objs51
  | 0x52 => objs52
  | 0x53 => objs52
  | 0x54 => objs54
  | 0x55 => objs55
  | 0x56 => objs56
  | 0x59 => objs59
  | 0x5E => objs5E
  | 0x5F => objs5F
  | _ => []

/-- The row covers the object. -/
def ObjRow.covers (r : ObjRow) (idx sub : Nat) : Bool :=
  r.idx ≤ idx && idx < r.idx + r.n && r.sub ≤ sub && sub < r.sub + r.m

/-- The row of an object, none if the object does not exist (R390). -/
def objRow (idx sub : Nat) : Option ObjRow := (objPage (idx / 256)).find? (fun r => r.covers idx sub)

/-- Some subindex of the index exists (R390). -/
def objIndexExists (idx : Nat) : Bool := (objPage (idx / 256)).any (fun r => r.idx ≤ idx && idx < r.idx + r.n)

/-- The default of the table. -/
def ObjRow.default (r : ObjRow) (idx : Nat) : Nat := r.dflt + r.dstep * (idx - r.idx)

end Sys2Proof.Machine
end

