-- ==== Sys2Proof/Machine/Bits.lean ====
section
/-! DEFINITION. Bit fields, byte order, CRC, modular comparison and sparse maps. -/

namespace Sys2Proof.Machine

/-- Bits [hi:lo] of a number. -/
def field (n hi lo : Nat) : Nat := (n / 2 ^ lo) % 2 ^ (hi + 1 - lo)

/-- Bit i of a number. -/
def bitOf (n i : Nat) : Bool := n.testBit i

/-- A word with bit i set. -/
def setBit {w : Nat} (x : BitVec w) (i : Nat) : BitVec w := x ||| BitVec.ofNat w (2 ^ i)

/-- A word with bit i cleared. -/
def clrBit {w : Nat} (x : BitVec w) (i : Nat) : BitVec w := x &&& ~~~(BitVec.ofNat w (2 ^ i))

/-- A word with bit i equal to b. -/
def putBit {w : Nat} (x : BitVec w) (i : Nat) (b : Bool) : BitVec w := if b then setBit x i else clrBit x i

/-- A word with the bits of a mask cleared: the w1c rule of R84. -/
def clrMask {w : Nat} (x m : BitVec w) : BitVec w := x &&& ~~~m

/-- A Bool as a number. -/
def b2n (b : Bool) : Nat := if b then 1 else 0

/-- The mask with one bit per true element, lowest first. -/
def maskOf : List Bool → Nat
  | [] => 0
  | b :: r => b2n b + 2 * maskOf r

/-- The n lowest bytes of a number, least significant first. -/
def bytesLE : Nat → Nat → List Byte
  | 0, _ => []
  | n + 1, v => BitVec.ofNat 8 (v % 256) :: bytesLE n (v / 256)

/-- The number that little-endian bytes spell. -/
def ofBytesLE : List Byte → Nat
  | [] => 0
  | b :: r => b.toNat + 256 * ofBytesLE r

/-- `len` bytes from offset `off`, zero beyond the end. -/
def slice (b : List Byte) (off len : Nat) : List Byte :=
  let r := (b.drop off).take len
  r ++ List.replicate (len - r.length) 0

/-- A little-endian field of a byte string. -/
def fieldLE (b : List Byte) (off len : Nat) : Nat := ofBytesLE (slice b off len)

/-- One bit of the reflected CRC-32C. -/
def crcBit : Nat → BitVec 32 → BitVec 32
  | 0, c => c
  | n + 1, c => crcBit n (if c.getLsbD 0 then (c >>> 1) ^^^ 0x82F63B78 else c >>> 1)

/-- CRC-32C over a byte string, before the final inversion. -/
def crcFold : List Byte → BitVec 32 → BitVec 32
  | [], c => c
  | b :: r, c => crcFold r (crcBit 8 (c ^^^ b.setWidth 32))

/-- CRC-32C, as the images, the journal and the summary use it (R151, R204, R423, R438, R462). -/
def crc32c (b : List Byte) : BitVec 32 := ~~~(crcFold b 0xFFFFFFFF)

/-- The distance (a − b) mod 2^n, the d of R36. -/
def modDist (n a b : Nat) : Nat := (a % 2 ^ n + 2 ^ n - b % 2 ^ n) % 2 ^ n

/-- a is ahead of b at width n: 0 < d < 2^(n−1) (R36). -/
def aheadAt (n a b : Nat) : Bool := decide (0 < modDist n a b ∧ modDist n a b < 2 ^ (n - 1))

/-- a is behind b at width n: d ≥ 2^(n−1) (R36). -/
def behindAt (n a b : Nat) : Bool := decide (2 ^ (n - 1) ≤ modDist n a b)

/-- a is newer than b by 16-bit serial arithmetic: 1 to 32,767 ahead (R89). -/
def newer16 (a b : Nat) : Bool := aheadAt 16 a b

/-- a is newer than b by 32-bit serial arithmetic (R426, R427). -/
def newer32 (a b : Nat) : Bool := aheadAt 32 a b

/-- A 48-bit stamp widened with a reference T taken at or after it (R39). -/
def widen (t : Nat) (c : Nat) : Nat := t - modDist 48 t c

/-- The signed value of an n-bit number. -/
def toSigned (n v : Nat) : Int :=
  let m := v % 2 ^ n
  if m < 2 ^ (n - 1) then (m : Int) else (m : Int) - (2 ^ n : Nat)

/-- The n-bit two's complement form of an integer. -/
def ofSigned (n : Nat) (v : Int) : Nat := (v % ((2 ^ n : Nat) : Int)).toNat

/-- An integer limited to [lo, hi]. -/
def clampInt (lo hi v : Int) : Int := if v < lo then lo else if hi < v then hi else v

/-- An integer halved-to-nearest quotient rounds a half down (R112). -/
def roundHalfDown (num den : Nat) : Nat := (2 * num + den - 1) / (2 * den)

/-- A number limited to n bits by saturation. -/
def satTo (n v : Nat) : Nat := if v < 2 ^ n then v else 2 ^ n - 1

/-- An 8-bit event counter at bits [lo+7:lo] of a word counts one up, modulo 256 (R85). -/
def bumpAt {w : Nat} (x : BitVec w) (lo : Nat) : BitVec w :=
  clrMask x (BitVec.ofNat w (255 * 2 ^ lo)) ||| BitVec.ofNat w ((field x.toNat (lo + 7) lo + 1) % 256 * 2 ^ lo)

/-- A sparse map: keys rising, no entry equal to the default. -/
abbrev SMap (α : Type) := List (Nat × α)

/-- Reading a sparse map, with the default for an unlisted key. -/
def SMap.get {α : Type} (d : α) : SMap α → Nat → α
  | [], _ => d
  | (k', v) :: r, k => if k = k' then v else SMap.get d r k

/-- A sparse map without a key. -/
def SMap.erase {α : Type} : SMap α → Nat → SMap α
  | [], _ => []
  | (k', v) :: r, k => if k' = k then SMap.erase r k else (k', v) :: SMap.erase r k

/-- A sparse map with an entry at its place. -/
def SMap.insert {α : Type} : SMap α → Nat → α → SMap α
  | [], k, v => [(k, v)]
  | (k', v') :: r, k, v =>
    if k < k' then (k, v) :: (k', v') :: r
    else if k = k' then (k, v) :: r
    else (k', v') :: SMap.insert r k v

/-- Writing a sparse map; writing the default removes the entry. -/
def SMap.put {α : Type} [DecidableEq α] (d : α) (m : SMap α) (k : Nat) (v : α) : SMap α :=
  if v = d then m.erase k else m.insert k v

/-- Keys rise strictly from a bound on. -/
def SMap.risingFrom {α : Type} : Nat → SMap α → Bool
  | _, [] => true
  | lo, (k, _) :: r => decide (lo ≤ k) && SMap.risingFrom (k + 1) r

/-- The canonical form: keys strictly rising, no entry equal to the default. -/
def SMap.wf {α : Type} [DecidableEq α] (d : α) (m : SMap α) : Bool :=
  SMap.risingFrom 0 m && m.all (fun e => decide (e.2 ≠ d))

/-- An element of a list, or a default. -/
def nth {α : Type} (d : α) (l : List α) (i : Nat) : α := l.getD i d

/-- A list with element i replaced. -/
def setNth {α : Type} (l : List α) (i : Nat) (v : α) : List α := l.set i v

end Sys2Proof.Machine
end

