-- ==== Sys2Proof/Machine/State.lean ====
section
/-! DEFINITION. The state of the HX-512 as plain data: every register, queue, counter, mode and pin the spec names, the
faults and refusals of a step, and the state right after reset. Values with default fields are the reset values; the log
entry named in INVENTORY.md stands beside each value the spec does not give. -/

namespace Sys2Proof.Machine

open Sys2Proof

/-- A value of a dictionary object: a number in two's complement form, or bytes (R392). -/
inductive Val where
  | num (n : Nat)
  | bytes (b : List Byte)
deriving DecidableEq, Repr

/-- Key of an object in maps: index × 256 + subindex. -/
abbrev Key := Nat

/-! ### Time unit (02) -/

/-- Discipline states with the codes of 0x3000:03 (R52, R61). -/
inductive Disc where
  | off | acquire | track | locked | holdover
deriving DecidableEq, Repr

/-- The PPS capture (R44–R50). Instants of edges are in 1/16 ps (one TCLK is 40,000). -/
structure PpsState where
  /-- The active level is present now. -/
  active : Bool := false
  /-- DTIME of the last active edge. -/
  edgeDtime : Nat := 0
  /-- Its fine part, in 1/64 TCLK. -/
  edgeFine : Nat := 0
  /-- ATIME at the edge's TCLK, in 2^-32 ticks (R45). -/
  edgeAtime : Nat := 0
  /-- The edge waits for its processing 400 TCLK later (R44). -/
  toProcess : Bool := false
  /-- The running pulse has been judged long (R50). -/
  longJudged : Bool := false
  longRun : Nat := 0
  shortRun : Nat := 0
  /-- True edge processed last, as the first of a pair (R48). -/
  pairFirst : Option Int := none
  /-- Last accepted true edge (R46). -/
  lastAccepted : Option Int := none
  /-- Consecutive consistent out-of-window edges, newest first (R49). -/
  outRun : List Int := []
  /-- Consecutive accepted edges with |e| at most 5 ns, none stepped (R52). -/
  goodRun : Nat := 0
deriving DecidableEq, Repr

/-- The time unit (R26–R63). -/
structure TimeUnit where
  /-- DTIME (R34). -/
  dtime : Word := 0
  /-- The PLL is locked and TCLK runs (R27). -/
  pllLocked : Bool := false
  /-- The PLL runs free on its last control word (R31). -/
  freeRun : Bool := false
  /-- Level of the REFSEL pin and its sample (R26). -/
  refselPin : Bool := false
  refsel : Bool := false
  /-- ATIME: seconds, tick, fraction (R40, R41). -/
  seconds : BitVec 35 := 0
  tick : Nat := 0
  frac : Nat := 0
  /-- A second boundary has been reached in this TCLK and waits for its effects (R53, R57). -/
  boundary : Bool := false
  /-- Rate correction r and frequency estimate f, in 2^-32 (R41, R47). -/
  rate : Int := 0
  freq : Int := 0
  disc : Disc := .acquire
  pps : PpsState := {}
  /-- Time status word (R62). -/
  status : BitVec 16 := 0x0400
  /-- Phase error in ps (R45). -/
  phaseError : Int := 0
  accepted : BitVec 32 := 0
  rejectCnt : Byte := 0
  stepCnt : Byte := 0
  glitchCnt : Byte := 0
  refLossCnt : Byte := 0
  /-- Last PPS stamp, STAMP48 × 64 + fine. -/
  lastPps : Word := 0
  /-- DTIME at which HOLDOVER was entered, none outside it (R52). -/
  holdoverSince : Option Nat := none
  holdoverSecs : BitVec 32 := 0
  skipCnt : Byte := 0
  /-- Pending relabelling of the seconds (R53, R54). -/
  relabel : Option Int := none
  /-- PPS_OUT: level, last rise, end of the pulse (R57, R58). -/
  ppsOut : Bool := false
  /-- PPS_OUT is in the Winter state, high impedance (R59). -/
  ppsHiZ : Bool := true
  /-- A WARM reset has put it there: it resumes at the first boundary after the release, pulse or not (R59). -/
  ppsWarm : Bool := false
  /-- A rise that the offset puts after the boundary, and a rise that it has put before the boundary to come (R57). -/
  ppsOutDue : Option Nat := none
  ppsOutEarly : Bool := false
  ppsOutRise : Option Nat := none
  ppsOutEnd : Nat := 0
deriving DecidableEq, Repr

/-! ### Snapshots and commit groups (03) -/

/-- Snapshot controller (R64–R72). -/
structure SnapUnit where
  /-- SNAPSEQ of the last snapshot, and whether one has been taken since COLD or TOTAL reset (R72). -/
  seq : BitVec 32 := 0
  taken : Bool := false
  dtime : Word := 0
  /-- DEFERRED, HOLD_EXPIRED, SEQ_WRAP and HOLD_ACTIVE (R88). -/
  status : Byte := 0
  deferredCnt : Byte := 0
  /-- A copy is in progress (R67). -/
  copying : Bool := false
  copyStart : Nat := 0
  /-- A request waits for the end of the copy (R67). -/
  waiting : Bool := false
  /-- A snapshot is requested in this TCLK (R64); consumed when the command is applied. -/
  want : Bool := false
  /-- Next instant of the periodic interval, counted from the commit that set it (R65). -/
  nextPeriodic : Nat := 0
  /-- A reset of WARM reach or wider wipes the banks in this TCLK (R91); consumed when the command is applied. -/
  wipe : Bool := false
  /-- The snapshot request object asks in this TCLK for a hold, or for its release (R70); consumed when the command is applied. -/
  hold : Option Bool := none
deriving DecidableEq, Repr

/-- Event table entry states (R191, R192). -/
inductive EvPhase where
  | free
  /-- In the insert FIFO or its walk: bound for a group (dictionary) or to become live. -/
  | walking (group : Option Nat) (reins : Bool)
  | dormant (group : Nat)
  | live
  /-- Freed while its queue is being listed: it leaves when the copy ends (R208). -/
  | leaving
deriving DecidableEq, Repr

/-- An event entry with its fields (R182) and its place in the scheduler. -/
structure EvEntry where
  phase : EvPhase := .free
  queue : Nat := 0
  key : Nat := 0
  act : Nat := 0
  tgt : Nat := 0
  skiplate : Bool := false
  logf : Bool := false
  arg : BitVec 32 := 0
  per : Nat := 0
  rep : Nat := 0
  /-- Late by R199. -/
  late : Bool := false
  /-- The reference has reached the key (R187): DTIME of it. -/
  reached : Option Nat := none
  /-- Pre-armed, with its due DTIME, and the fine position its pin action lands at (R185, R195). -/
  armed : Option Nat := none
  fine : Nat := 0
  /-- Its pin action has landed (R196). -/
  landed : Bool := false
  /-- Counts between key and position at the crossing (R189). -/
  fpDist : Nat := 0
  /-- An image entry whose offset was too short to be pre-armed in time (R203). -/
  slow : Bool := false
  /-- Reinserted for the pass of its tracker's lane a whole cycle ahead (R202; log entry 112). -/
  ahead : Bool := false
deriving DecidableEq, Repr

/-- What a commit group holds staged (R73, R191, R192). -/
structure Staged where
  objs : List (Key × Val) := []
  cancels : List Nat := []
deriving DecidableEq, Repr

inductive GroupState where
  | idle | staging | armed
deriving DecidableEq, Repr

/-- A commit group (R73–R76, R88). -/
structure Group where
  state : GroupState := .idle
  status : Byte := 0
  lateCnt : Byte := 0
  refusedCnt : Byte := 0
  lastDtime : Word := 0
  genAt : BitVec 16 := 0
  staged : Staged := {}
  members : List Key := []
  /-- The RPDO that armed the group (R406). -/
  armedBy : Option Nat := none
deriving DecidableEq, Repr

/-! ### Channel array (04), microengines (05, 06) -/

inductive ThreadState where
  | disabled | idle | ready | running | runaway | halted
deriving DecidableEq, Repr

/-- The mode fields of CCTL [25:14] (R96). -/
structure Mode where
  maact : BitVec 2 := 0
  mbact : BitVec 2 := 0
  caedge : BitVec 2 := 0
  cbedge : BitVec 2 := 0
  fifoen : Bool := false
  outlnk : Bool := false
deriving DecidableEq, Repr

/-- What one of the two match registers holds (R95, R97). -/
structure MatchVal where
  value : Stamp := 0
  fine : BitVec 6 := 0
  en : Bool := false
  /-- Armed with a value not ahead of STAMP48: fires in the next TCLK with fine 0 (R98). -/
  late : Bool := false
deriving DecidableEq, Repr

/-- A match register with the contents it had at the start of a TCLK in which it was changed (R100). -/
structure MatchReg where
  cur : MatchVal := {}
  was : Option (Nat × MatchVal) := none
deriving DecidableEq, Repr

/-- A pin action of a match, a routine or an event entry (R97, R147, R185). -/
inductive PinAct where
  | set | clear | toggle
deriving DecidableEq, Repr

/-- A channel (R95). -/
structure Channel where
  ma : MatchReg := {}
  mb : MatchReg := {}
  capa : Stamp := 0
  capb : Stamp := 0
  /-- Capture FIFO, oldest first, without VALID (R103), and the entry popped last (R81). -/
  fifo : List Word := []
  fifoLast : Word := 0
  ecnt : BitVec 16 := 0
  mode : Mode := {}
  /-- EN and FUNC in force (R114). -/
  en : Bool := false
  func : BitVec 4 := 0
  req : Byte := 0
  /-- Bits of REQ raised since the running routine sampled REQ (R105). -/
  fresh : Byte := 0
  lnkd : Word := 0
  /-- A routine has sampled the pending LINK (R106). -/
  linkSampled : Bool := false
  out : Bool := false
  /-- Pin actions of one TCLK: that TCLK, OUT at its start, and the actions by fine instant and writer (R99, R101). -/
  outTclk : Nat := 0
  outBase : Bool := false
  outActs : List (Nat × PinAct) := []
  /-- DTIME of the last change of OUT (R284). -/
  outSince : Nat := 0
  fl : Byte := 0
  cstat : BitVec 16 := 0
  /-- Result words of SW00–SW15 and private words SW16–SW31, by number. -/
  sw : SMap Word := []
  ovfCnt : Byte := 0
  lateCnt : Byte := 0
  linkCnt : Byte := 0
  /-- Accepted level of the input after ININV and the filter. -/
  input : Bool := false
  thread : ThreadState := .disabled
  abandons : Nat := 0
  longest : BitVec 16 := 0
  stored : BitVec 12 := 0x800
  /-- First run since EN was set or FUNC changed; this run restarts an abandoned one (R132). -/
  first : Bool := false
  restart : Bool := false
  /-- The ROM function whose code the channel runs: that of its FUNC, or the one its user code last jumped into (R131). -/
  romFn : Option Nat := none
  /-- A start that waits for the END of a committed routine: some true where EN was set (R154, R164). -/
  startDue : Option Bool := none
  /-- A parity machine check stopped the last run: its restart counts as no protected run (R169). -/
  mcRestart : Bool := false
  /-- The channel's DMA request is not yet served (R150, R346). -/
  dreq : Bool := false
deriving DecidableEq, Repr

/-- A T-pin (R107–R110). -/
structure TPin where
  /-- Level at the ball, as last sampled (R108). -/
  level : Bool := false
  /-- Own latch, for driver 0xFFFE (R107). -/
  latch : Bool := false
  /-- SHORT, RELEASED (R122). -/
  status : Byte := 0
  shortCnt : Byte := 0
  /-- Level driven now, none in high impedance. -/
  driven : Option Bool := none
  /-- DTIME of the last driven edge, and whether its check is due (R110). -/
  edgeAt : Nat := 0
  checkDue : Bool := false
  /-- Consecutive mismatches (R110). -/
  mismatches : Nat := 0
  /-- Driven high-impedance state of a channel's failsafe. -/
  failsafe : Bool := false
deriving DecidableEq, Repr

/-- A staged change of a match: loaded and armed, loaded and then disarmed, armed as is, or disarmed (R144, R146). -/
inductive MatchChange where
  | load (value : Stamp) (fine : BitVec 6)
  | loadOff (value : Stamp) (fine : BitVec 6)
  | arm
  | disarm
deriving DecidableEq, Repr

/-- Staged effects of a routine (R142, R144). -/
structure StagedFx where
  sw : List (Nat × Word) := []
  ma : Option MatchChange := none
  mb : Option MatchChange := none
  mode : Option Mode := none
  pins : List (PinAct × Nat) := []
  pops : Nat := 0
  /-- Flags set and cleared (R148). -/
  fset : Byte := 0
  fclr : Byte := 0
  /-- Link requests: one target offset or all, and data (R149). -/
  links : List (Option Nat × Word) := []
  irq : Bool := false
  dreq : Bool := false
  posts : List (Word × Word) := []
  logs : List (BitVec 32) := []
  /-- Channel-edge records of LOGGER: DTIME and payload. -/
  edges : List (Nat × BitVec 32) := []
  /-- Payloads of the records of word writes that R141 discards. -/
  faults : List Nat := []
deriving DecidableEq, Repr

/-- A DIV word between its first and its fourth ECLK: its operands and its condition as sampled, and the TCLK that completes it (R124). -/
structure DivHold where
  word : Microword
  c' : Bool
  waited : Bool
  a : Word
  b : Word
  due : Nat
deriving DecidableEq, Repr

/-- The routine running on an engine (R124–R150). -/
structure Routine where
  slot : Nat
  addr : BitVec 12
  /-- The word last executed, for the RUNAWAY report (R159). -/
  lastAddr : BitVec 12
  req : Byte
  lnkd : Word
  capa : Stamp
  capb : Stamp
  start : Stamp
  x : List Word
  z : Bool
  n : Bool
  c : Bool
  ah : Bool
  div0 : Bool
  wtoExpired : Bool
  committed : Bool
  /-- ECLK used so far, and the budget in force (R158). -/
  used : Nat
  budget : Nat
  staged : StagedFx
  protect : Bool
  restart : Bool
  first : Bool
  /-- ECLK stalled in the WAIT word at addr; none: not in WAIT (R134); that word as it was fetched. -/
  stall : Option Nat
  word : Microword := 0
  /-- The DIV word in execution. -/
  div : Option DivHold := none
  /-- Word read by SRD in this word (R135). -/
  swRead : Word
  /-- Result of the last ALU operation (R138). -/
  result : Word
deriving DecidableEq, Repr

/-- Recovery of a machine check (R170). -/
structure McRecovery where
  addr : BitVec 12
  cause : Nat
deriving DecidableEq, Repr

/-- A cluster with its microengine (R154–R181). -/
structure Cluster where
  /-- 0 stopped, 1 running, 2 machine check, 3 reset. -/
  state : Nat := 0
  status : Byte := 0
  runawayCnt : Byte := 0
  mcCnt : Byte := 0
  abandonCnt : Byte := 0
  protectCnt : Byte := 0
  scrubCnt : Byte := 0
  load : BitVec 16 := 0
  /-- Busy ECLK of the running 10 ms interval (R167). -/
  busy : Nat := 0
  lastMc : BitVec 32 := 0
  lastRunaway : BitVec 32 := 0
  /-- Position of the scrubber, in store words (R172). -/
  scrubPos : Nat := 0
  /-- The slots last served: slot 0 comes first at the start (R156; log entry 109). -/
  lastHi : Nat := 63
  lastLo : Nat := 63
  /-- LO thread abandoned and keeping its turn (R156). -/
  kept : Option Nat := none
  run : Option Routine := none
  /-- User tables: TDATA, TDATA_READY, TERR, the byte offset of a read in flight (R140). -/
  tdata : Word := 0
  tready : Bool := false
  terr : Bool := false
  tpend : Option Nat := none
  /-- Reads in flight whose data will be discarded, oldest first (R140, R161). -/
  tlost : List Nat := []
  /-- Recovery in progress, pause of an activation (R170, R178). -/
  recovery : Option McRecovery := none
  paused : Bool := false
  /-- Held under policy 1 after recovery (R170). -/
  mcHeld : Bool := false
  /-- Writable store: words with their parity byte (R123, R126, R128). -/
  store : SMap (Microword × Byte) := []
  /-- Addresses found bad by the scrubber and not yet repaired (R172). -/
  poisoned : List Nat := []
  /-- No image could be loaded at start-up (R153). -/
  loadFault : Bool := false
  /-- Result masks of the four user functions in the image that was loaded (R141, R151). -/
  masks : List Nat := []
  /-- Copy the store was loaded from, for recovery: 0 A, 1 B, 0xFF none (R170, R178). -/
  copy : Byte := 0xFF
deriving DecidableEq, Repr

/-- Microcode images and activation (R151–R153, R176–R181). -/
structure MicroUnit where
  /-- Last write's image status (R181). -/
  status : Byte := 0
  activeGen : BitVec 16 := 0
  activeCopy : Byte := 0
  winSel : BitVec 32 := 0
  /-- Clusters still to be done in an activation, ascending; empty when none. -/
  todo : List Nat := []
  /-- The image was accepted by R152 (R177). -/
  accepted : Bool := false
  /-- DTIME of the last failing fetch (R173). -/
  lastMcAt : Option Nat := none
deriving DecidableEq, Repr

/-! ### Event table (07) -/

/-- A queue EQ00–EQ15 (R186, R206). -/
structure EvQueue where
  /-- Status word without BLOCKED (R206). -/
  status : BitVec 16 := 0
  fired : BitVec 32 := 0
  lateCnt : Byte := 0
  skipCnt : Byte := 0
  faultCnt : Byte := 0
  lastLate : BitVec 32 := 0
  lastSlip : Byte := 0
  /-- Entry numbers in queue order (R190). -/
  order : List Nat := []
  /-- Lane value when the queue became BLOCKED (R188). -/
  blockedAt : Option Nat := none
deriving DecidableEq, Repr

/-- The event table (R182–R209). -/
structure EventUnit where
  entries : SMap EvEntry := []
  queues : SMap EvQueue := []
  /-- Entries in the insert FIFO, the walking one first (R194). -/
  fifo : List Nat := []
  /-- Inserts of the dictionary path for which the supervisor waits for a place in the FIFO (R183). -/
  waiting : List Nat := []
  poolStatus : Byte := 0
  dropCnt : Byte := 0
  /-- Last entry made live by a commit, 17 bytes (R207). -/
  lastLive : List Byte := List.replicate 17 0
  /-- A read request being copied: its queue (16 for one entry) and its result (R208). -/
  listing : Option (Nat × List Byte) := none
  listResult : List Byte := []
  /-- DTIME at which the walk of the first entry of the FIFO began (R194). -/
  walkFrom : Nat := 0
  /-- Cancel that a commit applied last, in the form of 0x2810:02 (R73, R207). -/
  lastCancel : BitVec 32 := 0
  imageStatus : Byte := 0
  /-- Free slot: DTIME of the ECLK whose fire slot was taken last (R196). -/
  slotAt : Option Nat := none
  /-- ECLK of the last pre-arming (R195). -/
  prearmAt : Option Nat := none
deriving DecidableEq, Repr

/-! ### Wheel trackers (08) -/

inductive WheelState where
  | stopped | seeking | preSync | sync | cycleSync | lost
deriving DecidableEq, Repr

/-- Settings of a tracker that act from its next edge, as they stood at the last one (R227): missed-tooth low and high, gap window
high, stall time, cam window. -/
structure WheelHeld where
  missLow : Nat := 1600
  missHigh : Nat := 2400
  gapHigh : Nat := 1400
  stall : Nat := 250000
  cam : Nat := 5120
deriving DecidableEq, Repr

/-- A wheel tracker (R210–R231). Instants are in 2^-16 TCLK where a field says so. -/
structure Wheel where
  state : WheelState := .stopped
  /-- Tracker status word (R231). -/
  status : BitVec 16 := 0
  lane : Nat := 0
  /-- The lane as it stood at the start of this TCLK, which a snapshot shows (R64). -/
  laneWas : Nat := 0
  /-- Cycle length C (R210). -/
  cyc : Nat := 61440
  /-- Reference period R = refNum / refDiv, and the one before it (R212, R217). -/
  refNum : Nat := 0
  refDiv : Nat := 1
  prevNum : Nat := 0
  prevDiv : Nat := 1
  /-- Reference period of the last accepted tooth, for the tooth speed (R223). -/
  toothNum : Nat := 0
  toothDiv : Nat := 1
  held : WheelHeld := {}
  /-- Tick interval P / 1,024 and position period P, in 2^-16 TCLK (R217). -/
  tickLen : Nat := 0
  period : Nat := 0
  /-- Base angle of the current tooth, span to the next base, instant of the base in 2^-16 TCLK. -/
  base : Nat := 0
  span : Nat := 1024
  baseAt : Nat := 0
  /-- Base angle and instant of the tooth before it (R224). -/
  prevBase : Nat := 0
  prevAt : Nat := 0
  /-- Widened stamp of the last accepted edge (R212). -/
  lastEdge : Option Nat := none
  /-- Stamp of the last tooth (R231). -/
  lastTooth : Nat := 0
  tooth : Nat := 0
  /-- Intervals classified as teeth since entry to SEEKING or LOST, or teeth since PRE-SYNC (R215). -/
  run : Nat := 0
  /-- A virtual tooth was inserted in this interval (R220). -/
  virt : Bool := false
  /-- The lane lags the true angle (R219). -/
  catching : Bool := false
  noiseCnt : Byte := 0
  missedCnt : Byte := 0
  lossCnt : Byte := 0
  camCnt : Byte := 0
  lastLoss : Nat := 0
  /-- Intervals of the last positions, newest first: length in TCLK and positions (R223). -/
  hist : List (Nat × Nat) := []
  /-- Accepted edges since STOPPED, saturating at 2 (R223). -/
  edges : Nat := 0
  /-- Positions since the last logged noise (R229). -/
  sinceNoise : Option Nat := none
  /-- Phase result in ticks × 64 with VALID and tag, and its DTIME (R224, R226). -/
  phase : Nat := 0
  phaseValid : Bool := false
  phaseTag : Byte := 0
  phaseDtime : Word := 0
  /-- Widened stamp of a reference edge of the partner not yet measured (R224). -/
  refEdge : Option Nat := none
  /-- Previous phase for the comparison of R225. -/
  prevPhase : Option Nat := none
  /-- Ticks the lane has advanced since the last reference edge, and the ticks that CAM_MISSING has already taken (R225). -/
  sinceRef : Nat := 0
  camDue : Nat := 0
deriving DecidableEq, Repr

/-! ### Feedback ports (09) -/

inductive PortState where
  | off | starting | running | lost
deriving DecidableEq, Repr

/-- Frame phases of the SSI master (R244, R247). -/
inductive SsiPhase where
  | idle
  /-- A request was taken and falling edge 1 follows at the DTIME. -/
  | starting (tL : Nat)
  /-- Data level at the frame start, waiting for the start bit since t_L (R244). -/
  | waiting (tL : Nat) (level : Bool)
  /-- Start bit seen, line delay d. -/
  | sampling (tL : Nat) (d : Nat)
  /-- Recovery until the DTIME (R247). -/
  | recovery (till : Nat)
deriving DecidableEq, Repr

/-- Observer phases (R256, R257). -/
inductive ObsPhase where
  /-- Held after STARTING until standstill or seeding. -/
  | fresh
  | standstill
  /-- One count since standstill: its position, stamp and direction. -/
  | first (p : BitVec 48) (t : Nat) (up : Bool)
  | running
  | held
deriving DecidableEq, Repr

/-- Settings of an SSI frame, which a commit changes from the next frame (R252): data invert, half-period, CRC polynomial, CRC
inverted, status error mask and active level, latch delay, recovery time in TCLK. -/
structure SsiFrame where
  invert : Bool := false
  half : Nat := 200
  poly : Nat := 3
  crcInv : Bool := false
  mask : Nat := 0
  act : Nat := 1
  latch : Nat := 0
  recov : Nat := 8000
deriving DecidableEq, Repr

/-- A feedback port (R232–R266). -/
structure Port where
  state : PortState := .off
  /-- Port status word (R266). -/
  status : BitVec 32 := 0
  pos : BitVec 48 := 0
  posDtime : Word := 0
  /-- Filtered lines Z B A, or H3 H2 H1 (R235, R240). -/
  lines : BitVec 3 := 0
  /-- An index has been accepted since STARTING; position after it; INDEX_MISSING reported (R239). -/
  idxSeen : Bool := false
  pLast : BitVec 48 := 0
  missingDone : Bool := false
  idxPos : BitVec 48 := 0
  idxDtime : Word := 0
  /-- Consecutive transitions of A and of B without the other (R237). -/
  runA : Nat := 0
  runB : Nat := 0
  ssi : SsiPhase := .idle
  /-- A request is held, with the DTIME of its arrival (R247). -/
  held : Option Nat := none
  /-- DTIME of the next periodic request (R247). -/
  nextReq : Nat := 0
  /-- DTIME of the last request: requests of one TCLK count as one (R247). -/
  reqAt : Option Nat := none
  /-- Settings of the frame in progress or last made, and its t_L (R242, R252). -/
  frame : SsiFrame := {}
  frameAt : Option Nat := none
  rawPrev : Nat := 0
  /-- Consecutive invalid frames or samples (R248, R251). -/
  bad : Nat := 0
  /-- Recent movements, newest first: stamp and signed count (R249, R260). -/
  recent : List (Nat × Int) := []
  /-- Recent sets, newest first: TCLK and the count by which the position changed (R233, R260). -/
  sets : List (Nat × Int) := []
  /-- The last observer updates, newest first: instant, position, speed (R260). -/
  obsHist : List (Nat × BitVec 64 × Int) := []
  theta : BitVec 16 := 0
  periods : Int := 0
  amplitude : BitVec 16 := 0
  /-- Observer: position with 16 fraction bits, speed in 2^-16 counts/s, acceleration in 2^-16 counts/s². -/
  pHat : BitVec 64 := 0
  vHat : Int := 0
  aHat : Int := 0
  obs : ObsPhase := .fresh
  /-- DTIME of the last update and of the last movement (R253, R256). -/
  obsAt : Nat := 0
  moveAt : Nat := 0
  /-- Last frame or sample since the previous update: position × 2^16 and its instant (R253). -/
  meas : Option (BitVec 64 × Nat) := none
  dir : Bool := false
  /-- Extreme position of the direction tracking (R258). -/
  extreme : BitVec 48 := 0
  /-- Movement since the check point, of this port and of the reference (R261). -/
  moved : Int := 0
  refMoved : Int := 0
  disagree : Nat := 0
  /-- Absolute reference of mode 3: last decoded frame value (R249, R261). -/
  absPrev : Option Nat := none
  probeCount : BitVec 48 := 0
  probeObs : BitVec 64 := 0
  probeDtime : Word := 0
  probeValid : Bool := false
  probeTag : Byte := 0
  /-- Capture request line, and VALID and tag of the capture register (R346, R83). -/
  capReq : Bool := false
  capValid : Bool := false
  capTag : Byte := 0
  rawFrame : BitVec 48 := 0
  rawValid : Bool := false
  rawTag : Byte := 0
  illegalCnt : Byte := 0
  lineCnt : Byte := 0
  frameCnt : Byte := 0
  refFaultCnt : Byte := 0
  dropCnt : Byte := 0
  dirCnt : Byte := 0
  probeCnt : Byte := 0
  lastFault : BitVec 32 := 0
  /-- Lines whose LINE_STUCK is reported: A, B, Z (R237, R244, R264). -/
  stuck : BitVec 3 := 0
  /-- Line delay, last index error and last count difference (R266). -/
  delay : BitVec 16 := 0
  indexErr : Int := 0
  countDiff : Int := 0
  /-- Consecutive readback mismatches of CK and DE, and CK and DE released (R262). -/
  ckRun : Nat := 0
  deRun : Nat := 0
  ckReleased : Bool := false
  deReleased : Bool := false
  /-- DTIME of the last edge of FBn_DE, and of a return of FBn_CK to high that cut a frame short. -/
  deAt : Option Nat := none
  ckRise : Option Nat := none
deriving DecidableEq, Repr

/-! ### PWM, trips, arming (10) -/

inductive PairState where
  | idle | running | tripped
deriving DecidableEq, Repr

/-- Values that a reload copies: P, D, T_D in raw form (R268, R272). -/
structure PairVals where
  period : BitVec 32 := 0
  duty : BitVec 32 := 0
  dead : BitVec 16 := 0
deriving DecidableEq, Repr

/-- A committed shadow value, its field (0 period, 1 duty, 2 dead time) and the reloads it still skips (R78). -/
structure ShadowWrite where
  skip : Nat
  what : Nat
  val : Nat
deriving DecidableEq, Repr

/-- Readback of one driven output (R294, R341). -/
structure Readback where
  /-- Level driven now, none in high impedance. -/
  driven : Option Bool := none
  edgeAt : Nat := 0
  checkDue : Bool := false
  run : Nat := 0
  released : Bool := false
deriving DecidableEq, Repr

/-- The delay lines of an output of a precision pair (R278, R279). -/
structure DelayLine where
  /-- Which of the two lines places edges. -/
  second : Bool := false
  /-- Taps per TCLK of the mapping in force, 0 while none exists. -/
  map : Nat := 0
  /-- The other line has been calibrated and takes over at the next boundary. -/
  due : Bool := false
  /-- Result of the previous calibration, and its DTIME. -/
  prev : Option Byte := none
  calAt : Option Nat := none
  /-- Instant of the output's last edge as it is placed, in fine ticks of DTIME, and its tap. -/
  edge : Nat := 0
  tap : Nat := 0
deriving DecidableEq, Repr

/-- A PWM pair (R267–R299). Instants are in fine ticks of DTIME × 64. -/
structure Pair where
  state : PairState := .idle
  /-- Pair status word (R299). -/
  status : BitVec 16 := 0
  /-- BOUNDARY published, STAMP48 × 64 + fine, and the instant of the last boundary (R17). -/
  boundary : Word := 0
  lastB : Option Nat := none
  /-- PERIOD published, which keeps its value outside RUNNING (R282). -/
  shadow : PairVals := { period := 0x4E200 }
  eff : PairVals := {}
  /-- REF edges of the running period still to come, in fine ticks of DTIME, with the level after them (R269, R273). -/
  refEdges : List (Nat × Bool) := []
  /-- Committed values that skip a reload before they reach the shadows (R78). -/
  deferred : List ShadowWrite := []
  /-- Instant of the next boundary, none before the start. -/
  nextB : Option Nat := none
  midDone : Bool := false
  refHigh : Bool := false
  /-- Turn-on instants fixed at REF edges (R270). -/
  onH : Option Nat := none
  onL : Option Nat := none
  h : Readback := {}
  l : Readback := {}
  /-- H and L are at their active levels. -/
  actH : Bool := false
  actL : Bool := false
  offH : Nat := 0
  offL : Nat := 0
  /-- Start instant pending, in DTIME (R281). -/
  startAt : Option Nat := none
  /-- Enable = 0 committed while RUNNING: stop at the next boundary (R280). -/
  stopDue : Bool := false
  /-- Stream request raised; a beat was written in the TCLK of the coming reload (R275, R276). -/
  request : Bool := false
  beat : Bool := false
  /-- DTIME of the last reload. -/
  reloadAt : Option Nat := none
  lateCnt : Byte := 0
  underCnt : Byte := 0
  shortCnt : Byte := 0
  tripDtime : Word := 0
  tapsH : Byte := 0
  tapsL : Byte := 0
  calH : Bool := false
  calL : Bool := false
  faultH : Bool := false
  faultL : Bool := false
  dlH : DelayLine := {}
  dlL : DelayLine := {}
  /-- DTIME of the last records of codes 3, 4 and 7 (R297). -/
  rec3 : Option Nat := none
  rec4 : Option Nat := none
  rec7 : Option Nat := none
deriving DecidableEq, Repr

inductive ArmState where
  | disarmed
  /-- Accepted, before the first rise of ARM0 (R292). -/
  | accepted
  | armed
deriving DecidableEq, Repr

/-- Arm logic (R291–R294, R299). -/
structure PwmUnit where
  arm : ArmState := .disarmed
  /-- DTIME at which the arm command was accepted (R292). -/
  acceptedAt : Nat := 0
  /-- Arm status word (R299). -/
  status : BitVec 16 := 0
  disarmCnt : Byte := 0
  refuseCnt : Byte := 0
  armDtime : Word := 0
  disarmDtime : Word := 0
  arm0 : Readback := { driven := some false }
  arm1 : Readback := { driven := some false }
deriving DecidableEq, Repr

/-- A trip input (R283–R290, R299). -/
structure TripInput where
  /-- Trip status: LATCHED and w1c bits; LEVEL is `level`. -/
  status : Byte := 0
  level : Bool := false
  cnt : Byte := 0
  refusedCnt : Byte := 0
  dtime : Word := 0
  /-- End of the TCLK since which the blanking mask has been on, and the limit has lifted it until OUT returns to 0 (R284). -/
  maskFrom : Option Nat := none
  lifted : Bool := false
deriving DecidableEq, Repr

/-! ### Analogue unit (11) -/

/-- An analogue input (R315–R318, R324). -/
structure AnInput where
  status : Byte := 0
  limitCnt : Byte := 0
  openCnt : Byte := 0
  refusedCnt : Byte := 0
  tripDtime : Word := 0
  /-- Last result, sign-extended; within its limits; completed after the latch (R318). -/
  last : Int := 0
  inside : Bool := false
  since : Bool := false
  rec1 : Option Nat := none
  rec2 : Option Nat := none
deriving DecidableEq, Repr

/-- A converter (R310–R313, R324). -/
structure Converter where
  status : Byte := 0x04
  fifo : List (BitVec 32) := []
  ovfCnt : Byte := 0
  /-- Sequence whose step occupies it. -/
  busy : Option Nat := none
  /-- Calibration factors, unit gain and zero offset while there are none (R312, R313). -/
  factors : CalResult := {}
deriving DecidableEq, Repr

/-- A running pass (R303–R306). -/
structure Pass where
  step : Nat
  words : List Word
  continuous : Bool
  /-- The current step has started its acquisition, at the DTIME; none while it waits (R307). -/
  startedAt : Option Nat
  /-- This step has been reported as delayed. -/
  delayed : Bool
  /-- The pass has started; until its start edge it follows the settings (R306). -/
  begun : Bool
deriving DecidableEq, Repr

/-- A sequence (R303–R309, R324). -/
structure Sequence where
  status : Byte := 0
  passCnt : BitVec 32 := 0
  dropCnt : Byte := 0
  delayCnt : Byte := 0
  startDtime : Word := 0
  run : Option Pass := none
  stopDue : Bool := false
  /-- Earliest DTIME at which step 0 may start (R19, R306). -/
  notBefore : Nat := 0
  /-- Stopped by a calibration and continuous: restarts after it (R312). -/
  resume : Bool := false
  /-- Result registers by 4 × step + converter (R309). -/
  results : SMap (BitVec 32) := []
deriving DecidableEq, Repr

/-- The analogue unit (R312, R324). -/
structure AnalogUnit where
  inputs : SMap AnInput := []
  convs : SMap Converter := []
  seqs : SMap Sequence := []
  status : Byte := 0
  calTemp : BitVec 16 := 0
  calStart : Nat := 0
  /-- What a result register reads until its first result: UNCAL as the reset found it (R309, R313, R321). -/
  unset : BitVec 32 := 0x08000000
deriving DecidableEq, Repr

/-! ### Pin engines (12) -/

inductive PeState where
  | disabled | running | waiting | reset
deriving DecidableEq, Repr

/-- What the ticks of an ECLK see of the queues and flags of their engine: as they stood when that ECLK began, since what another
unit changes in a TCLK is seen in later ECLK only (R329). -/
structure PeView where
  tx : List (BitVec 32) := []
  /-- Level of the receive queue. -/
  rx : Nat := 0
  flags : Byte := 0
  /-- FLUSH has emptied the queues since. -/
  flushed : Bool := false
deriving DecidableEq, Repr

/-- A pin engine (R325–R344). -/
structure PinEngine where
  state : PeState := .disabled
  /-- w1c bits [7:0] of STAT (R335). -/
  stat : Byte := 0
  bankA : List (BitVec 24) := List.replicate 48 0
  bankB : List (BitVec 24) := List.replicate 48 0
  active : Bool := false
  swapPending : Bool := false
  addr : Nat := 0
  sr : BitVec 32 := 0
  count : Nat := 0
  lc : BitVec 10 := 0
  tx : List (BitVec 32) := []
  rx : List (BitVec 32) := []
  lastRx : BitVec 32 := 0
  rxv : Bool := false
  flags : Byte := 0
  /-- Window pins: directions and levels driven, bit j. -/
  dirs : Byte := 0
  levels : Byte := 0
  /-- Ticks of the DELAY in progress (R330). -/
  delay : Option Nat := none
  /-- 1,024ths of an ECLK since the last tick, with one ECLK of allowance: the phase of the ticks is open (R326, log entry 117). -/
  phase : Nat := 1024
  /-- The divider of the present tick interval (R326); 0 before the first. -/
  div : Nat := 0
  /-- Ticks of a stall or of a DELAY after its first (R330, R332). -/
  ticks : Nat := 0
  seen : PeView := {}
  /-- Flags set in a TCLK, and that TCLK: a set wins over a clear (R336). -/
  flagSets : Option (Nat × Byte) := none
  /-- P-pins of the window, by P-pin number: readback (R341). -/
  pins : SMap Readback := []
  /-- P-pins whose SHORT is set (R340). -/
  shorts : BitVec 32 := 0
  waitCnt : Byte := 0
  underCnt : Byte := 0
  txCnt : Byte := 0
  rxCnt : Byte := 0
  swapCnt : Byte := 0
  shortCnt : Byte := 0
  lost : Byte := 0
  rec1 : Option Nat := none
  rec2 : Option Nat := none
  rec3 : Option Nat := none
deriving DecidableEq, Repr

/-! ### DMA (13) -/

inductive DmaState where
  | disabled | running | stopped | halted
deriving DecidableEq, Repr

/-- A DMA channel (R345–R358, R371). -/
structure DmaChannel where
  state : DmaState := .disabled
  status : Byte := 0
  remaining : BitVec 32 := 0
  descAddr : BitVec 40 := 0
  failAddr : BitVec 40 := 0
  descCnt : BitVec 32 := 0
  busCnt : Byte := 0
  dropCnt : Byte := 0
  /-- Descriptor in use, 32 bytes, and the current addresses. -/
  desc : List Byte := []
  src : Nat := 0
  dst : Nat := 0
  /-- Bytes of the burst in flight; a fetch or a fence read in progress (R347, R354). -/
  burst : Option Nat := none
  fetching : Bool := false
  fencing : Bool := false
  /-- Software request pending (R347). -/
  soft : Bool := false
  /-- DTIME of the end of the last burst (R347). -/
  endAt : Option Nat := none
deriving DecidableEq, Repr

/-! ### Log (13) -/

/-- A log record before admission (R360, R362). -/
structure LogRec where
  src : BitVec 16
  kind : Byte
  payload : BitVec 32
  dtime : Word
deriving DecidableEq, Repr

/-- Losses of the running episode by cause (R365). -/
structure LossCount where
  source : Nat := 0
  staging : Nat := 0
  ring : Nat := 0
deriving DecidableEq, Repr

/-- The log writer (R360–R369). -/
structure LogUnit where
  /-- Records waiting in their units, by class and unit (R362), oldest first. -/
  waiting : SMap (List LogRec) := []
  /-- The unit whose record was admitted last: waiting units are served round-robin (R362). -/
  lastUnit : Nat := 1023
  /-- Staged records with their sequence, the DTIME of admission, and whether they use the reserve (R363). -/
  staging : List (BitVec 32 × LogRec × Nat × Bool) := []
  nextSeq : BitVec 32 := 0
  head : Nat := 0
  tail : Nat := 0
  count : Nat := 0
  tailSeq : BitVec 32 := 0
  /-- Sequences of the records in the ring as runs (first, length), oldest first. -/
  runs : List (Nat × Nat) := []
  lost : Word := 0
  lossCnt : Byte := 0
  /-- LOSS, OVERWRITE, SEQ_WRAP, LOG_READY (R371). -/
  status : Byte := 0
  /-- DTIME of the first loss of the open episode (R365). -/
  episode : Option Nat := none
  /-- When the next log-loss records are due. -/
  nextLoss : Nat := 0
  counts : LossCount := {}
  /-- Payload of a log start that is the next record admitted (R368). -/
  startDue : Option (BitVec 32) := none
  /-- A flush of staging at a warm reset is in progress (R368). -/
  flushing : Bool := false
  /-- The march test of region 3 holds admission (R368). -/
  testHold : Bool := false
  /-- LPDDR4X is being zeroed (R458). -/
  zeroing : Bool := false
deriving DecidableEq, Repr

/-! ### Interrupts and doze (14) -/

inductive IrqState where
  | idle | pending | activePending | active | held
deriving DecidableEq, Repr

/-- An interrupt group (R374, R375). -/
structure IrqGroup where
  state : IrqState := .idle
  /-- DTIME of the accepted claim and of the end of the hold-off. -/
  claimAt : Nat := 0
  holdEnd : Nat := 0
  entryCnt : Byte := 0
  status : Byte := 0
deriving DecidableEq, Repr

/-- The interrupt controller (R372–R380). -/
structure IrqUnit where
  groups : SMap IrqGroup := []
  /-- LSTATn: refused bits and counters (R377). -/
  lstat : SMap (BitVec 32) := []
  /-- Request latches of clusters 0–7 (R372). -/
  latch : SMap Word := []
  /-- Step Source ID of the last report of code 7 of sequence s (R373). -/
  seqStep : SMap Nat := []
deriving DecidableEq, Repr

/-- Doze (R381–R385). -/
structure DozeUnit where
  requested : Bool := false
  asleep : Bool := false
  /-- A latch has set and the wake is in progress, with the DTIME of the latch. -/
  waking : Bool := false
  wakeAt : Nat := 0
  /-- Latches that have set, by the bits of Wake cause. -/
  latches : Byte := 0
  cause : Byte := 0
  tpin : Byte := 0xFF
  /-- Lowest T-pin latched so far. -/
  tpinLatched : Option Nat := none
  dtime : Word := 0
deriving DecidableEq, Repr

/-! ### Dictionary, networks, host port (15) -/

/-- The device's answer to the last request of a connection (R393). -/
inductive Answer where
  | none
  | done
  | value (data : List Byte)
  | abort (code : BitVec 32)
deriving DecidableEq, Repr

/-- A dictionary connection (R394, R395). -/
structure ConnState where
  unlocked : Bool := false
  wrongKeys : Nat := 0
  lockEnd : Option Nat := none
  lastReq : Nat := 0
  /-- A segmented transfer is in progress (R393). -/
  transfer : Bool := false
  answer : Answer := .none
  lastAlloc : BitVec 16 := 0xFFFF
deriving DecidableEq, Repr

/-- A frame queued on a bus: identifier, data, and the TPDO it belongs to (R405). -/
structure Frame where
  cobId : BitVec 32
  data : List Byte
  tpdo : Option Nat := none
deriving DecidableEq, Repr

/-- LSS slave of a bus (R409). -/
structure LssState where
  configuration : Bool := false
  /-- Node-ID and arbitration code configured and not yet in effect. -/
  nodeId : Option Byte := none
  bitCode : Option Byte := none
  /-- Fastscan position: next LSS address part expected. -/
  scanPart : Nat := 0
deriving DecidableEq, Repr

/-- A heartbeat consumer (R402). -/
structure HbConsumer where
  armed : Bool := false
  last : Nat := 0
deriving DecidableEq, Repr

/-- A CAN bus (R400–R409, R420). -/
structure Bus where
  /-- CANn_TX and CANn_STBY are high impedance with their pull-ups: a reset holds the bus pins (R403). -/
  txHiZ : Bool := true
  stbyHiZ : Bool := true
  /-- Bus status word (R420). -/
  status : BitVec 16 := 0x0003
  rpdoFaultCnt : Byte := 0
  hbTimeoutCnt : Byte := 0
  emcyDropCnt : Byte := 0
  nodeId : Byte := 0xFF
  /-- Rates in use, in kbit/s (R400). -/
  arbRate : Nat := 500
  dataRate : Nat := 0
  emcyQueue : List Frame := []
  /-- End of the EMCY inhibit time (R408). -/
  emcyInhibit : Nat := 0
  /-- DTIME of the last heartbeat (R401). -/
  lastHb : Nat := 0
  consumers : SMap HbConsumer := []
  lss : LssState := {}
  /-- Frames given to the controller, oldest first. -/
  tx : List Frame := []
  /-- LSS bit rate to be used after a store and reset (R409). -/
  storedCode : Byte := 2
  /-- The elements of Source ID with their own status: RPDO and TPDO numbers flagged (R420). -/
  tpdoDrop : BitVec 16 := 0
  rpdoFlag : BitVec 16 := 0
deriving DecidableEq, Repr

/-- TPDO state (R405). -/
structure Tpdo where
  /-- Values last sent. -/
  last : List Byte := []
  lastAt : Option Nat := none
  syncCount : Nat := 0
  /-- A change or timer expiry waits for the inhibit time. -/
  due : Bool := false
  /-- Synchronous frame queued and not yet on the bus. -/
  queued : Bool := false
  /-- Event timer reference instant. -/
  timerFrom : Nat := 0
  /-- To be built from the snapshot being copied, and from the deferred one that follows it (R67, R405). -/
  wantSync : Bool := false
  wantNext : Bool := false
deriving DecidableEq, Repr

/-- RPDO state (R406). -/
structure Rpdo where
  lastAt : Option Nat := none
deriving DecidableEq, Repr

/-- Committed bus objects that are in force since the last reset of COMM reach or wider (R400). -/
structure BusChoice where
  nmtCan1 : Bool := false
  selfStart : Bool := false
  tpdoBus : Nat := 0
  rpdoBus : Nat := 0
  syncBus : Nat := 0
  timeBus : Nat := 0
deriving DecidableEq, Repr

/-- Network management and PDOs (R396–R409). -/
structure NetUnit where
  /-- NMT state by its heartbeat code (R396). -/
  nmt : Byte := 0x00
  /-- DTIME of the last entry to OPERATIONAL: no TPDO is built from a snapshot taken before it (R399). -/
  opAt : Nat := 0
  choice : BusChoice := {}
  buses : SMap Bus := []
  conns : SMap ConnState := []
  tpdos : SMap Tpdo := []
  rpdos : SMap Rpdo := []
  /-- Instant from which the absence of a SYNC is timed (R404), and the end of the open synchronous window (R405). -/
  lastSync : Option Nat := none
  window : Option Nat := none
  /-- Error list 0x1003, newest first (R404, R407). -/
  errors : List (BitVec 32) := []
  /-- Error register bits of flagless rows (R407). -/
  sticky : Byte := 0
  /-- Error register as of its last evaluation (R407). -/
  errReg : Byte := 0
  /-- Expert key (R395). -/
  key : BitVec 32 := 0
deriving DecidableEq, Repr

/-- Host port (R410–R413). -/
structure HostUnit where
  /-- HPSTAT (R412). -/
  stat : BitVec 32 := 0
  cfg : Byte := 0
  /-- HPCFG written and waiting for the next falling edge of chip select (R410). -/
  cfgNext : Option Byte := none
  /-- Bytes delivered by the last read transaction. -/
  lastRead : List Byte := []
deriving DecidableEq, Repr

/-- Mailbox (R414–R418). -/
structure MailUnit where
  session : BitVec 16 := 0
  /-- MBSTAT (R415). -/
  stat : BitVec 32 := 0
  reqProd : Byte := 0
  reqCons : Byte := 0
  rspProd : Byte := 0
  rspCons : Byte := 0
  reqSlots : SMap (List Byte) := []
  rspSlots : SMap (List Byte) := []
  /-- Read buffer of the session (R417): object and copy. -/
  readKey : Key := 0
  readBuf : List Byte := []
  writeKey : Key := 0
  writeBuf : List Byte := []
  writing : Bool := false
  /-- Offset of the segment read last, none before the first (R417). -/
  readAt : Option Nat := none
  /-- Header of the request taken and not yet answered (R415). -/
  taken : Option (List Byte) := none
  /-- Headers of discarded requests whose ABORTED_BY_RESET responses wait for a free slot (R418). -/
  aborts : List (List Byte) := []
deriving DecidableEq, Repr

/-! ### Configuration (16) -/

/-- What a store in progress writes (R426, R428). -/
inductive StoreKind where
  | save (conn : Nat) | restore (conn : Nat) | image (conn : Nat)
deriving DecidableEq, Repr

/-- Contents of MRAM (R421), one byte string per item; empty where nothing valid was ever written. -/
structure Mram where
  baseA : List Byte := []
  baseB : List Byte := []
  recA : List Byte := []
  recB : List Byte := []
  overlays : SMap (List Byte) := []
  microA : List Byte := []
  microB : List Byte := []
  eventImage : List Byte := []
  /-- Journal slots by number (R462). -/
  journal : SMap (List Byte) := []
  /-- Customer area, bytes not 0 by offset (R440). -/
  customer : List Host.Cell := []
deriving DecidableEq, Repr

/-- Base configuration and overlays (R426–R441). -/
structure ConfUnit where
  /-- Configuration status (R441). -/
  status : Byte := 0
  gen : BitVec 16 := 0
  /-- Committed values, where one differs from the table's default. -/
  objs : SMap (Option Val) := []
  active : Nat := 0
  /-- Values of the active overlay (R432). -/
  ovl : List (Key × Val) := []
  pending : Option Nat := none
  refusedCnt : Byte := 0
  lastDtime : Word := 0
  /-- The first latch after arming has not yet come (R435). -/
  tripWatch : Bool := false
  /-- DTIME at which the trip overlay is applied, 1 TCLK after the latch (R435). -/
  tripDue : Option Nat := none
  activeCopy : Byte := 0xFF
  storing : Option (StoreKind × List Byte) := none
  storeCount : BitVec 32 := 0
  imageStatus : Byte := 0
  custOffset : Nat := 0
  resyncStatus : Byte := 0
  /-- Connections waiting for the summary, the snapshot it is built from, and the summary being completed (R437). -/
  resyncConns : List Nat := []
  resyncSeq : BitVec 32 := 0
  summaryNext : List Byte := []
  summary : List Byte := []
deriving DecidableEq, Repr

/-! ### Reset and life-cycle (17) -/

/-- An entry of the journal queue (R462, R463). -/
structure JournalEntry where
  src : BitVec 16
  kind : Byte
  payload : BitVec 32
  dtime : Word
  emcy : BitVec 16
  rgen : BitVec 16
  cgen : BitVec 16
  life : Byte
deriving DecidableEq, Repr

structure JournalUnit where
  queue : List JournalEntry := []
  newest : BitVec 32 := 0
  valid : Nat := 0
  status : Byte := 0
  lossCnt : Byte := 0
  result : List Byte := []
  /-- DTIME of the last entry written (R463). -/
  wroteAt : Option Nat := none
deriving DecidableEq, Repr

/-- Reset controller, life-cycle, watchdog, supply monitor (R442–R466). -/
structure ResetUnit where
  /-- Sources asserted now, by bit (R442): power-on until POWER_ON releases it (R483). -/
  asserted : BitVec 32 := 1
  /-- Sources of the reset in progress, by bit. -/
  sources : BitVec 32 := 1
  /-- Assertion DTIME of each source of the reset in progress, 0 where DTIME does not survive (R450). -/
  srcAt : SMap Nat := []
  /-- From the assertion of a source of WARM reach or wider until PRE-OPERATIONAL (R451). -/
  starting : Bool := true
  /-- Domains held in reset, by the order of R445. -/
  held : List Domain := [.clk, .aon, .prot, .mem, .core, .comm]
  sticky : BitVec 32 := 1
  lastSources : BitVec 32 := 1
  lastReach : Byte := 0
  status : BitVec 16 := 0
  assertDtime : Word := 0
  lastBlock : BitVec 16 := 0xFFFF
  warmCnt : Byte := 0
  blockCnt : Byte := 0
  gen : BitVec 16 := 0
  /-- The start-up after a reset runs; its last steps (R447). -/
  committed : Bool := false
  selfTestDue : Bool := false
  /-- EMCYs due at PRE-OPERATIONAL (R450, R466): code, Source ID and payload of the event's record. -/
  dueEmcy : List (Nat × Nat × Nat) := []
  /-- Sources of the running reset that have their record, and whether it has advanced the generation (R449, R450). -/
  recorded : BitVec 32 := 0
  genDone : Bool := false
  /-- Levels of RESET_N and WARM_N: true while low (R443). -/
  resetLow : Bool := false
  warmLow : Bool := false
  /-- A source that an answered command asserts once its answer is given (R460, R465). -/
  sourceDue : Option Nat := none
  /-- Blocks held in reset, and pulses with the DTIME of their end (R456). -/
  blocks : List Nat := []
  pulses : List (Nat × Nat) := []
  /-- Host-port block reset due (R456). -/
  hostPulseAt : Option Nat := none
  /-- Supervisor watchdog: last service, this run began with a stage-1 reset, stage-1 instants (R452). -/
  wdLast : Nat := 0
  wdFirst : Bool := false
  /-- DTIME at which the supervisor stops in this run, none where it does not (R15; log entry 61). -/
  supEnd : Option Nat := none
  wdStage1 : List Nat := []
  /-- Rails and temperature out of range now: CORE, 18, IO, temperature (R453). -/
  outRange : Byte := 0
  dieTemp : BitVec 16 := 0
  selfTest : Byte := 0
  life : Byte := 0x01
  transitions : BitVec 16 := 0
  wipePending : Bool := false
  wipeStarted : Bool := false
  /-- Life-cycle change to record at PRE-OPERATIONAL (R460): new and old code. -/
  lifeRecord : Option (Byte × Byte) := none
  /-- Double-bit memory error since the last COLD reset (R439). -/
  memError : Bool := false
  /-- Corrected-error counters by region, 16-bit saturating (R24); LPDDR4X is 8, MRAM 9. -/
  corrected : SMap Nat := []
  /-- Size of the fitted LPDDR4X in MiB (R488). -/
  fittedMiB : Nat := 3584
deriving DecidableEq, Repr

/-- All that the spec gives the machine, but the snapshot banks. -/
structure Live where
  time : TimeUnit := {}
  snap : SnapUnit := {}
  conf : ConfUnit := {}
  groups : SMap Group := []
  channels : SMap Channel := []
  tpins : SMap TPin := []
  clusters : SMap Cluster := []
  micro : MicroUnit := {}
  events : EventUnit := {}
  wheels : SMap Wheel := []
  ports : SMap Port := []
  pairs : SMap Pair := []
  pwm : PwmUnit := {}
  trips : SMap TripInput := []
  analog : AnalogUnit := {}
  engines : SMap PinEngine := []
  dma : SMap DmaChannel := []
  /-- Channel served last in each priority level (R353), and DMA writes into the DMA unit's control space that have yet to act (R351). -/
  dmaLast : SMap Nat := []
  dmaPosted : List (Nat × Word) := []
  log : LogUnit := {}
  irq : IrqUnit := {}
  doze : DozeUnit := {}
  net : NetUnit := {}
  host : HostUnit := {}
  mail : MailUnit := {}
  mram : Mram := {}
  journal : JournalUnit := {}
  rst : ResetUnit := {}
  /-- Region 7 and LPDDR4X by fabric address (R22), in canonical form: an unlisted byte reads 0. -/
  mem : List Host.Cell := []
  /-- Flags that hardware has set in this TCLK, by the object or register of their word: a clearing write leaves them (R84). -/
  flagsNow : SMap Nat := []
  /-- The model's own counter of free values drawn (log entry 3). -/
  freeIdx : Nat := 0
deriving DecidableEq, Repr

/-- A snapshot bank: its number, its freeze instant and every process value as it stood (R64, R66, R68). -/
structure Bank where
  seq : BitVec 32
  dtime : Word
  frozen : Live
deriving DecidableEq, Repr

/-- The state of the block. -/
structure State where
  live : Live := {}
  /-- The device as the TCLK found it, which a snapshot of the TCLK freezes (R64). -/
  start : Live := {}
  /-- Published bank (R68). -/
  published : Option Bank := none
  /-- Bank being filled (R67). -/
  filling : Option Bank := none
  /-- Bank held by the host and the DTIME of the hold (R70). -/
  held : Option (Bank × Nat) := none
  /-- Commands waiting, first in first out. -/
  pending : List Instr := []
deriving DecidableEq, Repr

/-- Faults: the step stops and the device is not modelled further on. -/
inductive Fault where
  /-- Raised by the meaning of a command that `Instr.wf` refuses: no such command can reach the device (safe). -/
  | illFormed (mnemonic : String)
deriving DecidableEq, Repr

/-- Refusals. -/
inductive Refusal where
  /-- Raised by the arm of a command that has no meaning yet (safe). -/
  | notModelled (mnemonic : String)
deriving DecidableEq, Repr

/-- The device as delivered, unpowered and before POWER_ON (R459: delivered in BLANK). -/
def State.reset : State := {}

end Sys2Proof.Machine
end

