-- ==== Sys2Proof/Machine/Ops.lean ====
section
/-! DEFINITION. The named operations over the state that every family shares: time, accessors, free values, memory, values
of configuration objects, log records, journal entries and EMCY frames. -/

namespace Sys2Proof.Machine

open Sys2Proof

/-! ### Time and free values -/

/-- DTIME as a number (R34). -/
def Live.now (l : Live) : Nat := l.time.dtime.toNat

/-- STAMP48 (R34). -/
def Live.stamp (l : Live) : Stamp := l.time.dtime.setWidth 48

/-- ATIME in ticks since 0 s (R40). -/
def Live.aticks (l : Live) : Nat := l.time.seconds.toNat * 400000000 + l.time.tick

/-- ATIME as the 64-bit word of R40. -/
def Live.atime (l : Live) : Word := BitVec.ofNat 64 (l.time.seconds.toNat * 2 ^ 29 + l.time.tick)

/-- A stamp widened with DTIME (R39). -/
def Live.widen (l : Live) (c : Stamp) : Nat := Machine.widen l.now c.toNat

/-- An edge has been in a filter of f TCLK for the f + 2 TCLK after which it is applied (R211, R235, R260; log entry 99). -/
def settled (l : Live) (f : Nat) (c : Stamp) : Bool := decide (l.widen c + f + 2 ≤ l.now)

/-- Draws a free value (log entry 3). -/
def drawFree (l : Live) : Word × Live := (Config.freeValue l.freeIdx, { l with freeIdx := l.freeIdx + 1 })

/-! ### Flags set in this TCLK (R84) -/

/-- Key of an object. -/
def key (idx sub : Nat) : Key := idx * 256 + sub

/-- The register of the host port at an offset, beside the keys of objects. -/
def hostReg (off : Nat) : Nat := 0x1000000 + off

/-- Hardware sets flags of a status word. -/
def noteFlags (k m : Nat) (l : Live) : Live := { l with flagsNow := l.flagsNow.put 0 k (l.flagsNow.get 0 k ||| m) }

/-- Hardware sets a flag of a status object. -/
def noteBit (idx s b : Nat) (l : Live) : Live := noteFlags (key idx s) (2 ^ b) l

/-- Flags of the snapshot status set by hardware (R88). -/
def snapFlags (m : Nat) (l : Live) : Live :=
  noteFlags (key 0x3C80 3) m { l with snap := { l.snap with status := l.snap.status ||| BitVec.ofNat 8 m } }

/-- What a clearing write of a status word clears: not the flags that hardware has set in the same TCLK. -/
def clearable (l : Live) (k v : Nat) : Nat := v ^^^ (v &&& l.flagsNow.get 0 k)

/-- A quotient whose rounding the spec does not state: its floor or one more (log entry 5). -/
def divFree (num : Int) (den : Nat) : Int :=
  if den = 0 then 0
  else if num % (den : Int) = 0 then num / (den : Int)
  else num / (den : Int) + (if Config.roundUp num den then 1 else 0)

/-! ### Accessors of the sparse arrays -/

def Live.chan (l : Live) (c : Nat) : Channel := l.channels.get {} c
def Live.setChan (l : Live) (c : Nat) (x : Channel) : Live := { l with channels := l.channels.put {} c x }
def Live.updChan (l : Live) (c : Nat) (f : Channel → Channel) : Live := l.setChan c (f (l.chan c))
def Live.tpin (l : Live) (n : Nat) : TPin := l.tpins.get {} n
def Live.setTpin (l : Live) (n : Nat) (x : TPin) : Live := { l with tpins := l.tpins.put {} n x }
def Live.updTpin (l : Live) (n : Nat) (f : TPin → TPin) : Live := l.setTpin n (f (l.tpin n))
def Live.cluster (l : Live) (k : Nat) : Cluster := l.clusters.get {} k
def Live.setCluster (l : Live) (k : Nat) (x : Cluster) : Live := { l with clusters := l.clusters.put {} k x }
def Live.updCluster (l : Live) (k : Nat) (f : Cluster → Cluster) : Live := l.setCluster k (f (l.cluster k))
def Live.group (l : Live) (g : Nat) : Group := l.groups.get {} g
def Live.setGroup (l : Live) (g : Nat) (x : Group) : Live := { l with groups := l.groups.put {} g x }
def Live.updGroup (l : Live) (g : Nat) (f : Group → Group) : Live := l.setGroup g (f (l.group g))
def Live.entry (l : Live) (e : Nat) : EvEntry := l.events.entries.get {} e
def Live.setEntry (l : Live) (e : Nat) (x : EvEntry) : Live :=
  { l with events := { l.events with entries := l.events.entries.put {} e x } }
def Live.updEntry (l : Live) (e : Nat) (f : EvEntry → EvEntry) : Live := l.setEntry e (f (l.entry e))
def Live.queue (l : Live) (q : Nat) : EvQueue := l.events.queues.get {} q
def Live.setQueue (l : Live) (q : Nat) (x : EvQueue) : Live :=
  { l with events := { l.events with queues := l.events.queues.put {} q x } }
def Live.updQueue (l : Live) (q : Nat) (f : EvQueue → EvQueue) : Live := l.setQueue q (f (l.queue q))
def Live.wheel (l : Live) (w : Nat) : Wheel := l.wheels.get {} w
def Live.setWheel (l : Live) (w : Nat) (x : Wheel) : Live := { l with wheels := l.wheels.put {} w x }
def Live.updWheel (l : Live) (w : Nat) (f : Wheel → Wheel) : Live := l.setWheel w (f (l.wheel w))
def Live.port (l : Live) (n : Nat) : Port := l.ports.get {} n
def Live.setPort (l : Live) (n : Nat) (x : Port) : Live := { l with ports := l.ports.put {} n x }
def Live.updPort (l : Live) (n : Nat) (f : Port → Port) : Live := l.setPort n (f (l.port n))
def Live.pair (l : Live) (u : Nat) : Pair := l.pairs.get {} u
def Live.setPair (l : Live) (u : Nat) (x : Pair) : Live := { l with pairs := l.pairs.put {} u x }
def Live.updPair (l : Live) (u : Nat) (f : Pair → Pair) : Live := l.setPair u (f (l.pair u))
def Live.trip (l : Live) (i : Nat) : TripInput := l.trips.get {} i
def Live.setTrip (l : Live) (i : Nat) (x : TripInput) : Live := { l with trips := l.trips.put {} i x }
def Live.updTrip (l : Live) (i : Nat) (f : TripInput → TripInput) : Live := l.setTrip i (f (l.trip i))
def Live.anIn (l : Live) (a : Nat) : AnInput := l.analog.inputs.get {} a
def Live.setAnIn (l : Live) (a : Nat) (x : AnInput) : Live :=
  { l with analog := { l.analog with inputs := l.analog.inputs.put {} a x } }
def Live.updAnIn (l : Live) (a : Nat) (f : AnInput → AnInput) : Live := l.setAnIn a (f (l.anIn a))
def Live.conv (l : Live) (k : Nat) : Converter := l.analog.convs.get {} k
def Live.setConv (l : Live) (k : Nat) (x : Converter) : Live :=
  { l with analog := { l.analog with convs := l.analog.convs.put {} k x } }
def Live.updConv (l : Live) (k : Nat) (f : Converter → Converter) : Live := l.setConv k (f (l.conv k))
def Live.seq (l : Live) (s : Nat) : Sequence := l.analog.seqs.get {} s
def Live.setSeq (l : Live) (s : Nat) (x : Sequence) : Live :=
  { l with analog := { l.analog with seqs := l.analog.seqs.put {} s x } }
def Live.updSeq (l : Live) (s : Nat) (f : Sequence → Sequence) : Live := l.setSeq s (f (l.seq s))
def Live.pe (l : Live) (e : Nat) : PinEngine := l.engines.get {} e
def Live.setPe (l : Live) (e : Nat) (x : PinEngine) : Live := { l with engines := l.engines.put {} e x }
def Live.updPe (l : Live) (e : Nat) (f : PinEngine → PinEngine) : Live := l.setPe e (f (l.pe e))
def Live.dc (l : Live) (c : Nat) : DmaChannel := l.dma.get {} c
def Live.setDc (l : Live) (c : Nat) (x : DmaChannel) : Live := { l with dma := l.dma.put {} c x }
def Live.updDc (l : Live) (c : Nat) (f : DmaChannel → DmaChannel) : Live := l.setDc c (f (l.dc c))
def Live.irqGroup (l : Live) (g : Nat) : IrqGroup := l.irq.groups.get {} g
def Live.setIrqGroup (l : Live) (g : Nat) (x : IrqGroup) : Live :=
  { l with irq := { l.irq with groups := l.irq.groups.put {} g x } }
def Live.bus (l : Live) (b : Nat) : Bus := l.net.buses.get {} b
def Live.setBus (l : Live) (b : Nat) (x : Bus) : Live :=
  { l with net := { l.net with buses := l.net.buses.put {} b x } }
def Live.updBus (l : Live) (b : Nat) (f : Bus → Bus) : Live := l.setBus b (f (l.bus b))

/-- Number of a connection in maps: 128 × bus + client, 256 for the host port (R394). In classical mode the SDO server of
the bus is its one connection; the request then bears client 0. -/
def connId : Conn → Nat
  | .can b c => 128 * b.val + c.toNat
  | .host => 256

def Live.connSt (l : Live) (i : Nat) : ConnState := l.net.conns.get {} i
def Live.setConnSt (l : Live) (i : Nat) (x : ConnState) : Live :=
  { l with net := { l.net with conns := l.net.conns.put {} i x } }
def Live.updConnSt (l : Live) (i : Nat) (f : ConnState → ConnState) : Live := l.setConnSt i (f (l.connSt i))

/-- Applies an operation for each number of a list. -/
def forAll {α : Type} (f : α → Live → Live) : List α → Live → Live
  | [], l => l
  | x :: r, l => forAll f r (f x l)

/-- Records an answer on a connection. -/
def answer (i : Nat) (a : Answer) (l : Live) : Live := l.updConnSt i (fun c => { c with answer := a })

/-! ### Fabric memory: region 7 and LPDDR4X (R22) -/

abbrev Memory := List Host.Cell

/-- What an address that is not listed reads as: RAM is wiped to zero (R458; log entry 8). -/
def Memory.unlisted : Byte := 0

/-- The canonical form: addresses strictly rising, no entry equal to what an unlisted address reads as. -/
abbrev Memory.wf (m : Memory) : Bool := SMap.wf Memory.unlisted m

/-- One byte of memory. -/
def readByte (m : Memory) (a : Nat) : Byte := SMap.get Memory.unlisted m a

/-- One byte written. -/
def writeByte (m : Memory) (a : Nat) (b : Byte) : Memory := SMap.put Memory.unlisted m a b

/-- n bytes from an address, lowest first. -/
def readBytes (m : Memory) (a : Nat) : Nat → List Byte
  | 0 => []
  | n + 1 => readByte m a :: readBytes m (a + 1) n

/-- Bytes written from an address up. -/
def writeBytes (m : Memory) (a : Nat) : List Byte → Memory
  | [] => m
  | b :: r => writeBytes (writeByte m a b) (a + 1) r

/-- Bytes of a span set to zero: a wipe (R458). -/
def wipeSpan (m : Memory) (lo hi : Nat) : Memory := m.filter (fun e => decide (e.1 < lo ∨ hi ≤ e.1))

/-- First address of region 7 and its size (R22). -/
def tableBase : Nat := 0x00100000
def tableSize : Nat := 901120
/-- First address of LPDDR4X (R22). -/
def lpddrBase : Nat := 0x100000000

/-- Fitted LPDDR4X ends here (R22, R488). -/
def lpddrEnd (l : Live) : Nat := lpddrBase + l.rst.fittedMiB * 1048576

/-- The address lies in region 7. -/
def inTables (a n : Nat) : Bool := tableBase ≤ a && a + n ≤ tableBase + tableSize

/-- The address lies in fitted LPDDR4X. -/
def inLpddr (l : Live) (a n : Nat) : Bool := lpddrBase ≤ a && a + n ≤ lpddrEnd l

/-! ### Values of configuration objects (R73, R432) -/

/-- The key under which a value is stored: a basic object with a raw mirror is held raw (R112, R391). -/
def storeKey (k : Key) : Key :=
  let idx := k / 256
  let sub := k % 256
  if 0x2200 ≤ idx ∧ idx < 0x2400 ∧ 0x10 ≤ sub ∧ sub < 0x20 then key (idx + 0x2000) sub
  else if 0x2400 ≤ idx ∧ idx < 0x2418 ∧ 3 ≤ sub ∧ sub ≤ 6 then key (idx + 0x2000) (sub + 0x1D)
  else if 0x2700 ≤ idx ∧ idx < 0x2730 ∧ (sub = 3 ∨ sub = 4) then key (idx + 0x2000) (sub + 0x1D)
  else k

/-- Default of an object by the tables; communication defaults that name the node-ID are formed in the dictionary. -/
def dfltOf (k : Key) : Nat := match objRow (k / 256) (k % 256) with
  | some r => r.default (k / 256)
  | none => 0

/-- Default of an object of bytes: a program of 48 NOPs, a descriptor of zeros, else no bytes (R344, R370). -/
def dfltBytes (k : Key) : List Byte :=
  if 0x2900 ≤ k / 256 ∧ k / 256 < 0x2910 ∧ k % 256 = 0x0D then List.replicate 144 0
  else if 0x2A00 ≤ k / 256 ∧ k / 256 < 0x2A20 ∧ k % 256 = 3 then List.replicate 32 0
  else []

/-- The base value of a stored object, in stored form (R432). -/
def Live.baseVal (l : Live) (k : Key) : Val := match l.conf.objs.get none k with
  | some v => v
  | none => match objRow (k / 256) (k % 256) with
    | some r => if r.bits = 0 then .bytes (dfltBytes k) else .num (r.default (k / 256))
    | none => .num 0

/-- The value in force: the active overlay's delta, or the base value (R432). -/
def Live.val (l : Live) (k : Key) : Val := match l.conf.ovl.find? (fun e => e.1 = k) with
  | some e => e.2
  | none => l.baseVal k

def Val.toNat : Val → Nat
  | .num n => n
  | .bytes b => ofBytesLE b

def Val.toBytes : Val → List Byte
  | .num _ => []
  | .bytes b => b

/-- A number in force. -/
def Live.cfg (l : Live) (idx sub : Nat) : Nat := (l.val (key idx sub)).toNat

/-- A flag in force. -/
def Live.flag (l : Live) (idx sub : Nat) : Bool := l.cfg idx sub ≠ 0

/-- A signed number in force, of the width its table gives. -/
def Live.cfgS (l : Live) (idx sub : Nat) : Int := match objRow idx sub with
  | some r => toSigned r.bits (l.cfg idx sub)
  | none => 0

/-- Sets a base value. -/
def Live.setBase (l : Live) (k : Key) (v : Val) : Live :=
  { l with conf := { l.conf with objs := l.conf.objs.put none k (some v) } }

/-! ### Log records (R360–R365) -/

/-- Kinds that may use the staging reserve (R361); kind 0x58 with code 3 only. -/
def reserveKind (r : LogRec) : Bool :=
  let k := r.kind.toNat
  k = 0x10 || k = 0x23 || k = 0x24 || k = 0x50 || k = 0x51 || k = 0x52 || (k = 0x58 && field r.payload.toNat 31 24 = 3)
    || k = 0x60 || k = 0x68 || k = 0x69 || k = 0x70 || k = 0x74 || k = 0x75 || k = 0x76

/-- Whether the log is enabled (R368). -/
def Live.logOn (l : Live) : Bool := l.flag 0x2A40 0x01

/-- A record is lost by a cause: 1 source, 2 staging, 3 ring overwrite (R365). -/
def lose (cause : Nat) (n : Nat) (l : Live) : Live :=
  if n = 0 then l else
  let g := l.log
  let c := g.counts
  let c' := if cause = 1 then { c with source := c.source + n } else if cause = 2 then { c with staging := c.staging + n }
    else { c with ring := c.ring + n }
  let g' := { g with lost := g.lost + BitVec.ofNat 64 n, counts := c', status := setBit g.status 0 }
  let l := noteBit 0x3A40 1 0 l
  match g.episode with
  | some _ => { l with log := g' }
  | none => { l with log := { g' with episode := some l.now, nextLoss := l.now + 400000, lossCnt := g.lossCnt + 1 } }

/-- Unit of a Source ID for the log writer: class and unit (R362). -/
def logUnitOf (src : BitVec 16) : Nat := src.toNat / 64

/-- Writes a log record: it waits in its unit for admission, or is lost with cause 1 (R362). While Log enable is 0 no record
is admitted and nothing is counted (R368): the record is dropped. -/
def writeRecordAt (dtime : Nat) (src : Nat) (kind : Nat) (payload : Nat) (l : Live) : Live :=
  if !l.logOn then l else
  let r : LogRec := ⟨BitVec.ofNat 16 src, BitVec.ofNat 8 kind, BitVec.ofNat 32 payload, BitVec.ofNat 64 dtime⟩
  let u := logUnitOf r.src
  let w := l.log.waiting.get [] u
  if w.length < 16 then { l with log := { l.log with waiting := l.log.waiting.put [] u (w ++ [r]) } }
  else lose 1 1 l

/-- A record whose DTIME is the present TCLK. -/
def writeRecord (src kind payload : Nat) (l : Live) : Live := writeRecordAt l.now src kind payload l

/-! ### Fault journal (R462, R463) -/

/-- Enters an event of an instant in the journal queue, or counts its loss (R463). -/
def journalAt (dtime : Word) (src kind payload emcy : Nat) (l : Live) : Live :=
  let j := l.journal
  if j.queue.length < 64 then
    let e : JournalEntry := ⟨BitVec.ofNat 16 src, BitVec.ofNat 8 kind, BitVec.ofNat 32 payload, dtime,
      BitVec.ofNat 16 emcy, l.rst.gen, l.conf.gen, l.rst.life⟩
    { l with journal := { j with queue := j.queue ++ [e] } }
  else noteBit 0x5E20 5 0 { l with journal := { j with status := setBit j.status 0, lossCnt := j.lossCnt + 1 } }

/-- As `journalAt`, in the present TCLK. -/
def journal (src kind payload emcy : Nat) (l : Live) : Live := journalAt l.time.dtime src kind payload emcy l

/-- The mean of a Boolean reduction over numbers below n. -/
def anyBelow (n : Nat) (f : Nat → Bool) : Bool := (List.range n).any f

/-- Shared by every 1 ms limit on records (R297, R322, R340): the last one lies at least 400,000 TCLK back. -/
def recordDue (l : Live) (last : Option Nat) : Bool := match last with
  | none => true
  | some t => decide (t + 400000 ≤ l.now)

/-- The pin-level of a Bool as 0 or 1. -/
def lvl (b : Bool) : Nat := b2n b

end Sys2Proof.Machine
end

