-- ==== Sys2Proof/Machine/Flags.lean ====
section
/-! DEFINITION. Everything computed from status flags: interrupt source lines (R372, R373), the error register (R407) and
the fault bitmap (R439). -/

namespace Sys2Proof.Machine

open Sys2Proof

/-- A word has some bit of a mask. -/
def anyMask {w : Nat} (x : BitVec w) (m : Nat) : Bool := (x &&& BitVec.ofNat w m) ≠ 0

/-! ### Interrupt source lines -/

/-- Direction of a channel's last bus error (R371). -/
def DmaChannel.dir (d : DmaChannel) : Nat := field d.status.toNat 7 6

/-- Source line of DMA channel c, element e (R369). -/
def dmaLine (l : Live) (c e : Nat) : Bool :=
  let d := l.dc c
  if e = 0 then anyMask d.status 0b1101
  else if e = 1 then bitOf d.status.toNat 1 && d.dir ≠ 1
  else if e = 2 then bitOf d.status.toNat 1 && d.dir = 1
  else false

/-- Source line of a feedback port element (R264, R258, R260). -/
def portLine (l : Live) (n e : Nat) : Bool :=
  let p := l.port n
  let s := p.status.toNat
  if e = 0 then anyMask p.status 0xF804
  else if e = 1 then bitOf s 8 && p.stuck.getLsbD 0
  else if e = 2 then bitOf s 8 && p.stuck.getLsbD 1
  else if e = 3 then anyMask p.status 0x0600 || (bitOf s 8 && p.stuck.getLsbD 2)
  else if e = 4 then bitOf s 16
  else if e = 5 then bitOf s 0
  else if e = 8 then bitOf s 1
  else if e = 9 then anyMask p.status 0x00F8
  else false

/-- Source line of a PWM pair element (R297). -/
def pairLine (l : Live) (u e : Nat) : Bool :=
  let p := l.pair u
  if e = 0 then anyMask p.status 0x109E
  else if e = 1 then bitOf p.status.toNat 5
  else bitOf p.status.toNat 6

/-- Source line of a bus element (R420). -/
def busLine (l : Live) (b e : Nat) : Bool :=
  let s := (l.bus b).status
  if e = 0 then anyMask s 0x0038
  else if e = 1 then bitOf s.toNat 2
  else if e = 3 then bitOf s.toNat 11
  else if e = 5 then bitOf s.toNat 7
  else if e = 6 then bitOf s.toNat 6
  else if 16 ≤ e ∧ e < 32 then bitOf s.toNat 8 && (l.bus b).tpdoDrop.getLsbD (e - 16)
  else if 32 ≤ e ∧ e < 48 then anyMask s 0x0600 && (l.bus b).rpdoFlag.getLsbD (e - 32)
  else false

/-- The source line of group g with number n within it (R372, R373). -/
def sourceLine (l : Live) (g n : Nat) : Bool :=
  if g < 8 then
    decide (n < 64) && ((l.irq.latch.get 0 g).getLsbD n || (l.chan (64 * g + n)).thread = .runaway)
  else match g with
  | 8 =>
    let k := n / 4
    let e := n % 4
    decide (n < 32) && (if e = 1 then bitOf (l.cluster k).status.toNat 2 || (l.cluster k).loadFault
      else if e = 2 then bitOf (l.cluster k).status.toNat 1 else false)
  | 9 => decide (n < 48) && pairLine l (n / 3) (n % 3)
  | 10 => decide (n < 24) && pairLine l (16 + n / 3) (n % 3)
  | 11 =>
    if n < 16 then anyMask (l.trip n).status 0x07
    else if n = 32 then bitOf l.pwm.status.toNat 3
    else if n = 33 then bitOf l.pwm.status.toNat 4
    else decide (n = 63) && anyMask l.pwm.status 0x07
  | 20 =>
    let s := (l.wheel (n / 16)).status
    let e := n % 16
    decide (n < 64) && (if e = 0 then anyMask s 0x0193 else if e = 1 then anyMask s 0x000C
      else if e = 2 then anyMask s 0x0060 else false)
  | 21 => decide (n < 48) && anyMask (l.anIn n).status 0x1F
  | 22 =>
    if n < 16 then
      let s := (l.conv (n / 4)).status
      if n % 4 = 1 then anyMask s 0x03 else if n % 4 = 2 then anyMask s 0x08 else false
    else if n < 20 then anyMask (l.seq (n - 16)).status 0x06
    else decide (n = 63) && anyMask l.analog.status 0x18
  | 23 =>
    let s := (l.pe (n / 4)).stat
    let e := n % 4
    decide (n < 64) && (if e = 0 then anyMask s 0x71 else if e = 1 then anyMask s 0x06
      else if e = 2 then anyMask s 0x08 else false)
  | 24 => decide (n < 32) && anyBelow 16 (fun e => (l.pe e).shorts.getLsbD n)
  | 25 => decide (n < 64) && dmaLine l (n / 4) (n % 4)
  | 26 => decide (n < 64) && dmaLine l (16 + n / 4) (n % 4)
  | 27 => if n = 0 then bitOf l.log.status.toNat 1 else decide (n = 1) && bitOf l.log.status.toNat 0
  | 28 =>
    if n = 63 then anyMask l.events.poolStatus 0x03
    else
      let s := (l.queue (n / 4)).status
      let e := n % 4
      if e = 0 then bitOf s.toNat 4 else if e = 1 then bitOf s.toNat 3 else if e = 2 then anyMask s 0x07 else false
  | 29 =>
    let s := l.time.status
    if n = 1 then anyMask s 0x03 else if n = 2 then anyMask s 0x1C else decide (n = 5) && bitOf s.toNat 8
  | 30 => busLine l 0 n
  | 31 => busLine l 1 n
  | 32 => if n = 0 then anyMask l.host.stat 0x1F else decide (n = 1) && anyMask l.mail.stat 0x0F
  | 35 => decide (n = 0) && anyMask l.conf.status 0x7F
  | 36 => decide (n < 32) && l.rst.sticky.getLsbD n
  | 37 => if n = 0 then bitOf l.rst.status.toNat 5 else decide (n = 1) && anyMask l.journal.status 0x03
  | 38 => if n = 1 then bitOf l.rst.status.toNat 4 else if n = 2 then bitOf l.rst.status.toNat 0
    else decide (n = 3) && anyMask l.rst.status 0x00C0
  | 39 => decide (n = 0) && anyMask l.doze.cause 0xBF
  | _ => decide (12 ≤ g ∧ g ≤ 19) && portLine l (g - 12) n

/-- The source lines of a group as a 64-bit word: LINESg (R377). -/
def groupLines (l : Live) (g : Nat) : Word := BitVec.ofNat 64 (maskOf ((List.range 64).map (sourceLine l g)))

/-- The enabled lines of a group (R374). -/
def enabledLines (l : Live) (g : Nat) : Word := groupLines l g &&& BitVec.ofNat 64 (l.cfg (0x2B00 + g) 1)

/-- The Source ID of line n of group g (R373). -/
def lineSource (l : Live) (g n : Nat) : Nat :=
  if g < 8 then 0x1000 + 0x40 * g + n
  else match g with
  | 8 => 0x1800 + 0x40 * (n / 4) + n % 4
  | 9 => 0x2000 + 0x40 * (n / 3) + n % 3
  | 10 => if n = 63 then 0x2FC0 else 0x2000 + 0x40 * (16 + n / 3) + n % 3
  | 11 => 0x3000 + n
  | 20 => 0x5000 + 0x40 * (n / 16) + n % 16
  | 21 => 0x6200 + n
  | 22 => if n < 16 then 0x6000 + 0x40 * (n / 4) + n % 4
    else if n < 20 then 0x6400 + 0x40 * (n - 16) + l.irq.seqStep.get 0 (n - 16) else 0x6FC0
  | 23 => 0x7000 + 0x40 * (n / 4) + n % 4
  | 24 => match (List.range 16).find? (fun e => (l.pe e).shorts.getLsbD n) with
    | some e => 0x7000 + 0x40 * e + 32 + n
    | none => 0x7000 + 32 + n
  | 25 => 0x8000 + 0x40 * (n / 4) + n % 4
  | 26 => 0x8000 + 0x40 * (16 + n / 4) + n % 4
  | 27 => 0x8F80 + n
  | 28 => if n = 63 then 0x9FC0 else 0x9000 + 0x40 * (n / 4) + n % 4
  | 29 => 0xA000 + n
  | 30 => 0xB000 + n
  | 31 => 0xB040 + n
  | 32 => 0xC000 + n
  | 33 => if n < 16 then 0xD000 + n else if n = 16 then 0xD040 else 0xD080 + (n - 32)
  | 34 => 0xE800 + n
  | 35 => if n = 33 then 0xE840 else 0xE000 + 0x40 * n
  | 36 => 0xF000 + n
  | 37 => 0xF040 + 0x40 * n
  | 38 => n
  | 39 => 0
  | _ => 0x4000 + 0x40 * (g - 12) + n

/-! ### Error register (R407) -/

/-- The disarm cause is class A (R293). -/
def classADisarm (l : Live) : Bool :=
  let c := field l.pwm.status.toNat 15 12
  bitOf l.pwm.status.toNat 0 && (c = 2 || c = 3 || c = 4 || c = 5 || c = 8)

/-- An output is released as shorted: row 0x2300 of R407. -/
def shortFlag (l : Live) : Bool :=
  anyBelow 24 (fun u => anyMask (l.pair u).status 0x60) || anyMask l.pwm.status 0x18
    || anyBelow 16 (fun e => (l.pe e).shorts ≠ 0)

/-- A flag of a row with register bit 7. -/
def errBit7 (l : Live) : Bool :=
  bitOf l.time.status.toNat 8
  || anyBelow 24 (fun u => anyMask (l.pair u).status 0x1002)
  || anyBelow 4 (fun k => bitOf (l.conv k).status.toNat 3) || anyMask l.analog.status 0x18
  || anyBelow 8 (fun k => bitOf (l.cluster k).status.toNat 2)
  || anyBelow 16 (fun i => bitOf (l.trip i).status.toNat 3) || classADisarm l
  || anyBelow 32 (fun c => bitOf (l.dc c).status.toNat 1) || bitOf l.log.status.toNat 0
  || anyMask l.rst.status 0x003C || bitOf l.journal.status.toNat 0

/-- A flag of a row with register bit 5: feedback and open wire. -/
def errBit5 (l : Live) : Bool :=
  anyBelow 8 (fun n => anyMask (l.port n).status 0xE800) || anyBelow 48 (fun a => bitOf (l.anIn a).status.toNat 2)

/-- The error register without bit 0. -/
def errorBits (l : Live) : Nat :=
  maskOf [false, shortFlag l || anyBelow 48 (fun a => bitOf (l.anIn a).status.toNat 4),
    anyMask l.rst.status 0x0140, anyMask l.rst.status 0x0280,
    anyBelow 2 (fun b => anyMask (l.bus b).status 0x0EB8), errBit5 l, false, errBit7 l]

/-- The error register 0x1001 (R407). -/
def errorRegister (l : Live) : Byte :=
  let r := BitVec.ofNat 8 (errorBits l) ||| clrBit l.net.sticky 0
  if r = 0 then 0 else setBit r 0

/-! ### Fault bitmap (R439) -/

def wheelsAny (l : Live) (m : Nat) : Bool := anyBelow 4 (fun w => anyMask (l.wheel w).status m)
def portsAny (l : Live) (m : Nat) : Bool := anyBelow 8 (fun n => anyMask (l.port n).status m)
def queuesAny (l : Live) (m : Nat) : Bool := anyBelow 16 (fun q => anyMask (l.queue q).status m)
def busesAny (l : Live) (m : Nat) : Bool := anyBelow 2 (fun b => anyMask (l.bus b).status m)
def clustersAny (l : Live) (m : Nat) : Bool := anyBelow 8 (fun k => anyMask (l.cluster k).status m)
def pairsAny (l : Live) (m : Nat) : Bool := anyBelow 24 (fun u => anyMask (l.pair u).status m)

/-- Bits 0–15 of the fault bitmap. -/
def faultsA (l : Live) : List Bool :=
  [anyBelow 16 (fun i => bitOf (l.trip i).status.toNat 3), anyBelow 48 (fun a => bitOf (l.anIn a).status.toNat 4),
   anyBelow 24 (fun u => (l.pair u).state = .tripped),
   anyBelow 192 (fun n => bitOf (l.tpin n).status.toNat 1) || shortFlag l || portsAny l 0x10000,
   bitOf l.time.status.toNat 8, bitOf l.time.status.toNat 9, l.time.disc = .holdover, anyMask l.time.status 0x1C,
   anyBelow 8 (fun k => (l.cluster k).state = 2), clustersAny l 0x20, clustersAny l 0x40, clustersAny l 0x01,
   wheelsAny l 0x10, wheelsAny l 0x60,
   anyBelow 8 (fun n => (l.port n).state = .lost || bitOf (l.port n).status.toNat 15),
   anyBelow 8 (fun n => (l.port n).state ≠ .off && bitOf (l.port n).status.toNat 18)]

/-- Bits 16–39 of the fault bitmap. -/
def faultsB (l : Live) : List Bool :=
  [portsAny l 0x4180, anyBelow 48 (fun a => bitOf (l.anIn a).status.toNat 2),
   anyBelow 4 (fun k => bitOf (l.conv k).status.toNat 3 || (bitOf (l.conv k).status.toNat 2 && l.flag (0x2730 + k) 1)),
   anyMask l.analog.status 0x18, pairsAny l 0x1000, pairsAny l 0x0C, queuesAny l 0x07,
   queuesAny l 0x08 || anyMask l.events.poolStatus 0x03,
   anyBelow 32 (fun c => anyMask (l.dc c).status 0x06), bitOf l.log.status.toNat 0, bitOf l.log.status.toNat 1,
   l.logOn && !bitOf l.log.status.toNat 4,
   l.rst.memError, busesAny l 0x30, busesAny l 0x880, busesAny l 0x700,
   anyMask l.host.stat 0x1F, anyMask l.mail.stat 0x0E, anyBelow 16 (fun e => anyMask (l.pe e).stat 0x2E),
   anyBelow 64 (fun g => anyMask (l.group g).status 0x03),
   bitOf l.conf.status.toNat 2, bitOf l.conf.status.toNat 0, anyMask l.rst.status 0x300, bitOf l.rst.status.toNat 3]

/-- The fault bitmap. -/
def faultBitmap (l : Live) : Nat := maskOf (faultsA l ++ faultsB l)

end Sys2Proof.Machine
end

