-- ==== Sys2Proof/Machine/Reports.lean ====
section
/-! DEFINITION. EMCY frames, the error list and the error register (R407, R408), fault journal with its loss report (R463,
R466), and the combined report of a fault. -/

namespace Sys2Proof.Machine

open Sys2Proof

/-- COB-ID EMCY of a bus, per bus (R404): CAN1 holds its own value under a key of the model's. -/
def cobEmcy (l : Live) (b : Nat) : Nat := match l.conf.objs.get none (key 0x1014 b) with
  | some v => v.toNat
  | none => 0x80 + (l.bus b).nodeId.toNat

/-- NMT states in which EMCY and PDO services run (R396). -/
def nmtPre : Byte := 0x7F
def nmtOp : Byte := 0x05
def nmtStop : Byte := 0x04

/-- The bus has a valid node-ID. -/
def busConfigured (l : Live) (b : Nat) : Bool := (l.bus b).nodeId ≠ 0xFF

/-- Gives a frame to the controller of a bus. -/
def transmit (b : Nat) (f : Frame) (l : Live) : Live := l.updBus b (fun x => { x with tx := x.tx ++ [f] })

/-- A flag of a bus status is set (R84). -/
def noteBus (b bit : Nat) (l : Live) : Live := noteBit 0x3000 (0x20 + b) bit l

/-- EMCY inhibit time in TCLK (R404: units of 100 µs). -/
def emcyInhibitTime (l : Live) : Nat := l.cfg 0x1015 0 * 40000

/-- Sends an EMCY frame on one bus, or queues it for the inhibit time, or drops it (R407, R408). -/
def emcyOnBus (data : List Byte) (b : Nat) (l : Live) : Live :=
  if busConfigured l b && (l.net.nmt = nmtPre || l.net.nmt = nmtOp) && !bitOf (cobEmcy l b) 31 then
    let x := l.bus b
    let f : Frame := { cobId := BitVec.ofNat 32 (cobEmcy l b % 2 ^ 29), data := data }
    if x.emcyQueue.isEmpty && decide (x.emcyInhibit ≤ l.now) then
      l.setBus b { x with tx := x.tx ++ [f], emcyInhibit := l.now + emcyInhibitTime l }
    else if x.emcyQueue.length < 16 then l.setBus b { x with emcyQueue := x.emcyQueue ++ [f] }
    else (noteBus b 6 l).setBus b { x with status := setBit x.status 6, emcyDropCnt := x.emcyDropCnt + 1 }
  else l

/-- The rows of R407 without a flag: a double-bit memory error, and a brown-out. -/
def flagless (code : Nat) : Bool := code = 0x5010 || code = 0xFF11

/-- An EMCY: frame, record of kind 0x72, entry of 0x1003 (R407). The payload is that of the event's log record. -/
def emcy (code src payload : Nat) (l : Live) : Live :=
  let l := if flagless code then { l with net := { l.net with sticky := setBit l.net.sticky 7 } } else l
  let reg := errorRegister l
  let errs := (BitVec.ofNat 32 (src * 65536 + code) :: l.net.errors).take 8
  let l := { l with net := { l.net with errReg := reg, errors := errs } }
  let data := bytesLE 2 code ++ [reg] ++ bytesLE 2 src ++ bytesLE 3 payload
  forAll (emcyOnBus data) [0, 1] (writeRecord src 0x72 (code + reg.toNat * 65536) l)

/-- When the register returns to 0, EMCY 0x0000 is sent (R407). It is recorded and not entered in 0x1003 (log entry 9). -/
def errSettle (l : Live) : Live :=
  let reg := errorRegister l
  if reg = 0 ∧ l.net.errReg ≠ 0 then
    let l := { l with net := { l.net with errReg := 0 } }
    forAll (emcyOnBus (List.replicate 8 0)) [0, 1] (writeRecord 0 0x72 0 l)
  else { l with net := { l.net with errReg := reg } }

/-- A journal entry; a full queue is also reported by EMCY 0xFF14 (R463, R466). -/
def journalEntry (src kind payload code : Nat) (l : Live) : Live :=
  if l.journal.queue.length < 64 then journal src kind payload code l
  else emcy 0xFF14 0xF080 0 (journal src kind payload code l)

/-- A fault with a record, an EMCY and a journal entry (the rows "EMCY and journal: yes" of the report tables). -/
def reportFault (src kind payload code : Nat) (l : Live) : Live :=
  journalEntry src kind payload code (emcy code src payload (writeRecord src kind payload l))

/-- A record and a journal entry without EMCY. -/
def reportJournal (src kind payload : Nat) (l : Live) : Live :=
  journalEntry src kind payload 0 (writeRecord src kind payload l)

/-- A double-bit memory error at a region (R24): logged, journaled, EMCY 0x5010. The offset is in 8-byte words. -/
def reportMemory (src offset : Nat) (l : Live) : Live :=
  let l := { l with rst := { l.rst with memError := true } }
  reportFault src 0x75 (2 ^ 28 + offset % 2 ^ 28) 0x5010 l

/-- A corrected single-bit error of a region: 16-bit saturating counter (R24). -/
def countCorrected (region : Nat) (l : Live) : Live :=
  let c := l.rst.corrected.get 0 region
  { l with rst := { l.rst with corrected := l.rst.corrected.put 0 region (satTo 16 (c + 1)) } }

/-- The log's own fault LOSS is also sent as EMCY and journaled once per episode (R369): a loss that opened an episode. -/
def lossReport (before : Byte) (l : Live) : Live :=
  if l.log.lossCnt = before ∨ l.log.episode = none then l
  else journalEntry 0x8F81 0x69 0 0xFF03 (emcy 0xFF03 0x8F81 0 l)

end Sys2Proof.Machine
end

