-- ==== Sys2Proof/Machine/Access.lean ====
section
/-! DEFINITION. Access to the dictionary: which connection is served (R394, R396), which access is aborted before an object's
own rule applies (R390, R392–R394), and the commands that are writes of one object. Also the outcome type of the meanings. -/

namespace Sys2Proof.Machine

open Sys2Proof

/-- The three outcomes of a command. -/
abbrev Out := Host.Outcome State Fault Refusal

/-- A reset domain is out of reset (R444). -/
def domainUp (d : Domain) (l : Live) : Bool := !l.rst.held.contains d

/-- The core runs: units of CORE take part in the step. -/
def coreUp (l : Live) : Bool := domainUp .core l

/-- A block is held in BLOCK reset (R456). -/
def blockHeld (l : Live) (code : Nat) : Bool := l.rst.blocks.contains code

/-- A unit of CORE with a block code of its own runs. -/
def unitUp (code : Nat) (l : Live) : Bool := coreUp l && !blockHeld l code

/-- The device is not in doze, where the microengines, the scheduler, the log writer, the buses and the host port stop (R382, R386). -/
def awake (l : Live) : Bool := !l.doze.asleep

/-- The host port serves transactions (R386, R410). -/
def hostUp (l : Live) : Bool := unitUp 0x48 l && awake l

/-- The falling edge of chip select, at which a change of HPCFG takes effect (R410). -/
def csFall (l : Live) : Live := match l.host.cfgNext with
  | some c => { l with host := { l.host with cfg := c, cfgNext := none } }
  | none => l

/-- The supervisor has not stopped in this run (R15; log entry 61). -/
def supervisorUp (l : Live) : Bool := match l.rst.supEnd with
  | none => true
  | some t => decide (l.now < t)

/-- The event scheduler runs (R382). -/
def schedUp (l : Live) : Bool := coreUp l && awake l

/-- The device is ARMED (R291, R292). -/
def armed (l : Live) : Bool := l.pwm.arm = .armed

/-- Abort codes of R393, as numbers. -/
def abToggle : Nat := 0x05030000
def abTimeout : Nat := 0x05040000
def abCommand : Nat := 0x05040001
def abMemory : Nat := 0x05040005
def abAccess : Nat := 0x06010000
def abWriteOnly : Nat := 0x06010001
def abReadOnly : Nat := 0x06010002
def abNoObject : Nat := 0x06020000
def abNotMappable : Nat := 0x06040041
def abMapLength : Nat := 0x06040042
def abMapGroups : Nat := 0x06040043
def abLength : Nat := 0x06070010
def abNoSub : Nat := 0x06090011
def abRange : Nat := 0x06090030
def abKey : Nat := 0x08000020
def abLocal : Nat := 0x08000021
def abState : Nat := 0x08000022

/-- SDO and USDO requests are served in PRE-OPERATIONAL and OPERATIONAL, mailbox requests in every state but INITIALISING
(R396); a bus serves none while it is silent or bus-off (R400, R402); the host-port session is one while it is open (R414; log entry 53);
doze serves none (R382, R386), and no dictionary traffic is served once the supervisor has stopped (R15). -/
def served (c : Conn) (l : Live) : Bool := supervisorUp l && match c with
  | .can b _ => schedUp l && domainUp .comm l && busConfigured l b.val && field (l.bus b.val).status.toNat 1 0 < 2
      && (l.net.nmt = nmtPre || l.net.nmt = nmtOp)
  | .host => hostUp l && l.net.nmt ≠ 0 && l.mail.session ≠ 0

/-- The connection may reach E-level objects (R394). -/
def unlockedConn (c : Conn) (l : Live) : Bool :=
  l.rst.life = 1 || l.rst.life = 2 || (l.connSt (connId c)).unlocked

/-- A request restarts the 10 minutes of R394 and replaces the last answer. -/
def touch (c : Conn) (l : Live) : Live := l.updConnSt (connId c) (fun x => { x with lastReq := l.now, answer := .none })

/-- The abort that an access meets because the object, its level or its access forbids it (R390, R392, R394). -/
def accessAbort (c : Conn) (write : Bool) (idx sub : Nat) (l : Live) : Option Nat := match objRow idx sub with
  | none => some (if objIndexExists idx then abNoSub else abNoObject)
  | some r =>
    if r.expert && !unlockedConn c l then some abAccess
    else if write && r.acc = .ro then some abReadOnly
    else if !write && r.acc = .wo then some abWriteOnly
    else none

/-- The NMT restrictions P and N (R392). -/
def restrictionAbort (idx sub : Nat) (l : Live) : Option Nat :=
  let k := key idx sub
  if k = key 0x1019 0 ∧ l.net.nmt ≠ nmtPre then some abState
  else if (k = key 0x2000 0x10 ∨ k = key 0x2750 0x02 ∨ k = key 0x5E10 0x02) ∧ armed l then some abState
  else none

/-- Store and image writes that RETURNED refuses (R459). -/
def returnedAbort (idx sub : Nat) (l : Live) : Option Nat :=
  if l.rst.life = 4 ∧ (idx = 0x1010 ∨ idx = 0x1011 ∨ key idx sub = key 0x2E00 0x01
      ∨ (idx = 0x2E00 ∧ 0x10 ≤ sub ∧ sub ≤ 0x1C) ∨ key idx sub = key 0x5E31 0x01) then some abState
  else none

/-- What aborts a write before its value is looked at. -/
def writeAbort (c : Conn) (idx sub : Nat) (l : Live) : Option Nat :=
  match accessAbort c true idx sub l with
  | some a => some a
  | none => match restrictionAbort idx sub l with
    | some a => some a
    | none => returnedAbort idx sub l

/-- Records the end of a request: done, or the abort with its code. -/
def reply (c : Conn) (code : Nat) (l : Live) : Live :=
  answer (connId c) (if code = 0 then .done else .abort (BitVec.ofNat 32 code)) l

/-- A request that writes one object: unserved it gets no answer (R396); refused by R390, R392 or R394 it is aborted;
otherwise the object's own rule answers with a state and an abort code, 0 for done. -/
def onObject (c : Conn) (idx sub : Nat) (f : Live → Live × Nat) (l : Live) : Live :=
  if !served c l then l
  else
    let l := touch c l
    match writeAbort c idx sub l with
    | some a => reply c a l
    | none => reply c (f l).2 (f l).1

/-- As `onObject`, where an accepted write is answered only when what it starts has ended (R426, R428, R437). -/
def onObjectLater (c : Conn) (idx sub : Nat) (f : Live → Live × Nat) (l : Live) : Live :=
  if !served c l then l
  else
    let l := touch c l
    match writeAbort c idx sub l with
    | some a => reply c a l
    | none => if (f l).2 = 0 then (f l).1 else reply c (f l).2 (f l).1

/-- An object rule that always succeeds. -/
def done (f : Live → Live) (l : Live) : Live × Nat := (f l, 0)

/-- An object rule that aborts when a condition holds. -/
def abortIf (p : Live → Bool) (code : Nat) (f : Live → Live × Nat) (l : Live) : Live × Nat :=
  if p l then (l, code) else f l

end Sys2Proof.Machine
end

