-- ==== Sys2Proof/Machine/Apply.lean ====
section
/-! DEFINITION. How a command acts on the whole state: its effect on the live device, with the snapshot that it requests
frozen from the values the TCLK started with (R64, R66, R67, R72). -/

namespace Sys2Proof.Machine

open Sys2Proof

/-- Requests a snapshot in this TCLK (R65). -/
def wantSnapshot (l : Live) : Live := { l with snap := { l.snap with want := true } }

/-- SNAPSEQ counts from 0 (R72). -/
def nextSeq (u : SnapUnit) : BitVec 32 := if u.taken then u.seq + 1 else 0

/-- The step from 0xFFFF_FFFF to 0 sets SEQ_WRAP and writes a record (R72). -/
def seqWrap (l : Live) : Live :=
  if l.snap.taken && l.snap.seq = 0xFFFFFFFF then
    writeRecord 0xE840 0x19 0 (snapFlags 4 l)
  else l

/-- The SNAP instant: the values of `pre` freeze into the bank being filled, with SNAPSEQ and SNAP DTIME of the snapshot itself, and
the copy starts (R64, R66–R68). -/
def takeSnap (pre : Live) (s : State) : State :=
  let l := seqWrap s.live
  let n := nextSeq l.snap
  let u := { l.snap with seq := n, taken := true, dtime := l.time.dtime, copying := true, copyStart := l.now, want := false }
  let shown := { pre with snap := { pre.snap with seq := n, dtime := l.time.dtime } }
  { s with live := { l with snap := u }, filling := some ⟨n, l.time.dtime, shown⟩ }

/-- A request that arrives during a copy waits for its end (R67). -/
def deferSnap (l : Live) : Live := { l with snap := { l.snap with waiting := true, want := false } }

/-- What follows from any step: a loss episode that it opened is reported, and EMCY 0x0000 goes out when the error register
has returned to 0 (R369, R407). -/
def settle (pre l : Live) : Live := errSettle (lossReport pre.log.lossCnt l)

/-- The banks after a reset of WARM reach or wider: none exists (R71, R91). -/
def wipeBanks (s : State) : State :=
  if s.live.snap.wipe then
    { s with live := { s.live with snap := { s.live.snap with wipe := false } }, published := none, filling := none, held := none }
  else s

/-- A hold of the published bank, which releases an earlier one, or a release (R70). -/
def settleHold (s : State) : State :=
  let u := s.live.snap
  match u.hold, s.published with
  | some true, some b =>
    { s with live := { s.live with snap := { u with hold := none, status := setBit u.status 3 } }, held := some (b, s.live.now) }
  | some false, _ =>
    { s with live := { s.live with snap := { u with hold := none, status := clrBit u.status 3 } }, held := none }
  | some true, none => { s with live := { s.live with snap := { u with hold := none } } }
  | none, _ => s

/-- A snapshot has been taken in this TCLK: one serves every request of the TCLK (R65). -/
def snapNow (l : Live) : Bool := l.snap.copying && l.snap.copyStart = l.now

/-- A request of this TCLK waits for the end of a copy, or for the snapshot that already waits for it (R67). -/
def snapDeferred (l : Live) : Bool := (l.snap.copying || l.snap.waiting) && !snapNow l

/-- A request that the snapshot of this TCLK already serves. -/
def mergeSnap (l : Live) : Live := { l with snap := { l.snap with want := false } }

/-- Serves the snapshot request of this TCLK; it freezes the values of `pre` (R64, R65, R67). -/
def settleSnap (pre : Live) (s : State) : State :=
  if !s.live.snap.want then s
  else if snapNow s.live then { s with live := mergeSnap s.live }
  else if snapDeferred s.live then { s with live := deferSnap s.live }
  else takeSnap pre s

/-- Applies a command's effect on the live device; a snapshot it requests freezes the values that the TCLK started with (R64). -/
def State.apply (f : Live → Live) (s : State) : State :=
  settleSnap s.start (settleHold (wipeBanks { s with live := settle s.live (f s.live) }))

/-- A TCLK starts with the values that the device holds now (R64). -/
def beginTclk (s : State) : State := { s with start := s.live }

/-- The outcome of a command whose effect is on the live device. -/
def ran (f : Live → Live) (s : State) : Out := .next (s.apply f)

end Sys2Proof.Machine
end

