-- ==== Sys2Proof/Machine/Pwm.lean ====
section
/-! DEFINITION. PWM pairs, trip latches, trip levels, arming and disarming (R267–R299), without the commit that a boundary
triggers (Commit.lean, PwmCommands.lean). Instants of a pair are fine ticks of DTIME (DTIME × 64 + fine). -/

namespace Sys2Proof.Machine

open Sys2Proof

/-! ### Configuration of a pair -/

/-- u is a precision pair (R267). -/
def isPP (u : Nat) : Bool := u < 16

/-- Prescaler S of a general pair (R268). -/
def prescaler (l : Live) (u : Nat) : Nat := if isPP u then 1 else l.cfg (0x2400 + u) 0x0D

/-- Fine ticks of one unit of P and D: a fine tick, or a count of S TCLK (R268, R269). -/
def unitLen (l : Live) (u : Nat) : Nat := if isPP u then 1 else 64 * prescaler l u

/-- A raw period or duty in its units: fine ticks, or the counts of [21:6] (R268). -/
def unitsOf (u raw : Nat) : Nat := if isPP u then raw else raw / 64

/-- P in effect in units, and in fine ticks. -/
def Pair.units (u : Nat) (p : Pair) : Nat := unitsOf u p.eff.period.toNat
def periodLen (l : Live) (u : Nat) (p : Pair) : Nat := p.units u * unitLen l u

/-- D used: a larger value is used as P (R268). -/
def dutyUnits (u : Nat) (p : Pair) : Nat := min (unitsOf u p.eff.duty.toNat) (p.units u)

/-- Mid-period M = B + floor(P / 2) (R269). -/
def midOf (l : Live) (u : Nat) (p : Pair) (b : Nat) : Nat := b + p.units u / 2 * unitLen l u

/-- Active level at the ball of H (false) and L (true) (R270, R298). -/
def activeLevel (l : Live) (u : Nat) (isL : Bool) : Bool := l.cfg (0x2400 + u) (if isL then 9 else 8) = 0

/-- Trip level: none is high impedance (R286). -/
def tripLevel (l : Live) (u : Nat) (isL : Bool) : Option Bool :=
  match l.cfg (0x2400 + u) (if isL then 0x0B else 0x0A) with
  | 0 => some false
  | 1 => some true
  | _ => none

/-- The pair works in complementary mode (R270). -/
def complementary (l : Live) (u : Nat) : Bool := l.cfg (0x2400 + u) 7 = 0

/-- Duty streaming is enabled (R275). -/
def streaming (l : Live) (u : Nat) : Bool := l.flag (0x2400 + u) 0x0C

/-! ### Outputs and their readback -/

/-- Drives a read-back output to a level; a released one stays in high impedance. `edge` marks an edge that counts even where
the level is the same (R294). -/
def driveTo (now : Nat) (lvl : Option Bool) (edge : Bool) (r : Readback) : Readback :=
  if r.released then { r with driven := none, checkDue := false }
  else if lvl = r.driven && !edge then r
  else { r with driven := lvl, edgeAt := now, checkDue := lvl.isSome }

/-- Drives H or L of a pair. -/
def Pair.drive (now : Nat) (isL : Bool) (lvl : Option Bool) (edge : Bool) (p : Pair) : Pair :=
  if isL then { p with l := driveTo now lvl edge p.l } else { p with h := driveTo now lvl edge p.h }

/-- Where an edge due at an instant lies: at its fine instant by the mapping of the 64 fine ticks onto the taps of a TCLK; at fine 0 while
no mapping exists (R278, R279). The rounding to a tap is open (log entry 5). -/
def DelayLine.place (t : Nat) (d : DelayLine) : DelayLine :=
  if d.map = 0 then { d with edge := t / 64 * 64, tap := 0 }
  else { d with edge := t, tap := (divFree (t % 64 * d.map : Nat) 64).toNat }

/-- An edge of H or L of a pair is placed; the edges of a general pair lie on TCLK edges (R271). -/
def Pair.place (u : Nat) (isL : Bool) (t : Nat) (p : Pair) : Pair :=
  if !isPP u then p else if isL then { p with dlL := p.dlL.place t } else { p with dlH := p.dlH.place t }

/-- The instant at which an edge of H or L due at an instant lies. -/
def Pair.placed (u : Nat) (isL : Bool) (t : Nat) (p : Pair) : Nat :=
  if isPP u && (if isL then p.dlL.map else p.dlH.map) = 0 then t / 64 * 64 else t

/-- The calibrated line of an output takes over at a boundary (R278). -/
def DelayLine.swap (taps : Byte) (d : DelayLine) : DelayLine :=
  if d.due then { d with second := !d.second, map := taps.toNat, due := false } else d

/-- Turns an output on at an instant (fine ticks). -/
def turnOn (l : Live) (u : Nat) (isL : Bool) (t : Nat) (p : Pair) : Pair :=
  let p := (p.drive l.now isL (some (activeLevel l u isL)) false).place u isL t
  if isL then { p with actL := true, onL := none } else { p with actH := true, onH := none }

/-- Takes an output to its inactive level at an instant (fine ticks), and forgets a turn-on that was to come (R270). -/
def turnOff (l : Live) (u : Nat) (isL : Bool) (t : Nat) (p : Pair) : Pair :=
  let off := p.placed u isL t
  let p := p.drive l.now isL (some (!activeLevel l u isL)) false
  let p := if (if isL then p.actL else p.actH) then p.place u isL t else p
  if isL then { p with offL := if p.actL then off else p.offL, actL := false, onL := none }
  else { p with offH := if p.actH then off else p.offH, actH := false, onH := none }

/-- The Winter state of a pair: high impedance (R280). -/
def Pair.winter (now : Nat) (p : Pair) : Pair :=
  let p := (p.drive now false none false).drive now true none false
  { p with actH := false, actL := false, onH := none, onL := none }

/-- One output on entry to TRIPPED: an inactive or high-impedance trip level at once; an active one no earlier than T_D after
the other output last turned off (R286). -/
def tripOutput (l : Live) (u : Nat) (isL : Bool) (otherOff dead : Nat) (p : Pair) : Pair :=
  let t := l.now * 64
  match tripLevel l u isL with
  | some v =>
    if v = activeLevel l u isL then
      if (if isL then p.actL else p.actH) then p.drive l.now isL (some v) true
      else if otherOff + dead ≤ t then (turnOn l u isL t p).drive l.now isL (some v) true
      else if isL then { p with onL := some (otherOff + dead) } else { p with onH := some (otherOff + dead) }
    else (turnOff l u isL t p).drive l.now isL (some v) true
  | none => (turnOff l u isL t p).drive l.now isL none true

/-- The outputs of a pair that trips: the one that turns off first, then the one whose trip level is active (R286). -/
def tripOutputs (l : Live) (u : Nat) (p : Pair) : Pair :=
  let p := { p with onH := none, onL := none }
  let dead := p.eff.dead.toNat
  if tripLevel l u false = some (activeLevel l u false) then
    let p := tripOutput l u true 0 0 p
    tripOutput l u false p.offL dead p
  else
    let p := tripOutput l u false 0 0 p
    tripOutput l u true p.offH dead p

/-! ### Tripping and disarming -/

/-- A RUNNING pair enters TRIPPED with a cause bit (8 disarm, 9 short, 10 limit, 11 input) (R280, R285, R297). -/
def tripPair (cause u : Nat) (l : Live) : Live :=
  let p := l.pair u
  if p.state ≠ .running then l else
  let p := { tripOutputs l u p with state := .tripped, tripDtime := l.time.dtime }
  let p := { p with status := setBit (setBit p.status 1) cause, request := false, beat := false, stopDue := false }
  let p := { p with nextB := none, refEdges := [], startAt := none }
  let d := field p.status.toNat 11 8
  reportFault (0x2000 + 0x40 * u) 0x52 (2 ^ 24 + d) 0xFF05
    (noteFlags (key (0x3400 + u) 2) 2 (l.setPair u p))

/-- Trips every pair of a mask (R285). -/
def tripPairs (mask cause : Nat) (l : Live) : Live :=
  forAll (fun u l => if bitOf mask u then tripPair cause u l else l) (List.range 24) l

/-- Disarms with a cause (R293). A cause other than the command between an accepted arm command and the first rise of ARM0 cancels the
arming and counts as a disarm (log entry 10). With no arming accepted it has no effect (R291). -/
def disarm (cause : Nat) (l : Live) : Live :=
  let w := l.pwm
  if w.arm = .disarmed then l else
  let st := setBit (clrMask w.status 0xF000 ||| BitVec.ofNat 16 (cause * 4096)) 0
  let w := { w with arm := .disarmed, status := st, disarmCnt := w.disarmCnt + 1, disarmDtime := l.time.dtime }
  let w := { w with arm0 := driveTo l.now (some false) false w.arm0, arm1 := driveTo l.now (some false) false w.arm1 }
  let l := noteBit 0x3418 2 0 { l with pwm := w }
  let l := forAll (fun u l => l.updPair u (fun p => { p with startAt := none })) (List.range 24) l
  let l := tripPairs 0xFFFFFF 8 l
  let l := writeRecord 0x303F 0x51 (cause * 65536) l
  if cause = 2 || cause = 3 || cause = 4 || cause = 5 || cause = 8 then
    journalEntry 0x303F 0x51 (cause * 65536) 0xFF01 (emcy 0xFF01 0x303F (cause * 65536) l)
  else l

/-- The first latch after arming arms the trip overlay for the next TCLK (R435). -/
def watchTrip (l : Live) : Live :=
  if l.conf.tripWatch then { l with conf := { l.conf with tripWatch := false, tripDue := some (l.now + 1) } } else l

/-! ### Trip inputs -/

/-- The blanking mask of an input, but for the limit (R284): OUT of the blanking channel is 1, the channel is enabled and not in
failsafe, its cluster is neither in machine check nor in BLOCK reset. -/
def maskRaw (l : Live) (i : Nat) : Bool :=
  let c := l.cfg (0x2420 + i) 5
  let x := l.chan c
  l.cfg (0x2420 + i) 3 = 1 && decide (c < 512) && x.out && x.en && !bitOf x.cstat.toNat 7
    && (l.cluster (c / 64)).state ≠ 2 && !blockHeld l (c / 64)

/-- The blanking mask of an input is on: the limit has not lifted it (R284). -/
def maskOn (l : Live) (i : Nat) : Bool := maskRaw l i && !(l.trip i).lifted

/-- The mask as it stands at the end of a TCLK: since when it has been on; a lifted one stays off until OUT returns to 0 (R284). -/
def trackMask (i : Nat) (l : Live) : Live :=
  let t := l.trip i
  let c := l.cfg (0x2420 + i) 5
  let since := if maskRaw l i then some (t.maskFrom.getD l.now) else none
  let y := { t with maskFrom := since, lifted := t.lifted && decide (c < 512) && (l.chan c).out }
  if y = t then l else l.setTrip i y

/-- A level of a trip input has been sampled in as many TCLK as its mode asks for: the filter length, or one (R283). -/
def tripSampled (l : Live) (i : Nat) (stamp : Stamp) : Bool :=
  decide (l.widen stamp + (if l.cfg (0x2420 + i) 3 = 1 then 1 else l.cfg (0x2420 + i) 4) ≤ l.now + 1)

/-- An enabled input latches (R283, R285, R297). -/
def latchTrip (i : Nat) (stamp : Stamp) (l : Live) : Live :=
  let at_ := l.widen stamp
  let mask := l.cfg (0x2420 + i) 7
  let t := l.trip i
  let l := (noteBit (0x3420 + i) 1 0 l).setTrip i { t with status := t.status ||| 0x09, cnt := t.cnt + 1, dtime := BitVec.ofNat 64 at_ }
  let src := 0x3000 + i
  let l := writeRecordAt at_ src 0x50 mask l
  let l := journalEntry src 0x50 mask 0x9000 (emcy 0x9000 src mask l)
  watchTrip (disarm 2 (tripPairs mask 11 l))

/-- A trip input accepts a level (R283, R284): an active level latches an enabled input whose mask is off; under the mask it
waits, and is decided again when the mask has ended. -/
def tripDecision (i : Nat) (stamp : Stamp) (active : Bool) (l : Live) : Live :=
  if !domainUp .prot l || !tripSampled l i stamp then l
  else
    let on := active && l.flag (0x2420 + i) 1 && !maskOn l i
    let l := l.updTrip i (fun t => { t with level := active })
    if on then latchTrip i stamp l else l

/-- The mask has been on for the blanking limit (R284). -/
def blankLimit (i : Nat) (l : Live) : Live :=
  match (l.trip i).maskFrom with
  | some since =>
    if maskOn l i && decide (since + l.cfg (0x2420 + i) 6 ≤ l.now) then
      (noteBit (0x3420 + i) 1 2 l).updTrip i (fun t => { t with status := setBit t.status 2, lifted := true })
    else l
  | none => l

/-- The clear of one input (R289). -/
def clearTrip (i : Nat) (l : Live) : Live :=
  let t := l.trip i
  if l.flag (0x2420 + i) 1 && t.level then
    (noteBit (0x3420 + i) 1 1 l).setTrip i { t with status := setBit t.status 1, refusedCnt := t.refusedCnt + 1 }
  else l.setTrip i { t with status := clrBit t.status 3 }

/-! ### Limit trips (R317–R319), whose latches are kept in the trip unit -/

/-- A limit trip of input a latches with a sampling instant (R317, R322 code 3). -/
def latchLimit (a at_ : Nat) (l : Live) : Live :=
  let mask := l.cfg (0x2700 + a) 5
  let x := l.anIn a
  let x := { x with status := setBit x.status 4, tripDtime := BitVec.ofNat 64 at_, since := false }
  let l := reportFault (0x6200 + a) 0x58 (3 * 2 ^ 24 + mask) 0x2310 (l.setAnIn a x)
  watchTrip (disarm 3 (tripPairs mask 10 l))

/-- The clear of a limit trip (R318, R322 code 4): accepted only if a result completed after the latch and the most recent one
lies within the limits. -/
def clearLimit (a : Nat) (l : Live) : Live :=
  let x := l.anIn a
  if !bitOf x.status.toNat 4 then l
  else if x.since && x.inside then l.setAnIn a { x with status := clrBit x.status 4 }
  else
    let l := (noteBit (0x3700 + a) 1 3 l).setAnIn a { x with status := setBit x.status 3, refusedCnt := x.refusedCnt + 1 }
    writeRecord (0x6200 + a) 0x58 (4 * 2 ^ 24 + ofSigned 24 x.last) l

/-- Clear-all applies to every input and every limit trip (R289). -/
def clearAll (l : Live) : Live := forAll clearLimit (List.range 48) (forAll clearTrip (List.range 16) l)

/-- Some latch is set: condition TRIPPED looks at the inputs (R132), arming at both (R291). -/
def anyTripLatched (l : Live) : Bool := anyBelow 16 (fun i => bitOf (l.trip i).status.toNat 3)
def anyLimitLatched (l : Live) : Bool := anyBelow 48 (fun a => bitOf (l.anIn a).status.toNat 4)

/-! ### Arming (R291, R292) -/

/-- The reason of the first failing arming condition, 0 if none fails (R291). -/
def refusalReason (l : Live) : Nat :=
  if l.net.nmt ≠ nmtOp then 1
  else if !l.flag 0x2418 1 then 2
  else if !bitOf l.time.status.toNat 10 then 3
  else if anyBelow 16 (fun i => l.flag (0x2420 + i) 1 && (l.trip i).level) then 4
  else if anyTripLatched l || anyLimitLatched l then 5
  else if anyBelow 24 (fun u => anyMask (l.pair u).status 0x60) || anyMask l.pwm.status 0x18 then 6
  else if anyBelow 16 (fun u => !(l.pair u).calH || !(l.pair u).calL) then 7
  else if blockHeld l 0x10 then 8
  else 0

/-- The arm command (R291). Until the first rise of ARM0 the device is DISARMED (R292): a further arm command is judged anew, and an
acceptance leaves the first one standing. -/
def armCommand (l : Live) : Live × Nat :=
  if l.pwm.arm = .armed then (l, 0) else
  let r := refusalReason l
  let w := l.pwm
  if r = 0 then
    (if w.arm = .accepted then l else { l with pwm := { w with arm := .accepted, acceptedAt := l.now } }, 0)
  else
    let st := setBit (clrMask w.status 0x0F00 ||| BitVec.ofNat 16 (r * 256)) 1
    let st := if r = 4 then setBit st 2 else st
    let l := noteFlags (key 0x3418 2) (if r = 4 then 6 else 2) { l with pwm := { w with status := st, refuseCnt := w.refuseCnt + 1 } }
    (writeRecord 0x303F 0x51 (2 * 2 ^ 24 + r * 65536) l, abState)

/-- Start instants of the enabled pairs: the first rise of ARM0 plus the arm lead (R281). -/
def startPairs (l : Live) : Live :=
  let at_ := l.now + l.cfg 0x2418 3 * 400
  forAll (fun u l => if l.flag (0x2400 + u) 1 then l.updPair u (fun p => { p with startAt := some at_ }) else l)
    (List.range 24) l

/-- The first rise of ARM0: the first TCLK with DTIME ≡ 0 mod 8,000 after acceptance (R292). A released ARM line is driven
again (R294); the first latch from now on counts for the trip overlay (R435). -/
def armStart (l : Live) : Live :=
  let w := l.pwm
  if w.arm = .accepted && decide (w.acceptedAt < l.now) && decide (l.now % 8000 = 0) then
    let w := { w with arm := .armed, armDtime := l.time.dtime }
    let w := { w with arm0 := driveTo l.now (some true) false { w.arm0 with released := false } }
    let w := { w with arm1 := driveTo l.now (some false) false { w.arm1 with released := false } }
    let l := { l with pwm := w, conf := { l.conf with tripWatch := true } }
    startPairs (writeRecord 0x303F 0x51 (2 ^ 24) l)
  else l

/-- The toggle of the ARM lines every 4,000 TCLK, in antiphase (R292). -/
def armToggle (l : Live) : Live :=
  let w := l.pwm
  let d := l.now - w.armDtime.toNat
  if armed l && decide (0 < d) && decide (d % 4000 = 0) then
    let up := d / 4000 % 2 = 0
    let w := { w with arm0 := driveTo l.now (some up) false w.arm0, arm1 := driveTo l.now (some !up) false w.arm1 }
    { l with pwm := w }
  else l

/-! ### Shorts (R294) -/

/-- One check of a read-back output: the result and whether it was the third consecutive mismatch (R110, R294, R341). -/
def checkReadback (now : Nat) (level : Bool) (r : Readback) : Readback × Bool :=
  if r.checkDue && decide (now = r.edgeAt + 8) then
    if r.driven = some (!level) then
      if r.run ≥ 2 then ({ r with checkDue := false, run := 0, released := true, driven := none }, true)
      else ({ r with checkDue := false, run := r.run + 1 }, false)
    else ({ r with checkDue := false, run := 0 }, false)
  else (r, false)

/-- Readback of H or L of a pair; a short trips the pair and disarms (R294, R297). -/
def pairReadback (u : Nat) (isL level : Bool) (l : Live) : Live :=
  let p := l.pair u
  let r := checkReadback l.now level (if isL then p.l else p.h)
  let p := if isL then { p with l := r.1 } else { p with h := r.1 }
  if !r.2 then l.setPair u p
  else
    let t := l.now * 64
    let p := if isL then { p with offL := if p.actL then t else p.offL, actL := false, onL := none }
      else { p with offH := if p.actH then t else p.offH, actH := false, onH := none }
    let p := { p with status := setBit p.status (if isL then 6 else 5), shortCnt := p.shortCnt + 1 }
    let l := reportFault (0x2001 + 0x40 * u + b2n isL) 0x52 (2 * 2 ^ 24) 0x2300
      (noteBit (0x3400 + u) 2 (if isL then 6 else 5) (l.setPair u p))
    disarm 4 (tripPair 9 u l)

/-- Readback of an ARM line (R294). -/
def armReadback (j : Nat) (level : Bool) (l : Live) : Live :=
  let w := l.pwm
  let r := checkReadback l.now level (if j = 0 then w.arm0 else w.arm1)
  let w := if j = 0 then { w with arm0 := r.1 } else { w with arm1 := r.1 }
  if !r.2 then { l with pwm := w }
  else
    let l := noteBit 0x3418 2 (3 + j) { l with pwm := { w with status := setBit w.status (3 + j) } }
    disarm 4 (reportFault (0x3020 + j) 0x52 (2 * 2 ^ 24) 0x2300 l)

/-! ### Waveform (R269–R277) -/

/-- A record of code 3, 4 or 7, at most once per 1 ms for each pair and code (R297). -/
def pwmRecord (u code payload : Nat) (l : Live) : Live :=
  let p := l.pair u
  let last := if code = 3 then p.rec3 else if code = 4 then p.rec4 else p.rec7
  if recordDue l last then
    let t := some l.now
    let p := if code = 3 then { p with rec3 := t } else if code = 4 then { p with rec4 := t } else { p with rec7 := t }
    writeRecord (0x2000 + 0x40 * u) 0x52 (code * 2 ^ 24 + payload) (l.setPair u p)
  else l

/-- One deferred value reaches its shadow. -/
def Pair.setShadow (w : ShadowWrite) (p : Pair) : Pair :=
  let s := p.shadow
  if w.what = 0 then { p with shadow := { s with period := BitVec.ofNat 32 w.val } }
  else if w.what = 1 then { p with shadow := { s with duty := BitVec.ofNat 32 w.val } }
  else { p with shadow := { s with dead := BitVec.ofNat 16 w.val } }

/-- Deferred values whose reload has come reach the shadows; the others skip one reload less. A mid-period reload counts for
duty and dead time only (R78, R274). -/
def Pair.settleDeferred (mid : Bool) (p : Pair) : Pair :=
  let counts := fun (w : ShadowWrite) => !mid || w.what ≠ 0
  let ready := p.deferred.filter (fun w => counts w && w.skip = 0)
  let rest := p.deferred.filter (fun w => !(counts w && w.skip = 0))
  let p := ready.foldl (fun p w => p.setShadow w) p
  { p with deferred := rest.map (fun w => if counts w then { w with skip := w.skip - 1 } else w) }

/-- REF edges of the period that starts at b, given whether REF is high (R269). A REF that is high up to b and from b on has no edge
there. -/
def refEdgesFor (l : Live) (u : Nat) (p : Pair) (b : Nat) : List (Nat × Bool) :=
  let n := unitLen l u
  let d := dutyUnits u p
  let big := p.units u
  if l.cfg (0x2400 + u) 2 = 0 then
    (if d = 0 then (if p.refHigh then [(b, false)] else [])
     else (if p.refHigh then [] else [(b, true)]) ++ (if d < big then [(b + d * n, false)] else []))
  else
    let r := b + (big / 2 - d / 2) * n
    let f := b + (big / 2 + d - d / 2) * n
    if d = 0 then (if p.refHigh then [(b, false)] else [])
    else if d = big then (if p.refHigh then [] else [(b, true)])
    else (if p.refHigh then (if r = b then [] else [(b, false), (r, true)]) else [(r, true)]) ++ [(f, false)]

/-- Flags of a reload: CLAMPED (R268), UNDERRUN and the new request of a stream (R275, R276); a request left from a stream that is no longer
enabled falls. -/
def reloadFlags (u : Nat) (l : Live) : Live :=
  let p := l.pair u
  let clamp := decide (p.units u < unitsOf u p.eff.duty.toNat)
  let l := if clamp then pwmRecord u 7 0 (noteBit (0x3400 + u) 2 4 (l.setPair u { p with status := setBit p.status 4 })) else l
  if streaming l u then
    let p := l.pair u
    let l := if p.request then
        pwmRecord u 3 (p.underCnt + 1).toNat
          (noteBit (0x3400 + u) 2 3 (l.setPair u { p with status := setBit p.status 3, underCnt := p.underCnt + 1 }))
      else l
    l.updPair u (fun p => { p with request := !p.beat, beat := false })
  else l.updPair u (fun p => { p with request := false, beat := false })

/-- The reload of a boundary (R272, R17): shadows into effect, BOUNDARY and PERIOD published, REF planned, calibrated delay lines taken
over (R278). At the first boundary both outputs count as having just turned off (R281). -/
def reload (u b : Nat) (l : Live) : Live :=
  let p := (l.pair u).settleDeferred false
  let first := p.lastB.isNone
  let p := { p with eff := p.shadow, lastB := some b, boundary := BitVec.ofNat 64 (b % 2 ^ 54), midDone := false }
  let p := { p with nextB := some (b + periodLen l u p), refEdges := refEdgesFor l u p b, reloadAt := some l.now }
  let p := { p with dlH := p.dlH.swap p.tapsH, dlL := p.dlL.swap p.tapsL }
  let p := if first then { p with offH := b, offL := b } else p
  let lowFirst := first && complementary l u && !(p.refEdges.head? = some (b, true))
  let p := if lowFirst then { p with onL := some (b + p.eff.dead.toNat) } else p
  reloadFlags u (l.setPair u p)

/-- A boundary of a pair (R272, R280): a pair whose Enable = 0 waits stops; otherwise it reloads. Answers whether a boundary
was published. -/
def pairBoundary (u : Nat) (l : Live) : Live × Bool :=
  let p := l.pair u
  match p.nextB with
  | some b =>
    if p.state = .running && decide (b / 64 = l.now) then
      if p.stopDue then
        let p := { p.winter l.now with state := .idle, stopDue := false, nextB := none, lastB := none, request := false }
        (l.setPair u { p with refEdges := [], refHigh := false, beat := false, startAt := none }, false)
      else (reload u b l, true)
    else (l, false)
  | none => (l, false)

/-- The edges of REF still to come after a mid-period reload at M (R269, R273), whether or not an edge that falls on M itself has been
made: an edge-aligned REF that falls at M is low there, a centre-aligned one that rises at M falls by the new duty. -/
def midEdges (l : Live) (u : Nat) (p : Pair) (b m : Nat) : List (Nat × Bool) :=
  let n := unitLen l u
  let d := dutyUnits u p
  let big := p.units u
  let rises := p.refEdges.filter (fun e => e.2)
  if l.cfg (0x2400 + u) 2 = 0 then
    (if !p.refHigh || p.refEdges.any (fun e => !e.2 && decide (e.1 ≤ m)) then p.refEdges
     else if d < big then [(max (b + d * n) m, false)] else [])
  else if !p.refHigh && rises.isEmpty then p.refEdges
  else if d = 0 then (if p.refHigh then [(m, false)] else [])
  else rises ++ (if d < big then [(b + (big / 2 + d - d / 2) * n, false)] else [])

/-- The mid-period reload of a general pair (R272, R273). -/
def pwmMidReload (u : Nat) (l : Live) : Live :=
  let p := l.pair u
  match p.lastB with
  | some b =>
    let m := midOf l u p b
    if p.state = .running && !isPP u && decide (l.cfg (0x2400 + u) 0x0E = 1) && !p.midDone && decide (m / 64 = l.now) then
      let p := p.settleDeferred true
      let p := { p with eff := { p.eff with duty := p.shadow.duty, dead := p.shadow.dead }, midDone := true }
      let p := { p with refEdges := midEdges l u p b m, reloadAt := some l.now }
      reloadFlags u (l.setPair u p)
    else l
  | none => l

/-- A REF edge at instant t (R270): a rise turns L off and fixes the turn-on of H; a fall turns H off and, in complementary
mode, fixes the turn-on of L. -/
def refEdge (l : Live) (u t : Nat) (up : Bool) (p : Pair) : Pair :=
  let dead := p.eff.dead.toNat
  if up then { turnOff l u true t p with refHigh := true, onH := some (t + dead) }
  else
    let p := { turnOff l u false t p with refHigh := false }
    if complementary l u then { p with onL := some (t + dead) } else p

/-- An output edge of a pair: a REF edge or a turn-on whose instant lies in this TCLK (R269, R270, R286). -/
def pwmOutputEdge (u : Nat) (e : PwmEdge) (l : Live) : Live :=
  let p := l.pair u
  match e with
  | .turnOnH => match p.onH with
    | some t => if decide (t / 64 = l.now) && p.state ≠ .idle then l.setPair u (turnOn l u false t p) else l
    | none => l
  | .turnOnL => match p.onL with
    | some t => if decide (t / 64 = l.now) && p.state ≠ .idle then l.setPair u (turnOn l u true t p) else l
    | none => l
  | .refRise => match p.refEdges with
    | (t, true) :: r =>
      if decide (t / 64 = l.now) && p.state = .running then l.setPair u (refEdge l u t true { p with refEdges := r }) else l
    | _ => l
  | .refFall => match p.refEdges with
    | (t, false) :: r =>
      if decide (t / 64 = l.now) && p.state = .running then l.setPair u (refEdge l u t false { p with refEdges := r }) else l
    | _ => l

/-- The reload of a pair falls in this TCLK and has not been made yet. -/
def reloadDue (l : Live) (u : Nat) : Bool :=
  let p := l.pair u
  let bd := match p.nextB with
    | some b => decide (b / 64 = l.now)
    | none => false
  let md := match p.lastB with
    | some b => !isPP u && decide (l.cfg (0x2400 + u) 0x0E = 1) && !p.midDone && decide (midOf l u p b / 64 = l.now)
    | none => false
  p.state = .running && (bd || md)

/-- A stream beat writes the duty shadow: now, or after the reload that is still to come in this TCLK. It replaces an earlier one (R275,
R276). -/
def Pair.beatTo (afterReload : Bool) (d : Nat) (p : Pair) : Pair :=
  let p := { p with deferred := p.deferred.filter (fun w => w.what ≠ 1) }
  if afterReload then { p with deferred := p.deferred ++ [⟨1, 1, d⟩], beat := true } else { p.setShadow ⟨0, 1, d⟩ with request := false }

/-- A stream beat (R275, R276). While streaming is not enabled a beat has no effect (log entry 11). -/
def streamBeat (u : Nat) (beat : Word) (l : Live) : Live :=
  if !unitUp 0x10 l || !streaming l u then l
  else if beat.toNat ≥ 2 ^ 22 then
    let l := (noteBit (0x3400 + u) 2 7 l).updPair u (fun p => { p with status := setBit p.status 7 })
    writeRecord (0x2000 + 0x40 * u) 0x52 (6 * 2 ^ 24) l
  else
    let d := if isPP u then beat.toNat else beat.toNat / 64 * 64
    let p := l.pair u
    let due := reloadDue l u
    if due || p.reloadAt = some l.now then
      let p := { p with status := setBit p.status 2, lateCnt := p.lateCnt + 1 }
      pwmRecord u 4 p.lateCnt.toNat (noteBit (0x3400 + u) 2 2 (l.setPair u (p.beatTo due d)))
    else l.setPair u (p.beatTo false d)

/-- A result fails: outside 64–127 taps, or more than 8 taps from the previous one (R279). -/
def DelayLine.bad (n : Nat) (d : DelayLine) : Bool :=
  decide (n < 64) || decide (127 < n) || (match d.prev with
    | some p => decide (p.toNat + 8 < n) || decide (n + 8 < p.toNat)
    | none => false)

/-- The next calibration of an output is due 400,000 TCLK after the last (R278). -/
def DelayLine.calDue (now : Nat) (d : DelayLine) : Bool := match d.calAt with
  | some t => decide (t + 400000 ≤ now)
  | none => true

/-- A delay-line calibration of a precision output: the line that does not place edges is measured; a good result takes over at the next
boundary, a bad one keeps the mapping (R278, R279). -/
def dlineCalibration (u : Nat) (isL : Bool) (taps : Byte) (l : Live) : Live :=
  let p := l.pair u
  let d := if isL then p.dlL else p.dlH
  if blockHeld l 0x10 || !domainUp .prot l || !isPP u || !d.calDue l.now then l else
  let bad := d.bad taps.toNat
  let d := { d with prev := some taps, calAt := some l.now, due := d.due || !bad }
  let p := if isL then { p with dlL := d, faultL := bad } else { p with dlH := d, faultH := bad }
  let p := if bad then p else if isL then { p with tapsL := taps, calL := true } else { p with tapsH := taps, calH := true }
  let p := { p with status := putBit p.status 12 (p.faultH || p.faultL) }
  let l := l.setPair u p
  if bad then reportFault (0x2000 + 0x40 * u) 0x52 (5 * 2 ^ 24) 0x5000 l else l

/-- The start instant of a pair (R280, R281): RUNNING with both outputs at their inactive levels, the first boundary at the
start offset. An output whose short flag is clear is driven again (R294). -/
def pairStart (u : Nat) (l : Live) : Live :=
  let p := l.pair u
  if p.startAt = some l.now && armed l && l.flag (0x2400 + u) 1 && p.state ≠ .running && unitUp 0x10 l then
    let t := l.now * 64
    let off := unitsOf u (l.cfg (0x4400 + u) 0x23) * unitLen l u
    let p := { p with state := .running, startAt := none, status := setBit (clrMask p.status 0x0F00) 0 }
    let p := { p with h := { p.h with released := p.h.released && bitOf p.status.toNat 5 } }
    let p := { p with l := { p.l with released := p.l.released && bitOf p.status.toNat 6 } }
    let p := turnOff l u true t (turnOff l u false t { p with actH := false, actL := false })
    (noteBit (0x3400 + u) 2 0 l).setPair u { p with nextB := some (t + off), lastB := none, refEdges := [], refHigh := false, midDone := false }
  else l

/-! ### What a commit does to pairs and inputs -/

/-- Re-drives the outputs of a pair after a commit of its levels. -/
def redrivePair (u : Nat) (l : Live) : Live :=
  let p := l.pair u
  match p.state with
  | .idle => l
  | .running =>
    let lv := fun (isL act : Bool) => some (if act then activeLevel l u isL else !activeLevel l u isL)
    l.setPair u ((p.drive l.now false (lv false p.actH) false).drive l.now true (lv true p.actL) false)
  | .tripped => l.setPair u (tripOutputs l u p)

/-- A commit of Enable (R280, R281). -/
def pairEnableCommit (u : Nat) (old new : Bool) (l : Live) : Live :=
  let p := l.pair u
  if new then
    if !old && armed l && p.state ≠ .running then l.setPair u { p with startAt := some l.now } else l
  else match p.state with
    | .running => l.setPair u { p with stopDue := true }
    | .tripped => l.setPair u { p.winter l.now with state := .idle, startAt := none }
    | .idle => l.setPair u { p with startAt := none }

/-- A reset takes every pair to IDLE, with its requests withdrawn; counters stay (R85, R296). -/
def keepPair (p : Pair) : Pair := { lateCnt := p.lateCnt, underCnt := p.underCnt, shortCnt := p.shortCnt }
def pairsIdle (l : Live) : Live := forAll (fun u l => l.updPair u keepPair) (List.range 24) l

/-- The BLOCK reset of the PWM unit (R296): every pair IDLE, disarm with cause 9. IDLE is the first row of R280 that applies, so that no pair
trips. -/
def pwmBlockReset (l : Live) : Live := disarm 9 (pairsIdle l)

/-- A commit of H-only mode takes L of a RUNNING pair to its inactive level, without a turn-on that was to come (R270); in complementary
mode L turns on after the next REF fall (log entry 116). -/
def outputModeCommit (u : Nat) (l : Live) : Live :=
  let p := l.pair u
  if p.state = .running && !complementary l u then l.setPair u (turnOff l u true (l.now * 64) p) else l

/-- A commit that enables streaming (R277): the duty until the first beat is the last committed one. -/
def streamStart (u : Nat) (l : Live) : Live :=
  l.updPair u (fun p => if p.deferred.any (fun w => w.what = 1) then p else p.setShadow ⟨0, 1, l.cfg (0x4400 + u) 0x21⟩)

/-- The committed values of the pairs load into their shadows: at start-up and at the release of a block reset (R91). -/
def loadShadows (l : Live) : Live :=
  let ld := fun (l : Live) (u : Nat) (p : Pair) =>
    ({ p with deferred := [], shadow := { period := BitVec.ofNat 32 (l.cfg (0x4400 + u) 0x20),
                                          duty := BitVec.ofNat 32 (l.cfg (0x4400 + u) 0x21),
                                          dead := BitVec.ofNat 16 (l.cfg (0x4400 + u) 0x22) } } : Pair)
  forAll (fun u l => l.updPair u (ld l u)) (List.range 24) l

end Sys2Proof.Machine
end

