-- ==== Sys2Proof/Machine/Channels.lean ====
section
/-! DEFINITION. The channel array: requests and links, pin actions, T-pins with failsafe and readback, matches, captures and
the capture FIFO (R95–R110, R492), and the commands MATCH_FIRE to TPIN_SHORT_CLEAR. -/

namespace Sys2Proof.Machine

open Sys2Proof

/-- The cluster of a channel is out of every reset. -/
def clusterUp (l : Live) (k : Nat) : Bool := unitUp k l

/-- Its microengine has its clock: not in doze (R382). -/
def engineUp (l : Live) (k : Nat) : Bool := clusterUp l k && awake l

/-! ### Service requests and links (R105, R106) -/

/-- Raises requests of a channel; an idle thread becomes ready (R105, R154). -/
def raiseReq (c : Nat) (mask : Byte) (l : Live) : Live :=
  l.updChan c (fun x =>
    let th := if x.thread = .idle then ThreadState.ready else x.thread
    { x with req := x.req ||| mask, fresh := x.fresh ||| mask, thread := th })

/-- A target latches LINK and LNKD; an unsampled earlier link is overrun (R106). A LINK that an abandoned routine had sampled counts
as sampled (log entry 109). -/
def latchLink (c : Nat) (data : Word) (l : Live) : Live :=
  if 512 ≤ c || !clusterUp l (c / 64) then l else
  let x := l.chan c
  let ovr := x.req.getLsbD 4 && !x.linkSampled
  let x := if ovr then { x with cstat := setBit x.cstat 6, linkCnt := x.linkCnt + 1 } else x
  let l := if ovr then noteBit (0x3200 + c) 1 6 l else l
  raiseReq c 0x10 (l.setChan c { x with lnkd := data, linkSampled := false })

/-- LNKD as a source forms it (R103): EDGE, SRC, FINE, STAMP. -/
def linkData (edge : Bool) (c fine stamp : Nat) : Word :=
  BitVec.ofNat 64 (b2n edge * 2 ^ 63 + c * 2 ^ 54 + fine % 64 * 2 ^ 48 + stamp % 2 ^ 48)

/-- Sends a link from channel c to all its targets, or to the target with one offset; dropped while links are off (R106,
R149). -/
def sendLink (c : Nat) (one : Option Nat) (data : Word) (l : Live) : Live :=
  let first := l.cfg (0x2200 + c) 8
  if first = 0xFFFF then l
  else match one with
    | some n => latchLink (first + n) data l
    | none => forAll (fun i => latchLink (first + i) data) (List.range (l.cfg (0x2200 + c) 9)) l

/-! ### Parameter words of the ROM functions (R111) -/

/-- Limits and default of parameter word i of a ROM function in raw units, by its table in 04: ns words in TCLK, ps words in fine
ticks. A limit that names another word is checked where words are written.
The table states no default for the increment of DDS: its upper limit stands in (log entry 109). -/
def romLimits (func i : Nat) : Option (Nat × Nat × Nat) :=
  let big := 2 ^ 47 - 1
  match func, i with
  | 0, 0 => some (1, 3, 3)
  | 0, 1 => some (1, 65535, 1)
  | 0, 2 => some (0, 7, 4)
  | 1, 0 => some (1, 2, 1)
  | 1, 1 => some (1, 256, 1)
  | 1, 2 => some (40, big, 400000000)
  | 2, 0 => some (1, 3, 1)
  | 2, 1 => some (0, 255, 255)
  | 2, 2 => some (0, 1, 0)
  | 3, 0 => some (1, 2, 1)
  | 3, 1 => some (400, 4000000000, 40000000)
  | 3, 2 => some (2, 65535, 2)
  | 4, 0 => some (0, 31, 8)
  | 4, 1 => some (0, big, 0)
  | 4, 2 => some (2, big, 400)
  | 4, 3 => some (0, 2, 0)
  | 4, 4 => some (0, 1, 0)
  | 5, 0 => some (0, 2, 0)
  | 5, 1 => some (40, big, 4000)
  | 5, 2 => some (2, big, 2000)
  | 5, 3 => some (1, 2 ^ 32, 10)
  | 5, 4 => some (40, big, 400000)
  | 5, 5 => some (0, 2 ^ 64 - 1, 0)
  | 5, 6 => some (0, 2 ^ 48 - 1, 0)
  | 5, 7 => some (0, big, 400)
  | 6, 0 => some (0, 1, 0)
  | 6, 1 => some (1, 107374182, 107374182)
  | 6, 2 => some (0, 2 ^ 48 - 1, 0)
  | 6, 3 => some (400, 4000000000, 400000)
  | 6, 4 => some (1, 2 ^ 32 - 1, 2 ^ 31)
  | 7, 0 => some (0, 1, 0)
  | 7, 1 => some (4000, big, 400000000)
  | 7, 2 => some (0, 65536, 0)
  | 7, 3 => some (0, big, 0)
  | 8, 0 => some (2, 1000, 100)
  | 8, 1 => some (0, 1000, 0)
  | 8, 2 => some (0, 1, 1)
  | 8, 3 => some (0, 400000, 80000)
  | 8, 4 => some (0, 1, 0)
  | 8, 5 => some (288, 1024, 384)
  | 9, 0 => some (1, 3, 3)
  | 9, 1 => some (40, big, 40000000)
  | 9, 2 => some (0, 7, 6)
  | 9, 3 => some (0, 1, 1)
  | 10, 0 => some (0, 1, 0)
  | 10, 1 => some (0, big * 64, 256000)
  | 11, 0 => some (1, 3, 3)
  | 11, 1 => some (1, 50000, 1000)
  | _, _ => none

/-- A parameter word as committed (raw). -/
def committedWord (l : Live) (c i : Nat) : Nat := l.cfg (0x4200 + c) (0x10 + i)

/-- A value of a parameter word was written: by a commit, or by the active overlay. -/
def wordWritten (l : Live) (c i : Nat) : Bool :=
  (l.conf.objs.get none (key (0x4200 + c) (0x10 + i))).isSome
    || l.conf.ovl.any (fun e => e.1 = key (0x4200 + c) (0x10 + i))

/-- The parameter word a ROM function works with: the committed value, or the function's default where none was written or the value
left over from another function lies outside the limits (log entry 30). -/
def romParam (l : Live) (f c i : Nat) : Nat :=
  let v := committedWord l c i
  match romLimits f i with
  | some (lo, hi, d) => if wordWritten l c i && decide (lo ≤ v ∧ v ≤ hi) then v else d
  | none => v

/-! ### T-pins (R107–R110) -/

/-- The driver of a T-pin: a channel, 0xFFFE the event scheduler, 0xFFFF none (R107). -/
def driverOf (l : Live) (n : Nat) : Nat := l.cfg (0x2D00 + n) 2

/-- The T-pins that channel c drives, from the committed drivers (the default driver is none). -/
def pinsOf (l : Live) (c : Nat) : List Nat :=
  (List.range 192).filter (fun n => match l.conf.objs.get none (key (0x2D00 + n) 2) with
    | some v => v.toNat = c
    | none => false)

/-- What a T-pin drives by its direction, driver, failsafe state and release; none is high impedance (R107, R109, R110). -/
def pinTarget (l : Live) (n : Nat) : Option Bool :=
  let dir := l.cfg (0x2D00 + n) 1
  let t := l.tpin n
  let want : Option Bool :=
    if dir = 0 || t.status.getLsbD 2 then none
    else if t.failsafe then
      (match l.cfg (0x2D00 + n) 3 with
       | 0 => some false
       | 1 => some true
       | _ => none)
    else if driverOf l n = 0xFFFE then some t.latch
    else if driverOf l n < 512 then some ((l.chan (driverOf l n)).out != l.flag (0x2200 + driverOf l n) 7)
    else none
  if dir = 2 && want = some true then none else want

/-- Brings a T-pin to what it has to drive; a driven edge is due for its check 8 TCLK later, for an open-drain output only a
driven-low one (R110), which is the only one it drives. -/
def drivePin (n : Nat) (l : Live) : Live :=
  let t := l.tpin n
  let want := pinTarget l n
  if want = t.driven then l
  else l.setTpin n { t with driven := want, edgeAt := l.now, checkDue := want.isSome, level := want.getD t.level }

/-- Every T-pin of a channel. -/
def drivePins (c : Nat) (l : Live) : Live := forAll drivePin (pinsOf l c) l

/-- A channel's T-pins go to failsafe with a cause (R109): 1 disabled, 2 RUNAWAY, 3 machine check, 4 BLOCK reset. -/
def goFailsafe (cause c : Nat) (l : Live) : Live :=
  let l := l.updChan c (fun x => { x with cstat := clrMask x.cstat 0x0780 ||| BitVec.ofNat 16 (0x80 + cause * 256) })
  forAll (fun n l => drivePin n (l.updTpin n (fun t => { t with failsafe := true }))) (pinsOf l c) l

/-- The cause for which a channel's T-pins are at failsafe whatever the channel itself does: BLOCK reset, machine check or Cluster
enable = 0 of its cluster (R109). -/
def clusterFailsafe (l : Live) (c : Nat) : Option Nat :=
  if !clusterUp l (c / 64) then some 4
  else if (l.cluster (c / 64)).state = 2 then some 3
  else if !l.flag (0x2100 + c / 64) 1 then some 1
  else none

/-- The channels of a cluster that its machine check or BLOCK reset sends to failsafe: those enabled or with a T-pin (R109, R168; log
entry 103). -/
def failsafeChans (l : Live) (k : Nat) : List Nat :=
  ((List.range 64).map (fun i => 64 * k + i)).filter (fun c => (l.chan c).en || !(pinsOf l c).isEmpty)

/-- The cause of a channel's failsafe has ended (R109). -/
def failsafeOver (l : Live) (c : Nat) : Bool :=
  let x := l.chan c
  match field x.cstat.toNat 10 8 with
  | 1 => x.en && l.flag (0x2100 + c / 64) 1
  | 2 => x.thread ≠ .runaway
  | 3 => (l.cluster (c / 64)).state = 1 && x.thread ≠ .halted
  | _ => clusterUp l (c / 64)

/-- The channel leaves failsafe. -/
def endFailsafe (c : Nat) (l : Live) : Live :=
  if !(l.chan c).cstat.getLsbD 7 then l else
  let l := l.updChan c (fun x => { x with cstat := clrMask x.cstat 0x0780 })
  forAll (fun n l => drivePin n (l.updTpin n (fun t => { t with failsafe := false }))) (pinsOf l c) l

/-! ### Pin actions on OUT (R99, R101) -/

def applyAct (a : PinAct) (b : Bool) : Bool := match a with
  | .set => true
  | .clear => false
  | .toggle => !b

/-- Inserts an action after those of an earlier or equal rank. -/
def insertAct (r : Nat) (a : PinAct) : List (Nat × PinAct) → List (Nat × PinAct)
  | [] => [(r, a)]
  | (r', a') :: t => if r < r' then (r, a) :: (r', a') :: t else (r', a') :: insertAct r a t

/-- A pin action of a writer (0 match A, 1 match B, 2 routine, 3 event) at a fine instant of this TCLK. All actions of one TCLK
apply in the order of fine instant, then of writer, then of arrival (R99, R101, R147); the links of their changes of OUT follow
when the TCLK ends. The first action after the cause of failsafe has ended leaves it (R109). -/
def pinAction (c fine writer : Nat) (a : PinAct) (l : Live) : Live :=
  let x := l.chan c
  let same := x.outTclk = l.now
  let base := if same then x.outBase else x.out
  let acts := insertAct (fine * 4 + writer) a (if same then x.outActs else [])
  let out := acts.foldl (fun b e => applyAct e.2 b) base
  let y := { x with out := out, outTclk := l.now, outBase := base, outActs := acts }
  let y := if out = x.out then y else { y with outSince := l.now }
  let l := if failsafeOver l c then endFailsafe c l else l
  drivePins c (l.setChan c { y with cstat := (l.chan c).cstat })

/-- The changes of OUT that actions make in order, each with its level and its fine instant. -/
def outChanges : Bool → List (Nat × PinAct) → List (Bool × Nat)
  | _, [] => []
  | b, (r, a) :: t =>
    let o := applyAct a b
    if o = b then outChanges b t else (o, r / 4) :: outChanges o t

/-- The links of a channel whose OUT has changed in the closing TCLK, in the order of the changes: each target has them within
2 ECLK (R106). -/
def outLinks (c : Nat) (l : Live) : Live :=
  let x := l.chan c
  if x.mode.outlnk && x.outTclk = l.now then
    forAll (fun e => sendLink c none (linkData e.1 c e.2 l.now)) (outChanges x.outBase x.outActs) l
  else l

/-- The links of every channel with OUTLNK. -/
def sendOutLinks (l : Live) : Live := forAll outLinks ((l.channels.filter (fun e => e.2.mode.outlnk)).map (fun e => e.1)) l

/-! ### Matches (R97–R100) -/

/-- What a match held at the start of the TCLK (R100). -/
def MatchReg.atStart (m : MatchReg) (now : Nat) : MatchVal := match m.was with
  | some (t, v) => if t = now then v else m.cur
  | none => m.cur

/-- A change of a match in this TCLK keeps what it held at the start (R100). -/
def MatchReg.change (m : MatchReg) (now : Nat) (v : MatchVal) : MatchReg := { cur := v, was := some (now, m.atStart now) }

/-- Arms a match with a value; a value that is not ahead of STAMP48 is late (R98). -/
def armMatch (l : Live) (value : Stamp) (fine : BitVec 6) (m : MatchReg) : MatchReg :=
  m.change l.now ⟨value, fine, true, !aheadAt 48 value.toNat l.stamp.toNat⟩

/-- Disarms a match. -/
def disarmMatch (l : Live) (m : MatchReg) : MatchReg := m.change l.now { m.cur with en := false, late := false }

/-- The match fires in this TCLK (R97, R98). -/
def MatchReg.fires (l : Live) (m : MatchReg) : Bool :=
  let v := m.atStart l.now
  v.en && (v.late || v.value = l.stamp)

/-- The match after it has fired: disarmed, unless it was changed in the same TCLK (R100). -/
def MatchReg.fired (l : Live) (m : MatchReg) : MatchReg := match m.was with
  | some (t, v) => if t = l.now then { m with was := some (t, { v with en := false }) }
    else { m with cur := { m.cur with en := false, late := false } }
  | none => { m with cur := { m.cur with en := false, late := false } }

/-- The pin action of a match from MAACT or MBACT (R96). -/
def matchAct (a : BitVec 2) : Option PinAct := match a.toNat with
  | 1 => some .set
  | 2 => some .clear
  | 3 => some .toggle
  | _ => none

/-- One match of a channel fires: flags, request, pin action (R97, R98). -/
def fireOne (c : Nat) (isB : Bool) (l : Live) : Live :=
  let x := l.chan c
  let m := if isB then x.mb else x.ma
  let v := m.atStart l.now
  let x := if isB then { x with mb := m.fired l } else { x with ma := m.fired l }
  let x := { x with cstat := setBit x.cstat (b2n isB) }
  let x := if v.late then { x with cstat := setBit x.cstat 5, lateCnt := x.lateCnt + 1 } else x
  let l := noteFlags (key (0x3200 + c) 1) (2 ^ b2n isB + if v.late then 0x20 else 0) l
  let l := raiseReq c (if isB then 0x02 else 0x01) (l.setChan c x)
  match matchAct (if isB then x.mode.mbact else x.mode.maact) with
  | some a => pinAction c (if v.late then 0 else v.fine.toNat) (b2n isB) a l
  | none => l

/-- MATCH_FIRE: the armed matches of a channel that fire in this TCLK (R97–R100). -/
def matchFire (c : Nat) (l : Live) : Live :=
  if !clusterUp l (c / 64) then l else
  let x := l.chan c
  let a := x.ma.fires l
  let b := x.mb.fires l
  let l := if a then fireOne c false l else l
  if b then fireOne c true l else l

/-! ### Captures (R102, R103) -/

/-- An edge kind field selects an edge. -/
def edgeSel (k : BitVec 2) (rising : Bool) : Bool := if rising then k.getLsbD 0 else k.getLsbD 1

/-- A FIFO entry without VALID (R103). -/
def fifoEntry (rising : Bool) (stamp : Stamp) : Word := BitVec.ofNat 64 (b2n rising * 2 ^ 62 + stamp.toNat)

/-- CAPA loads: FIFO, ECNT, requests (R95, R102, R103, R105). -/
def loadCapA (c : Nat) (rising : Bool) (stamp : Stamp) (l : Live) : Live :=
  let x := l.chan c
  let x := if !x.mode.fifoen then x
    else if x.fifo.length < 4 then { x with fifo := x.fifo ++ [fifoEntry rising stamp] }
    else { x with cstat := setBit x.cstat 4, ovfCnt := x.ovfCnt + 1 }
  let n := x.ecnt + 1
  let cnt := n.getLsbD 15 != x.ecnt.getLsbD 15
  let x := { x with capa := stamp, ecnt := n, cstat := setBit x.cstat 2 }
  let lost := (l.chan c).mode.fifoen && decide (4 ≤ (l.chan c).fifo.length)
  raiseReq c (if cnt then 0x84 else 0x04) (noteFlags (key (0x3200 + c) 1) (if lost then 0x14 else 0x04) (l.setChan c x))

/-- CAPB loads. -/
def loadCapB (c : Nat) (stamp : Stamp) (l : Live) : Live :=
  raiseReq c 0x08 ((noteBit (0x3200 + c) 1 3 l).updChan c (fun x => { x with capb := stamp, cstat := setBit x.cstat 3 }))

/-- The level at the ball as the device knows it, of an output too: what was last driven, read back or accepted there (R108; log
entry 18). -/
def ballLevel (l : Live) (n : Nat) : Bool := (l.tpin n).level

/-- The COUNT function counts an edge only while its gate pin is at the active level (function table of 04). -/
def gateOpen (l : Live) (c : Nat) : Bool :=
  let g := romParam l 2 c 1
  if g = 0xFF then true else ballLevel l g != decide (romParam l 2 c 2 = 1)

/-- A COUNT channel counts the edge in its private word SW16 (log entry 19). -/
def countEdge (c : Nat) (l : Live) : Live :=
  let x := l.chan c
  if x.romFn = some 2 && x.en && gateOpen l c then
    l.setChan c { x with sw := x.sw.put 0 16 (BitVec.ofNat 64 (((x.sw.get 0 16).toNat + 1) % 2 ^ 48)) }
  else l

/-- Counts an edge into a gate's words: number, first stamp, last stamp, from SW i on. -/
def gateWords (i : Nat) (stamp : Stamp) (x : Channel) : Channel :=
  let n := (x.sw.get 0 i).toNat
  let sw := if n = 0 then x.sw.put 0 (i + 1) (stamp.setWidth 64) else x.sw
  { x with sw := (sw.put 0 (i + 2) (stamp.setWidth 64)).put 0 i (BitVec.ofNat 64 (n + 1)) }

/-- A FREQ channel counts the edge in the running gate, or in the next one if it does not lie before the gate's end (SW16, with bit 63
while gates run; SW17–SW19 the gate, SW20–SW22 the next; log entry 19). -/
def freqEdge (c : Nat) (stamp : Stamp) (l : Live) : Live :=
  let x := l.chan c
  let e := x.sw.get 0 16
  if x.romFn = some 3 && x.en && e.getLsbD 63 then
    l.setChan c (gateWords (if aheadAt 48 e.toNat stamp.toNat then 17 else 20) stamp x)
  else l

/-- A gate that closes latches its count and its close (SW17 count at open, SW18 last gate, SW19 close with bit 63); the routine
publishes them in its next run (log entry 19). -/
def gateEdge (pin : Nat) (was : Bool) (stamp : Stamp) (c : Nat) (l : Live) : Live :=
  let x := l.chan c
  if !(x.romFn = some 2 && x.en && romParam l 2 c 1 = pin) then l
  else
    let n := x.sw.get 0 16
    if gateOpen l c then l.setChan c { x with sw := x.sw.put 0 17 n }
    else if was = decide (romParam l 2 c 2 = 1) then l
    else
      let d := BitVec.ofNat 64 (modDist 48 n.toNat (x.sw.get 0 17).toNat)
      l.setChan c { x with sw := (x.sw.put 0 18 d).put 0 19 (BitVec.ofNat 64 (2 ^ 63 + stamp.toNat)) }

/-- Enabled channels that run COUNT. -/
def countChannels (l : Live) : List Nat := (l.channels.filter (fun e => e.2.romFn = some 2 && e.2.en)).map (fun e => e.1)

/-- INPUT_EDGE: the input of a channel has accepted a new level; `stamp` is that of its first sample (R102). A level that is not
new, or a channel without an input, makes no edge. -/
def inputEdge (c : Nat) (stamp : Stamp) (rising : Bool) (l : Live) : Live :=
  let pin := l.cfg (0x2200 + c) 4
  let x := l.chan c
  if !clusterUp l (c / 64) || decide (192 ≤ pin) || x.input = rising then l else
  let was := ballLevel l pin
  let ball := rising != l.flag (0x2200 + c) 6
  let l := l.updTpin pin (fun t => { t with level := ball })
  let l := l.setChan c { x with input := rising }
  let l := if ball = was then l else forAll (gateEdge pin was stamp) (countChannels l) l
  let l := if edgeSel x.mode.caedge rising then freqEdge c stamp (countEdge c (loadCapA c rising stamp l)) else l
  if edgeSel x.mode.cbedge rising then loadCapB c stamp l else l

/-- Takes the oldest entry of a capture FIFO, or answers the last one popped with VALID = 0 (R81, R103). -/
def popFifo (c : Nat) (l : Live) : Word × Live :=
  let x := l.chan c
  match x.fifo with
  | e :: r => (setBit e 63, l.setChan c { x with fifo := r, fifoLast := e })
  | [] => (x.fifoLast, l)

/-- T-pin readback, 8 TCLK after a driven edge (R110): the third consecutive mismatch sets SHORT, releases the pin and disarms
(R293, cause 4). Its record is that of an output released as shorted (log entry 15). -/
def tpinReadback (n : Nat) (level : Bool) (l : Live) : Live :=
  let t := l.tpin n
  if !(t.checkDue && decide (l.now = t.edgeAt + 8)) then l
  else if t.driven = some (!level) then
    if 2 ≤ t.mismatches then
      let st := setBit (setBit t.status 1) 2
      let t := { t with status := st, shortCnt := t.shortCnt + 1, mismatches := 0, checkDue := false }
      let src := if driverOf l n < 512 then 0x1000 + driverOf l n else 0x9FC0
      disarm 4 (reportJournal src 0x52 (2 * 2 ^ 24) (drivePin n (noteBit (0x3D00 + n) 1 1 (l.setTpin n { t with level := level }))))
    else l.setTpin n { t with mismatches := t.mismatches + 1, checkDue := false, level := level }
  else l.setTpin n { t with mismatches := 0, checkDue := false, level := level }

/-- Writing 1 to SHORT clears it and drives the pin again (R110), unless it was set in the same TCLK (R84). -/
def clearTpinShort (n : Nat) (l : Live) : Live :=
  if clearable l (key (0x3D00 + n) 1) 2 = 0 then l else
  drivePin n (l.updTpin n (fun t => { t with status := clrBit (clrBit t.status 1) 2 }))

/-- The source field of channel c (R3). -/
def channelSource (c : Nat) : Nat := 0x1000 + c

/-! ### Commands -/

def execMatchFire (c : Fin 512) (s : State) : Out := ran (matchFire c.val) s

def execInputEdge (c : Fin 512) (stamp : Stamp) (rising : Bool) (s : State) : Out := ran (inputEdge c.val stamp rising) s

/-- CAPTURE_FIFO_POP: a dictionary read of the pop object 0x3200+c:07, read live (R81, R103). -/
def execCaptureFifoPop (conn : Conn) (c : Fin 512) (s : State) : Out :=
  ran (fun l =>
    if !served conn l then l
    else
      let r := popFifo c.val (touch conn l)
      answer (connId conn) (.value (bytesLE 8 r.1.toNat)) r.2) s

/-- HOST_COMMAND: any value raises HCMD (R105, R122). -/
def execHostCommand (conn : Conn) (c : Fin 512) (_value : Byte) (s : State) : Out :=
  ran (onObject conn (0x2200 + c.val) 0x0A (done (raiseReq c.val 0x20))) s

def execLinkRequest (target : Fin 512) (lnkd : Word) (s : State) : Out := ran (latchLink target.val lnkd) s

def execTpinReadback (n : Fin 192) (level : Bool) (s : State) : Out := ran (tpinReadback n.val level) s

def execTpinShortClear (conn : Conn) (n : Fin 192) (s : State) : Out :=
  ran (onObject conn (0x3D00 + n.val) 1 (done (clearTpinShort n.val))) s

end Sys2Proof.Machine
end

