-- ==== Sys2Proof/Machine/Events.lean ====
section
/-! DEFINITION. The event table without the predictions and the actions of its entries: key bases and distances, the order of a
queue, insert engine, freeing, flush, lateness marks, jumps, AT steps and relabelling (R43, R55, R182, R183, R186–R194, R199,
R202, R203, R208), and the commands of inserting, cancelling, flushing and reading. -/

namespace Sys2Proof.Machine

open Sys2Proof

/-! ### Key bases (R187) -/

/-- Base of a queue: 0 DT, 1 AT, 2–5 WA0–WA3, 6–13 FP0–FP7 (R205). -/
def qBase (l : Live) (q : Nat) : Nat := l.cfg (0x2800 + q) 1

/-- Late window L (R187). -/
def lateWindow (l : Live) (q : Nat) : Nat :=
  let w := l.cfg (0x2800 + q) 3
  if w ≠ 0 then w else if qBase l q < 2 then 400000 else 1024

/-- Ticks of a second, and the AT key space in ticks (R187). -/
def second : Nat := 400000000
def atSpace : Nat := 2 ^ 19 * second

/-- An AT key in ticks, and back (R187). -/
def atTicks (k : Nat) : Nat := field k 47 29 * second + field k 28 0
def atKey (x : Nat) : Nat := x % atSpace / second * 2 ^ 29 + x % second

/-- Size of a queue's key space, its reference, and a key in the units of both. -/
def keySpace (l : Live) (q : Nat) : Nat :=
  let b := qBase l q
  if b = 1 then atSpace else if 2 ≤ b ∧ b < 6 then (l.wheel (b - 2)).cyc else 2 ^ 48
def keyRef (l : Live) (q : Nat) : Nat :=
  let b := qBase l q
  if b = 0 then l.stamp.toNat else if b = 1 then l.aticks % atSpace
  else if b < 6 then (l.wheel (b - 2)).lane else (l.port (b - 6)).pos.toNat
def keyUnits (l : Live) (q k : Nat) : Nat := if qBase l q = 1 then atTicks k else k
def unitsKey (l : Live) (q x : Nat) : Nat := if qBase l q = 1 then atKey x else x

/-- How far a key may lie back and still be behind (R187). -/
def behindLimit (l : Live) (q : Nat) : Nat :=
  let b := qBase l q
  if b = 0 then 2 ^ 47 else if b = 1 then 2 ^ 18 * second else if b < 6 then lateWindow l q else 0

/-- Distance from a key to the reference behind it, modulo its space. -/
def backOf (l : Live) (q k : Nat) : Nat :=
  let m := keySpace l q
  (keyRef l q + m - keyUnits l q k % m) % m

/-- A key is behind its reference (R187). A WA key beyond the cycle is not (R222). -/
def keyBehind (l : Live) (q k : Nat) : Bool :=
  let b := qBase l q
  !(2 ≤ b && decide (b < 6) && decide ((l.wheel (b - 2)).cyc ≤ k))
    && decide (1 ≤ backOf l q k ∧ backOf l q k ≤ behindLimit l q)

/-- Distance of a key ahead of the reference, negative for one behind it (R190). A WA key that equals the lane waits a cycle
(R188); one beyond the cycle comes last (R222). -/
def keyDistance (l : Live) (q k : Nat) : Int :=
  let b := qBase l q
  let m := keySpace l q
  let x := keyUnits l q k
  if 2 ≤ b ∧ b < 6 ∧ m ≤ x then (m + x : Nat)
  else if keyBehind l q k then -(backOf l q k : Int)
  else
    let d := (x + m - keyRef l q % m) % m
    if d = 0 ∧ 2 ≤ b ∧ b < 6 then (m : Int) else (d : Int)

/-! ### Queues and entries -/

/-- The queue is bound to a tracker. -/
def isWa (l : Live) (q w : Nat) : Bool := qBase l q = 2 + w

/-- A queue is BLOCKED (R188). -/
def queueBlocked (l : Live) (q : Nat) : Bool :=
  let b := qBase l q
  if 2 ≤ b ∧ b < 6 then
    match (l.wheel (b - 2)).state with
    | .sync | .cycleSync => false
    | .preSync => !l.flag (0x2800 + q) 5
    | _ => true
  else false

/-- Number of entries of the pool that are free, and of those armed. -/
def freeEntries (l : Live) : Nat := 4096 - l.events.entries.length
def armedEntries (l : Live) : Nat := (l.events.entries.filter (fun e => e.2.armed.isSome)).length

/-- Sets bits of a queue's status and counts a fault (R183, R184). -/
def queueFault (q bit : Nat) (l : Live) : Live :=
  (noteBit (0x3800 + q) 1 bit l).updQueue q (fun x => { x with status := setBit x.status bit, faultCnt := x.faultCnt + 1 })

def queueFlag (q bit : Nat) (l : Live) : Live := (noteBit (0x3800 + q) 1 bit l).updQueue q (fun x => { x with status := setBit x.status bit })

/-- The target of an action cannot act (R184). -/
def noTarget (q : Nat) (l : Live) : Live := queueFault q 4 l

/-- Withdraws a pre-armed entry (R195). -/
def EvEntry.withdraw (e : EvEntry) : EvEntry := { e with armed := none, landed := false, fine := 0 }

/-- Inserts that wait in the FIFO behind the walk in progress, reinsertions apart (R194). -/
def fifoInserts (l : Live) : Nat :=
  (l.events.fifo.tail.filter (fun e => match (l.entry e).phase with
    | .walking _ true => false
    | _ => true)).length

/-- The FIFO is full (R194). -/
def fifoFull (l : Live) : Bool := decide (32 ≤ fifoInserts l)

/-- The first insert for which the supervisor waits takes a place of the FIFO that has become free (R183, R194). -/
def admitWaiting (l : Live) : Live := match l.events.waiting with
  | e :: r => if fifoFull l then l else { l with events := { l.events with waiting := r, fifo := l.events.fifo ++ [e] } }
  | [] => l

/-- Takes an entry out of its queue's order and out of the FIFO. If it was being walked, the next walk begins. -/
def unlist (e : Nat) (l : Live) : Live :=
  let q := (l.entry e).queue
  let l := l.updQueue q (fun x => { x with order := x.order.filter (· ≠ e) })
  let u := l.events
  let start := if u.fifo.head? = some e then l.now else u.walkFrom
  admitWaiting { l with events := { u with fifo := u.fifo.filter (· ≠ e), waiting := u.waiting.filter (· ≠ e), walkFrom := start } }

/-- The queue is being listed (R208). -/
def listed (l : Live) (q : Nat) : Bool := match l.events.listing with
  | some (x, _) => x = q
  | none => false

/-- A freed entry: wiped, or leaving while its queue is being listed (R186, R202, R208). Commit groups forget a dormant one. -/
def freeEntry (e : Nat) (l : Live) : Live :=
  let x := l.entry e
  if x.phase = .free then l
  else
    let l := unlist e l
    if listed l x.queue then l.setEntry e { x.withdraw with phase := .leaving } else l.setEntry e {}

/-- Puts a number into a list behind every one whose rank is at most its own. -/
def placeBy (rank : Nat → Int) (e : Nat) : List Nat → List Nat
  | [] => [e]
  | x :: r => if rank e < rank x then e :: x :: r else x :: placeBy rank e r

/-- A list in rising rank, equal ranks in the order they had. -/
def sortBy (rank : Nat → Int) (xs : List Nat) : List Nat := xs.foldl (fun acc e => placeBy rank e acc) []

/-- Where an entry stands in its queue (R190): entries whose key is reached first, then late ones, then by the distance of the key
ahead. A live WA entry that is not late waits for the lane to come round to its key (R188). -/
def entryRank (l : Live) (q e : Nat) : Int :=
  let x := l.entry e
  let b := qBase l q
  if x.reached.isSome then -(2 ^ 50)
  else if 2 ≤ b ∧ b < 6 then
    let d := keyDistance l q x.key
    if x.late then -(2 ^ 49) else if d < 0 ∧ (x.phase = .live ∨ x.ahead) then d + keySpace l q else d
  else if x.late then min (-1) (keyDistance l q x.key)
  else keyDistance l q x.key

/-- The entries of a queue, live and dormant, in their order (R190). -/
def queueOrder (l : Live) (q : Nat) : List Nat := sortBy (entryRank l q) (l.queue q).order

/-- Number of entries that precede an entry in its queue: k of R194. -/
def precede (l : Live) (e : Nat) : Nat :=
  let q := (l.entry e).queue
  ((l.queue q).order.filter (fun x => decide (entryRank l q x ≤ entryRank l q e))).length

/-- Puts an entry into its queue's order. -/
def enlist (e : Nat) (l : Live) : Live :=
  let q := (l.entry e).queue
  l.updQueue q (fun y => { y with order := placeBy (entryRank l q) e (queueOrder l q) })

/-- An entry becomes live: late if its key is behind (R199). -/
def becomeLive (e : Nat) (l : Live) : Live :=
  let x := l.entry e
  let late := decide (qBase l x.queue < 6) && keyBehind l x.queue x.key && !x.ahead
  l.setEntry e { x with phase := .live, late := late, reached := none }

/-! ### Insert checks and reports (R182, R183) -/

/-- An insert of 16 bytes as a number (R182). -/
def entryOf (n : Nat) : EvEntry :=
  { queue := field n 119 116, key := field n 47 0, act := field n 52 48, tgt := field n 61 53, skiplate := bitOf n 62,
    logf := bitOf n 63, arg := BitVec.ofNat 32 (field n 95 64), per := field n 107 96, rep := field n 115 108 }

/-- An entry with a LINK field (R182). -/
def entryWord (link : Nat) (x : EvEntry) : Nat :=
  link * 2 ^ 116 + x.rep * 2 ^ 108 + x.per * 2 ^ 96 + x.arg.toNat * 2 ^ 64 + b2n x.logf * 2 ^ 63 + b2n x.skiplate * 2 ^ 62
    + x.tgt * 2 ^ 53 + x.act * 2 ^ 48 + x.key

/-- TGT beyond what the action permits (R184). -/
def badTarget (x : EvEntry) : Bool := match x.act with
  | 0x00 | 0x0B | 0x0C => x.tgt ≠ 0
  | 0x01 => false
  | 0x02 | 0x03 | 0x04 => decide (192 ≤ x.tgt)
  | 0x05 => decide (64 ≤ x.tgt)
  | 0x06 => decide (4 ≤ x.tgt)
  | 0x07 => decide (8 ≤ x.tgt)
  | 0x08 => decide (13 ≤ x.tgt)
  | 0x09 => decide (32 ≤ x.tgt)
  | _ => decide (16 ≤ x.tgt)

/-- ARG beyond what the action permits (R184). -/
def badArgument (x : EvEntry) : Bool := match x.act with
  | 0x02 | 0x03 | 0x04 => decide (64 ≤ x.arg.toNat)
  | 0x0A => decide (2 ^ 16 ≤ x.arg.toNat)
  | 0x0B => false
  | _ => x.arg ≠ 0

/-- The key breaks its base's format (R187). -/
def badKey (l : Live) (x : EvEntry) : Bool :=
  let b := qBase l x.queue
  (b = 1 && decide (second ≤ field x.key 28 0)) || (2 ≤ b && decide (b < 6) && decide (2 ^ 19 ≤ x.key))

/-- The reason an insert is refused: 0 none, 1 queue, 2 action, 3 target, 4 key, 5 argument (R183). -/
def insertReason (l : Live) (n : Nat) : Nat :=
  let x := entryOf n
  if field n 127 120 ≠ 0 then 1 else if 0x0D ≤ x.act then 2 else if badTarget x then 3 else if badKey l x then 4
  else if badArgument x then 5 else 0

/-- The report of a refused insert (R183). Where the queue field is invalid, flag and counter are those of the queue that its low
bits name (log entry 112); the record goes under 0x9FC0. -/
def insertFault (q reason : Nat) (l : Live) : Live :=
  writeRecord (if reason = 1 then 0x9FC0 else 0x9000 + 0x40 * q + 1) 0x34 (reason * 2 ^ 28) (queueFault q 3 l)

/-- A drop for a full FIFO (6) or a full pool (7) (R183, R194). -/
def insertDrop (q reason : Nat) (l : Live) : Live :=
  let u := l.events
  let u := { u with poolStatus := setBit u.poolStatus (if reason = 6 then 1 else 0), dropCnt := u.dropCnt + 1 }
  insertFault q reason (noteBit 0x3810 2 (if reason = 6 then 1 else 0) { l with events := u })

/-- First free entry at or after a start, cyclically: which free entry the supervisor gives is open (log entry 20). -/
def firstFree (l : Live) (start : Nat) : Option Nat :=
  ((List.range 4096).map (fun i => (start + i) % 4096)).find? (fun e => (l.entry e).phase = .free)

/-- Allocates an entry. -/
def allocEntry (l : Live) : Option Nat × Live :=
  let r := drawFree l
  (firstFree l (r.1.toNat % 4096), r.2)

/-- Adds an insert to the FIFO; a walk that finds the engine idle starts at once (R194). A reinsertion goes ahead of the inserts
that wait, behind the walk in progress and other reinsertions. -/
def joinFifo (e : Nat) (reins : Bool) (l : Live) : Live :=
  let u := l.events
  match u.fifo with
  | [] => { l with events := { u with fifo := [e], walkFrom := l.now } }
  | h :: r =>
    let isR := fun (x : Nat) => match (l.entry x).phase with
      | .walking _ b => b
      | _ => false
    let r' := if reins then r.takeWhile isR ++ e :: r.dropWhile isR else r ++ [e]
    { l with events := { u with fifo := h :: r' } }

/-- An insert of the dictionary path joins the FIFO, or waits for a place in it behind those that wait (R183). -/
def joinOrWait (e : Nat) (l : Live) : Live :=
  if fifoFull l then { l with events := { l.events with waiting := l.events.waiting ++ [e] } } else joinFifo e false l

/-- A microcode post of bytes 0–7 and 8–15 (R150, R183, R194). -/
def postEvent (x6 x7 : Word) (l : Live) : Live :=
  let n := x6.toNat + x7.toNat * 2 ^ 64
  let x := entryOf n
  let r := insertReason l n
  if r ≠ 0 then insertFault x.queue r l
  else if fifoFull l then insertDrop x.queue 6 l
  else match allocEntry l with
    | (none, l) => insertDrop x.queue 7 l
    | (some e, l) => joinFifo e false (l.setEntry e { x with phase := .walking none false })

/-! ### Commit groups own inserts and cancels (R191–R193) -/

/-- A group is ARMED. -/
def groupArmed (l : Live) (g : Nat) : Bool := (l.group g).state = .armed

/-- A write that names a group with work makes an idle group STAGING (R74). -/
def beginStaging (g : Nat) (l : Live) : Live :=
  l.updGroup g (fun x => if x.state = .idle then { x with state := .staging } else x)

/-- EVENT_INSERT: the dictionary path (R183, R191, R193). -/
def eventInsert (i : Nat) (data : List Byte) (l : Live) : Live × Nat :=
  if data.length ≠ 17 then (l, abLength)
  else
    let g := fieldLE data 0 1
    let n := fieldLE data 1 16
    let x := entryOf n
    let r := insertReason l n
    if 64 ≤ g then (l, abRange)
    else if groupArmed l g then (l, abState)
    else if r ≠ 0 then (insertFault x.queue r l, abRange)
    else match allocEntry l with
      | (none, l) => (insertDrop x.queue 7 l, abMemory)
      | (some e, l) =>
        let l := l.setEntry e { x with phase := .walking (some g) false }
        let l := l.updConnSt i (fun c => { c with lastAlloc := BitVec.ofNat 16 e })
        (beginStaging g (joinOrWait e l), 0)

/-- EVENT_CANCEL: staged in the group it names (R192, R207). -/
def eventCancel (v : Nat) (l : Live) : Live × Nat :=
  let g := field v 31 24
  let e := field v 11 0
  if field v 23 12 ≠ 0 || decide (64 ≤ g) then (l, abRange)
  else if groupArmed l g then (l, abState)
  else if (l.entry e).phase = .free then (l, abRange)
  else
    let l := l.updGroup g (fun x => { x with staged := { x.staged with cancels := x.staged.cancels ++ [e] } })
    (beginStaging g l, 0)

/-- All entry numbers in use. -/
def usedEntries (l : Live) : List Nat := l.events.entries.map (fun e => e.1)

/-- The bytes that a read of 0x2810:01 gives for an entry made live by group g (R207). -/
def insertForm (g : Nat) (x : EvEntry) : List Byte := bytesLE 1 g ++ bytesLE 16 (entryWord x.queue x)

/-- One staged insert of a group at its commit: a dormant entry becomes live; one still walking becomes live at the end of its walk
(R192; log entry 21). -/
def commitEntry (g e : Nat) (l : Live) : Live :=
  let x := l.entry e
  match x.phase with
  | .dormant g' =>
    if g' = g then
      let l := becomeLive e l
      { l with events := { l.events with lastLive := insertForm g x } }
    else l
  | .walking (some g') b =>
    if g' = g then
      let l := l.setEntry e { x with phase := .walking none b }
      { l with events := { l.events with lastLive := insertForm g x } }
    else l
  | _ => l

/-- The cancel that a read of 0x2810:02 gives is the last one committed (R73, R207). -/
def noteCancel (g : Nat) (l : Live) : Live := match (l.group g).staged.cancels.getLast? with
  | some e => { l with events := { l.events with lastCancel := BitVec.ofNat 32 (g * 2 ^ 24 + e) } }
  | none => l

/-- The commit of a group's inserts and cancels (R192): cancels first. -/
def commitEvents (g : Nat) (l : Live) : Live :=
  let l := noteCancel g l
  let l := forAll freeEntry (l.group g).staged.cancels l
  forAll (commitEntry g) (usedEntries l) l

/-- A discard frees the group's dormant entries (R192). -/
def discardEvents (g : Nat) (l : Live) : Live :=
  forAll (fun e l => match (l.entry e).phase with
    | .dormant g' => if g' = g then freeEntry e l else l
    | .walking (some g') _ => if g' = g then freeEntry e l else l
    | _ => l) (usedEntries l) l

/-! ### The insert engine (R191, R194) -/

/-- ECLK that the walk of an entry takes (R194). -/
def walkTime (l : Live) (e : Nat) : Nat :=
  2 + (precede l e + 3) / 4

/-- INSERT_WALK_DONE: the entry at the head of the FIFO enters its queue; the next walk begins (R191, R194). The engine holds
while the queue is being listed (R208). -/
def insertWalkDone (l : Live) : Live := match l.events.fifo with
  | [] => l
  | e :: rest =>
    let x := l.entry e
    if listed l x.queue || decide (l.now < l.events.walkFrom + 2 * walkTime l e) then l
    else
      let l := admitWaiting { l with events := { l.events with fifo := rest, walkFrom := l.now } }
      let l := enlist e l
      match x.phase with
      | .walking (some g) _ => l.setEntry e { x with phase := .dormant g }
      | _ => becomeLive e l

/-! ### Flush and change of base (R186) -/

/-- The flush command frees live entries, and posts and reinsertions bound for the queue. -/
def flushQueue (q : Nat) (l : Live) : Live :=
  let hit := fun (e : Nat) (l : Live) =>
    let x := l.entry e
    if x.queue ≠ q then l
    else match x.phase with
      | .live => freeEntry e l
      | .walking none _ => freeEntry e l
      | _ => l
  queueFlag q 6 (forAll hit (usedEntries l) l)

/-- A commit that changes the key base frees every entry bound for the queue. -/
def rebaseQueue (q : Nat) (l : Live) : Live :=
  let hit := fun (e : Nat) (l : Live) => if (l.entry e).queue = q then freeEntry e l else l
  queueFlag q 6 (forAll hit (usedEntries l) (l.updQueue q (fun x => { x with blockedAt := none })))

/-! ### Reached keys and jumps (R188, R189, R199) -/

/-- A live entry of a queue. -/
def liveIn (l : Live) (q e : Nat) : Bool := (l.entry e).queue = q && (l.entry e).phase = .live

/-- A WA lane has reached a value, whose tick the tracker publishes at a fine position: entries with that key are reached, and late
where the lane lags (R185, R188, R199). -/
def laneReached (w lane fine : Nat) (lagging : Bool) (l : Live) : Live :=
  let mark := fun (e : Nat) (l : Live) =>
    let x := l.entry e
    if x.phase = .live && x.reached.isNone && isWa l x.queue w && x.key = lane && !queueBlocked l x.queue then
      let x := if x.armed.isSome then x else { x with fine := fine }
      l.setEntry e { x with reached := some l.now, late := x.late || lagging }
    else l
  forAll mark (usedEntries l) l

/-- Entries that have just been reached stand in an order of their own, behind those reached before and ahead of all others (R188,
R189). -/
def queueReached (before : Live) (q : Nat) (far : Nat → Nat) (l : Live) : Live :=
  let ord := (l.queue q).order
  let old := ord.filter (fun e => (before.entry e).reached.isSome)
  let hit := ord.filter (fun e => (before.entry e).reached.isNone && (l.entry e).reached.isSome)
  let rest := ord.filter (fun e => (l.entry e).reached.isNone)
  l.updQueue q (fun x => { x with order := old ++ sortBy (fun e => (far e : Int)) hit ++ rest })

/-- A jump of a queue's lane from old to new (R188): below half a cycle the keys in the span are reached as late entries, in key
order. -/
def jumpQueue (q old new : Nat) (l : Live) : Live :=
  let c := keySpace l q
  let o := old % c
  let d := (new % c + c - o) % c
  if d = 0 then l
  else
    let l := queueFlag q 5 l
    let inSpan := fun (k : Nat) => decide (k < c) && decide (1 ≤ (k + c - o) % c) && decide ((k + c - o) % c ≤ d)
    let mark := fun (e : Nat) (l : Live) =>
      let x := l.entry e
      if !liveIn l q e then l
      else
        let x := if x.reached.isNone then x.withdraw else x
        if x.reached.isNone && decide (2 * d < c) && inSpan x.key then
          l.setEntry e { x with reached := some l.now, late := true }
        else l.setEntry e x
    let m := forAll mark (usedEntries l) l
    queueReached l q (fun e => ((l.entry e).key + c - o) % c) m

/-- What a change of a tracker's state or of a queue's setting means for a WA queue: it becomes BLOCKED and its pre-armed entries
are withdrawn, or its span is taken when it is no longer BLOCKED (R188, R195). -/
def trackQueue (q : Nat) (l : Live) : Live :=
  let b := qBase l q
  let x := l.queue q
  if !(2 ≤ b && decide (b < 6)) then l
  else
    let lane := (l.wheel (b - 2)).lane
    if queueBlocked l q then
      if x.blockedAt.isSome then l
      else
        let l := l.setQueue q { x with blockedAt := some lane }
        forAll (fun e l => if liveIn l q e && (l.entry e).reached.isNone then l.updEntry e EvEntry.withdraw else l)
          (usedEntries l) l
    else match x.blockedAt with
      | some old => jumpQueue q old lane (l.setQueue q { x with blockedAt := none })
      | none => l

/-- All queues of a tracker. -/
def trackWheel (w : Nat) (l : Live) : Live :=
  forAll (fun q l => if isWa l q w then trackQueue q l else l) (List.range 16) l

/-- A set of a tracker's lane (R188): a jump for each of its queues that is not BLOCKED. -/
def laneSet (w old new : Nat) (l : Live) : Live :=
  forAll (fun q l => if isWa l q w && (l.queue q).blockedAt.isNone then jumpQueue q old new l else l) (List.range 16) l

/-- A move of a port's position lane (R189): keys crossed in the direction of the queue are reached in the order of travel. -/
def portMoved (n p0 p1 : Nat) (l : Live) : Live :=
  let d := modDist 48 p1 p0
  let up := decide (d < 2 ^ 47)
  let span := if up then d else 2 ^ 48 - d
  let crossed := fun (k : Nat) =>
    if up then decide (1 ≤ modDist 48 k p0) && decide (modDist 48 k p0 ≤ d)
    else decide (1 ≤ modDist 48 k p1 + 1) && decide (modDist 48 k p1 < span)
  let mark := fun (q : Nat) (e : Nat) (l : Live) =>
    let x := l.entry e
    let dirOk := l.cfg (0x2800 + q) 6 = 2 || l.cfg (0x2800 + q) 6 = (if up then 0 else 1)
    if liveIn l q e && x.reached.isNone && dirOk && crossed x.key then
      l.setEntry e { x with reached := some l.now, fpDist := if up then modDist 48 p1 x.key else modDist 48 x.key p1 }
    else l
  let one := fun (q : Nat) (l : Live) =>
    if qBase l q ≠ 6 + n then l
    else
      let far := fun (e : Nat) => if up then modDist 48 (l.entry e).key p0 else modDist 48 p0 (l.entry e).key
      queueReached l q far (forAll (mark q) (usedEntries l) l)
  if d = 0 then l else forAll one (List.range 16) l

/-! ### Aligned time (R43, R55, R195) -/

/-- DTIME at which ATIME reaches a number of ticks from now, under the rate in force (R41, R195). -/
def atDue (l : Live) (n : Nat) : Nat :=
  let t := l.time
  let need : Int := (n : Int) * 2 ^ 32 - t.frac
  let per : Int := 2 ^ 32 + t.rate
  l.now + ((need + per - 1) / per).toNat

/-- The due DTIME of an AT key that is not behind. -/
def atKeyDue (l : Live) (k : Nat) : Nat :=
  let d := (atTicks k % atSpace + atSpace - l.aticks % atSpace) % atSpace
  if d = 0 then l.now else atDue l d

/-- A change of the rate moves the due instants of pre-armed AT entries (R195). -/
def atRetime (l : Live) : Live :=
  forAll (fun e l =>
    let x := l.entry e
    match x.armed with
    | some due => if qBase l x.queue = 1 && !x.late && decide (l.now < due) then
        l.setEntry e { x with armed := some (atKeyDue l x.key) } else l
    | none => l) (usedEntries l) l

/-- An AT step by a signed number of ticks, with ATIME already stepped: keys in a skipped range are late (R43, R199); JUMP in every
AT queue that holds an entry (R206). -/
def atStepped (oldTicks : Nat) (l : Live) : Live :=
  let new := l.aticks
  let mark := fun (e : Nat) (l : Live) =>
    let x := l.entry e
    if x.phase ≠ .live || qBase l x.queue ≠ 1 then l
    else
      let pendingSlot := match x.armed with
        | some due => decide (due ≤ l.now)
        | none => false
      if pendingSlot then l
      else
        let d := (atTicks x.key % atSpace + atSpace - oldTicks % atSpace) % atSpace
        let skipped := decide (oldTicks < new) && decide (1 ≤ d) && decide (d ≤ new - oldTicks)
        l.setEntry e { x.withdraw with late := x.late || skipped }
  let l := forAll mark (usedEntries l) l
  forAll (fun q l => if qBase l q = 1 && !(l.queue q).order.isEmpty then queueFlag q 5 l else l) (List.range 16) l

/-- The relabelling of R55: every AT key moves by a number of seconds. -/
def atRelabel (secs : Int) (l : Live) : Live :=
  let shift := fun (e : Nat) (l : Live) =>
    let x := l.entry e
    if x.phase = .free || qBase l x.queue ≠ 1 then l
    else
      let s := (((field x.key 47 29 : Nat) : Int) + secs) % (2 ^ 19 : Nat)
      l.setEntry e { x with key := s.toNat * 2 ^ 29 + field x.key 28 0 }
  let l := forAll shift (usedEntries l) l
  forAll (fun q l => if qBase l q = 1 && !(l.queue q).order.isEmpty then queueFlag q 5 l else l) (List.range 16) l

/-! ### Repeating entries (R202) -/

/-- A WA key, moved on by steps of s, at the first step at which it is not behind: the number of steps, if one of the first f serves. -/
def stepsAhead (behind : Nat → Bool) (m s : Nat) : Nat → Nat → Option Nat
  | 0, _ => none
  | f + 1, x => if behind x then (stepsAhead behind m s f ((x + s) % m)).map (· + 1) else some 0

/-- Whole periods by which a reinserted key is advanced until it is not behind, none where no number of them helps; s is the step and
x1 the key after the first one (R202). -/
def periodsOver (l : Live) (x : EvEntry) (s x1 : Nat) : Option Nat :=
  let q := x.queue
  let m := keySpace l q
  let b := qBase l q
  if 2 ≤ b ∧ b < 6 then stepsAhead (keyBehind l q) m s (m + 1) x1
  else if s = 0 then (if keyBehind l q (unitsKey l q x1) then none else some 0)
  else if 6 ≤ b then
    -- FP: between the old key and the position, in the direction of travel.
    let gone := modDist 48 (keyRef l q) x.key
    some (if gone < 2 ^ 47 ∧ s ≤ gone then gone / s else 0)
  else
    let back := (keyRef l q + m - x1) % m
    some (if 1 ≤ back ∧ back ≤ behindLimit l q then (back + s - 1) / s else 0)

/-- The entry that a periodic entry is reinserted as, none when the repeats run out, and the number of periods passed over (R202). A
key that no number of periods takes ahead, under unlimited repeats, waits for the lane's next pass (log entry 112). -/
def nextKey (l : Live) (x : EvEntry) : Option EvEntry × Nat :=
  let q := x.queue
  let m := keySpace l q
  let s := x.per * l.cfg (0x2800 + q) 4 % m
  let rep := x.rep - 1
  let x1 := (keyUnits l q x.key + s) % m
  let y := { x.withdraw with key := unitsKey l q x1, rep := rep, phase := .walking none true, late := false, reached := none,
                             fpDist := 0, slow := false, ahead := false }
  match periodsOver l x s x1 with
  | some n =>
    if x.rep ≠ 0 ∧ rep ≤ n ∧ 0 < n then (none, rep) else (some { y with key := unitsKey l q ((x1 + n * s) % m), rep := rep - n }, n)
  | none => if x.rep ≠ 0 then (none, rep) else (some { y with ahead := true }, 0)

/-- After a firing or a skip: freed, or reinserted (R202). -/
def afterFiring (e : Nat) (l : Live) : Live :=
  let x := l.entry e
  if x.per = 0 || x.rep = 1 then freeEntry e l
  else
    let r := nextKey l x
    let l := l.updQueue x.queue (fun y => { y with skipCnt := y.skipCnt + BitVec.ofNat 8 r.2 })
    match r.1 with
    | none => freeEntry e l
    | some y => joinFifo e true ((unlist e l).setEntry e y)

/-! ### Listing (R208) -/

/-- LINK of an entry in the table: the next entry of the queue, or itself if last; 0 for a free entry (R182). -/
def linkOf (l : Live) (e : Nat) : Nat :=
  if (l.entry e).phase = .free then 0 else (((queueOrder l (l.entry e).queue).dropWhile (· ≠ e)).drop 1).headD e

/-- An entry as a read gives it (R182). -/
def listedEntry (l : Live) (e : Nat) : List Byte :=
  let x := l.entry e
  let flags := (match x.phase with
    | .dormant _ => 2 ^ 15
    | _ => 0) + (if x.armed.isSome then 2 ^ 14 else 0)
  bytesLE 2 (flags + e) ++ bytesLE 16 (entryWord (linkOf l e) x)

/-- EVENT_READ_REQUEST (R208). While a request is being copied another is refused (log entry 22). -/
def eventReadRequest (v : Nat) (l : Live) : Live × Nat :=
  if 0x1010 ≤ v then (l, abRange)
  else if l.events.listing.isSome then (l, abState)
  else
    let es := if v < 0x1000 then [v] else queueOrder l (v - 0x1000)
    let qb := if v < 0x1000 then (if (l.entry v).phase = .free then 0xFF else (l.entry v).queue) else v - 0x1000
    let r := bytesLE 1 qb ++ [0] ++ bytesLE 2 es.length ++ bytesLE 8 l.now ++ es.flatMap (listedEntry l)
    let u := l.events
    let q := if v < 0x1000 then 16 else v - 0x1000
    ({ l with events := { u with listing := some (q, r), poolStatus := setBit u.poolStatus 2 } }, 0)

/-- EVENT_LISTING_DONE: the result is there, and what the copy held back goes on (R208). -/
def eventListingDone (l : Live) : Live := match l.events.listing with
  | none => l
  | some (_, r) =>
    let u := l.events
    let l := { l with events := { u with listing := none, listResult := r, poolStatus := clrBit u.poolStatus 2 } }
    forAll (fun e l => if (l.entry e).phase = .leaving then l.setEntry e {} else l) (usedEntries l) l

/-! ### Stored image (R204) -/

/-- The image follows the layout and every entry passes R183. -/
def eventImageOk (l : Live) (b : List Byte) : Bool :=
  let n := fieldLE b 6 2
  decide (16 ≤ b.length) && decide (b.take 4 = [0x48, 0x58, 0x45, 0x31]) && fieldLE b 4 2 = 1 && decide (n ≤ 4095)
    && fieldLE b 8 4 = 0 && decide (b.length = 16 + 16 * n)
    && decide (fieldLE b 12 4 = (crc32c (b.drop 16)).toNat)
    && (List.range n).all (fun i => insertReason l (fieldLE b (16 + 16 * i) 16) = 0)

/-- EVENT_IMAGE_WRITE (R204). -/
def eventImageWrite (data : List Byte) (l : Live) : Live × Nat :=
  if eventImageOk l data then
    ({ l with mram := { l.mram with eventImage := data }, events := { l.events with imageStatus := 1 } }, 0)
  else ({ l with events := { l.events with imageStatus := 2 } }, abRange)

/-- The entries of the stored image become live in the commit that applies the stored configuration (R91, R203). Under an offset below
64 ticks the reference reaches the key before the entry is pre-armed (R199). -/
def imageEntry (b : List Byte) (i : Nat) (l : Live) : Live :=
  let x := entryOf (fieldLE b (16 + 16 * i) 16)
  let base := qBase l x.queue
  let key := if base = 0 then (x.key + l.stamp.toNat) % 2 ^ 48
    else if base = 1 then atKey (atTicks x.key + l.aticks) else x.key
  let slow := decide (base < 2 ∧ (if base = 0 then x.key else atTicks x.key) < 64)
  let l := l.setEntry i { x with key := key, phase := .live, slow := slow }
  becomeLive i (enlist i l)

def insertImage (l : Live) : Live :=
  let b := l.mram.eventImage
  if b.isEmpty then l
  else if eventImageOk l b then
    let l := { l with events := { l.events with imageStatus := 1 } }
    forAll (imageEntry b) (List.range (fieldLE b 6 2)) l
  else
    let l := { l with events := { l.events with imageStatus := 2 } }
    writeRecord 0x9FC0 0x34 0 l

/-- Reset of WARM reach or wider wipes the pool (R203); counters stay with R85. -/
def wipeEvents (l : Live) : Live :=
  let keep := l.events.queues.map (fun e =>
    (e.1, ({ fired := e.2.fired, lateCnt := e.2.lateCnt, skipCnt := e.2.skipCnt, faultCnt := e.2.faultCnt } : EvQueue)))
  let u : EventUnit := { dropCnt := l.events.dropCnt, imageStatus := l.events.imageStatus }
  { l with events := { u with queues := keep.filter (fun e => decide (e.2 ≠ {})) } }

/-! ### Commands -/

def execEventInsert (conn : Conn) (data : List Byte) (s : State) : Out :=
  ran (onObject conn 0x2810 1 (eventInsert (connId conn) data)) s

def execEventCancel (conn : Conn) (value : BitVec 32) (s : State) : Out :=
  ran (onObject conn 0x2810 2 (eventCancel value.toNat)) s

def execInsertWalkDone (s : State) : Out := ran (fun l => if schedUp l then insertWalkDone l else l) s

def execQueueFlush (conn : Conn) (q : Fin 16) (s : State) : Out :=
  ran (onObject conn (0x2800 + q.val) 7 (done (flushQueue q.val))) s

def execEventReadRequest (conn : Conn) (value : BitVec 16) (s : State) : Out :=
  ran (onObject conn 0x2811 3 (eventReadRequest value.toNat)) s

def execEventListingDone (s : State) : Out := ran eventListingDone s

def execEventImageWrite (conn : Conn) (data : List Byte) (s : State) : Out :=
  ran (onObject conn 0x2811 1 (eventImageWrite data)) s

end Sys2Proof.Machine
end

