-- ==== Sys2Proof/Machine/Wheels.lean ====
section
/-! DEFINITION. Wheel trackers: classification of edges, states, the angle clock, virtual teeth, phase and cycle, speeds
(R210–R229), and the commands TOOTH_EDGE to CAM_MISSING. Instants of the angle clock are in 2^-16 TCLK. -/

namespace Sys2Proof.Machine

open Sys2Proof

/-! ### Configuration (R230) -/

def wheelN (l : Live) (w : Nat) : Nat := l.cfg (0x2600 + w) 5
def wheelM (l : Live) (w : Nat) : Nat := l.cfg (0x2600 + w) 6
def wheelOn (l : Live) (w : Nat) : Bool := l.flag (0x2600 + w) 1
/-- An expert ratio limit, in 0.001. -/
def ratioLimit (l : Live) (w sub : Nat) : Nat := l.cfg (0x4600 + w) sub
/-- Ticks of a revolution: N × 1,024. -/
def revTicks (l : Live) (w : Nat) : Nat := wheelN l w * 1024
/-- Code of the block reset of tracker w (R456). -/
def wheelUp (l : Live) (w : Nat) : Bool := unitUp (0x28 + w) l

def WheelState.code : WheelState → Nat
  | .stopped => 0
  | .seeking => 1
  | .preSync => 2
  | .sync => 3
  | .cycleSync => 4
  | .lost => 5

/-- The angle clock runs. -/
def WheelState.runs : WheelState → Bool
  | .preSync | .sync | .cycleSync => true
  | _ => false

/-- The tracker is in SYNC or CYCLE-SYNC. -/
def WheelState.synced : WheelState → Bool
  | .sync | .cycleSync => true
  | _ => false

/-! ### The angle clock (R217–R219) -/

/-- The lane relative to the current tooth's base; below it while the lane catches up. -/
def Wheel.rel (x : Wheel) : Int :=
  let d := (x.lane + x.cyc - x.base % x.cyc) % x.cyc
  if 2 * d < x.cyc then (d : Int) else (d : Int) - x.cyc

/-- Ticks of the current tooth whose instants have passed by the end of a TCLK (R217). -/
def Wheel.ticks (x : Wheel) (t : Nat) : Int :=
  if x.tickLen = 0 then 0 else ((t + 1 : Int) * 65536 - 1 - x.baseAt) / (x.tickLen : Int)

/-- The tick up to which the accumulator may carry the lane (R218). -/
def Wheel.goal (x : Wheel) (t : Nat) : Int := min (x.ticks t) ((x.span : Int) - 1)

/-- Backlog in ticks: what the lane lies below the true angle, away from the hold (R219, R220). -/
def Wheel.backlog (x : Wheel) (t : Nat) : Nat := if x.state.runs ∧ x.rel < x.goal t then (x.ticks t - x.rel).toNat else 0

/-- The true angle: the tooth's base angle plus the ticks whose instants have passed (R217). -/
def Wheel.trueAngle (x : Wheel) (t : Nat) : Nat := if x.state.runs then ((x.base + x.ticks t) % x.cyc).toNat else x.lane

/-- The fine position that the tracker publishes for tick j of the tooth, reached in TCLK t: the fraction of its instant, 0 where the
lane reaches it in a later TCLK (R217, R221). -/
def Wheel.fineOf (x : Wheel) (t : Nat) (j : Int) : Nat :=
  let at_ := ((x.baseAt : Int) + j * x.tickLen).toNat
  if at_ / 65536 = t then at_ % 65536 / 1024 else 0

/-- HOLDING and CATCHUP of the status word (R231). -/
def Wheel.marks (x : Wheel) (holding catching : Bool) : Wheel :=
  { x with status := putBit (putBit x.status 9 holding) 10 catching, catching := catching }

/-- The predicted TCLK and fine position of a key, none where no instant is published (R221, R222). -/
def Wheel.predict (x : Wheel) (now key : Nat) : Option (Nat × Nat) :=
  if !x.state.runs || decide (x.cyc ≤ key) then none
  else
    let a := (key + x.cyc - x.lane) % x.cyc
    let j := x.rel + a
    if a = 0 || (bitOf x.status.toNat 9 && decide ((x.span : Int) ≤ j)) then none
    else
      let at_ := ((x.baseAt : Int) + j * x.tickLen).toNat
      if now + a > at_ / 65536 then some (now + a, 0) else some (at_ / 65536, at_ % 65536 / 1024)

/-- A tracker predicts afresh: a pre-armed entry whose instant has changed is withdrawn (R195, R221). -/
def predictAfresh (w : Nat) (l : Live) : Live :=
  let one := fun (e : Nat) (l : Live) =>
    let x := l.entry e
    match x.armed with
    | some due =>
      if isWa l x.queue w && x.reached.isNone && decide (l.now < due)
          && decide ((l.wheel w).predict l.now x.key ≠ some (due, x.fine)) then l.setEntry e x.withdraw
      else l
    | none => l
  forAll one (usedEntries l) l

/-- One TCLK of a tracker's lane: it advances by at most one tick and never past the last tick of the tooth (R188, R218). -/
def laneTick (w : Nat) (l : Live) : Live :=
  let x := l.wheel w
  if x.state.runs && wheelUp l w && decide (x.rel < x.goal l.now) then
    let lane := (x.lane + 1) % x.cyc
    let y := { x with lane := lane, laneWas := x.lane, sinceRef := x.sinceRef + 1 }
    laneReached w lane (y.fineOf l.now y.rel) (decide (y.rel < y.ticks l.now)) (l.setWheel w y)
  else if x.laneWas = x.lane then l
  else l.setWheel w { x with laneWas := x.lane }

/-! ### States (R215, R216) -/

/-- A tracker that enters a state, with the flags and counters of the change (R215, R231). -/
def Wheel.enter (new : WheelState) (code : Nat) (x : Wheel) : Wheel :=
  let old := x.state
  let x := if new.runs then x else { x.marks false false with refEdge := none, virt := false, run := 0 }
  let x := { x with state := new }
  match new with
  | .sync => { x with status := setBit x.status 0 }
  | .cycleSync => { x with status := setBit x.status 1 }
  | .lost => { x with status := setBit x.status 4, lossCnt := x.lossCnt + 1, lastLoss := code }
  | .stopped =>
    let x := if code = 6 ∧ old ≠ .seeking then { x with status := setBit x.status 8 } else x
    { x with refNum := 0, refDiv := 1, prevNum := 0, prevDiv := 1, toothNum := 0, toothDiv := 1, edges := 0, hist := [],
             lastEdge := none, sinceNoise := none }
  | _ => x

/-- The flags that `Wheel.enter` sets. -/
def Wheel.enterFlags (new : WheelState) (code : Nat) (x : Wheel) : Nat := match new with
  | .sync => 1
  | .cycleSync => 2
  | .lost => 0x10
  | .stopped => if code = 6 ∧ x.state ≠ .seeking then 0x100 else 0
  | _ => 0

/-- A change of state with its record and what it does to the WA queues (R188, R215). -/
def wheelState (w : Nat) (new : WheelState) (code : Nat) (l : Live) : Live :=
  let x := l.wheel w
  let l := noteFlags (key (0x3600 + w) 2) (x.enterFlags new code) l
  let payload := new.code * 2 ^ 24 + x.state.code * 65536 + code * 256
  trackWheel w (writeRecord (0x5000 + 0x40 * w) 0x40 payload (l.setWheel w (x.enter new code)))

/-- Loss of synchronism: LOST, or SEEKING from PRE-SYNC; overspeed also sets its flag (R214, R215). -/
def loseSync (w cause : Nat) (l : Live) : Live :=
  let l := if cause = 4 then (noteBit (0x3600 + w) 2 7 l).updWheel w (fun x => { x with status := setBit x.status 7 }) else l
  let l := wheelState w (if (l.wheel w).state = .preSync then .seeking else .lost) cause l
  predictAfresh w l

/-! ### Periods (R212, R217, R223) -/

/-- A new reference period num / div and the prediction that follows (R217). -/
def newPeriod (l : Live) (w num div : Nat) (x : Wheel) : Wheel :=
  let x := { x with prevNum := x.refNum, prevDiv := x.refDiv, refNum := num, refDiv := div, toothNum := num, toothDiv := div }
  let lo := ratioLimit l w 0x25
  let hi := ratioLimit l w 0x26
  -- T / T_prev as a fraction a / b.
  let a := num * x.prevDiv
  let b := div * x.prevNum
  let p : Nat × Nat :=
    if b = 0 then (num, div)
    else if a * 1000 < lo * b then (num * lo, div * 1000)
    else if hi * b < a * 1000 then (num * hi, div * 1000)
    else (num * a, div * b)
  { x with tickLen := (divFree (p.1 * 64 : Nat) p.2).toNat, period := (divFree (p.1 * 65536 : Nat) p.2).toNat }

/-- An interval of a number of positions enters the statistics (R223). -/
def Wheel.stats (iv pos : Nat) (x : Wheel) : Wheel :=
  let since := match x.sinceNoise with
    | some n => some (n + pos)
    | none => none
  { x with hist := ((iv, pos) :: x.hist).take 256, edges := min 2 (x.edges + 1), sinceNoise := since }

/-- Sum of the intervals of the last n positions, newest first, in sixths of a TCLK; none while fewer have been accepted (R223). Of an
interval of 2 or 3 positions in which the window begins, the share of its positions counts (log entry 114). -/
def sumHist (l : List (Nat × Nat)) (n : Nat) : Option Nat := match l with
  | [] => if n = 0 then some 0 else none
  | (iv, pos) :: r => if n = 0 then some 0 else (sumHist r (n - pos)).map (· + iv * 6 * min n pos / pos)

/-- A speed in 0.001 rpm for a period num / den in TCLK (R223). -/
def rpm (n num den : Nat) : Nat :=
  if n * num = 0 then 0 else (divFree (60000 * 400000000 * den : Nat) (n * num)).toNat

def toothSpeed (l : Live) (w : Nat) : Nat :=
  let x := l.wheel w
  if x.edges < 2 then 0 else rpm (wheelN l w) x.toothNum x.toothDiv

def revSpeed (l : Live) (w : Nat) : Nat :=
  let n := wheelN l w
  match sumHist (l.wheel w).hist n with
  | some s => rpm n s (6 * n)
  | none => 0

/-! ### Noise (R213, R229) -/

/-- A noise edge: flag and counter; logged at most once per revolution. -/
def noiseEdge (w : Nat) (l : Live) : Live :=
  let x := l.wheel w
  let l := noteBit (0x3600 + w) 2 2 l
  let x := { x with status := setBit x.status 2, noiseCnt := x.noiseCnt + 1 }
  let due := match x.sinceNoise with
    | some n => decide (wheelN l w ≤ n)
    | none => true
  if due then
    writeRecord (0x5001 + 0x40 * w) 0x41 (2 * 2 ^ 24 + x.noiseCnt.toNat) (l.setWheel w { x with sinceNoise := some 0 })
  else l.setWheel w x

/-! ### Phase and cycle (R224–R226) -/

/-- A lane set by the tracker: the base keeps its place ahead of or behind the lane, and the base before it its span (R188, R216, R224,
R225). -/
def setLane (w cyc new : Nat) (l : Live) : Live :=
  let x := l.wheel w
  let base := (((new : Int) - x.rel) % cyc).toNat
  let s := (x.base + x.cyc - x.prevBase % x.cyc) % x.cyc
  let y := { x with cyc := cyc, lane := new, base := base, prevBase := (base + cyc - s % cyc) % cyc }
  laneSet w x.lane new (l.setWheel w y)

/-- Whether a signed phase difference exceeds the cam window (R225). -/
def camOff (l : Live) (w phi prev : Nat) : Bool :=
  let c := (l.wheel w).cyc * 64
  let d := (phi + c - prev % c) % c
  let win := (l.wheel w).held.cam * 64
  if 2 * d < c then decide (win < d) else decide (win < c - d)

/-- A phase measurement against the teeth that bracket the reference stamp (R224–R226). -/
def measurePhase (w tref : Nat) (l : Live) : Live :=
  let x := l.wheel w
  let s := (x.base + x.cyc - x.prevBase % x.cyc) % x.cyc
  let den := x.baseAt - x.prevAt
  let off := (divFree (s * 64 * (tref * 65536 - x.prevAt) : Nat) den).toNat
  let phi := (x.prevBase * 64 + off) % (x.cyc * 64)
  let x := { x with phase := phi, phaseValid := true, phaseTag := x.phaseTag + 1, phaseDtime := BitVec.ofNat 64 tref }
  let x := { x with refEdge := none, prevPhase := some phi }
  let rev := revTicks l w
  let old := (l.wheel w).prevPhase
  let l := l.setWheel w x
  match x.state with
  | .cycleSync =>
    if camOff l w phi (old.getD phi) then
      let x := { x with status := setBit x.status 5, camCnt := x.camCnt + 1 }
      let l := writeRecord (0x5002 + 0x40 * w) 0x42 (5 * 2 ^ 24 + phi / 64 % 2 ^ 19)
        (noteBit (0x3600 + w) 2 5 (l.setWheel w x))
      wheelState w .sync 5 (setLane w rev (x.lane % rev) l)
    else l
  | .sync =>
    if l.flag (0x2600 + w) 7 then
      let h := l.cfg (0x2600 + w) 8
      let p := phi / 64 % rev
      let new := (p + h * rev + (x.lane + rev - p) % rev) % (2 * rev)
      let l := l.setWheel w { x with prevPhase := some (phi % (rev * 64) + h * rev * 64) }
      wheelState w .cycleSync 9 (setLane w (2 * rev) new l)
    else l
  | _ => l

/-- A tooth, real or virtual, that follows a reference stamp is measured (R224). -/
def measureIfDue (w : Nat) (l : Live) : Live :=
  let x := l.wheel w
  match x.refEdge with
  | some t => if x.state.synced && decide (t * 65536 < x.baseAt) then measurePhase w t l else l
  | none => l

/-- The partner's reference edge reaches tracker v (R224, R226). -/
def referenceEdge (t v : Nat) (l : Live) : Live :=
  let x := l.wheel v
  if x.state.synced then
    measureIfDue v (l.setWheel v { x with refEdge := some t, sinceRef := 0, camDue := 0 })
  else l.setWheel v { x with phaseValid := false }

/-- Tooth 0 of tracker w is the reference edge of the trackers that name it partner (R224). -/
def tellPartners (w t : Nat) (l : Live) : Live :=
  forAll (fun v l => if v ≠ w && l.cfg 0x2610 (v + 1) = w then referenceEdge t v l else l) (List.range 4) l

/-! ### Teeth -/

/-- Span of tooth k in ticks (R210). -/
def toothSpan (l : Live) (w k : Nat) : Nat :=
  if k + wheelM l w + 1 = wheelN l w then (wheelM l w + 1) * 1024 else 1024

/-- The next tooth's clock starts: base, span, instant. A lane at the last tick of the old tooth moves to the new base (R218); one
below it catches up (R219). -/
def startTooth (w at_ k : Nat) (toBase : Bool) (l : Live) : Live :=
  let x := l.wheel w
  let nb := (x.base + x.span) % x.cyc
  let atEnd := toBase && decide ((x.span : Int) - 1 ≤ x.rel)
  let x := { x with prevBase := x.base, prevAt := x.baseAt, base := nb, baseAt := at_, span := toothSpan l w k, tooth := k }
  let x := if atEnd then { x with lane := nb, sinceRef := x.sinceRef + 1 } else x
  let x := x.marks false (decide (x.rel < x.goal l.now))
  let l := l.setWheel w x
  let l := if atEnd then laneReached w nb 0 false l else l
  predictAfresh w l

/-- A virtual tooth (R220). -/
def insertVirtual (w : Nat) (l : Live) : Live :=
  let x := l.wheel w
  let k := (x.tooth + 1) % (wheelN l w - wheelM l w)
  let x := { x with status := setBit x.status 3, missedCnt := x.missedCnt + 1, virt := true }
  let l := writeRecord (0x5001 + 0x40 * w) 0x41 (2 ^ 24 + k % 256) (noteBit (0x3600 + w) 2 3 (l.setWheel w x))
  measureIfDue w (startTooth w ((x.lastEdge.getD 0) * 65536 + x.period) k false l)

/-- Entry to PRE-SYNC at a gap candidate (R215, R216). -/
def enterPre (w e code : Nat) (l : Live) : Live :=
  let c := revTicks l w
  let x := l.wheel w
  let old := x.lane % c
  let x := { x with cyc := c, lane := 0, base := 0, baseAt := e * 65536, span := 1024, prevBase := 0, prevAt := 0 }
  let l := l.setWheel w { x with tooth := 0, run := 0, virt := false }
  let l := wheelState w .preSync code (laneSet w old 0 l)
  predictAfresh w (l.updWheel w (fun x => x.marks false (decide (x.rel < x.goal l.now))))

/-- The interval of an edge in a ratio test: d / R against k × limit (R212). -/
def ratioBelow (x : Wheel) (d k limit : Nat) : Bool := decide (d * x.refDiv * 1000 < k * limit * x.refNum)
def ratioAbove (x : Wheel) (d k limit : Nat) : Bool := decide (k * limit * x.refNum < d * x.refDiv * 1000)

/-- A gap candidate (R215). -/
def gapCandidate (l : Live) (w d : Nat) : Bool :=
  let x := l.wheel w
  let k := wheelM l w + 1
  decide (2 ≤ x.run) && !ratioBelow x d k (ratioLimit l w 0x21) && !ratioAbove x d k (ratioLimit l w 0x22)

/-- The interval that the next edge closes is the gap (R213). -/
def closesGap (l : Live) (w : Nat) : Bool :=
  let x := l.wheel w
  x.tooth + wheelM l w + 1 = wheelN l w && !x.virt

/-- An accepted edge that is no overspeed edge becomes the last tooth as well as the last accepted stamp (R212, R214, R231). -/
def Wheel.stamped (e : Nat) (x : Wheel) : Wheel := { x with lastEdge := some e, lastTooth := e % 2 ^ 48 }

/-- An edge in SEEKING or LOST, above the noise limit (R214, R215). -/
def seekEdge (w e d : Nat) (l : Live) : Live :=
  let x := l.wheel w
  if d < 2048 then l.setWheel w { x with run := 0, refNum := d, refDiv := 1, lastEdge := some e }
  else if gapCandidate l w d then
    let pos := wheelM l w + 1
    enterPre w e 10 (l.setWheel w ((newPeriod l w d pos (x.stats d pos)).stamped e))
  else
    let y := (x.stats d 1).stamped e
    if ratioBelow x d 1 (ratioLimit l w 0x23) then l.setWheel w { newPeriod l w d 1 y with run := x.run + 1 }
    else l.setWheel w { y with run := 0 }

/-- Positions of the interval and the cause of loss, 0 for none, of an edge in PRE-SYNC, SYNC or CYCLE-SYNC (R213–R215). -/
def sortEdge (l : Live) (w d : Nat) : Nat × Nat :=
  let x := l.wheel w
  let k := wheelM l w + 1
  let r : Nat × Nat :=
    if x.virt then (2, if ratioAbove x d 1 (ratioLimit l w 0x24) then 3 else 0)
    else if closesGap l w then
      (k, if ratioBelow x d k (ratioLimit l w 0x21) then 1 else if ratioAbove x d k (ratioLimit l w 0x22) then 2 else 0)
    else if ratioBelow x d 1 (ratioLimit l w 0x23) then (1, 0)
    else (1, 3)
  if d < 2048 * r.1 then (r.1, 4) else r

/-- An accepted tooth in PRE-SYNC, SYNC or CYCLE-SYNC (R213, R217). -/
def acceptTooth (w e d pos : Nat) (l : Live) : Live :=
  let gap := closesGap l w
  let x := l.wheel w
  let y := newPeriod l w d pos (x.stats d pos)
  let l := l.setWheel w { y.stamped e with run := if pos = 1 then x.run + 1 else 0, virt := false }
  let l := if gap && x.state = .preSync then wheelState w .sync 8 l else l
  let l := startTooth w (e * 65536) (if gap then 0 else x.tooth + 1) true l
  let l := if gap then tellPartners w e l else l
  measureIfDue w l

/-- An edge in PRE-SYNC, SYNC or CYCLE-SYNC, above the noise limit. -/
def syncedEdge (w e d : Nat) (l : Live) : Live :=
  let x := l.wheel w
  let missed := x.state.synced && !x.virt && !closesGap l w && !ratioBelow x d 1 (ratioLimit l w 0x23)
    && !ratioAbove x d 1 (ratioLimit l w 0x24)
  let l := if missed then insertVirtual w l else l
  let r := sortEdge l w d
  if r.2 = 0 then acceptTooth w e d r.1 l
  else if (l.wheel w).state = .preSync && gapCandidate l w d then
    let pos := wheelM l w + 1
    let x := l.wheel w
    let l := if r.2 = 4 then noteBit (0x3600 + w) 2 7 l else l
    let x := if r.2 = 4 then { x with status := setBit x.status 7 } else x
    enterPre w e r.2 (l.setWheel w ((newPeriod l w d pos (x.stats d pos)).stamped e))
  else loseSync w r.2 (l.updWheel w (fun x => if r.2 = 4 then { x with lastEdge := some e } else x.stamped e))

/-- The settings that a tracker takes at an edge (R227). -/
def heldNow (l : Live) (w : Nat) : WheelHeld :=
  { missLow := ratioLimit l w 0x23, missHigh := ratioLimit l w 0x24, gapHigh := ratioLimit l w 0x22,
    stall := l.cfg (0x2600 + w) 0x0A, cam := l.cfg (0x2600 + w) 9 }

/-- The tracker takes an edge: it is enabled with an input, the edge is the active one, and it has passed the filter (R211). -/
def takesEdge (l : Live) (w : Nat) (rising : Bool) (stamp : Stamp) : Bool :=
  wheelUp l w && wheelOn l w && decide (l.cfg (0x2600 + w) 2 ≠ 0xFF) && (rising == decide (l.cfg (0x2600 + w) 3 = 0))
    && settled l (l.cfg (0x2600 + w) 4) stamp

/-- An accepted active edge (R212–R215). -/
def activeEdge (w e : Nat) (l : Live) : Live :=
  let x := l.wheel w
  match x.lastEdge with
  | none => if x.state = .stopped then wheelState w .seeking 11 (l.setWheel w { x.stamped e with edges := 1 }) else l
  | some t =>
    let d := e - t
    if x.refNum = 0 then
      l.setWheel w (if d < 2048 then { x with lastEdge := some e, refNum := d, refDiv := 1 }
        else (newPeriod l w d 1 (x.stats d 1)).stamped e)
    else if ratioBelow x d 1 (ratioLimit l w 0x20) then noiseEdge w l
    else if x.state.runs then syncedEdge w e d l
    else seekEdge w e d l

/-- TOOTH_EDGE (R211–R219). The stamp is widened with DTIME (R39). -/
def toothEdge (w : Nat) (rising : Bool) (stamp : Stamp) (l : Live) : Live :=
  if takesEdge l w rising stamp then activeEdge w (l.widen stamp) (l.updWheel w (fun x => { x with held := heldNow l w })) else l

/-! ### Deadlines (R213, R215, R220), by the settings of the last edge (R227) -/

/-- The interval since the last accepted edge reaches k × limit × R in this TCLK or has done so. -/
def intervalReached (l : Live) (w k limit : Nat) : Bool :=
  let x := l.wheel w
  match x.lastEdge with
  | some t => decide (0 < x.refNum) && decide (t + k * limit * x.refNum / (1000 * x.refDiv) ≤ l.now)
  | none => false

/-- VIRTUAL_TOOTH (R220): in SYNC or CYCLE-SYNC, away from the gap, one per interval. -/
def virtualTooth (w : Nat) (l : Live) : Live :=
  let x := l.wheel w
  if wheelUp l w && x.state.synced && !x.virt && !closesGap l w && intervalReached l w 1 x.held.missLow then
    insertVirtual w l
  else l

/-- TOOTH_TIMEOUT_LOST (R213): no edge by 2.4 × R away from the gap. -/
def toothTimeout (w : Nat) (l : Live) : Live :=
  let x := l.wheel w
  if wheelUp l w && x.state.synced && !closesGap l w && intervalReached l w 1 x.held.missHigh then loseSync w 3 l else l

/-- GAP_LATE (R213, R215). -/
def gapLate (w : Nat) (l : Live) : Live :=
  if wheelUp l w && (l.wheel w).state.runs && closesGap l w
      && intervalReached l w (wheelM l w + 1) (l.wheel w).held.gapHigh then loseSync w 2 l
  else l

/-- TRACKER_STALL (R215). -/
def trackerStall (w : Nat) (l : Live) : Live :=
  let x := l.wheel w
  match x.lastEdge with
  | some t =>
    if wheelUp l w && x.state ≠ .stopped && decide (t + x.held.stall * 400 ≤ l.now) then
      predictAfresh w (wheelState w .stopped 6 l)
    else l
  | none => l

/-- LANE_HOLD (R218, R221): the lane stands at the last tick of its tooth. -/
def laneHold (w : Nat) (l : Live) : Live :=
  let x := l.wheel w
  if wheelUp l w && x.state.runs && decide (x.rel = (x.span : Int) - 1) && decide ((x.span : Int) - 1 ≤ x.ticks l.now) then
    predictAfresh w (l.setWheel w (x.marks true x.catching))
  else l

/-- CATCHUP_END (R219). -/
def catchupEnd (w : Nat) (l : Live) : Live :=
  let x := l.wheel w
  if x.catching && decide (x.goal l.now ≤ x.rel) then
    predictAfresh w (l.setWheel w (x.marks (bitOf x.status.toNat 9) false))
  else l

/-- CAM_MISSING (R225, R226). -/
def camMissing (w : Nat) (l : Live) : Live :=
  let x := l.wheel w
  if wheelUp l w && x.state = .cycleSync && decide (x.cyc + x.held.cam + x.camDue ≤ x.sinceRef) then
    let x := { x with status := setBit x.status 6, camCnt := x.camCnt + 1, camDue := x.camDue + x.cyc }
    writeRecord (0x5002 + 0x40 * w) 0x42 (6 * 2 ^ 24 + x.phase / 64 % 2 ^ 19) (noteBit (0x3600 + w) 2 6 (l.setWheel w x))
  else l

/-! ### Commit and reset (R227, R228) -/

/-- A commit of a structural parameter: STOPPED with cause 7, C becomes the new N × 1,024 (R227). The held lane is kept modulo the
new C (log entry 23). -/
def wheelStructural (w : Nat) (l : Live) : Live :=
  let l := if (l.wheel w).state = .stopped then l else wheelState w .stopped 7 l
  let c := revTicks l w
  let l := l.updWheel w (fun x => { x with cyc := c, lane := x.lane % c, lastEdge := none })
  predictAfresh w (trackWheel w l)

/-- BLOCK reset of a tracker and reset of WARM reach or wider (R228); counters follow R85. -/
def wheelReset (w : Nat) (l : Live) : Live :=
  let x := l.wheel w
  let y : Wheel := { cyc := revTicks l w, noiseCnt := x.noiseCnt, missedCnt := x.missedCnt, lossCnt := x.lossCnt, camCnt := x.camCnt }
  trackWheel w (l.setWheel w y)

/-! ### Commands -/

def execToothEdge (w : Fin 4) (edge : Edge) (s : State) : Out := ran (toothEdge w.val edge.rising edge.stamp) s

def execVirtualTooth (w : Fin 4) (s : State) : Out := ran (virtualTooth w.val) s

def execToothTimeoutLost (w : Fin 4) (s : State) : Out := ran (toothTimeout w.val) s

def execGapLate (w : Fin 4) (s : State) : Out := ran (gapLate w.val) s

def execTrackerStall (w : Fin 4) (s : State) : Out := ran (trackerStall w.val) s

def execLaneHold (w : Fin 4) (s : State) : Out := ran (laneHold w.val) s

def execCatchupEnd (w : Fin 4) (s : State) : Out := ran (catchupEnd w.val) s

def execCamMissing (w : Fin 4) (s : State) : Out := ran (camMissing w.val) s

end Sys2Proof.Machine
end

