-- ==== Sys2Proof/Machine/Feedback.lean ====
section
/-! DEFINITION. Feedback ports: counts and sets, quadrature, index, Hall, SSI, sin/cos, observer, standstill and direction, probe,
wiring checks, port states (R232–R264), and the commands QUADRATURE_TRANSITION to PROBE_EDGE, FEEDBACK_OUTPUT_READBACK and
STARTING_TO_RUNNING. -/

namespace Sys2Proof.Machine

open Sys2Proof

/-! ### Configuration -/

def fbMode (l : Live) (n : Nat) : Nat := l.cfg (0x2500 + n) 1
/-- Modes 2 and 3 are SSI modes (R247). -/
def ssiMode (l : Live) (n : Nat) : Bool := fbMode l n = 2 || fbMode l n = 3
def fbCpr (l : Live) (n : Nat) : Nat := l.cfg (0x2500 + n) 4
/-- Standstill time in TCLK. -/
def standTime (l : Live) (n : Nat) : Nat := l.cfg (0x2500 + n) 0x0C * 400
/-- The port is out of every reset. -/
def portUp (l : Live) (n : Nat) : Bool := unitUp (0x20 + n) l
/-- The port processes its inputs: STARTING, RUNNING or LOST. -/
def portOn (l : Live) (n : Nat) : Bool := portUp l n && (l.port n).state ≠ .off

/-- A quotient rounded to the nearest integer; a tie is open (log entry 5). -/
def nearFree (num den : Nat) : Nat :=
  if 2 * (num % den) < den then num / den else if den < 2 * (num % den) then num / den + 1 else (divFree num den).toNat

/-! ### Faults (R264) -/

/-- A signed detail in 24 bits, saturating. -/
def detail24 (v : Int) : Nat := ofSigned 24 (clampInt (-(2 ^ 23 - 1)) (2 ^ 23 - 1) v)

/-- A feedback fault: flag, record, last fault; four of them also as EMCY and journal entry (R264). -/
def fbFault (n code element bit det : Nat) (l : Live) : Live :=
  let p := l.port n
  let pay := code * 2 ^ 24 + det % 2 ^ 24
  let l := (noteBit (0x3500 + n) 2 bit l).setPort n { p with status := setBit p.status bit, lastFault := BitVec.ofNat 32 pay }
  let src := 0x4000 + 0x40 * n + element
  if code = 10 || code = 12 || code = 13 || code = 14 then reportFault src 0x48 pay 0x7300 l
  else writeRecord src 0x48 pay l

/-- Marks the count UNCERTAIN (R234). -/
def uncertain (n : Nat) (l : Live) : Live := l.updPort n (fun p => { p with status := setBit p.status 18 })
def certain (n : Nat) (l : Live) : Live := l.updPort n (fun p => { p with status := clrBit p.status 18 })

def countIllegal (n : Nat) (l : Live) : Live := l.updPort n (fun p => { p with illegalCnt := p.illegalCnt + 1 })
def countLine (n : Nat) (l : Live) : Live := l.updPort n (fun p => { p with lineCnt := p.lineCnt + 1 })
def countFrame (n : Nat) (l : Live) : Live := l.updPort n (fun p => { p with frameCnt := p.frameCnt + 1 })
def countRef (n : Nat) (l : Live) : Live := l.updPort n (fun p => { p with refFaultCnt := p.refFaultCnt + 1 })

/-! ### Sets and movements (R233, R256–R258) -/

/-- A 48-bit position moved by a signed count. -/
def addPos (p : BitVec 48) (d : Int) : BitVec 48 := BitVec.ofInt 48 ((p.toNat : Int) + d)

/-- A position as an observer position. -/
def obsPos (p : BitVec 48) : BitVec 64 := p.setWidth 64 <<< 16

/-- A set of the position: no key is crossed, direction and standstill do not see it (R233, R258). -/
def setPosition (n : Nat) (v : BitVec 48) (l : Live) : Live :=
  l.updPort n (fun p =>
    let sets := (l.now, toSigned 48 (modDist 48 v.toNat p.pos.toNat)) :: p.sets.filter (fun e => decide (l.now - 512 ≤ e.1))
    let p := { p with pos := v, extreme := v, sets := sets }
    match p.obs with
    | .first _ t up => { p with pHat := obsPos v, obs := .first v t up }
    | _ => p)

/-- A change of DIR (R258). -/
def setDir (n : Nat) (up : Bool) (l : Live) : Live :=
  let p := l.port n
  if p.dir = up then l.setPort n { p with extreme := p.pos }
  else
    let st := setBit (putBit p.status 20 up) 1
    let l := (noteBit (0x3500 + n) 2 1 l).setPort n { p with dir := up, extreme := p.pos, status := st, dirCnt := p.dirCnt + 1 }
    if l.flag (0x2500 + n) 0x0E then
      writeRecord (0x4008 + 0x40 * n) 0x49 (b2n up * 2 ^ 31 + p.pos.toNat % 2 ^ 24) l
    else l

/-- The direction rule with its hysteresis (R258). -/
def trackDir (n : Nat) (l : Live) : Live :=
  let p := l.port n
  let d := toSigned 48 (modDist 48 p.pos.toNat p.extreme.toNat)
  let hyst : Int := l.cfg (0x2500 + n) 0x0D
  if p.dir then
    if 0 < d then l.setPort n { p with extreme := p.pos } else if d ≤ -hyst then setDir n false l else l
  else if d < 0 then l.setPort n { p with extreme := p.pos } else if hyst ≤ d then setDir n true l else l

/-- A movement as the observer and the direction see it: a count at a stamp (R256, R257). -/
def movedObserver (n t : Nat) (d : Int) (l : Live) : Live :=
  let p := { l.port n with moveAt := t }
  let up := decide (0 < d)
  let start := fun (l : Live) =>
    let p := l.port n
    let st := clrBit (clrBit p.status 19) 21
    setDir n up (l.setPort n { p with status := st, obs := .first p.pos t up, pHat := obsPos p.pos, vHat := 0, aHat := 0 })
  match p.obs with
  | .fresh | .standstill => start (l.setPort n p)
  | .first p1 t1 up1 =>
    if up1 = up && decide (t - t1 ≤ standTime l n) then
      let dp := toSigned 48 (modDist 48 p.pos.toNat p1.toNat)
      let v := divFree (dp * 65536 * 400000000) (t - t1)
      let l := l.setPort n { p with status := setBit p.status 21, obs := .running, vHat := v, aHat := 0, pHat := obsPos p.pos }
      trackDir n l
    else start (l.setPort n p)
  | .running => trackDir n (l.setPort n p)
  | .held => l.setPort n p

/-- Movement of a port as a reference of others (R261). -/
def tellReferents (n : Nat) (d : Int) (l : Live) : Live :=
  forAll (fun m l => if l.cfg (0x2500 + m) 0x1B = n && m ≠ n then l.updPort m (fun p => { p with refMoved := p.refMoved + d })
    else l) (List.range 8) l

/-- INDEX_MISSING: more than 1.5 × CPR away from the last index (R239). -/
def checkIndexMissing (n : Nat) (l : Live) : Live :=
  let p := l.port n
  let cpr := fbCpr l n
  let d := toSigned 48 (modDist 48 p.pos.toNat p.pLast.toNat)
  if p.idxSeen && cpr ≠ 0 && !p.missingDone && (fbMode l n = 1 || fbMode l n = 5) && decide (3 * cpr < 2 * d.natAbs) then
    fbFault n 3 3 9 0 (l.setPort n { p with missingDone := true })
  else l

/-- A movement by a signed count, inverted if configured, at a stamp (R233, R256). -/
def movePosition (n t : Nat) (d0 : Int) (l : Live) : Live :=
  let d := if l.flag (0x2500 + n) 2 then -d0 else d0
  let l := l.updPort n (fun p => { p with posDtime := BitVec.ofNat 64 t })
  if d = 0 then l
  else
    let p := l.port n
    let new := addPos p.pos d
    let keepFrom := match p.ssi with
      | .starting tL | .waiting tL _ | .sampling tL _ => min tL (l.now - 512)
      | _ => l.now - 512
    let recent := (t, d) :: p.recent.filter (fun e => decide (keepFrom ≤ e.1))
    let l := l.setPort n { p with pos := new, recent := recent, moved := p.moved + d }
    let l := tellReferents n d (portMoved n p.pos.toNat new.toNat l)
    checkIndexMissing n (movedObserver n t d l)

/-- Sum of the entries later than an instant. -/
def sumAfter (t : Nat) (es : List (Nat × Int)) : Int := (es.filter (fun e => decide (t < e.1))).foldl (fun a e => a + e.2) 0

/-- The position with the movements later than an instant taken back (R249). -/
def positionAt (p : Port) (t : Nat) : BitVec 48 :=
  addPos p.pos (-sumAfter t p.recent)

/-- The position of an instant: movements and sets later than it taken back (R260). -/
def positionThen (p : Port) (t : Nat) : BitVec 48 := addPos (positionAt p t) (-sumAfter t p.sets)

/-! ### Port states (R252) -/

/-- LOST is entered with the code of the fault (R252, R264). -/
def portLost (n code : Nat) (l : Live) : Live :=
  let p := l.port n
  if p.state = .lost then l
  else
    let p := { p with state := .lost, status := clrBit (setBit p.status 18) 21, obs := .held }
    fbFault n 14 0 15 code (l.setPort n p)

/-- An invalid frame or sample counts towards the error limit (R248, R251). -/
def portBad (n code : Nat) (l : Live) : Live :=
  let p := { l.port n with bad := (l.port n).bad + 1 }
  let l := l.setPort n p
  if p.bad < l.cfg (0x2500 + n) 0x1A then l
  else if fbMode l n = 3 then uncertain n l
  else if p.state = .running then portLost n code l
  else l

/-- The first valid frame, sample or Hall state takes the port to RUNNING; after LOST the observer restarts from standstill
(R252). -/
def portValid (n : Nat) (l : Live) : Live :=
  let p := l.port n
  match p.state with
  | .starting => l.setPort n { p with state := .running }
  | .lost => l.setPort n { p with state := .running, obs := .fresh, vHat := 0, aHat := 0, pHat := obsPos p.pos, moveAt := l.now }
  | _ => l

/-- A valid frame, sample or probe: the capture register has a new result and raises its request line (R346). -/
def captured (n : Nat) (l : Live) : Live :=
  l.updPort n (fun p => { p with capReq := true, capValid := true, capTag := p.capTag + 1 })

/-! ### Quadrature (R235–R237) -/

/-- The signed count of a transition of (A, B); none where both lines change (R235, R236). -/
def quadCount (oa ob a b : Bool) : Option Int :=
  if oa ≠ a ∧ ob ≠ b then none
  else if oa = a ∧ ob = b then some 0
  else some (if (if oa ≠ a then a != b else a == b) then 1 else -1)

/-- LINE_STUCK of a line: 0 A, 1 B, 2 Z (R237, R244, R264). -/
def lineStuck (n line : Nat) (l : Live) : Live :=
  let l := l.updPort n (fun p => { p with stuck := setBit p.stuck line, lineCnt := p.lineCnt + 1 })
  fbFault n 2 (line + 1) 8 0 (uncertain n l)

/-- QUADRATURE_TRANSITION: the filtered pair becomes (a, b); the transition's stamp is `stamp` (R235). -/
def quadTransition (n : Nat) (stamp : Stamp) (a b : Bool) (l : Live) : Live :=
  if !portOn l n || !(fbMode l n = 1 || fbMode l n = 3) || !settled l (l.cfg (0x2500 + n) 3) stamp then l
  else
    let p := l.port n
    let oa := p.lines.getLsbD 0
    let ob := p.lines.getLsbD 1
    let t := l.widen stamp
    let p1 := { p with lines := putBit (putBit p.lines 0 a) 1 b }
    match quadCount oa ob a b with
    | none =>
      let l := uncertain n (countIllegal n (l.setPort n { p1 with runA := 0, runB := 0 }))
      fbFault n 1 0 2 (b2n oa * 8 + b2n ob * 4 + b2n a * 2 + b2n b) l
    | some d =>
      if d = 0 then l
      else
        let onA := decide (oa ≠ a)
        let p1 := if onA then { p1 with runA := p1.runA + 1, runB := 0 } else { p1 with runB := p1.runB + 1, runA := 0 }
        let l := movePosition n t d (l.setPort n p1)
        let lim := l.cfg (0x2500 + n) 0x1F
        if onA && p1.runA = lim then lineStuck n 1 l else if !onA && p1.runB = lim then lineStuck n 0 l else l

/-! ### Index (R238, R239) -/

/-- e: a movement reduced modulo CPR into [−CPR/2, CPR/2) (R239). -/
def indexError (p pLast : BitVec 48) (cpr : Nat) : Int :=
  let m := toSigned 48 (modDist 48 p.toNat pLast.toNat) % (cpr : Int)
  if (cpr : Int) ≤ 2 * m then m - cpr else m

/-- The check of an accepted index (R239). -/
def checkIndex (n : Nat) (l : Live) : Live :=
  let p := l.port n
  let cpr := fbCpr l n
  if cpr = 0 || !p.idxSeen then l
  else
    let e := indexError p.pos p.pLast cpr
    if (l.cfg (0x4500 + n) 0x2A : Int) < e.natAbs then
      let l := uncertain n (countRef n (l.setPort n { p with indexErr := e }))
      fbFault n 4 3 10 (detail24 e) l
    else l

/-- INDEX_EDGE: an edge of FBn_Z that is the configured one and that the gate accepts (R238). -/
def indexEdge (n : Nat) (rising : Bool) (stamp : Stamp) (l : Live) : Live :=
  let p := l.port n
  let gate := l.cfg (0x2500 + n) 7
  let ab := b2n (p.lines.getLsbD 0) * 2 + b2n (p.lines.getLsbD 1)
  let chosen := (rising == decide (l.cfg (0x2500 + n) 6 = 0)) && (gate = 0 || gate = ab + 1)
  if !portOn l n || !(fbMode l n = 1 || fbMode l n = 5) || !chosen || !settled l (l.cfg (0x2500 + n) 3) stamp then l
  else
    let l := l.setPort n { p with idxPos := p.pos, idxDtime := BitVec.ofNat 64 (l.widen stamp) }
    let l := checkIndex n l
    let mode := l.cfg (0x2500 + n) 5
    let p := l.port n
    let reset := mode = 1 || (mode = 2 && bitOf p.status.toNat 17)
    let l := if reset then certain n (setPosition n (BitVec.ofNat 48 (l.cfg (0x2500 + n) 8)) l) else l
    let l := if mode = 2 then l.updPort n (fun p => { p with status := clrBit p.status 17 }) else l
    l.updPort n (fun p => { p with idxSeen := true, pLast := p.pos, missingDone := false })

/-- Index command: refused outside modes 1 and 5 (R238); a port in reset keeps its defaults (R263). -/
def indexCommand (n : Nat) (arm : Bool) (l : Live) : Live × Nat :=
  if fbMode l n = 1 || fbMode l n = 5 then
    (if portUp l n then l.updPort n (fun p => { p with status := putBit p.status 17 arm }) else l, 0)
  else (l, abRange)

/-- A write to Preset position (R234); the lane of a port in reset reads 0 (R263). -/
def presetPosition (n : Nat) (v : BitVec 48) (l : Live) : Live :=
  let m := fbMode l n
  if !portUp l n then l
  else
  let l := setPosition n v l
  if m = 1 || m = 3 || m = 4 || m = 5 then certain n l else l

/-! ### Hall (R240, R241) -/

/-- Sector of H3 H2 H1; 0xFF for an invalid state (R240). -/
def hallSector (s : BitVec 3) : Nat := match s.toNat with
  | 1 => 0
  | 3 => 1
  | 2 => 2
  | 6 => 3
  | 4 => 4
  | 5 => 5
  | _ => 0xFF

/-- An invalid Hall state: HALL_INVALID, the line-fault counter, LOST (R241). -/
def hallInvalid (n : Nat) (lines : BitVec 3) (l : Live) : Live := portLost n 10 (fbFault n 10 0 11 lines.toNat (countLine n l))

/-- HALL_CHANGE: the filtered Hall lines become a new state (R240, R241). A port that does not count yet, OFF or STARTING, only sees them
(log entry 115). -/
def hallChange (n : Nat) (stamp : Stamp) (lines : BitVec 3) (l : Live) : Live :=
  let p := l.port n
  if p.lines = lines || !settled l (l.cfg (0x2500 + n) 3) stamp then l
  else if portUp l n && ((p.state = .starting && fbMode l n = 4) || (p.state = .off && fbMode l n = 0)) then
    l.setPort n { p with lines := lines }
  else if !portOn l n || fbMode l n ≠ 4 then l
  else
    let old := hallSector p.lines
    let new := hallSector lines
    let det := p.lines.toNat * 8 + lines.toNat
    let l := l.setPort n { p with lines := lines }
    if new = 0xFF then hallInvalid n lines l
    else if p.state = .lost then portValid n l
    else if old = 0xFF then l
    else
      let d := (new + 6 - old) % 6
      if d = 1 then movePosition n (l.widen stamp) 1 l
      else if d = 5 then movePosition n (l.widen stamp) (-1) l
      else fbFault n 1 0 2 det (uncertain n (countIllegal n l))

/-! ### SSI (R242–R249) -/

/-- The settings that a frame takes as it begins: half-period (R242), data invert, and the settings of its evaluation and of the recovery
time after it (R252). -/
def ssiNow (l : Live) (n : Nat) : SsiFrame :=
  { invert := l.flag (0x2500 + n) 0x19, half := nearFree 200000 (l.cfg (0x2500 + n) 0x12), poly := l.cfg (0x4500 + n) 0x23,
    crcInv := l.flag (0x4500 + n) 0x24, mask := l.cfg (0x4500 + n) 0x25, act := l.cfg (0x4500 + n) 0x26,
    latch := l.cfg (0x4500 + n) 0x27, recov := l.cfg (0x2500 + n) 0x18 * 400 }

/-- Half-period of a port's frame in TCLK (R242). -/
def ssiHalf (l : Live) (n : Nat) : Nat := (l.port n).frame.half
def ssiW (l : Live) (n : Nat) : Nat := l.cfg (0x2500 + n) 0x13
def ssiF (l : Live) (n : Nat) : Nat := l.cfg (0x2500 + n) 0x14
def ssiC (l : Live) (n : Nat) : Nat := l.cfg (0x2500 + n) 0x15
/-- Data bits of a frame (R243). -/
def ssiL (l : Live) (n : Nat) : Nat := ssiW l n + ssiF l n + ssiC l n
/-- Recovery time after a port's frame in TCLK. -/
def ssiRec (l : Live) (n : Nat) : Nat := (l.port n).frame.recov

/-- A frame begins: falling edge 1 lies 4 TCLK ahead (R247). -/
def beginFrame (l : Live) (n : Nat) (p : Port) : Port :=
  { p with ssi := .starting (l.now + 4), held := none, frame := ssiNow l n, frameAt := some (l.now + 4), ckRise := none }

/-- A request for a frame (R247). -/
def ssiRequest (n : Nat) (l : Live) : Live :=
  let p := l.port n
  let busy := match p.ssi with
    | .idle => false
    | .recovery till => decide (l.now < till)
    | _ => true
  if !portOn l n || !ssiMode l n || p.reqAt = some l.now then l
  else
  let p := { p with reqAt := some l.now }
  if !busy then l.setPort n (beginFrame l n p)
  else match p.held with
    | none => l.setPort n { p with held := some l.now }
    | some _ => fbFault n 9 9 3 0 (l.setPort n { p with dropCnt := p.dropCnt + 1 })

/-- SSI_PERIODIC_REQUEST (R247). -/
def ssiPeriodic (n : Nat) (l : Live) : Live :=
  let per := l.cfg (0x2500 + n) 0x17 * 400
  let p := l.port n
  if per ≠ 0 && portOn l n && decide (p.nextReq ≤ l.now) then ssiRequest n (l.setPort n { p with nextReq := p.nextReq + per })
  else l

/-- SSI_FRAME_START: the data line is sampled as the frame starts (R244). -/
def ssiFrameStart (n : Nat) (level : Bool) (l : Live) : Live :=
  let p := l.port n
  match p.ssi with
  | .starting tL =>
    if portOn l n then l.setPort n { p with ssi := .waiting tL (level != p.frame.invert) } else l
  | _ => l

/-- A frame ends with CK returned high at once (R244); the recovery time starts. -/
def ssiCut (n : Nat) (l : Live) : Live :=
  l.updPort n (fun p => { p with ssi := .recovery (l.now + ssiRec l n), ckRise := some l.now })

/-- SSI_START_BIT: the data line changes within 800 TCLK of t_L (R244). With FBn_CK released no frame gets one (R262). -/
def ssiStartBit (n : Nat) (level : Bool) (l : Live) : Live :=
  let p := l.port n
  match p.ssi with
  | .waiting tL before =>
    let lv := level != p.frame.invert
    if !portOn l n || p.ckReleased || lv = before || decide (l.now < tL) || decide (tL + 800 < l.now) then l
    else if before then
      l.setPort n { p with ssi := .sampling tL (l.now - tL), delay := BitVec.ofNat 16 (l.now - tL) }
    else portBad n 6 (fbFault n 6 9 7 0 (countFrame n (ssiCut n l)))
  | _ => l

/-- SSI_START_TIMEOUT: the line has not changed 800 TCLK after t_L (R244, R248). With FBn_CK released a frame ends in NO_START
(R262). -/
def ssiStartTimeout (n : Nat) (l : Live) : Live :=
  let p := l.port n
  match p.ssi with
  | .waiting tL before =>
    if !portOn l n || decide (l.now < tL + 800) then l
    else if before || p.ckReleased then portBad n 5 (fbFault n 5 9 6 0 (countFrame n (ssiCut n l)))
    else portBad n 2 (lineStuck n 2 (ssiCut n l))
  | _ => l

/-- CRC over bits, most significant first, register of width c starting at 0 (R245). -/
def ssiCrc (c poly : Nat) : List Bool → Nat → Nat
  | [], r => r
  | b :: rest, r =>
    let top := (r.testBit (c - 1)) != b
    ssiCrc c poly rest ((r * 2 % 2 ^ c) ^^^ (if top then poly % 2 ^ c else 0))

/-- The n low bits of a number, most significant first. -/
def bitsMsb (n v : Nat) : List Bool := ((List.range n).map (fun i => v.testBit i)).reverse

/-- Gray to binary over the w low bits (R245). -/
def grayDecode (w v : Nat) : Nat :=
  ((bitsMsb w v).foldl (fun (acc : Nat × Bool) b => let x := acc.2 != b; (acc.1 * 2 + b2n x, x)) (0, false)).1

/-- A valid frame moves or sets the position of mode 2 (R246). -/
def ssiPosition (n tL v : Nat) (l : Live) : Live :=
  let p := l.port n
  let t := tL + p.frame.latch
  let w := ssiW l n
  let first := p.state ≠ .running
  let l := l.setPort n { p with rawPrev := v }
  let l := if first then
      portValid n (setPosition n (BitVec.ofNat 48 v) (l.updPort n (fun p => { p with posDtime := BitVec.ofNat 64 t })))
    else movePosition n t (toSigned w ((v + 2 ^ w - p.rawPrev) % 2 ^ w)) l
  let q := l.port n
  certain n (l.setPort n { q with meas := some (obsPos q.pos, t) })

/-- A valid frame as the reference of mode 3 (R249, R261). -/
def ssiReference (n tL v : Nat) (l : Live) : Live :=
  let p := l.port n
  let t := tL + p.frame.latch
  let sh := l.cfg (0x4500 + n) 0x28
  let bits := ssiW l n + sh
  let a := v * 2 ^ sh
  let diff := toSigned bits ((a + 2 ^ bits - (positionAt p t).toNat % 2 ^ bits) % 2 ^ bits)
  let refD := match p.absPrev with
    | some a0 => toSigned bits ((a + 2 ^ bits - a0 % 2 ^ bits) % 2 ^ bits)
    | none => 0
  let own := l.cfg (0x2500 + n) 0x1B = 0xFF
  let p := { p with absPrev := some a, countDiff := diff, refMoved := if own then p.refMoved + refD else p.refMoved }
  let wasUncertain := bitOf p.status.toNat 18
  let l := portValid n (l.setPort n p)
  if wasUncertain then certain n (setPosition n (addPos p.pos diff) l)
  else if (l.cfg (0x4500 + n) 0x29 : Int) < diff.natAbs then
    fbFault n 12 0 13 (detail24 diff) (uncertain n (countRef n l))
  else l

/-- SSI_FRAME_EVALUATE: 2 TCLK after its last sample a frame is evaluated; `raw` holds the bits as sampled at the line, the first
one highest (R243, R245). -/
def ssiEvaluate (n : Nat) (raw0 : BitVec 48) (l : Live) : Live :=
  let p := l.port n
  match p.ssi with
  | .sampling tL d =>
    let len := ssiL l n
    let h := ssiHalf l n
    if !portOn l n || decide (l.now < tL + len * 2 * h + d + 2) then l
    else
      let raw := (if p.frame.invert then 2 ^ 48 - 1 - raw0.toNat else raw0.toNat) % 2 ^ len
      let f := ssiF l n
      let c := ssiC l n
      let w := ssiW l n
      let body := raw / 2 ^ c
      let status := body % 2 ^ f
      let got := (if p.frame.crcInv then 2 ^ c - 1 - raw % 2 ^ c else raw % 2 ^ c)
      let want := if c = 0 then 0 else ssiCrc c p.frame.poly (bitsMsb (w + f) body) 0
      let crcBad := decide (got ≠ want)
      let masked := (List.range f).any (fun i => bitOf p.frame.mask i && b2n (status.testBit i) = p.frame.act)
      let ok := !crcBad && !masked
      let p := { p with rawFrame := BitVec.ofNat 48 raw, rawTag := p.rawTag + 1, rawValid := ok }
      let p := { p with ssi := .recovery (tL + len * 2 * h + h + ssiRec l n) }
      let l := l.setPort n p
      if ok then
        let v0 := body / 2 ^ f
        let v := if l.flag (0x2500 + n) 0x16 then grayDecode w v0 else v0
        let l := captured n (l.setPort n { p with bad := 0 })
        if fbMode l n = 2 then ssiPosition n tL v l else ssiReference n tL v l
      else
        let l := countFrame n l
        let l := if crcBad then fbFault n 7 9 5 (got ^^^ want) l else l
        let l := if masked then fbFault n 8 9 4 status l else l
        portBad n (if masked then 8 else 7) l
  | _ => l

/-- SSI_RECOVERY_END: a held request starts its frame (R247). -/
def ssiRecoveryEnd (n : Nat) (l : Live) : Live :=
  let p := l.port n
  match p.ssi with
  | .recovery till =>
    if !portOn l n || decide (l.now < till) then l
    else if p.held.isSome then l.setPort n (beginFrame l n p)
    else l.setPort n { p with ssi := .idle }
  | _ => l

/-! ### Sin/cos (R250, R251), called for the step that a port names -/

/-- A sample (s, c) of a step with its sampling instant; `flags` when a result has OPENW or OVR (R251). -/
def sincosSample (n at_ : Nat) (s0 c0 : Int) (flags : Bool) (l : Live) : Live :=
  let p := l.port n
  if !portOn l n || fbMode l n ≠ 5 then l
  else
    let s := s0 - l.cfgS (0x4500 + n) 0x2C
    let c := c0 - l.cfgS (0x4500 + n) 0x2D
    let nom := l.cfg (0x4500 + n) 0x2E
    let sq := (s * s + c * c).toNat
    let amp := (divFree (sq * 1000 : Nat) (nom * nom)).toNat
    let low := decide (sq * 1000 < l.cfg (0x4500 + n) 0x2F * (nom * nom))
    let high := decide (l.cfg (0x4500 + n) 0x30 * (nom * nom) < sq * 1000)
    let l := l.setPort n { p with amplitude := BitVec.ofNat 16 (satTo 16 amp) }
    if flags || low || high then
      let l := fbFault n 11 0 12 (if flags then 0xFFFFFF else satTo 24 amp) (countLine n l)
      portBad n 11 l
    else
      let th := Config.theta s c
      let ib := l.cfg (0x2500 + n) 0x1E
      let first := p.state ≠ .running
      let carry : Int :=
        if first then 0
        else
          let d := toSigned 16 (modDist 16 th.toNat p.theta.toNat)
          if 0 ≤ d ∧ th.toNat < p.theta.toNat then 1 else if d < 0 ∧ p.theta.toNat < th.toNat then -1 else 0
      let per := p.periods + carry
      let rawPos := fun (pc : Int) (x : Nat) => pc * 2 ^ ib + (x / 2 ^ (16 - ib) : Nat)
      let new := rawPos per th.toNat
      let frac := th.toNat % 2 ^ (16 - ib) * 2 ^ ib
      let l := l.updPort n (fun p => { p with theta := th, periods := per, bad := 0 })
      let l := if first then
          portValid n (setPosition n (BitVec.ofInt 48 new) (l.updPort n (fun p => { p with posDtime := BitVec.ofNat 64 at_ })))
        else movePosition n at_ (new - rawPos p.periods p.theta.toNat) l
      captured n (l.updPort n (fun q => { q with meas := some (obsPos q.pos + BitVec.ofNat 64 frac, at_) }))

/-! ### Observer and standstill (R253–R257) -/

/-- Gains g1, g2, g3 by preset (R254). -/
def gains (l : Live) (n : Nat) : Nat × Nat × Nat := match l.cfg (0x2500 + n) 0x0B with
  | 0 => (6476658, 124188, 12700)
  | 1 => (32383290, 3104709, 1587521)
  | 2 => (161916452, 77617727, 198440171)
  | _ => (l.cfg (0x4500 + n) 0x20, l.cfg (0x4500 + n) 0x21, l.cfg (0x4500 + n) 0x22)

/-- The measurement of an update: position and instant (R253). -/
def obsMeasure (l : Live) (n : Nat) : Option (BitVec 64 × Nat) :=
  if fbMode l n = 2 || fbMode l n = 5 then (l.port n).meas else some (obsPos (l.port n).pos, l.now)

/-- One update of a running observer (R253). Speed in 2^-16 counts/s, acceleration in 2^-16 counts/s². -/
def obsStep (l : Live) (n : Nat) (p : Port) : Port :=
  let g := gains l n
  let e : Int := match obsMeasure l n with
    | some (pm, tm) => toSigned 64 ((pm - p.pHat).toNat) + divFree (p.vHat * ((l.now : Int) - tm)) 400000000
    | none => 0
  let dp := divFree (p.vHat * 4) 10000000 + divFree (e * g.1) (2 ^ 32)
  let dv := divFree (p.aHat * 4) 10000000 + divFree (e * g.2.1) (2 ^ 16)
  let da := divFree (e * g.2.2) (2 ^ 4)
  { p with pHat := p.pHat + BitVec.ofInt 64 dp, vHat := p.vHat + dv, aHat := p.aHat + da }

/-- The wiring check of R261, at each update. A check without a decision also takes a check point (log entry 24). -/
def wiringCheck (n : Nat) (l : Live) : Live :=
  let p := l.port n
  let has := l.cfg (0x2500 + n) 0x1B ≠ 0xFF || fbMode l n = 3
  if !has || decide (p.moved.natAbs < l.cfg (0x4500 + n) 0x2B) then l
  else
    let l := l.setPort n { p with moved := 0, refMoved := 0 }
    if p.refMoved = 0 then l
    else
      let same := decide (0 < p.moved) == decide (0 < p.refMoved * l.cfgS (0x2500 + n) 0x1C)
      if same then l.updPort n (fun p => { p with disagree := 0 })
      else if p.disagree + 1 < 3 then l.updPort n (fun p => { p with disagree := p.disagree + 1 })
      else fbFault n 13 0 14 (fbMode l n) (countRef n (l.updPort n (fun p => { p with disagree := 0 })))

/-- OBSERVER_UPDATE: in each TCLK with DTIME ≡ 0 mod 160 (R253). -/
def observerUpdate (n : Nat) (l : Live) : Live :=
  if !portOn l n || decide (l.now % 160 ≠ 0) then l
  else
    let p := l.port n
    let q := match p.obs with
      | .running => obsStep l n p
      | _ => p
    let q := { q with obsAt := l.now, meas := none, obsHist := ((l.now, q.pHat, q.vHat) :: q.obsHist).take 4 }
    wiringCheck n (l.setPort n q)

/-- STANDSTILL: the first update after the standstill time has passed without a count (R256, R257). -/
def standstill (n : Nat) (l : Live) : Live :=
  let p := l.port n
  if portOn l n && decide (l.now % 160 = 0) && decide (p.moveAt + standTime l n < l.now) && p.obs ≠ .standstill
      && p.obs ≠ .held then
    let st := setBit (setBit p.status 19) 21
    l.setPort n { p with obs := .standstill, vHat := 0, aHat := 0, pHat := obsPos p.pos, status := st }
  else l

/-! ### Probe (R260) -/

/-- The observer position at an instant: extrapolated from the last update at or before it. -/
def obsAtInstant (p : Port) (t : Nat) : BitVec 64 := match p.obsHist.find? (fun e => decide (e.1 ≤ t)) with
  | some (tu, ph, v) => ph + BitVec.ofInt 64 (divFree (v * ((t : Int) - tu)) 400000000)
  | none => p.pHat

/-- The configured probe edge: 1 rising, 2 falling, 3 both. -/
def probeSel (l : Live) (n : Nat) (rising : Bool) : Bool := bitOf (l.cfg (0x2500 + n) 0x0F) (if rising then 0 else 1)

/-- PROBE_EDGE, in the TCLK filter + 2 after the stamp. What the port has not applied by then is not in the count (log entry 115). -/
def probeEdge (n : Nat) (rising : Bool) (stamp : Stamp) (l : Live) : Live :=
  if !portOn l n || !probeSel l n rising || !settled l (l.cfg (0x2500 + n) 0x10) stamp then l
  else
    let p := l.port n
    let t := l.widen stamp
    let c := positionThen p t
    let p := { p with probeCount := c, probeObs := obsAtInstant p t, probeDtime := BitVec.ofNat 64 t, probeValid := true }
    let p := { p with probeTag := p.probeTag + 1, status := setBit p.status 0, probeCnt := p.probeCnt + 1 }
    let l := writeRecord (0x4005 + 0x40 * n) 0x4A (c.toNat % 2 ^ 32) (noteBit (0x3500 + n) 2 0 (l.setPort n p))
    let l := captured n l
    if l.flag (0x2500 + n) 0x11 then ssiRequest n l else l

/-! ### Output readback (R262) -/

/-- Level of FBn_DE (R232). -/
def deLevel (l : Live) (n : Nat) : Bool := portOn l n && ssiMode l n

/-- The level FBn_CK was driven to by an edge at a TCLK; none where it drove no edge then (R242, R244). -/
def ckEdge (l : Live) (n t : Nat) : Option Bool :=
  let p := l.port n
  let cut := match p.ckRise with
    | some r => decide (r < t)
    | none => false
  if !deLevel l n || cut then none
  else if p.ckRise = some t then some true
  else match p.frameAt with
    | some tL =>
      let k := (t - tL) / ssiHalf l n
      if tL ≤ t ∧ (t - tL) % ssiHalf l n = 0 ∧ k ≤ 2 * ssiL l n + 1 then some (decide (k % 2 = 1)) else none
    | none => none

/-- Level of FBn_CK: it idles high and is low in the first half of each clock pulse of a frame; none where it is high impedance, outside
the modes that clock SSI or released (R232, R242, R262). -/
def ckLevel (l : Live) (n : Nat) : Option Bool :=
  let p := l.port n
  if !deLevel l n || p.ckReleased then none
  else match p.frameAt with
    | some tL =>
      let k := (l.now - tL) / ssiHalf l n
      some (p.ckRise.isSome || decide (l.now < tL) || decide (k % 2 = 1) || decide (2 * ssiL l n + 1 ≤ k))
    | none => some true

/-- FEEDBACK_OUTPUT_READBACK, 8 TCLK after an edge (R262): the third consecutive mismatch releases the output, sets CK_SHORT and
disarms with cause 4. No check is made on an output in high impedance (log entry 115). -/
def fbReadback (n : Nat) (isDe level : Bool) (l : Live) : Live :=
  let p := l.port n
  let want := if l.now < 8 then none
    else if isDe then (if p.deAt = some (l.now - 8) && !p.deReleased then some (deLevel l n) else none)
    else if (ckLevel l n).isSome then ckEdge l n (l.now - 8) else none
  match want with
  | none => l
  | some v =>
    let run := if v = level then 0 else (if isDe then p.deRun else p.ckRun) + 1
    let set := fun (r : Nat) => if isDe then { p with deRun := r } else { p with ckRun := r }
    if run < 3 then l.setPort n (set run)
    else
      let q := if isDe then { set 0 with deReleased := true } else { set 0 with ckReleased := true }
      disarm 4 (fbFault n 15 4 16 0 (l.setPort n q))

/-! ### Start, commit and reset (R232, R252, R263) -/

/-- The periodic requests keep the phase of the commit that set them while the port was off or in reset (R247). -/
def nextOnGrid (l : Live) (n : Nat) : Nat :=
  let per := l.cfg (0x2500 + n) 0x17 * 400
  let r := (l.port n).nextReq
  if per = 0 ∨ l.now < r then r else r + ((l.now - r) / per + 1) * per

/-- A port enters STARTING, or OFF for mode 0 (R252). -/
def portStart (n : Nat) (l : Live) : Live :=
  let was := deLevel l n
  let p := l.port n
  let l := if fbMode l n = 0 then
      l.setPort n { p with state := .off, ssi := .idle, held := none, ckRise := none, frameAt := none }
    else
      let p := { p with state := .starting, obs := .fresh, vHat := 0, aHat := 0, pHat := 0, periods := 0, bad := 0 }
      let p := { p with status := setBit (clrBit (clrBit p.status 19) 21) 18, moveAt := l.now, meas := none, held := none }
      let p := { p with idxSeen := false, missingDone := false, runA := 0, runB := 0, absPrev := none, moved := 0, refMoved := 0 }
      let ssi : SsiPhase := if ssiMode l n then .recovery (l.now + (ssiNow l n).recov) else .idle
      let p := { p with disagree := 0, obsHist := [], ssi := ssi, ckRise := none, frameAt := none, nextReq := nextOnGrid l n }
      setPosition n 0 (l.setPort n p)
  if deLevel l n = was then l else l.updPort n (fun p => { p with deAt := some l.now })

/-- A commit of the SSI period (R247). -/
def ssiPeriodCommit (n : Nat) (l : Live) : Live :=
  l.updPort n (fun p => { p with nextReq := l.now + l.cfg (0x2500 + n) 0x17 * 400 })

/-- STARTING_TO_RUNNING: modes 1 and 4, in the TCLK after the commit (R252). A Hall port that runs with an invalid state is LOST (R241). -/
def startingToRunning (n : Nat) (l : Live) : Live :=
  let p := l.port n
  if portOn l n && p.state = .starting && (fbMode l n = 1 || fbMode l n = 4) && decide (p.moveAt < l.now) then
    let l := l.setPort n { p with state := .running }
    if fbMode l n = 4 && hallSector p.lines = 0xFF then hallInvalid n p.lines l else l
  else l

/-- BLOCK reset of a port and reset of WARM reach or wider (R263); counters follow R85. -/
def portReset (n : Nat) (l : Live) : Live :=
  let p := l.port n
  let q : Port := { illegalCnt := p.illegalCnt, lineCnt := p.lineCnt, frameCnt := p.frameCnt, refFaultCnt := p.refFaultCnt,
                    nextReq := p.nextReq }
  l.setPort n { q with dropCnt := p.dropCnt, dirCnt := p.dirCnt, probeCnt := p.probeCnt }

/-- Writing 1 to CK_SHORT drives a released output again (R262); clearing LINE_STUCK clears its lines. -/
def portCleared (mask : BitVec 32) (p : Port) : Port :=
  let p := if mask.getLsbD 16 then { p with ckReleased := false, deReleased := false } else p
  if mask.getLsbD 8 then { p with stuck := 0 } else p

/-! ### Commands -/

def execQuadratureTransition (n : Fin 8) (stamp : Stamp) (a b : Bool) (s : State) : Out :=
  ran (quadTransition n.val stamp a b) s

def execIndexEdge (n : Fin 8) (edge : Edge) (s : State) : Out := ran (indexEdge n.val edge.rising edge.stamp) s

def execIndexArm (conn : Conn) (n : Fin 8) (s : State) : Out :=
  ran (onObject conn (0x2500 + n.val) 9 (indexCommand n.val true)) s

def execIndexDisarm (conn : Conn) (n : Fin 8) (s : State) : Out :=
  ran (onObject conn (0x2500 + n.val) 9 (indexCommand n.val false)) s

def execPresetPosition (conn : Conn) (n : Fin 8) (value : BitVec 48) (s : State) : Out :=
  ran (onObject conn (0x2500 + n.val) 0x0A (done (presetPosition n.val value))) s

def execHallChange (n : Fin 8) (stamp : Stamp) (lines : BitVec 3) (s : State) : Out := ran (hallChange n.val stamp lines) s

def execSsiPeriodicRequest (n : Fin 8) (s : State) : Out := ran (ssiPeriodic n.val) s

def execSsiFrameStart (n : Fin 8) (level : Bool) (s : State) : Out := ran (ssiFrameStart n.val level) s

def execSsiStartBit (n : Fin 8) (level : Bool) (s : State) : Out := ran (ssiStartBit n.val level) s

def execSsiStartTimeout (n : Fin 8) (s : State) : Out := ran (ssiStartTimeout n.val) s

def execSsiFrameEvaluate (n : Fin 8) (raw : BitVec 48) (s : State) : Out := ran (ssiEvaluate n.val raw) s

def execSsiRecoveryEnd (n : Fin 8) (s : State) : Out := ran (ssiRecoveryEnd n.val) s

def execObserverUpdate (n : Fin 8) (s : State) : Out := ran (observerUpdate n.val) s

def execStandstill (n : Fin 8) (s : State) : Out := ran (standstill n.val) s

def execProbeEdge (n : Fin 8) (edge : Edge) (s : State) : Out := ran (probeEdge n.val edge.rising edge.stamp) s

def execFeedbackOutputReadback (n : Fin 8) (isDe level : Bool) (s : State) : Out := ran (fbReadback n.val isDe level) s

def execStartingToRunning (n : Fin 8) (s : State) : Out := ran (startingToRunning n.val) s

end Sys2Proof.Machine
end

