-- ==== Sys2Proof/Machine/Analog.lean ====
section
/-! DEFINITION. The analogue unit: sequences and passes, steps, results, FIFOs, limits and open wires, calibration (R300–R322), and
the commands SEQUENCE_START to LIMIT_TRIP_CLEAR. -/

namespace Sys2Proof.Machine

open Sys2Proof

/-! ### Configuration -/

/-- The analogue unit is out of every reset (block code 0x18, R456), and the device is not in doze, where the converters stop (R382). -/
def analogUp (l : Live) : Bool := unitUp 0x18 l && awake l
def analogOn (l : Live) : Bool := l.flag 0x2750 1
def calibrating (l : Live) : Bool := bitOf l.analog.status.toNat 2

/-- Fields of a step word (R303). -/
def stepSel (w : Word) (k : Nat) : Nat := field w.toNat (8 * k + 7) (8 * k)
def stepAcq (w : Word) : Nat := field w.toNat 57 48
def stepFifo (w : Word) : Bool := bitOf w.toNat 32
def stepOwt (w : Word) : Bool := bitOf w.toNat 33

/-- Converters that a step names. -/
def stepConvs (w : Word) : List Nat := (List.range 4).filter (fun k => stepSel w k ≠ 0xFF)

/-- A source is a differential pair (R301). -/
def selPair (sel : Nat) : Bool := 0x40 ≤ sel && decide (sel < 0x58)

/-- The input whose objects govern a source: itself, or the even input of a pair (R315). -/
def selInput (sel : Nat) : Option Nat :=
  if sel < 48 then some sel else if selPair sel then some (2 * (sel - 0x40)) else none

/-- A step qualifies for sin/cos (R320): two pairs in lock-step on ADC0, ADC1 or on ADC2, ADC3; answers the even converter. -/
def sincosConv (w : Word) : Option Nat :=
  if selPair (stepSel w 0) && selPair (stepSel w 1) then some 0
  else if selPair (stepSel w 2) && selPair (stepSel w 3) then some 2
  else none

/-- An integer quotient rounded to nearest, a half down (R112, R323). -/
def nearDownInt (num : Int) (den : Nat) : Int := (2 * num + den - 1) / (2 * den : Int)

/-- A value in µV as LSB of an input's mode (R300, R323). -/
def uvToLsb (diff : Bool) (uv : Int) : Int := nearDownInt (uv * 65536) (if diff then 6600000 else 3300000)

/-! ### Starts (R306) -/

/-- A report of code 7 with its step as element (R322, R373). -/
def seqReport (s step cnt : Nat) (l : Live) : Live :=
  let l := { l with irq := { l.irq with seqStep := l.irq.seqStep.put 0 s step } }
  writeRecord (0x6400 + 0x40 * s + step) 0x58 (7 * 2 ^ 24 + cnt) l

/-- The step words and the mode of a sequence that are in effect (R306). -/
def seqWords (l : Live) (s : Nat) : List Word :=
  (List.range (l.cfg (0x2740 + s) 2)).map (fun i => BitVec.ofNat 64 (l.cfg (0x2740 + s) (0x10 + i)))
def seqContinuous (l : Live) (s : Nat) : Bool := l.cfg (0x2740 + s) 1 = 1

/-- A new pass of a sequence, its first step not before a DTIME; one that starts at a later edge uses the settings in effect there
(R306). -/
def beginPass (s notBefore : Nat) (l : Live) : Live :=
  let p : Pass := { step := 0, words := seqWords l s, continuous := seqContinuous l s, startedAt := none, delayed := false,
                    begun := notBefore ≤ l.now }
  l.updSeq s (fun x => { x with run := some p, stopDue := false, resume := false, notBefore := notBefore })

/-- A pass with the settings it uses: those in effect until it has started (R306). -/
def passNow (l : Live) (s : Nat) (p : Pass) : Pass :=
  if p.begun then p else { p with words := seqWords l s, continuous := seqContinuous l s, begun := true }

/-- The start edge of a pass has come: its settings stand from now on (R306). -/
def passBegin (s : Nat) (l : Live) : Live :=
  let x := l.seq s
  match x.run with
  | some p => if !p.begun && decide (x.notBefore ≤ l.now) then l.setSeq s { x with run := some (passNow l s p) } else l
  | none => l

/-- A start of a sequence; dropped while it runs, or while the unit is disabled, calibrating or in BLOCK reset (R306). -/
def seqStart (s notBefore : Nat) (l : Live) : Live :=
  let x := l.seq s
  if x.run.isSome || !analogOn l || calibrating l || !analogUp l then
    let step := match x.run with
      | some p => p.step
      | none => 0
    let x := { x with status := setBit x.status 1, dropCnt := x.dropCnt + 1 }
    seqReport s step x.dropCnt.toNat (noteBit (0x3740 + s) 1 1 (l.setSeq s x))
  else beginPass s notBefore l

/-- The first PCLK edge at or after a DTIME (R11, R19). -/
def pclkAt (t : Nat) : Nat := (t + 3) / 4 * 4

/-- The stop command: of a running pass and of its repetition; of an idle sequence it has no effect (R308). -/
def seqStop (s : Nat) (l : Live) : Live :=
  l.updSeq s (fun x => if x.run.isSome then { x with stopDue := true, resume := false } else x)

/-! ### Steps (R304, R307, R309) -/

/-- The word of the current step. -/
def Pass.word (p : Pass) : Word := nth 0 p.words p.step

/-- The step of a sequence waits for its start, which has come. -/
def stepWaits (l : Live) (s : Nat) : Option Word :=
  let x := l.seq s
  match x.run with
  | some p => if p.startedAt.isNone && decide (x.notBefore ≤ l.now) then some (passNow l s p).word else none
  | none => none

/-- All converters of a step are free (R307). -/
def convsFree (l : Live) (w : Word) : Bool := (stepConvs w).all (fun k => (l.conv k).busy.isNone)

/-- A lower sequence waits for a converter of this step and could start as well (R307). -/
def lowerFirst (l : Live) (s : Nat) (w : Word) : Bool :=
  (List.range s).any (fun r => match stepWaits l r with
    | some v => convsFree l v && (stepConvs v).any (fun k => (stepConvs w).contains k)
    | none => false)

/-- The result register of a step and converter (R309). -/
def resultReg (l : Live) (s n k : Nat) : BitVec 32 := (l.seq s).results.get l.analog.unset (4 * n + k)

/-- What the result registers read after a reset: UNCAL alone, while there are no valid factors (R313, R321). -/
def unsetResult (l : Live) : BitVec 32 := if bitOf (l.conv 0).status.toNat 2 then 0x08000000 else 0

/-- STEP_START: acquisition starts on all converters in one ACLK, or the step waits and is reported as delayed (R307, R309). -/
def stepStart (s : Nat) (l : Live) : Live :=
  let x := l.seq s
  match x.run, stepWaits l s with
  | some p0, some w =>
    let p := passNow l s p0
    if !analogUp l || decide (l.now % 4 ≠ 0) then l
    else if convsFree l w && !lowerFirst l s w then
      let clear := fun (m : SMap (BitVec 32)) (k : Nat) => m.put l.analog.unset (4 * p.step + k) (clrBit (m.get l.analog.unset (4 * p.step + k)) 31)
      let x := { x with run := some { p with startedAt := some l.now }, results := (stepConvs w).foldl clear x.results }
      let x := if p.step = 0 then { x with startDtime := l.time.dtime } else x
      forAll (fun k l => l.updConv k (fun c => { c with busy := some s })) (stepConvs w) (l.setSeq s x)
    else if p.delayed then l
    else
      let x := { x with run := some { p with delayed := true }, status := setBit x.status 2, delayCnt := x.delayCnt + 1 }
      seqReport s p.step x.delayCnt.toNat (noteBit (0x3740 + s) 1 2 (l.setSeq s x))
  | _, _ => l

/-! ### FIFOs (R310, R311) -/

/-- A report of code 5 for converter k (R322). -/
def fifoReport (k bit : Nat) (l : Live) : Live :=
  let c := l.conv k
  let c := { c with status := setBit c.status bit }
  writeRecord (0x6001 + 0x40 * k) 0x58 (5 * 2 ^ 24 + c.ovfCnt.toNat) (noteBit (0x3730 + k) 1 bit (l.setConv k c))

/-- An entry enters the FIFO of converter k, or is lost (R310, R311). -/
def pushAdc (k : Nat) (e : BitVec 32) (l : Live) : Live :=
  let c := l.conv k
  if c.fifo.length < 64 then l.setConv k { c with fifo := c.fifo ++ [e] }
  else fifoReport k 0 (l.setConv k { c with ovfCnt := c.ovfCnt + 1 })

/-- Pops one entry; an empty FIFO gives 0 and sets FIFO_UNDER (R311). -/
def popAdcEntry (k : Nat) (l : Live) : BitVec 32 × Live :=
  let c := l.conv k
  match c.fifo with
  | e :: r => (e, l.setConv k { c with fifo := r })
  | [] => (0, fifoReport k 1 l)

/-- An 8-byte beat of the read port: two entries, the older one lowest (R311). -/
def popAdcBeat (k : Nat) (l : Live) : Word × Live :=
  let a := popAdcEntry k l
  let b := popAdcEntry k a.2
  (a.1.setWidth 64 ||| (b.1.setWidth 64 <<< 32), b.2)

/-- The request line of a converter (R311). -/
def adcLine (l : Live) (k : Nat) : Bool := decide (l.cfg (0x2730 + k) 2 ≤ (l.conv k).fifo.length)

/-- The FIFO that takes the results of converter k (R310). -/
def fifoOf (l : Live) (k : Nat) : Nat := if k % 2 = 1 && l.flag (0x2730 + (k - 1)) 3 then k - 1 else k

/-! ### Limits and open wires (R314–R318) -/

/-- An input report of code 1 or 2, at most once per 1 ms (R322). -/
def inputReport (a code : Nat) (v : Int) (l : Live) : Live :=
  let x := l.anIn a
  if recordDue l (if code = 1 then x.rec1 else x.rec2) then
    let x := if code = 1 then { x with rec1 := some l.now } else { x with rec2 := some l.now }
    let l := l.setAnIn a x
    let pay := code * 2 ^ 24 + ofSigned 24 v
    if code = 2 then reportFault (0x6200 + a) 0x58 pay 0x7300 l else writeRecord (0x6200 + a) 0x58 pay l
  else l

/-- The input is open by an open-wire step (R314). -/
def openWire (l : Live) (a : Nat) (diff : Bool) (v : Int) : Bool :=
  let mode := l.cfg (0x2700 + a) 6
  let uv := l.cfgS (0x2700 + a) 7
  let dflt : Int := if diff then (if mode = 1 then 3100000 else -3100000) else if mode = 1 then 3200000 else 100000
  let thr := uvToLsb diff (if uv = 0 then dflt else uv)
  if mode = 1 then decide (thr ≤ v) else if mode = 2 then decide (v ≤ thr) else false

/-- Above the high limit, below the low limit (R316). -/
def aboveLimit (l : Live) (a : Nat) (v : Int) : Bool := decide (l.cfgS (0x4700 + a) 0x20 < v)
def belowLimit (l : Live) (a : Nat) (v : Int) : Bool := decide (v < l.cfgS (0x4700 + a) 0x21)

/-- The limit check of one result of an input (R316–R318): status, counter, report, trip. -/
def checkLimit (a : Nat) (v : Int) (sampled : Nat) (l : Live) : Live :=
  let hi := aboveLimit l a v
  let lo := belowLimit l a v
  let x := l.anIn a
  let l := l.setAnIn a { x with last := v, inside := !hi && !lo, since := true }
  if l.cfg (0x2700 + a) 2 = 0 || (!hi && !lo) then l
  else
    let x := l.anIn a
    let l := l.setAnIn a { x with status := setBit x.status (if hi then 0 else 1), limitCnt := x.limitCnt + 1 }
    let l := inputReport a 1 v (noteBit (0x3700 + a) 1 (if hi then 0 else 1) l)
    if l.cfg (0x2700 + a) 2 = 2 && !bitOf x.status.toNat 4 then latchLimit a sampled l else l

/-- A conversion of the die temperature that differs by more than 20 °C from that of the calibration (R313). -/
def checkDrift (code : Nat) (l : Live) : Live :=
  let u := l.analog
  let d : Int := ((code : Int) - 16384) * 5 - toSigned 16 u.calTemp.toNat * 4
  if (List.range 4).all (fun k => !bitOf (l.conv k).status.toNat 2) && decide (8000 < d.natAbs) && !bitOf u.status.toNat 3 then
    reportFault 0x6FC0 0x58 (8 * 2 ^ 24) 0x5000 { l with analog := { u with status := setBit u.status 3 } }
  else l

/-- A code as a converter's calibration factors correct it: unchanged by unit gain and zero offset. The spec gives no formula for other
factors: a free value (R313; log entry 113). -/
def Converter.corrected (c : Converter) (diff : Bool) (code : BitVec 16) : BitVec 16 :=
  let f := if diff then c.factors.diff else c.factors.single
  if f = {} then code else Config.corrected f.offset f.gain code

/-- One result of a step: flags, register, FIFO, limits (R302, R309, R310, R314, R316). -/
def oneResult (s n : Nat) (w : Word) (sampled k : Nat) (r : AdcSample) (l : Live) : Live :=
  let sel := stepSel w k
  let diff := selPair sel
  let code := (l.conv k).corrected diff r.code
  let v : Int := if diff then toSigned 16 code.toNat else code.toNat
  let inp := selInput sel
  let sat := if diff then v = -32768 || v = 32767 else v = 0 || v = 65535
  let ovr := inp.isSome && (r.clamp || sat)
  let opn := match inp with
    | some a => stepOwt w && openWire l a diff v
    | none => false
  let lim := match inp with
    | some a => l.cfg (0x2700 + a) 2 ≠ 0 && (aboveLimit l a v || belowLimit l a v)
    | none => false
  let unc := bitOf (l.conv k).status.toNat 2
  let old := resultReg l s n k
  let tag := (field old.toNat 23 16 + 1) % 256
  let fl := b2n ovr * 8 + b2n opn * 4 + b2n lim * 2 + b2n unc
  let reg := BitVec.ofNat 32 (2 ^ 31 + fl * 2 ^ 27 + tag * 65536 + code.toNat)
  let pass := (l.seq s).passCnt.toNat % 16
  let l := l.updSeq s (fun x => { x with results := x.results.put l.analog.unset (4 * n + k) reg })
  let e := BitVec.ofNat 32 (2 ^ 31 + s * 2 ^ 29 + n * 2 ^ 24 + fl * 2 ^ 20 + pass * 65536 + code.toNat)
  let l := if stepFifo w then pushAdc (fifoOf l k) e l else l
  let l := if sel = 0xF0 then checkDrift code.toNat l else l
  match inp with
  | none => l
  | some a =>
    let l := if opn then
        inputReport a 2 v ((noteBit (0x3700 + a) 1 2 l).updAnIn a (fun x => { x with status := setBit x.status 2, openCnt := x.openCnt + 1 }))
      else l
    checkLimit a v sampled l

/-- Samples of a step for the sin/cos ports that name it (R250, R320). -/
def sincosStep (s n : Nat) (w : Word) (sampled : Nat) (rs : List AdcSample) (l : Live) : Live := match sincosConv w with
  | none => l
  | some k =>
    let get := fun (k : Nat) => rs.getD k ⟨0, false⟩
    let val := fun (l : Live) (k : Nat) => toSigned 16 ((l.conv k).corrected true (get k).code).toNat
    let bad := fun (l : Live) (k : Nat) =>
      let reg := resultReg l s n k
      bitOf reg.toNat 30 || bitOf reg.toNat 29
    forAll (fun p l =>
      if l.cfg (0x2500 + p) 0x1D = s * 256 + n then
        sincosSample p sampled (val l k) (val l (k + 1)) (bad l k || bad l (k + 1)) l
      else l) (List.range 8) l

/-- The step has ended: the next step, the end of the pass, a repetition (R304, R306, R308). -/
def afterStep (s : Nat) (p : Pass) (l : Live) : Live :=
  let x := l.seq s
  if p.step + 1 < p.words.length && !x.stopDue then
    l.setSeq s { x with run := some { p with step := p.step + 1, startedAt := none, delayed := false }, notBefore := l.now }
  else
    let x := if p.step + 1 < p.words.length then x
      else { x with status := setBit x.status 0, passCnt := x.passCnt + 1 }
    let l := if p.step + 1 < p.words.length then l else noteBit (0x3740 + s) 1 0 l
    if p.continuous && !x.stopDue then beginPass s l.now (l.setSeq s x)
    else l.setSeq s { x with run := none, stopDue := false }

/-- STEP_RESULT: results ready at the end of the step (R304, R309). -/
def stepResult (s : Nat) (rs : List AdcSample) (l : Live) : Live :=
  match (l.seq s).run with
  | none => l
  | some p => match p.startedAt with
    | none => l
    | some t =>
      let w := p.word
      if !analogUp l || decide (l.now < t + (stepAcq w + 16) * 4) then l
      else
        let sampled := t + stepAcq w * 4
        let ks := stepConvs w
        let l := forAll (fun k l => oneResult s p.step w sampled k (rs.getD k ⟨0, false⟩) l) ks l
        let l := forAll (fun k l => l.updConv k (fun c => { c with busy := none })) ks l
        afterStep s p (sincosStep s p.step w sampled rs l)

/-! ### Calibration (R312, R313) -/

/-- The calibrate command, while not ARMED (the ARMED case is aborted before). -/
def calibrate (l : Live) : Live :=
  if calibrating l || !analogUp l then l
  else
    let stop := fun (s : Nat) (l : Live) => l.updSeq s (fun x => match x.run with
      | some p => { x with stopDue := true, resume := (passNow l s p).continuous && !x.stopDue }
      | none => x)
    let l := forAll stop (List.range 4) l
    { l with analog := { l.analog with status := setBit l.analog.status 2, calStart := l.now } }

/-- The offset or the gain error of a mode lies outside its range, and one of a converter does (R313). -/
def factorsBad (f : Factors) : Bool := decide (512 < f.offset.natAbs) || decide (200 < f.gain.natAbs)
def calBad (r : CalResult) : Bool := factorsBad r.single || factorsBad r.diff

/-- The offset that a report of a failed calibration carries: that of the mode that fails, single-ended first (R322). -/
def badOffset (r : CalResult) : Int := if factorsBad r.single then r.single.offset else r.diff.offset

/-- CALIBRATION_DONE (R312, R313). -/
def calibrationDone (rs : List CalResult) (temp : BitVec 16) (l : Live) : Live :=
  if !calibrating l || decide (l.now < l.analog.calStart + 5120000) then l
  else
    let fault := fun (k : Nat) (l : Live) =>
      let r := rs.getD k {}
      if calBad r then
        reportFault (0x6002 + 0x40 * k) 0x58 (6 * 2 ^ 24 + ofSigned 16 (badOffset r)) 0x5000
          ((noteBit (0x3730 + k) 1 3 l).updConv k (fun c => { c with status := setBit c.status 3 }))
      else l
    let l := if rs.any calBad then forAll fault (List.range 4) l
      else
        let l := forAll (fun k l => l.updConv k (fun c =>
          { c with status := clrBit c.status 2, factors := rs.getD k {} })) (List.range 4) l
        noteBit 0x3750 1 1 { l with analog := { l.analog with status := clrBit (setBit l.analog.status 1) 3, calTemp := temp } }
    let l := { l with analog := { l.analog with status := clrBit l.analog.status 2 } }
    forAll (fun s l => if (l.seq s).resume && (l.seq s).run.isNone && analogOn l then beginPass s (pclkAt (l.now + 1)) l else l)
      (List.range 4) l

/-! ### Disable and reset (R319, R321) -/

/-- An input whose objects are unused: the odd one of a differential pair (R300). -/
def inputUnused (l : Live) (a : Nat) : Bool := a % 2 = 1 && l.cfg (0x2700 + (a - 1)) 1 = 1

/-- An input's limit can no longer be evaluated: with limit mode 2 it latches; a latch that is set can no longer be cleared by an earlier
result (R300, R319). -/
def uncheck (a : Nat) (l : Live) : Live :=
  if l.cfg (0x2700 + a) 2 ≠ 2 || inputUnused l a then l
  else if bitOf (l.anIn a).status.toNat 4 then l.updAnIn a (fun x => { x with since := false })
  else latchLimit a l.now l

/-- Limits can no longer be evaluated (R319). -/
def noCheck (l : Live) : Live :=
  let l := forAll uncheck (List.range 48) l
  reportFault 0x6FC0 0x58 (8 * 2 ^ 24) 0x5000
    (noteBit 0x3750 1 4 { l with analog := { l.analog with status := setBit l.analog.status 4 } })

/-- Passes stop at once; a conversion in progress gives no result (R321). -/
def stopPasses (l : Live) : Live :=
  let l := forAll (fun s l => l.updSeq s (fun x => { x with run := none, stopDue := false, resume := false })) (List.range 4) l
  forAll (fun k l => l.updConv k (fun c => { c with busy := none })) (List.range 4) l

/-- A commit of Analogue unit enable = 0 (R319); running passes stop with it (log entry 27). -/
def analogDisable (l : Live) : Live := stopPasses (noCheck l)

/-- BLOCK reset of the analogue unit and reset of WARM reach or wider (R321): counters follow R85, the factors stay and the limit
latches stay with the trip unit (R313, R317). -/
def analogReset (l : Live) : Live :=
  let l := stopPasses l
  let seq := fun (s : Nat) (l : Live) => l.updSeq s (fun x =>
    ({ passCnt := x.passCnt, dropCnt := x.dropCnt, delayCnt := x.delayCnt } : Sequence))
  let conv := fun (k : Nat) (l : Live) => l.updConv k (fun c =>
    ({ status := c.status &&& 0x04, ovfCnt := c.ovfCnt, factors := c.factors } : Converter))
  let inp := fun (a : Nat) (l : Live) => l.updAnIn a (fun x =>
    { x with status := x.status &&& 0x10, rec1 := none, rec2 := none, since := false, inside := false, last := 0 })
  let l := forAll inp (List.range 48) (forAll conv (List.range 4) (forAll seq (List.range 4) l))
  { l with analog := { l.analog with status := 0, unset := unsetResult l } }

/-! ### Commands -/

/-- The start command: the first PCLK edge after acceptance (R306). -/
def execSequenceStart (conn : Conn) (s : Fin 4) (st : State) : Out :=
  ran (onObject conn (0x2740 + s.val) 3 (done (fun l => seqStart s.val (pclkAt (l.now + 1)) l))) st

def execSequenceStop (conn : Conn) (s : Fin 4) (st : State) : Out :=
  ran (onObject conn (0x2740 + s.val) 3 (done (seqStop s.val))) st

def execStepStart (s : Fin 4) (st : State) : Out := ran (stepStart s.val) st

def execStepResult (s : Fin 4) (r0 r1 r2 r3 : AdcSample) (st : State) : Out := ran (stepResult s.val [r0, r1, r2, r3]) st

/-- ADC_FIFO_READ: a beat of the read port, which DMA alone reads (R311). -/
def execAdcFifoRead (k : Fin 4) (st : State) : Out :=
  ran (fun l => if analogUp l then (popAdcBeat k.val l).2 else l) st

def execCalibrate (conn : Conn) (st : State) : Out := ran (onObject conn 0x2750 2 (done calibrate)) st

def execCalibrationDone (r0 r1 r2 r3 : CalResult) (dieTemp : BitVec 16) (st : State) : Out :=
  ran (calibrationDone [r0, r1, r2, r3] dieTemp) st

def execLimitTripClear (conn : Conn) (a : Fin 48) (st : State) : Out :=
  ran (onObject conn (0x2700 + a.val) 8 (done (clearLimit a.val))) st

end Sys2Proof.Machine
end

