-- ==== Sys2Proof/Machine/Log.lean ====
section
/-! DEFINITION. The log writer: admission, staging, the ring in LPDDR4X, loss episodes and draining (R360–R369), and the commands
LOG_ADMIT to RELEASE_RECORDS. -/

namespace Sys2Proof.Machine

open Sys2Proof

/-! ### Errors that a read finds in memory (R24) -/

/-- Region of a fabric address, 8 for LPDDR4X, and the offset in it in 8-byte words (R22). -/
def regionAt (l : Live) (a : Nat) : Option (Nat × Nat) :=
  if inLpddr l a 1 then some (8, (a - lpddrBase) / 8)
  else if inTables a 1 then some (7, (a - tableBase) / 8)
  else if 0x00200000 ≤ a ∧ a < 0x00220000 then some (1, (a - 0x00200000) / 8)
  else if 0x00220000 ≤ a ∧ a < 0x00230000 then some (2, (a - 0x00220000) / 8)
  else if 0x00240000 ≤ a ∧ a < 0x00280000 then some (6, (a - 0x00240000) / 8)
  else none

/-- A double-bit error is reported, under 0xD000 + region or 0xD040 for LPDDR4X. -/
def doubleBit (a : Nat) (l : Live) : Live := match regionAt l a with
  | some (r, off) => reportMemory (if r = 8 then 0xD040 else 0xD000 + r) off l
  | none => l

/-- A single-bit error is corrected and counted. -/
def singleBit (a : Nat) (l : Live) : Live := match regionAt l a with
  | some (r, _) => countCorrected r l
  | none => l

/-- What a read of n bytes from an address finds. -/
def readErrors (es : EccWords) (a n : Nat) (l : Live) : Live :=
  forAll (fun e l => if e.2 then doubleBit e.1.toNat l else singleBit e.1.toNat l)
    (es.filter (fun e => decide (a < e.1.toNat + 8 ∧ e.1.toNat < a + n))) l

/-- A byte lies in a word with a double-bit error. -/
def doubleAt (es : EccWords) (a : Nat) : Bool := es.any (fun e => e.2 && decide (e.1.toNat = a / 8 * 8))

/-- Bytes from an address: those of a word with a double-bit error are free, as the bytes of an error response are (log entry 66). -/
def freeDoubles (es : EccWords) : Nat → List Byte → Live → List Byte × Live
  | _, [], l => ([], l)
  | a, b :: r, l =>
    let d := if doubleAt es a then let f := drawFree l; (f.1.setWidth 8, f.2) else (b, l)
    let t := freeDoubles es (a + 1) r d.2
    (d.1 :: t.1, t.2)

/-- A read of n bytes of memory, with its errors. -/
def fetchBytes (es : EccWords) (a n : Nat) (l : Live) : List Byte × Live :=
  freeDoubles es a (readBytes l.mem a n) (readErrors es a n l)

/-! ### Admission (R362, R363) -/

/-- Ordinary places and places of the reserve in staging (R363). -/
def ordinaryPlaces : Nat := 126976
def reservePlaces : Nat := 4096

/-- First address of the ring and its size in records (R364, R370). -/
def ringBase (l : Live) : Nat := l.cfg 0x2A40 2
def ringRecords (l : Live) : Nat :=
  let n := l.cfg 0x2A40 3
  let mib := if n = 0 then min 3584 ((lpddrEnd l - ringBase l) / 1048576) else n
  mib * 65536

/-- Policy overwrite (R365). -/
def overwritePolicy (l : Live) : Bool := l.cfg 0x2A40 4 = 1

/-- The ring is full. -/
def ringFull (l : Live) : Bool := decide (ringRecords l ≤ l.log.count)

/-- A byte span touches the ring (R364). -/
def inRing (l : Live) (a n : Nat) : Bool := decide (a < ringBase l + ringRecords l * 16 ∧ ringBase l < a + n)

/-- A record in its stored form (R360). -/
def recordBytes (seq : BitVec 32) (r : LogRec) : List Byte :=
  bytesLE 8 r.dtime.toNat ++ bytesLE 2 r.src.toNat ++ [r.kind, seq.setWidth 8] ++ bytesLE 4 r.payload.toNat

/-- Staged records that hold ordinary places. -/
def ordinaryUsed (g : LogUnit) : Nat := (g.staging.filter (fun e => !e.2.2.2)).length

/-- Places a record in staging with the next sequence; none when no place is open to it (R362, R363). -/
def stageRecord (r : LogRec) (l : Live) : Option Live :=
  let g := l.log
  let used := ordinaryUsed g
  let free := decide (used < ordinaryPlaces)
  if free || (reserveKind r && decide (g.staging.length - used < reservePlaces)) then
    let st := if g.nextSeq = 0xFFFFFFFF then setBit g.status 2 else g.status
    some { (if g.nextSeq = 0xFFFFFFFF then noteBit 0x3A40 1 2 l else l) with log := { g with staging := g.staging ++ [(g.nextSeq, r, l.now, !free)], nextSeq := g.nextSeq + 1, status := st } }
  else none

/-- A log-loss record of one cause; a full reserve carries its count on (R365). -/
def lossRecordOf (src cause n : Nat) (clear : LossCount → LossCount) (l : Live) : Live :=
  if n = 0 then l else
  let r : LogRec := ⟨BitVec.ofNat 16 src, 0x69, BitVec.ofNat 32 (cause * 2 ^ 28 + satTo 28 n), l.time.dtime⟩
  match stageRecord r l with
  | some l' => { l' with log := { l'.log with counts := clear l'.log.counts } }
  | none => l

/-- The log-loss records of every cause that had losses (R365). -/
def writeLosses (l : Live) : Live :=
  let c := l.log.counts
  let l := lossRecordOf 0x8F81 1 c.source (fun c => { c with source := 0 }) l
  let l := lossRecordOf 0x8F81 2 c.staging (fun c => { c with staging := 0 }) l
  lossRecordOf 0x8F80 3 c.ring (fun c => { c with ring := 0 }) l

/-- No loss condition holds (R365). -/
def lossOver (l : Live) : Bool :=
  decide (ordinaryUsed l.log < ordinaryPlaces) && l.log.waiting.all (fun e => decide (e.2.length < 16))
    && !(ringFull l && overwritePolicy l)

/-- The end of a loss episode at an admission (R365). -/
def endEpisode (l : Live) : Live :=
  if l.log.episode.isSome && lossOver l then
    let l := writeLosses l
    { l with log := { l.log with episode := none } }
  else l

/-- Admission is open: the log is enabled, MEM is out of reset, no flush runs and region 3 is not under test; after a WARM reset only
once CORE is released, since "log start" comes first (R368). -/
def admitting (l : Live) : Bool :=
  l.logOn && awake l && domainUp .mem l && (coreUp l || decide (l.rst.lastReach.toNat ≤ 1)) && !l.log.flushing && !l.log.testHold

/-- The oldest waiting record of a unit leaves it. -/
def takeWaiting (u : Nat) (l : Live) : Option (LogRec × Live) := match l.log.waiting.get [] u with
  | [] => none
  | r :: rest => some (r, { l with log := { l.log with waiting := l.log.waiting.put [] u rest } })

/-- The waiting unit that is served next: the first after the one served last, by number, and after the last the first again. -/
def nextUnit (g : LogUnit) : Option Nat :=
  let us := (g.waiting.filter (fun e => !e.2.isEmpty)).map (fun e => e.1)
  (us.find? (fun u => decide (g.lastUnit < u))).or us.head?

/-- LOG_ADMIT: one record of the waiting unit that is next enters staging, or is lost with cause 2; a log start that is due is the
record admitted (R362, R363, R368). -/
def logAdmit (u : Nat) (l : Live) : Live :=
  if !admitting l then l
  else match l.log.startDue with
    | some p => match stageRecord ⟨0x8F80, 0x68, p, l.time.dtime⟩ l with
      | some l => endEpisode { l with log := { l.log with startDue := none } }
      | none => l
    | none => if nextUnit l.log ≠ some u then l else match takeWaiting u { l with log := { l.log with lastUnit := u } } with
      | none => l
      | some (r, l) => match stageRecord r l with
        | some l => endEpisode l
        | none => lose 2 1 l

/-! ### The ring -/

/-- Sequences of the ring after one more record, and after the oldest has gone. -/
def addRun (seq : Nat) : List (Nat × Nat) → List (Nat × Nat)
  | [] => [(seq, 1)]
  | [(f, n)] => if (f + n) % 2 ^ 32 = seq then [(f, n + 1)] else [(f, n), (seq, 1)]
  | e :: r => e :: addRun seq r

def dropRun : List (Nat × Nat) → List (Nat × Nat)
  | [] => []
  | (f, n) :: r => if n ≤ 1 then r else ((f + 1) % 2 ^ 32, n - 1) :: r

/-- The sequence at the tail follows the oldest record in the ring. -/
def settleTail (g : LogUnit) : LogUnit := match g.runs with
  | (f, _) :: _ => { g with tailSeq := BitVec.ofNat 32 f }
  | [] => g

/-- Takes the record at the tail out of the ring. -/
def advanceTail (l : Live) : Live :=
  let g := l.log
  if g.count = 0 then l
  else { l with log := settleTail { g with tail := (g.tail + 1) % ringRecords l, count := g.count - 1, runs := dropRun g.runs } }

/-- Writes one staged record at the head (R364). -/
def putRing (seq : BitVec 32) (r : LogRec) (l : Live) : Live :=
  let g := l.log
  let mem := writeBytes l.mem (ringBase l + 16 * g.head) (recordBytes seq r)
  let g := { g with head := (g.head + 1) % ringRecords l, count := g.count + 1, runs := addRun seq.toNat g.runs }
  { l with mem := mem, log := settleTail g }

/-- Moves up to n staged records into the ring under the overflow policy (R363, R365). -/
def moveStaged : Nat → Live → Live
  | 0, l => l
  | n + 1, l => match l.log.staging with
    | [] => l
    | (seq, r, _, _) :: rest =>
      if ringRecords l = 0 then l
      else if !ringFull l then moveStaged n (putRing seq r { l with log := { l.log with staging := rest } })
      else if overwritePolicy l then
        let l := lose 3 1 (advanceTail { l with log := { l.log with staging := rest } })
        moveStaged n (putRing seq r (noteBit 0x3A40 1 1 { l with log := { l.log with status := setBit l.log.status 1 } }))
      else l

/-- The ring may be written: LOG_READY and no zeroing (R368). -/
def ringReady (l : Live) : Bool := awake l && domainUp .mem l && !l.log.zeroing && bitOf l.log.status.toNat 4

/-- LOG_STAGING_MOVE: a block of 32, or what is staged once the oldest has waited 400 TCLK (R363). -/
def logStagingMove (l : Live) : Live :=
  let oldest := match l.log.staging with
    | (_, _, t, _) :: _ => decide (t + 400 ≤ l.now)
    | [] => false
  if ringReady l && (decide (32 ≤ l.log.staging.length) || oldest) then moveStaged 32 l else l

/-- LOG_LOSS_RECORD: every 400,000 TCLK of an episode (R365). -/
def logLossRecord (l : Live) : Live :=
  if l.log.episode.isSome && decide (l.log.nextLoss ≤ l.now) && admitting l && l.log.startDue.isNone then
    let l := writeLosses l
    { l with log := { l.log with nextLoss := l.log.nextLoss + 400000 } }
  else l

/-- Pops up to n records, as their bytes (R366, R367). -/
def popRecords (es : EccWords) : Nat → Live → List Byte × Live
  | 0, l => ([], l)
  | n + 1, l =>
    if l.log.count = 0 then ([], l)
    else
      let b := fetchBytes es (ringBase l + 16 * l.log.tail) 16 l
      let r := popRecords es n (advanceTail b.2)
      (b.1 ++ r.1, r.2)

/-- Bytes padded with zeros to a length: records of kind 0x00 beyond the last (R366). -/
def padTo (n : Nat) (b : List Byte) : List Byte := b ++ List.replicate (n - b.length) 0

/-- A log drain transaction of n bytes (R366): the bytes delivered; whole records are popped, a partial one stays. -/
def drainBytes (es : EccWords) (n : Nat) (l : Live) : List Byte × Live :=
  let r := popRecords es (n / 16) l
  let part := if r.2.log.count = 0 then ([], r.2) else fetchBytes es (ringBase l + 16 * r.2.log.tail) (n % 16) r.2
  (padTo n (r.1 ++ part.1), part.2)

/-- A read of the drain object: up to 64 records, or one of kind 0x00 with all bytes 0 while the ring is empty (R81, R367). -/
def drainObject (es : EccWords) (l : Live) : List Byte × Live :=
  if l.log.count = 0 then (List.replicate 16 0, l) else popRecords es 64 l

/-- Advances the tail by n records, or by the count if that is smaller (R367). -/
def releaseTail : Nat → Live → Live
  | 0, l => l
  | n + 1, l => if l.log.count = 0 then l else releaseTail n (advanceTail l)

/-- The change of the ring that a commit makes empties it; the sequence continues (R364). -/
def emptyRing (l : Live) : Live := { l with log := { l.log with head := 0, tail := 0, count := 0, runs := [] } }

/-- A log start becomes the next record admitted: reach 0, 1, 2, or 3 for a commit (R361, R368). -/
def logStart (reach : Nat) (l : Live) : Live :=
  { l with log := { l.log with startDue := some (BitVec.ofNat 32 (l.rst.gen.toNat + reach * 65536)) } }

/-- Records that a warm reset loses in the units, cause 1 (R368). -/
def loseWaiting (l : Live) : Live :=
  let n := (l.log.waiting.map (fun e => e.2.length)).foldl (· + ·) 0
  lose 1 n { l with log := { l.log with waiting := [] } }

/-- The flush of staging at a WARM reset ends: all that the policy lets into the ring has moved, the rest is lost with cause 2,
and region 3 is wiped (R368). -/
def finishFlush (l : Live) : Live :=
  if !l.log.flushing then l else
  let l := moveStaged l.log.staging.length l
  let n := l.log.staging.length
  lose 2 n { l with log := { l.log with staging := [], flushing := false } }

/-- LPDDR4X is zeroed: LOG_READY (R458, R368). -/
def zeroingDone (l : Live) : Live :=
  if !l.log.zeroing then l
  else { l with log := { l.log with zeroing := false, status := setBit l.log.status 4 } }

/-! ### Commands -/

def execLogAdmit (unit : BitVec 10) (s : State) : Out := ran (logAdmit unit.toNat) s

def execLogStagingMove (s : State) : Out := ran logStagingMove s

def execLogLossRecord (s : State) : Out := ran logLossRecord s

/-- An access outside the windows of the host port (R412). -/
def addrErr (l : Live) : Live :=
  noteFlags (hostReg 0x10) 1 { l with host := { l.host with stat := bumpAt (setBit l.host.stat 0) 16 } }

/-- A read transaction that the host port does not serve: in doze its bytes are 0xFF (R386). -/
def unserved (len : Nat) (l : Live) : Live :=
  if awake l then l else { l with host := { l.host with lastRead := List.replicate len 0xFF } }

/-- LOG_DRAIN_READ: a host-port read of the drain window; bytes beyond the window's end read 0 and set ADDR_ERR (R366, R412). -/
def logDrainRead (addr : BitVec 16) (len : Nat) (es : EccWords) (l : Live) : Live :=
  if !hostUp l then unserved len l else
  let l := csFall l
  let inside := min len (0x10000 - addr.toNat)
  let r := drainBytes es inside l
  let l := { r.2 with host := { r.2.host with lastRead := padTo len r.1 } }
  if inside < len then addrErr l else l

def execLogDrainRead (addr : BitVec 16) (bytes : HostBytes) (s : State) : Out := ran (logDrainRead addr bytes.len bytes.ecc) s

/-- LOG_DRAIN_OBJECT_READ: pops up to 64 records (R367). -/
def execLogDrainObjectRead (read : DrainRead) (s : State) : Out :=
  ran (fun l =>
    if !served read.conn l then l
    else
      let r := drainObject read.ecc (touch read.conn l)
      answer (connId read.conn) (.value r.1) r.2) s

/-- RELEASE_RECORDS (R367). -/
def execReleaseRecords (conn : Conn) (n : BitVec 32) (s : State) : Out :=
  ran (onObject conn 0x2A40 5 (done (fun l => releaseTail (min n.toNat l.log.count) l))) s

def execStagingFlushDone (s : State) : Out := ran finishFlush s

def execLpddrZeroingDone (s : State) : Out := ran zeroingDone s

end Sys2Proof.Machine
end

