-- ==== Sys2Proof/Machine/PinEngines.lean ====
section
/-! DEFINITION. Pin engines: instructions, stalls, queues, flags, bank swaps, starts and stops, readback (R325–R343), and the
commands NOP to PE_READBACK but PROGRAM_WRITE (Dictionary.lean). Each instruction command stands for one tick of an engine; it
acts if the instruction at the engine's address is its own (log entries 12 and 14). -/

namespace Sys2Proof.Machine

open Sys2Proof

/-- Block code of engine e (R456). -/
def peUnit (e : Nat) : Nat := 0x30 + e

/-- An engine takes part in the step: CORE runs, its block is out of reset and it is not frozen by doze (R342, R343). -/
def peUp (l : Live) (e : Nat) : Bool := unitUp (peUnit e) l && !l.doze.asleep

/-! ### Configuration (R327, R328, R344) -/

def peBase (l : Live) (e : Nat) : Nat := l.cfg (0x2900 + e) 2
def peWidth (l : Live) (e : Nat) : Nat := l.cfg (0x2900 + e) 3
def peWordLen (l : Live) (e : Nat) : Nat := l.cfg (0x2900 + e) 5
/-- Shift direction: LSB first. -/
def peLsb (l : Live) (e : Nat) : Bool := l.cfg (0x2900 + e) 6 = 1
def peSend (l : Live) (e : Nat) : Nat := l.cfg (0x2900 + e) 7
def peTake (l : Live) (e : Nat) : Nat := l.cfg (0x2900 + e) 8

/-- The window pins of a mask, lowest first. -/
def maskPins (m : Nat) : List Nat := (List.range 8).filter (fun j => bitOf m j)

/-! ### Programs (R330, R334) -/

/-- Opcode of an instruction. -/
def peOp (i : Nat) : Nat := field i 23 20

/-- TO of a WAIT or of a FETCH or DEPOSIT. -/
def peTo (i : Nat) : Nat := field i 3 0

/-- R334 for one instruction, with the window width and the masks. -/
def peInstrOk (width send take i : Nat) : Bool := match peOp i with
  | 0x0 => field i 19 0 = 0
  | 0x1 => field i 19 10 = 0
  | 0x2 => field i 13 4 = 0 && field i 19 18 ≠ 3 && !(field i 19 18 = 2 && bitOf i 17) && peTo i ≠ 0
      && (field i 19 18 ≠ 0 || decide (field i 16 14 < width))
  | 0x3 => field i 19 17 = 0 && decide (field i 15 8 < 2 ^ width)
  | 0x4 => field i 19 17 = 0 && field i 15 0 = 0 && send ≠ 0
      && (!bitOf i 16 || (maskPins send).length = (maskPins take).length)
  | 0x5 => field i 19 0 = 0 && take ≠ 0
  | 0x6 | 0x7 => field i 19 17 = 0 && field i 15 4 = 0 && (bitOf i 16 == decide (peTo i ≠ 0))
  | 0x8 => !bitOf i 19 && field i 12 6 = 0 && decide (field i 5 0 < 48)
      && (!(field i 18 16 = 4 || field i 18 16 = 5) || decide (field i 15 13 < width))
  | 0x9 => field i 19 10 = 0
  | 0xA => field i 19 6 = 0 && decide (field i 5 0 < 48)
  | 0xB => field i 19 0 = 0
  | _ => false

/-- R334 for a program of 144 bytes. -/
def peProgramOk (width send take : Nat) (b : List Byte) : Bool :=
  (List.range 48).all (fun n => peInstrOk width send take (fieldLE b (3 * n) 3))

/-- The 48 instructions of a program object. -/
def peProgram (b : List Byte) : List (BitVec 24) := (List.range 48).map (fun n => BitVec.ofNat 24 (fieldLE b (3 * n) 3))

/-- A bank as bytes. -/
def peBytes (p : List (BitVec 24)) : List Byte := p.flatMap (fun i => bytesLE 3 i.toNat)

/-! ### Status (R335) -/

/-- The bank in execution. -/
def PinEngine.bank (x : PinEngine) : List (BitVec 24) := if x.active then x.bankB else x.bankA

/-- The instruction at the engine's address. -/
def PinEngine.instr (x : PinEngine) : Nat := (nth 0 x.bank x.addr).toNat

/-- STAT. -/
def PinEngine.statWord (x : PinEngine) : Nat :=
  b2n x.rxv * 2 ^ 31 + x.rx.length * 2 ^ 27 + x.tx.length * 2 ^ 23 + b2n x.swapPending * 2 ^ 22 + b2n x.active * 2 ^ 21
    + b2n (x.state = .waiting) * 2 ^ 20 + x.flags.toNat * 256 + x.stat.toNat

/-- Sets a w1c bit of STAT. -/
def PinEngine.raise (x : PinEngine) (bit : Nat) : PinEngine := { x with stat := setBit x.stat bit }

/-- Source ID of an element of an engine (R340). -/
def peSource (e element : Nat) : Nat := 0x7000 + 0x40 * e + element

/-- A record of code 1, 2 or 3, at most once per 1 ms for each engine and code (R340). -/
def peRecord (e code element detail : Nat) (l : Live) : Live :=
  let x := l.pe e
  let last := if code = 1 then x.rec1 else if code = 2 then x.rec2 else x.rec3
  if recordDue l last then
    let t := some l.now
    let x := if code = 1 then { x with rec1 := t } else if code = 2 then { x with rec2 := t } else { x with rec3 := t }
    writeRecord (peSource e element) 0x5C (code * 2 ^ 24 + detail) (l.setPe e x)
  else l

/-- w1c bits of STAT that an engine sets in this TCLK (R84). -/
def peNote (e bit : Nat) (l : Live) : Live := noteBit (0x3900 + e) 2 bit l

/-! ### Pins (R327, R329, R341) -/

/-- First TCLK of the ECLK after this one: where an instruction's pin change reaches the ball (R329). -/
def nextEclk (l : Live) : Nat := (l.now / 2 + 1) * 2

/-- What window pin j drives: none is high impedance. An open-drain pin at level 1 is released (R327). -/
def peTarget (l : Live) (e : Nat) (x : PinEngine) (j : Nat) : Option Bool :=
  if !(x.state = .running || x.state = .waiting) || decide (peWidth l e ≤ j) || !x.dirs.getLsbD j
      || x.shorts.getLsbD (peBase l e + j) then none
  else if bitOf (l.cfg (0x2900 + e) 0x0C) j && x.levels.getLsbD j then none
  else some (x.levels.getLsbD j)

/-- Brings the window pins to what they have to drive, from a TCLK on. A P-pin that has left the window is high impedance and is
forgotten (R327, R341). -/
def peDriveAt (l : Live) (t e : Nat) (x : PinEngine) : PinEngine :=
  let one := fun (p : SMap Readback) (j : Nat) =>
    let n := peBase l e + j
    p.put {} n (driveTo t (peTarget l e x j) false { x.pins.get {} n with released := x.shorts.getLsbD n })
  { x with pins := (List.range (peWidth l e)).foldl one [] }

/-! ### Ticks and what they see (R326, R329, R332) -/

/-- The divider in 1,024ths of an ECLK (R326). -/
def peDivider (l : Live) (e : Nat) : Nat := l.cfg (0x2900 + e) 4

/-- A tick may fall in this ECLK: no interval is shorter than the mean by a whole ECLK (R326). -/
def PinEngine.tickOpen (x : PinEngine) : Bool := decide (x.div < x.phase)

/-- A tick has fallen: a committed divider counts from it on (R326). -/
def PinEngine.ticked (divider : Nat) (x : PinEngine) : PinEngine :=
  { x with phase := min 1024 (if x.tickOpen then x.phase - x.div else x.phase), div := divider, ticks := 0 }

/-- Tick k after the first of a stall or of a DELAY may fall in this ECLK. -/
def PinEngine.atTick (x : PinEngine) (k : Nat) : Bool :=
  (x.tickOpen && decide (k = x.ticks + 1)) || (decide (x.phase < 2048) && decide (k = x.ticks))

/-- Tick k after the first has fallen, or may fall in this ECLK. -/
def PinEngine.reaches (x : PinEngine) (k : Nat) : Bool := decide (k ≤ x.ticks) || (x.tickOpen && decide (k = x.ticks + 1))

/-- A stall may be released in this ECLK: one of its 2^(TO+1) ticks falls in it, and not its first (R332). -/
def PinEngine.releasable (x : PinEngine) : Bool :=
  let last := 2 ^ (peTo x.instr + 1) - 1
  (List.range 2).any (fun d => decide (1 ≤ x.ticks + d) && decide (x.ticks + d ≤ last) && x.atTick (x.ticks + d))

/-- The queues and flags as they stand. -/
def PinEngine.look (x : PinEngine) : PeView := { tx := x.tx, rx := x.rx.length, flags := x.flags }

/-- An ECLK has passed: ticks see the changes it brought, and a stall or DELAY counts the ticks that have fallen for certain. -/
def PinEngine.eclk (divider : Nat) (x : PinEngine) : PinEngine :=
  let x := { x with seen := x.look, phase := min (x.phase + 1024) (x.div + 2047) }
  if (x.state = .waiting || x.delay.isSome) && decide (x.div + 1024 ≤ x.phase) then
    { x with phase := x.phase - x.div, div := divider, ticks := x.ticks + 1 }
  else x

/-- The end of a TCLK for an engine: ECLK is two TCLK, and stops in doze (R343). -/
def peClock (e : Nat) (l : Live) : Live :=
  if peUp l e && decide (l.now % 2 = 1) then l.updPe e (PinEngine.eclk (peDivider l e)) else l

/-! ### Starting, stopping, swapping (R337–R339, R342) -/

/-- The swap itself (R338). -/
def PinEngine.swap (x : PinEngine) : PinEngine :=
  let x := { x with active := !x.active, swapPending := false, addr := 0, swapCnt := x.swapCnt + 1 }
  x.raise 6

/-- The shift count is at a boundary (R331). -/
def atBoundary (l : Live) (e : Nat) (x : PinEngine) : Bool := x.count = 0 || x.count = peWordLen l e

/-- A pending swap is due: between two instructions, at a boundary and not stalled (R338). -/
def swapDue (l : Live) (e : Nat) : Bool :=
  let x := l.pe e
  x.swapPending && x.state = .running && x.delay.isNone && atBoundary l e x

/-- The start of an engine (R337). -/
def peStart (e : Nat) (l : Live) : Live :=
  let x := l.pe e
  let x := { x with state := .running, addr := 0, sr := 0, count := 0, lc := 0, tx := [], rx := [], delay := none }
  let x := { x with dirs := BitVec.ofNat 8 (l.cfg (0x2900 + e) 0x0A), levels := BitVec.ofNat 8 (l.cfg (0x2900 + e) 0x0B) }
  let x := { x with phase := 1024, div := 0, ticks := 0, seen := { x.look with flags := x.seen.flags } }
  l.setPe e (peDriveAt l l.now e x)

/-- The stop of an engine: its window pins become high impedance; a pending swap takes place (R337, R338). -/
def peStop (e : Nat) (l : Live) : Live :=
  let x := { l.pe e with state := .disabled, delay := none }
  let l := if x.swapPending then peNote e 6 l else l
  let x := if x.swapPending then x.swap else x
  l.setPe e (peDriveAt l l.now e x)

/-- A committed program loads the inactive bank; a DISABLED engine swaps at once (R338). -/
def peLoad (e : Nat) (l : Live) : Live :=
  let x := l.pe e
  let p := peProgram (l.val (key (0x2900 + e) 0x0D)).toBytes
  let x := if x.active then { x with bankA := p } else { x with bankB := p }
  let x := { x with swapPending := true }
  if x.state = .disabled then peNote e 6 (l.setPe e x.swap) else l.setPe e x

/-- A commit redrives the window pins where the open-drain setting has changed. -/
def peRedrive (e : Nat) (l : Live) : Live := l.setPe e (peDriveAt l l.now e (l.pe e))

/-- What a reset leaves: the counters of R85, and at a BLOCK reset the banks (R342). -/
def peReset (wipe : Bool) (e : Nat) (l : Live) : Live :=
  let x := l.pe e
  let y : PinEngine := { waitCnt := x.waitCnt, underCnt := x.underCnt, txCnt := x.txCnt, rxCnt := x.rxCnt }
  let y := { y with swapCnt := x.swapCnt, shortCnt := x.shortCnt }
  l.setPe e (if wipe then y else { y with bankA := x.bankA, bankB := x.bankB, state := .reset })

/-- The committed program becomes the active bank A, and an enabled engine starts: the commit of the stored configuration and
the release of a block reset (R342). -/
def peRelease (e : Nat) (l : Live) : Live :=
  let p := peProgram (l.val (key (0x2900 + e) 0x0D)).toBytes
  let l := l.updPe e (fun x => { x with state := .disabled, bankA := p, active := false, swapPending := false })
  if l.flag (0x2900 + e) 1 then peStart e l else l

/-- FORCE_SWAP (R339). -/
def peForceSwap (e : Nat) (l : Live) : Live :=
  let x := l.pe e
  if !unitUp (peUnit e) l || !x.swapPending then l
  else
    let lost := x.count
    let x := { x.swap with sr := 0, count := 0, delay := none, lost := BitVec.ofNat 8 lost, state := .running }
    writeRecord (peSource e 0) 0x5C (4 * 2 ^ 24 + lost) (peNote e 6 (peNote e 5 (l.setPe e (x.raise 5))))

/-- A pending swap takes place (R338). -/
def peBankSwap (e : Nat) (l : Live) : Live :=
  if peUp l e && swapDue l e then peNote e 6 (l.updPe e PinEngine.swap) else l

/-! ### Queues and flags (R335, R336) -/

/-- TXD: pushes a word, or drops it (R335). -/
def txdWrite (e : Nat) (w : BitVec 32) (l : Live) : Live :=
  if !unitUp (peUnit e) l then l else
  let x := l.pe e
  if x.tx.length < 8 then l.setPe e { x with tx := x.tx ++ [w] }
  else
    let x := { x.raise 2 with txCnt := x.txCnt + 1 }
    peRecord e 2 1 x.txCnt.toNat (peNote e 2 (l.setPe e x))

/-- RXD: pops one word, or answers the last one popped with RXV = 0 (R81, R335). -/
def rxdRead (e : Nat) (l : Live) : BitVec 32 × Live :=
  let x := l.pe e
  match x.rx with
  | w :: r => (w, l.setPe e { x with rx := r, lastRx := w, rxv := true })
  | [] => (x.lastRx, l.setPe e { x with rxv := false })

/-- Sets flags. -/
def peSetFlags (e : Nat) (m : Byte) (l : Live) : Live :=
  if !unitUp (peUnit e) l then l else
  let x := l.pe e
  let before := match x.flagSets with
    | some (t, s) => if t = l.now then s else 0
    | none => 0
  l.setPe e { x with flags := x.flags ||| m, flagSets := if m = 0 then x.flagSets else some (l.now, before ||| m) }

/-- Flags cleared by a mask, but those set in the same TCLK (R336). -/
def clearedFlags (l : Live) (x : PinEngine) (m : Byte) : Byte :=
  let keep := match x.flagSets with
    | some (t, s) => if t = l.now then s else 0
    | none => 0
  clrMask x.flags (clrMask m keep)

/-- Clears flags. -/
def peClearFlags (e : Nat) (m : Byte) (l : Live) : Live :=
  if !unitUp (peUnit e) l then l else l.updPe e (fun x => { x with flags := clearedFlags l x m })

/-- FLUSH (R335). -/
def peFlush (e : Nat) (l : Live) : Live :=
  if !unitUp (peUnit e) l then l else l.updPe e (fun x => { x with tx := [], rx := [], seen := { x.seen with flushed := true } })

/-- A write to CTL: clears, sets, flush, forced swap (R335). -/
def peCtl (e v : Nat) (l : Live) : Live :=
  let l := peSetFlags e (BitVec.ofNat 8 (field v 23 16)) (peClearFlags e (BitVec.ofNat 8 (field v 31 24)) l)
  let l := if bitOf v 1 then peFlush e l else l
  if bitOf v 0 then peForceSwap e l else l

/-- A write to STAT: the w1c bits; SHORT drives the released pins again (R335, R341). -/
def peW1c (e w : Nat) (l : Live) : Live :=
  let v := clearable l (key (0x3900 + e) 2) w
  let x := l.pe e
  let x := { x with stat := clrMask x.stat (BitVec.ofNat 8 v) }
  if bitOf v 7 then l.setPe e (peDriveAt l l.now e { x with shorts := 0 }) else l.setPe e x

/-! ### Instructions (R330–R333) -/

/-- The engine executes, in this tick, an instruction with this opcode. -/
def peReady (l : Live) (e op : Nat) : Bool :=
  let x := l.pe e
  peUp l e && x.state = .running && x.delay.isNone && !swapDue l e && peOp x.instr = op && x.tickOpen

/-- An engine's tick: the divider's interval to the next one begins. -/
def peTick (e : Nat) (f : PinEngine → PinEngine) (l : Live) : Live :=
  l.updPe e (fun x => f (x.ticked (peDivider l e)))

/-- Address 47 is followed by address 0. -/
def peNext (x : PinEngine) (n : Nat) : PinEngine := { x with addr := (x.addr + n) % 48 }

/-- One bit out of SR with one bit in: the bit that leaves, and SR (R331). -/
def srShift (lsb : Bool) (b : Bool) (sr : BitVec 32) : Bool × BitVec 32 :=
  if lsb then (sr.getLsbD 0, (sr >>> 1) ||| BitVec.ofNat 32 (b2n b * 2 ^ 31))
  else (sr.getLsbD 31, (sr <<< 1) ||| BitVec.ofNat 32 (b2n b))

/-- Several bits, in the order in which they enter: the bits that leave, first to leave first, and SR. -/
def srMove (lsb : Bool) : List Bool → BitVec 32 → List Bool × BitVec 32
  | [], sr => ([], sr)
  | b :: r, sr =>
    let s := srShift lsb b sr
    let t := srMove lsb r s.2
    (s.1 :: t.1, t.2)

/-- Levels of the pins of a mask, lowest-numbered first. -/
def takeBits (mask : Nat) (pins : Byte) : List Bool := (maskPins mask).map (fun j => pins.getLsbD j)

/-- NOP. -/
def peNop (e : Nat) (l : Live) : Live := if peReady l e 0x0 then peTick e (peNext · 1) l else l

/-- DELAY: occupies n ticks. -/
def peDelay (e : Nat) (l : Live) : Live :=
  if peReady l e 0x1 then peTick e (fun x => { x with delay := some (field x.instr 9 0 + 1) }) l else l

/-- The ticks of a DELAY have run out, in the last of them. -/
def peDelayEnd (e : Nat) (l : Live) : Live :=
  let x := l.pe e
  match x.delay with
  | some n =>
    if peUp l e && x.state = .running && x.reaches (n - 1) then
      l.setPe e (peNext { if n = 1 then x else x.ticked (peDivider l e) with delay := none } 1)
    else l
  | none => l

/-- The condition of a WAIT (R332), of a FETCH or of a DEPOSIT with B = 1 (R333). -/
def waitHolds (x : PinEngine) (pins : Byte) : Bool :=
  let i := x.instr
  match peOp i with
  | 0x6 => !x.seen.tx.isEmpty
  | 0x7 => decide (x.seen.rx < 8)
  | _ => match field i 19 18 with
    | 0 => pins.getLsbD (field i 16 14) == bitOf i 17
    | 1 => x.seen.flags.getLsbD (field i 16 14) == bitOf i 17
    | _ => !x.stat.getLsbD 0

/-- FETCH from a queue that holds a word. -/
def fetchWord (x : PinEngine) : PinEngine :=
  { x with sr := x.seen.tx.headD 0, tx := if x.seen.flushed then x.tx else x.tx.tail, count := 0 }

/-- DEPOSIT into a queue that is not full. -/
def depositWord (x : PinEngine) : PinEngine := { x with rx := x.rx ++ [x.sr], sr := 0, count := 0 }

/-- What a release does: FETCH and DEPOSIT move their word, a waited flag is consumed (R332, R333). -/
def releaseOf (l : Live) (x : PinEngine) : PinEngine :=
  let i := x.instr
  match peOp i with
  | 0x6 => fetchWord x
  | 0x7 => depositWord x
  | _ => if field i 19 18 = 1 && bitOf i 17 then
      { x with flags := clearedFlags l x (BitVec.ofNat 8 (2 ^ field i 16 14)) } else x

/-- WAIT: released in this tick if its condition holds, else the engine stalls. -/
def peWait (e : Nat) (pins : Byte) (l : Live) : Live :=
  if peReady l e 0x2 then
    peTick e (fun x => if waitHolds x pins then peNext (releaseOf l x) 1 else { x with state := .waiting }) l
  else l

/-- A stall finds its condition in one of its ticks (R332, R333). -/
def peWaitRelease (e : Nat) (pins : Byte) (l : Live) : Live :=
  let x := l.pe e
  if peUp l e && x.state = .waiting && x.releasable && waitHolds x pins then
    l.setPe e (peNext { (releaseOf l x).ticked (peDivider l e) with state := .running } 1)
  else l

/-- A stall has not been released within its 2^(TO+1) ticks: execution continues at the address after next (R332). -/
def peWaitTimeout (e : Nat) (pins : Byte) (l : Live) : Live :=
  let x := l.pe e
  let last := 2 ^ (peTo x.instr + 1) - 1
  if peUp l e && x.state = .waiting && x.reaches last && !(x.releasable && waitHolds x pins) then
    let x := { peNext (x.ticked (peDivider l e)) 2 with state := .running, waitCnt := x.waitCnt + 1 }
    if l.flag (0x2900 + e) 0x0E then peNote e 4 (l.setPe e (x.raise 4)) else l.setPe e x
  else l

/-- DRIVE. -/
def peDrive (e : Nat) (l : Live) : Live :=
  if peReady l e 0x3 then
    let x := (l.pe e).ticked (peDivider l e)
    let m := BitVec.ofNat 8 (field x.instr 15 8)
    let v := BitVec.ofNat 8 (field x.instr 7 0) &&& m
    let x := if bitOf x.instr 16 then { x with dirs := clrMask x.dirs m ||| v } else { x with levels := clrMask x.levels m ||| v }
    l.setPe e (peNext (peDriveAt l (nextEclk l) e x) 1)
  else l

/-- Levels after EMIT: the bits that left, in order, on the pins of the send mask. -/
def emitLevels : List Nat → List Bool → Byte → Byte
  | j :: js, b :: bs, v => emitLevels js bs (putBit v j b)
  | _, _, v => v

/-- EMIT, with the take-mask pins entering under XCH. -/
def peEmit (e : Nat) (pins : Byte) (l : Live) : Live :=
  if peReady l e 0x4 then
    let x := (l.pe e).ticked (peDivider l e)
    let js := maskPins (peSend l e)
    let ins := if bitOf x.instr 16 then takeBits (peTake l e) pins else js.map (fun _ => false)
    let r := srMove (peLsb l e) ins x.sr
    let x := { x with sr := r.2, count := min 32 (x.count + ins.length), levels := emitLevels js r.1 x.levels }
    l.setPe e (peNext (peDriveAt l (nextEclk l) e x) 1)
  else l

/-- SAMPLE. -/
def peSample (e : Nat) (pins : Byte) (l : Live) : Live :=
  if peReady l e 0x5 then
    let ins := takeBits (peTake l e) pins
    peTick e (fun x => peNext { x with sr := (srMove (peLsb l e) ins x.sr).2, count := min 32 (x.count + ins.length) } 1) l
  else l

/-- FETCH: an empty queue stalls it (B = 1) or loads 0 with an underrun (R333). -/
def peFetch (e : Nat) (l : Live) : Live :=
  if peReady l e 0x6 then
    let x := (l.pe e).ticked (peDivider l e)
    if !x.seen.tx.isEmpty then l.setPe e (peNext (fetchWord x) 1)
    else if bitOf x.instr 16 then l.setPe e { x with state := .waiting }
    else
      let y := { peNext x 1 with sr := 0, count := 0, underCnt := x.underCnt + 1 }
      peRecord e 1 1 y.underCnt.toNat (peNote e 1 (l.setPe e (y.raise 1)))
  else l

/-- DEPOSIT: a full queue stalls it (B = 1) or drops the word (R333). -/
def peDeposit (e : Nat) (l : Live) : Live :=
  if peReady l e 0x7 then
    let x := (l.pe e).ticked (peDivider l e)
    if x.seen.rx < 8 then l.setPe e (peNext (depositWord x) 1)
    else if bitOf x.instr 16 then l.setPe e { x with state := .waiting }
    else
      let y := { peNext x 1 with sr := 0, count := 0, rxCnt := x.rxCnt + 1 }
      peRecord e 3 2 y.rxCnt.toNat (peNote e 3 (l.setPe e (y.raise 3)))
  else l

/-- The condition of a BRANCH (R330). -/
def branchHolds (l : Live) (e : Nat) (x : PinEngine) (pins : Byte) : Bool :=
  let j := field x.instr 15 13
  match field x.instr 18 16 with
  | 0 => true
  | 1 => x.seen.tx.isEmpty
  | 2 => decide (8 ≤ x.seen.rx)
  | 3 => x.count ≠ peWordLen l e
  | 4 => pins.getLsbD j
  | 5 => !pins.getLsbD j
  | 6 => x.seen.flags.getLsbD j
  | _ => !x.seen.flags.getLsbD j

/-- BRANCH. -/
def peBranch (e : Nat) (pins : Byte) (l : Live) : Live :=
  if peReady l e 0x8 then
    peTick e (fun x => if branchHolds l e x pins then { x with addr := field x.instr 5 0 } else peNext x 1) l
  else l

/-- SETLC. -/
def peSetlc (e : Nat) (l : Live) : Live :=
  if peReady l e 0x9 then peTick e (fun x => peNext { x with lc := BitVec.ofNat 10 (field x.instr 9 0) } 1) l else l

/-- LOOP. -/
def peLoop (e : Nat) (l : Live) : Live :=
  if peReady l e 0xA then
    peTick e (fun x => if x.lc = 0 then peNext x 1 else { x with lc := x.lc - 1, addr := field x.instr 5 0 }) l
  else l

/-- SIGNAL. -/
def peSignal (e : Nat) (l : Live) : Live :=
  if peReady l e 0xB then peNote e 0 (peTick e (fun x => (peNext x 1).raise 0) l) else l

/-! ### Readback (R341) -/

/-- The check of window pin j, 8 TCLK after an edge. -/
def peReadback (e j : Nat) (level : Bool) (l : Live) : Live :=
  let x := l.pe e
  let p := peBase l e + j
  let r := checkReadback l.now level (x.pins.get {} p)
  let x := { x with pins := x.pins.put {} p r.1 }
  if !r.2 then l.setPe e x
  else
    let x := { x.raise 7 with shorts := setBit x.shorts p, shortCnt := x.shortCnt + 1 }
    reportFault (peSource e (32 + p)) 0x5C (5 * 2 ^ 24) 0x2300 (peNote e 7 (l.setPe e x))

/-! ### Commands -/

def execNop (e : Fin 16) (s : State) : Out := ran (peNop e.val) s
def execDelay (e : Fin 16) (s : State) : Out := ran (peDelay e.val) s
def execDelayEnd (e : Fin 16) (s : State) : Out := ran (peDelayEnd e.val) s
def execWait (e : Fin 16) (pins : Byte) (s : State) : Out := ran (peWait e.val pins) s
def execPeWaitRelease (e : Fin 16) (pins : Byte) (s : State) : Out := ran (peWaitRelease e.val pins) s
def execPeWaitTimeout (e : Fin 16) (pins : Byte) (s : State) : Out := ran (peWaitTimeout e.val pins) s
def execDrive (e : Fin 16) (s : State) : Out := ran (peDrive e.val) s
def execEmit (e : Fin 16) (pins : Byte) (s : State) : Out := ran (peEmit e.val pins) s
def execSample (e : Fin 16) (pins : Byte) (s : State) : Out := ran (peSample e.val pins) s
def execFetch (e : Fin 16) (s : State) : Out := ran (peFetch e.val) s
def execDeposit (e : Fin 16) (s : State) : Out := ran (peDeposit e.val) s
def execBranch (e : Fin 16) (pins : Byte) (s : State) : Out := ran (peBranch e.val pins) s
def execSetlc (e : Fin 16) (s : State) : Out := ran (peSetlc e.val) s
def execLoop (e : Fin 16) (s : State) : Out := ran (peLoop e.val) s
def execSignal (e : Fin 16) (s : State) : Out := ran (peSignal e.val) s

def execTxdWrite (e : Fin 16) (word : BitVec 32) (s : State) : Out := ran (txdWrite e.val word) s

/-- RXD_READ: the host port delivers the word (R335). -/
def execRxdRead (e : Fin 16) (s : State) : Out :=
  ran (fun l =>
    if !unitUp (peUnit e.val) l then l
    else
      let r := rxdRead e.val l
      { r.2 with host := { r.2.host with lastRead := bytesLE 4 r.1.toNat } }) s

def execPeFlagSet (e : Fin 16) (mask : Byte) (s : State) : Out := ran (peSetFlags e.val mask) s
def execPeFlagClear (e : Fin 16) (mask : Byte) (s : State) : Out := ran (peClearFlags e.val mask) s
def execFlush (e : Fin 16) (s : State) : Out := ran (peFlush e.val) s
def execForceSwap (e : Fin 16) (s : State) : Out := ran (peForceSwap e.val) s
def execBankSwap (e : Fin 16) (s : State) : Out := ran (peBankSwap e.val) s

def execPeReadback (e : Fin 16) (j : Fin 8) (level : Bool) (s : State) : Out := ran (peReadback e.val j.val level) s

end Sys2Proof.Machine
end

