-- ==== Sys2Proof/Machine/Operands.lean ====
section
/-! DEFINITION. What a microword works on: its fields, the state words and registers of a channel, every operand source, every ALU
operation with its flags, and every condition (R111, R126–R142). The results of the ALU and the conditions are pure functions of
their operands. -/

namespace Sys2Proof.Machine

open Sys2Proof

/-! ### Fields of a microword (R126, R128) -/

def mwConst (w : Microword) : Nat := field w.toNat 127 96
def mwFine (w : Microword) : BitVec 6 := BitVec.ofNat 6 (field w.toNat 92 87)
def mwBit (w : Microword) (i : Nat) : Bool := w.getLsbD i
def mwLink (w : Microword) : Nat := field w.toNat 82 79
def mwFclr (w : Microword) : Byte := BitVec.ofNat 8 (field w.toNat 78 71)
def mwFset (w : Microword) : Byte := BitVec.ofNat 8 (field w.toNat 70 63)
def mwPact (w : Microword) : Nat := field w.toNat 62 59
def mwTact (w : Microword) : Nat := field w.toNat 58 55
def mwSwr (w : Microword) : Bool := w.getLsbD 54
def mwSrd (w : Microword) : Bool := w.getLsbD 53
def mwSaddr (w : Microword) : Nat := field w.toNat 52 48
def mwWid (w : Microword) : Nat := field w.toNat 47 46
def mwDsel (w : Microword) : Nat := field w.toNat 45 41
def mwBsel (w : Microword) : Nat := field w.toNat 40 36
def mwAsel (w : Microword) : Nat := field w.toNat 35 31
def mwAop (w : Microword) : Nat := field w.toNat 30 27
def mwCommit (w : Microword) : Bool := w.getLsbD 26
def mwWto (w : Microword) : Nat := field w.toNat 25 22
def mwWait (w : Microword) : Bool := w.getLsbD 21
def mwCpol (w : Microword) : Bool := w.getLsbD 20
def mwCond (w : Microword) : Nat := field w.toNat 19 14
def mwNsel (w : Microword) : Nat := field w.toNat 13 12
def mwNaddr (w : Microword) : BitVec 12 := BitVec.ofNat 12 (field w.toNat 11 0)

/-- PAR of a word: bit i is the exclusive-OR of slice i (R128). -/
def sliceParity (v : Nat) : Bool := (List.range 16).foldl (fun a i => a != v.testBit i) false
def parityOf (w : Microword) : Byte := BitVec.ofNat 8 (maskOf ((List.range 8).map (fun i => sliceParity (field w.toNat (16 * i + 15) (16 * i)))))

/-- A word that obeys R127. -/
def wordAllowed (w : Microword) : Bool := field w.toNat 95 93 = 0

/-- Bits of a width code (R126). -/
def widBits (wid : Nat) : Nat := match wid with
  | 0 => 16
  | 1 => 32
  | 2 => 48
  | _ => 64

/-! ### Control stores (R123, R128, R131) -/

/-- A word with PAR computed by R128. -/
def withParity (w : Microword) : Microword × Byte := (w, parityOf w)

/-- A word of the writable store. -/
def storeWordAt (l : Live) (k addr : Nat) : Microword × Byte := (l.cluster k).store.get (0, 0) addr

/-- Function entries of the ROM (R131). -/
def romEntry (f : Nat) : Nat :=
  nth 0x800 [0x820, 0x850, 0x890, 0x8C0, 0x910, 0x960, 0x9C0, 0xA20, 0xA60, 0xAD0, 0xB00, 0xB50] f

/-- The ROM function whose entry an address is. -/
def romFunctionAt (addr : Nat) : Option Nat := (List.range 12).find? (fun f => romEntry f = addr)

/-- A ROM word: the dispatch path of R131, else unspecified contents. -/
def romWordAt (addr : Nat) : Microword :=
  if addr = 0x800 then BitVec.ofNat 128 (2 * 2 ^ 12 + 0x810)
  else if 0x810 ≤ addr ∧ addr < 0x81C then BitVec.ofNat 128 (romEntry (addr - 0x810))
  else if 0x81C ≤ addr ∧ addr < 0x820 then BitVec.ofNat 128 (addr - 0x81C)
  else Config.romWord addr

/-- The word that a fetch delivers, with its parity bits: a reserved address gives a word with bad parity (R123). -/
def microFetch (l : Live) (k addr : Nat) : Microword × Byte :=
  if addr < 0x800 then storeWordAt l k addr
  else if addr < 0xC00 then withParity (romWordAt addr)
  else (Config.romWord addr, parityOf (Config.romWord addr) ^^^ 1)

/-! ### State words (R95, R111, R141) -/

/-- Parameter words of a ROM function: SW00 up (ROM library). -/
def paramWords (func : Nat) : Nat := match func with
  | 0 | 1 | 2 | 3 => 3
  | 4 => 5
  | 5 => 8
  | 6 => 5
  | 7 => 4
  | 8 => 6
  | 9 => 4
  | 10 | 11 => 2
  | _ => 16

/-- Result words of a ROM function: SW08 up (ROM library). -/
def romResults (func : Nat) : Nat := match func with
  | 1 | 2 | 8 => 3
  | 7 => 1
  | _ => 2

/-- The microcode image that a copy holds (R151). -/
def microCopy (l : Live) (copy : Byte) : List Byte :=
  if copy = 0 then l.mram.microA else if copy = 1 then l.mram.microB else []

/-- SWi of a channel with function f is a result word: by the ROM library, or by the result mask of the image that was loaded into its
cluster (R141). -/
def isResultOf (l : Live) (f c i : Nat) : Bool :=
  if f < 12 then decide (8 ≤ i ∧ i < 8 + romResults f)
  else bitOf (nth 0 (l.cluster (c / 64)).masks (f - 12)) i

/-- SWi of a channel is a result word. -/
def isResult (l : Live) (c i : Nat) : Bool := isResultOf l (l.chan c).func.toNat c i

/-- State word i of channel c as it stands: private and result words as written, parameter words as committed; words of SW00–SW15
that a ROM function does not list read 0 (R111). -/
def stateWord (l : Live) (c i : Nat) : Word :=
  let x := l.chan c
  if 16 ≤ i || isResult l c i then x.sw.get 0 i
  else if x.func.toNat < 12 && decide (paramWords x.func.toNat ≤ i) then 0
  else BitVec.ofNat 64 (committedWord l c i)

/-! ### CCTL, CROUTE, PINS (R95, R96) -/

/-- The mode as bits [25:14] of CCTL, MAEN and MBEN included. -/
def modeBits (m : Mode) (ma mb : Bool) : Nat :=
  m.maact.toNat * 2 ^ 24 + m.mbact.toNat * 2 ^ 22 + m.caedge.toNat * 2 ^ 20 + m.cbedge.toNat * 2 ^ 18 + b2n m.fifoen * 2 ^ 17
    + b2n m.outlnk * 2 ^ 16 + b2n ma * 2 ^ 15 + b2n mb * 2 ^ 14

/-- The mode fields that a word carries in [25:16] (R96, R146). -/
def modeOf (v : Nat) : Mode :=
  { maact := BitVec.ofNat 2 (field v 25 24), mbact := BitVec.ofNat 2 (field v 23 22), caedge := BitVec.ofNat 2 (field v 21 20),
    cbedge := BitVec.ofNat 2 (field v 19 18), fifoen := bitOf v 17, outlnk := bitOf v 16 }

/-- CCTL with a mode and arm bits. -/
def cctlWord (l : Live) (c : Nat) (m : Mode) (ma mb : Bool) : Nat :=
  let x := l.chan c
  x.func.toNat * 2 ^ 28 + b2n x.en * 2 ^ 27 + l.cfg (0x2200 + c) 3 % 2 * 2 ^ 26 + modeBits m ma mb
    + b2n (l.flag (0x2200 + c) 6) * 2 ^ 13 + b2n (l.flag (0x2200 + c) 7) * 2 ^ 12 + l.cfg (0x2200 + c) 5 % 256

/-- Pin levels of a channel: OUT and the input after ININV (R122). -/
def pinLevels (x : Channel) : Nat := b2n x.out * 2 + b2n x.input

/-! ### A routine's view (R142) -/

/-- A match with a staged change applied. -/
def stagedMatch (s : Option MatchChange) (m : MatchVal) : MatchVal := match s with
  | some (.load v f) => { m with value := v, fine := f, en := true }
  | some (.loadOff v f) => { m with value := v, fine := f, en := false }
  | some .arm => { m with en := true }
  | some .disarm => { m with en := false }
  | none => m

def seenMa (x : Channel) (r : Routine) : MatchVal := stagedMatch r.staged.ma x.ma.cur
def seenMb (x : Channel) (r : Routine) : MatchVal := stagedMatch r.staged.mb x.mb.cur
def seenMode (x : Channel) (r : Routine) : Mode := r.staged.mode.getD x.mode
def seenFl (x : Channel) (r : Routine) : Byte := clrMask (x.fl ||| r.staged.fset) r.staged.fclr

/-- Head of the capture FIFO beyond the staged pops; where these have emptied it, the entry popped last without VALID (R103, R142). -/
def seenFifo (x : Channel) (r : Routine) : Word := match x.fifo.drop r.staged.pops with
  | e :: _ => setBit e 63
  | [] => (x.fifo.take r.staged.pops).getLast?.getD x.fifoLast

/-- A state word as the routine sees it. -/
def seenWord (l : Live) (c : Nat) (r : Routine) (i : Nat) : Word := match r.staged.sw.find? (fun e => e.1 = i) with
  | some e => e.2
  | none => stateWord l c i

/-- First TCLK of the ECLK in which a word reads its operands (R124). -/
def operandTclk (l : Live) : Nat := l.now / 2 * 2

/-- Operand source `sel` for the routine on channel c (R135). -/
def operand (l : Live) (k c : Nat) (r : Routine) (w : Microword) (sel : Nat) : Word :=
  let x := l.chan c
  let n := mwConst w
  match sel with
  | 0x01 => BitVec.ofNat 64 n
  | 0x02 => BitVec.ofInt 64 (toSigned 32 n)
  | 0x03 => BitVec.ofNat 64 (n * 2 ^ 32)
  | 0x04 => if mwSrd w then r.swRead else 0
  | 0x05 => (l.cluster k).tdata
  | 0x06 => BitVec.ofNat 64 (operandTclk l % 2 ^ 48)
  | 0x07 => r.start.setWidth 64
  | 0x10 => let m := seenMa x r; BitVec.ofNat 64 (m.fine.toNat * 2 ^ 48 + m.value.toNat)
  | 0x11 => let m := seenMb x r; BitVec.ofNat 64 (m.fine.toNat * 2 ^ 48 + m.value.toNat)
  | 0x12 => r.capa.setWidth 64
  | 0x13 => r.capb.setWidth 64
  | 0x14 => r.lnkd
  | 0x15 => r.req.setWidth 64
  | 0x16 => seenFifo x r
  | 0x17 => x.ecnt.setWidth 64
  | 0x18 => BitVec.ofNat 64 (cctlWord l c (seenMode x r) (seenMa x r).en (seenMb x r).en)
  | 0x19 => (seenFl x r).setWidth 64
  | 0x1A => BitVec.ofNat 64 (pinLevels x)
  | 0x1B => BitVec.ofNat 64 c
  | s => if 0x08 ≤ s ∧ s ≤ 0x0F then nth 0 r.x (s - 8) else 0

/-! ### ALU (R137, R138) -/

/-- Result and flags of an ALU operation. -/
structure AluOut where
  result : Word
  z : Bool
  n : Bool
  c : Bool
  ah : Bool
  /-- DIV0, where the operation changes it. -/
  div0 : Option Bool
deriving DecidableEq, Repr

/-- The result of operation `op` on operands already cut to `bits` bits, before it is cut itself (R138). `sel` is c′. -/
def aluValue (op bits a b : Nat) (sel : Bool) : Nat := match op with
  | 0x0 => a
  | 0x1 => a + b
  | 0x2 => a + 2 ^ bits - b
  | 0x3 => a &&& b
  | 0x4 => a ||| b
  | 0x5 => a ^^^ b
  | 0x6 => if b % 64 < bits then a * 2 ^ (b % 64) else 0
  | 0x7 => if b % 64 < bits then a / 2 ^ (b % 64) else 0
  | 0x8 => ofSigned bits (toSigned bits a / (2 ^ (min (b % 64) bits) : Nat))
  | 0x9 => a % 2 ^ 32 * (b % 2 ^ 32)
  | 0xA => if b % 2 ^ 32 = 0 then 2 ^ bits - 1 else a / (b % 2 ^ 32)
  | 0xB => min a b
  | 0xC => max a b
  | 0xD => if a = 0 then 0 else ((List.range bits).find? (fun i => a.testBit i)).getD 0
  | 0xE => if sel then a else b
  | _ => a &&& (2 ^ bits - 1 - b)

/-- Operation `op` at width code `wid` (R137, R138). -/
def alu (op wid : Nat) (a b : Word) (sel : Bool) : AluOut :=
  let bits := widBits wid
  let x := a.toNat % 2 ^ bits
  let y := b.toNat % 2 ^ bits
  let v := aluValue op bits x y sel % 2 ^ bits
  let carry := if op = 0x1 then decide (2 ^ bits ≤ x + y) else if op = 0x2 then decide (x < y) else false
  { result := BitVec.ofNat 64 v, z := if op = 0xD then x = 0 else v = 0, n := bitOf v (bits - 1), c := carry,
    ah := op = 0x2 && aheadAt bits x y, div0 := if op = 0xA then some (decide (y % 2 ^ 32 = 0)) else none }

/-! ### Conditions (R132, R133) -/

/-- Tracker in SYNC or CYCLE-SYNC; in CYCLE-SYNC. -/
def wtSync (l : Live) (w : Nat) : Bool := (l.wheel w).state = .sync || (l.wheel w).state = .cycleSync
def wtCyc (l : Live) (w : Nat) : Bool := (l.wheel w).state = .cycleSync

/-- Conditions 0x18–0x2F of the routine on channel c. -/
def condChannel (l : Live) (k c : Nat) (r : Routine) (w : Microword) (b : Word) (code : Nat) : Bool :=
  let x := l.chan c
  match code with
  | 0x18 => x.input
  | 0x19 => x.out
  | 0x1A => (seenMa x r).en
  | 0x1B => (seenMb x r).en
  | 0x1C => decide (r.staged.pops < x.fifo.length)
  | 0x1D => (l.cluster k).tready
  | 0x1E => (l.cluster k).terr
  | 0x1F => r.lnkd.getLsbD 63
  | 0x28 => b.getLsbD (mwConst w % 64)
  | 0x29 => r.first
  | 0x2A => r.restart
  | 0x2B => r.protect
  | 0x2C => l.cfg (0x2200 + c) 3 = 1
  | 0x2D => x.dreq
  | 0x2E => freeEntries l = 0
  | 0x2F => bitOf x.cstat.toNat 7
  | n => decide (0x20 ≤ n ∧ n ≤ 0x27) && (seenFl x r).getLsbD (n - 0x20)

/-- Conditions 0x30–0x3F. -/
def condDevice (l : Live) (code : Nat) : Bool := match code with
  | 0x38 => l.time.disc = .locked
  | 0x39 => armed l
  | 0x3A => anyTripLatched l
  | n => if n < 0x34 then wtSync l (n - 0x30) else if n < 0x38 then wtCyc l (n - 0x34) else false

/-- The condition of a word before CPOL. `f` holds the flags that codes 0x01–0x04 use, `b` the B source at 64 bits. -/
def condition (l : Live) (k c : Nat) (r : Routine) (w : Microword) (f : AluOut) (b : Word) : Bool :=
  let code := mwCond w
  match code with
  | 0x00 => true
  | 0x01 => f.z
  | 0x02 => f.n
  | 0x03 => f.c
  | 0x04 => f.ah
  | 0x05 => r.div0
  | 0x06 => r.wtoExpired
  | 0x07 => r.committed
  | n =>
    if n < 0x10 then r.req.getLsbD (n - 8)
    else if n < 0x18 then (l.chan c).req.getLsbD (n - 0x10)
    else if n < 0x30 then condChannel l k c r w b n
    else condDevice l n

/-- The flags that the preceding word left. -/
def keptFlags (r : Routine) : AluOut := { result := r.result, z := r.z, n := r.n, c := r.c, ah := r.ah, div0 := none }

/-- c′: the condition after CPOL (R129). CPOL = 1 inverts (log entry 31). -/
def condPrime (l : Live) (k c : Nat) (r : Routine) (w : Microword) (f : AluOut) (b : Word) : Bool :=
  condition l k c r w f b != mwCpol w

end Sys2Proof.Machine
end

