-- ==== Sys2Proof/Machine/Dma.lean ====
section
/-! DEFINITION. Fabric reads and writes, DMA requests, bursts, descriptors, completion, disable and bus errors (R22, R23, R345–R358),
memory loading and the patrol scrubber (R24, R25, R359), and the commands DMA_REQUEST_TAKE to MEMORY_LOAD and PATROL_SCRUB. The
beats of a burst move in the step of DMA_BURST_DONE (log entry 32). -/

namespace Sys2Proof.Machine

open Sys2Proof

/-! ### Direct registers of the pin engines (R335) -/

/-- Value of register `r` (0 TXD, 1 RXD, 2 STAT, 3 CTL) of an engine. Reading RXD whole pops it; in part it is left untouched, and what
its bytes read is free (log entry 37). -/
def peReadReg (e r : Nat) (whole : Bool) (l : Live) : Nat × Live := match r with
  | 1 => if whole then let t := rxdRead e l; (t.1.toNat, t.2) else let t := drawFree l; (t.1.toNat % 2 ^ 32, t.2)
  | 2 => ((l.pe e).statWord, l)
  | _ => (0, l)

/-- Registers from number `i` on (four per engine) that bytes [o, o + n) touch. -/
def peReadRegs (o n : Nat) : Nat → Nat → Live → List Byte × Live
  | 0, _, l => ([], l)
  | f + 1, i, l =>
    let whole := decide (o ≤ 4 * i ∧ 4 * i + 4 ≤ o + n)
    let t := if unitUp (peUnit (i / 4)) l then peReadReg (i / 4) (i % 4) whole l else (0, l)
    let u := peReadRegs o n f (i + 1) t.2
    (bytesLE 4 t.1 ++ u.1, u.2)

/-- A read of n bytes at offset o of the direct registers: each whole register acts once, in address order (R335). -/
def peReadAt (o n : Nat) (l : Live) : List Byte × Live :=
  let r := peReadRegs o n ((o % 4 + n + 3) / 4) (o / 4) l
  ((r.1.drop (o % 4)).take n, r.2)

/-- One whole register written. -/
def peWriteReg (e r v : Nat) (l : Live) : Live :=
  if !unitUp (peUnit e) l then l
  else match r with
    | 0 => txdWrite e (BitVec.ofNat 32 v) l
    | 2 => peW1c e v l
    | 3 => peCtl e v l
    | _ => l

/-- A write of bytes at offset o: each register that is fully covered acts, in address order (R335). -/
def peWriteAt (o : Nat) (b : List Byte) (l : Live) : Live :=
  let first := (o + 3) / 4
  let last := (o + b.length) / 4
  forAll (fun i l => peWriteReg (i / 4) (i % 4) (fieldLE b (4 * i - o) 4) l) ((List.range last).filter (fun i => first ≤ i)) l

/-! ### Fabric accesses (R22, R23) -/

/-- Region 1 (channel state): word i of channel c at 256 × c + 8 × i; region 2: entry e at 16 × e (log entry 34). -/
def regionByte (l : Live) (a : Nat) : Option Nat :=
  if 0x00200000 ≤ a ∧ a < 0x00220000 then
    let o := a - 0x00200000
    some (field (stateWord l (o / 256) (o / 8 % 32)).toNat (8 * (o % 8) + 7) (8 * (o % 8)))
  else if 0x00220000 ≤ a ∧ a < 0x00230000 then
    let o := a - 0x00220000
    some (nth 0 ((listedEntry l (o / 16)).drop 2) (o % 16)).toNat
  else none

/-- Eight bytes of regions 1 and 2. -/
def regionRead (l : Live) (a : Nat) : Option Word :=
  ((List.range 8).foldr (fun i (acc : Option Nat) => match acc, regionByte l (a + i) with
    | some v, some b => some (b + 256 * v)
    | _, _ => none) (some 0)).map (BitVec.ofNat 64)

/-- The capture register of a feedback port (R346). -/
def captureReg (p : Port) (second : Bool) : Word :=
  if second then p.posDtime
  else BitVec.ofNat 64 (b2n p.capValid * 2 ^ 63 + p.capTag.toNat * 2 ^ 48 + p.pos.toNat)

/-- A read of 8 bytes in the peripheral register space (R311, R335, R346). -/
def periRead (a : Nat) (l : Live) : Option (Word × Live) :=
  if 0x00850000 ≤ a ∧ a < 0x00850100 ∧ a % 64 = 0 then
    (if analogUp l then some (popAdcBeat ((a - 0x00850000) / 64) l) else none)
  else if 0x00860000 ≤ a ∧ a < 0x00860200 ∧ (a % 64 = 0 ∨ a % 64 = 8) then
    let n := (a - 0x00860000) / 64
    if portUp l n then some (captureReg (l.port n) (a % 64 = 8), l) else none
  else if 0x00870000 ≤ a ∧ a + 8 ≤ 0x00870100 then
    let o := a - 0x00870000
    if unitUp (peUnit (o / 16)) l && unitUp (peUnit ((o + 7) / 16)) l then
      let r := peReadAt o 8 l
      some (BitVec.ofNat 64 (ofBytesLE r.1), r.2)
    else none
  else none

/-- LPDDR4X answers accesses other than zeroing's own: MEM is out of reset and zeroing has ended (R458). -/
def lpddrOpen (l : Live) : Bool := domainUp .mem l && !l.log.zeroing

/-- A read of 8 bytes by DMA: none is an error response. Region 6 has no stated layout: a free value (log entry 34). -/
def fabricRead (a : Nat) (l : Live) : Option (Word × Live) :=
  if inTables a 8 || (inLpddr l a 8 && lpddrOpen l) then some (BitVec.ofNat 64 (ofBytesLE (readBytes l.mem a 8)), l)
  else if 0x00240000 ≤ a ∧ a + 8 ≤ 0x00280000 then some (drawFree l)
  else match regionRead l a with
    | some w => some (w, l)
    | none => periRead a l

/-- A write of 8 bytes in the peripheral register space. A write into the control space of the DMA unit is accepted, and acts at the
end of the TCLK as a write by the host would (R351; log entry 34). -/
def periWrite (a : Nat) (w : Word) (l : Live) : Option Live :=
  if 0x00840000 ≤ a ∧ a < 0x00840600 ∧ a % 64 = 0 then
    (if unitUp 0x10 l then some (streamBeat ((a - 0x00840000) / 64) w l) else none)
  else if 0x00870000 ≤ a ∧ a + 8 ≤ 0x00870100 then
    let o := a - 0x00870000
    if unitUp (peUnit (o / 16)) l && unitUp (peUnit ((o + 7) / 16)) l then some (peWriteAt o (bytesLE 8 w.toNat) l) else none
  else if 0x00880000 ≤ a ∧ a + 8 ≤ 0x00890000 then some { l with dmaPosted := l.dmaPosted ++ [(a, w)] }
  else none

/-- A write of 8 bytes by DMA: none is an error response. The ring is closed while the log is enabled (R364). -/
def fabricWrite (a : Nat) (w : Word) (l : Live) : Option Live :=
  if inTables a 8 || (inLpddr l a 8 && lpddrOpen l && !(l.logOn && inRing l a 8)) then
    some { l with mem := writeBytes l.mem a (bytesLE 8 w.toNat) }
  else periWrite a w l

/-! ### Descriptors (R349, R350) -/

/-- A field of a descriptor. -/
def descField (d : List Byte) (hi lo : Nat) : Nat := field (ofBytesLE (slice d 0 32)) hi lo

def descOp (d : List Byte) : Nat := descField d 161 160
def descCount (d : List Byte) : Nat := descField d 159 128
def descNext (d : List Byte) : Nat := descField d 231 192
def descBeats (d : List Byte) : Nat := descField d 167 162 + 1
def descSfix (d : List Byte) : Bool := descField d 168 168 = 1
def descDfix (d : List Byte) : Bool := descField d 169 169 = 1
def descFence (d : List Byte) : Bool := descField d 170 170 = 1
def descIrq (d : List Byte) : Bool := descField d 171 171 = 1
def descLog (d : List Byte) : Bool := descField d 172 172 = 1
def descChain (d : List Byte) : Bool := descField d 173 173 = 1

/-- Peripheral register space (R22). -/
def inPeri (a : Nat) : Bool := decide (0x00800000 ≤ a ∧ a < 0x01000000)

/-- Addresses that R22 permits for reading and for writing. -/
def mayRead (l : Live) (a : Nat) : Bool :=
  inTables a 8 || inLpddr l a 8 || inPeri a || decide (0x00200000 ≤ a ∧ a + 8 ≤ 0x00280000 ∧ ¬(0x00230000 ≤ a ∧ a < 0x00240000))
def mayWrite (l : Live) (a : Nat) : Bool := inTables a 8 || inLpddr l a 8 || inPeri a

/-- A descriptor lies in region 7 or LPDDR4X on a 32-byte boundary (R349). -/
def mayFetch (l : Live) (a : Nat) : Bool := a % 32 = 0 && (inTables a 32 || inLpddr l a 32)

/-- R350: the descriptor is accepted. -/
def descOk (l : Live) (d : List Byte) : Bool :=
  let op := descOp d
  let src := descField d 63 0
  let dst := descField d 103 64
  let n := descCount d
  descField d 255 232 = 0 && descField d 191 174 = 0 && descField d 127 104 = 0 && op ≠ 3
    && n % 8 = 0 && decide (8 ≤ n) && dst % 8 = 0
    && (op = 1 || (decide (src < 2 ^ 40) && mayRead l src))
    && (if op = 2 then mayRead l dst else mayWrite l dst)
    && (!descChain d || mayFetch l (descNext d))

/-- A descriptor is loaded. -/
def loadDesc (d : List Byte) (addr : Nat) (x : DmaChannel) : DmaChannel :=
  { x with desc := d, descAddr := BitVec.ofNat 40 addr, remaining := BitVec.ofNat 32 (descCount d), src := descField d 63 0,
           dst := descField d 103 64, fetching := false, fencing := false, burst := none }

/-! ### Requests (R346, R347, R353) -/

def dmaSelect (l : Live) (c : Nat) : Nat := l.cfg (0x2A00 + c) 1
/-- Channel that CRLn follows. -/
def crlChannel (l : Live) (n : Nat) : Nat := l.cfg 0x2A20 (1 + n)

/-- Level of a request line. A unit held in reset has withdrawn its lines (R457). -/
def requestLine (l : Live) (n : Nat) : Bool :=
  if n < 24 then unitUp 0x10 l && (l.pair n).request
  else if n < 28 then analogUp l && adcLine l (n - 24)
  else if n < 36 then portUp l (n - 28) && (l.port (n - 28)).capReq
  else if n < 52 then unitUp (peUnit (n - 36)) l && decide ((l.pe (n - 36)).tx.length < 8)
  else if n < 68 then unitUp (peUnit (n - 52)) l && !(l.pe (n - 52)).rx.isEmpty
  else
    let c := crlChannel l (n - 68)
    decide (c < 512) && clusterUp l (c / 64) && (l.chan c).dreq

/-- A channel's request is present. -/
def requestPresent (l : Live) (c : Nat) : Bool :=
  let s := dmaSelect l c
  (l.dc c).soft || s = 0xFF || (decide (s < 96) && requestLine l s)

/-- The DMA unit runs (block code 0x40, R456). -/
def dmaUp (l : Live) : Bool := unitUp 0x40 l

/-- The channel looks at its request and finds it (R347). A descriptor that was never written moves nothing (log entry 33). -/
def dmaReady (l : Live) (c : Nat) : Bool :=
  let x := l.dc c
  let looks := match x.endAt with
    | some t => decide (t / 2 + 1 ≤ l.now / 2)
    | none => true
  dmaUp l && x.state = .running && x.burst.isNone && !x.fetching && !x.fencing && looks && x.remaining ≠ 0 && requestPresent l c

/-- Bursts in flight. -/
def burstsInFlight (l : Live) : Nat := ((List.range 32).filter (fun c => (l.dc c).burst.isSome)).length

def dmaPriority (l : Live) (c : Nat) : Nat := l.cfg (0x2A00 + c) 2

/-- Places from the channel served last in a level to another, by channel number: that one stands last. -/
def dmaTurn (l : Live) (c : Nat) : Nat := (c + 31 - l.dmaLast.get 31 (dmaPriority l c)) % 32

/-- A ready channel goes before another: it has the higher priority, or within its level its turn comes first (R353). -/
def dmaBefore (l : Live) (d c : Nat) : Bool :=
  decide (dmaPriority l c < dmaPriority l d) || (dmaPriority l c = dmaPriority l d && decide (dmaTurn l d < dmaTurn l c))

/-- Of the ready channels, more go first than there are places free (R353). -/
def outranked (l : Live) (c : Nat) : Bool :=
  let ready := (List.range 32).filter (dmaReady l)
  decide (16 < burstsInFlight l + ready.length) && ready.any (fun d => dmaBefore l d c)

/-- A line whose burst is taken falls: feedback capture, channel request (R346). -/
def dropLine (n : Nat) (l : Live) : Live :=
  if 28 ≤ n ∧ n < 36 then l.updPort (n - 28) (fun p => { p with capReq := false })
  else if 68 ≤ n ∧ n < 96 ∧ crlChannel l (n - 68) < 512 then l.updChan (crlChannel l (n - 68)) (fun x => { x with dreq := false })
  else l

/-- DMA_REQUEST_TAKE: one burst starts; a pending software request is served before the line (R347). -/
def dmaTake (c : Nat) (l : Live) : Live :=
  if !dmaReady l c || decide (16 ≤ burstsInFlight l) || outranked l c then l
  else
    let x := l.dc c
    let n := min (8 * descBeats x.desc) x.remaining.toNat
    let l := { l.setDc c { x with burst := some n, soft := false } with dmaLast := l.dmaLast.put 31 (dmaPriority l c) c }
    if x.soft then l else dropLine (dmaSelect l c) l

/-! ### Bus errors, completion (R351, R354, R355, R357) -/

/-- The channel halts on an error response (R357): direction 0 read, 1 write, 2 descriptor, 3 fence. -/
def dmaHalt (c dir a : Nat) (l : Live) : Live :=
  let x := l.dc c
  let st := setBit (clrMask x.status 0xC0 ||| BitVec.ofNat 8 (dir * 64)) 1
  let x := { x with state := .halted, status := st, failAddr := BitVec.ofNat 40 a, busCnt := x.busCnt + 1 }
  let x := { x with burst := none, fetching := false, fencing := false }
  let src := 0x8000 + 0x40 * c + (if dir = 1 then 2 else 1)
  reportFault src 0x60 ((dir + 1) * 2 ^ 24 + x.descCnt.toNat % 2 ^ 24) 0xFF02 (noteBit (0x3A00 + c) 2 1 (l.setDc c x))

/-- Completion of a descriptor: counter, DONE, record (R354). -/
def dmaCompleted (c : Nat) (l : Live) : Live :=
  let x := l.dc c
  let x := { x with descCnt := x.descCnt + 1, fencing := false }
  let l := if descIrq x.desc then noteBit (0x3A00 + c) 2 0 (l.setDc c { x with status := setBit x.status 0 }) else l.setDc c x
  if descLog x.desc then writeRecord (0x8000 + 0x40 * c) 0x61 (x.descCnt.toNat % 2 ^ 24) l else l

/-- Completion, then the chain's fetch or the stop (R354, R355). -/
def dmaFinish (c : Nat) (l : Live) : Live :=
  let l := dmaCompleted c l
  l.updDc c (fun x => if descChain x.desc then { x with fetching := true } else { x with state := .stopped })

/-- How a run of beats ended. -/
inductive BeatEnd where
  | done
  | mismatch (a : Nat)
  | error (dir a : Nat)
deriving DecidableEq, Repr

/-- Addresses and remaining count after one beat. -/
def beatMoved (x : DmaChannel) : DmaChannel :=
  { x with remaining := x.remaining - 8, src := if descSfix x.desc then x.src else x.src + 8,
           dst := if descDfix x.desc then x.dst else x.dst + 8 }

/-- A read of a beat with the errors that it finds: a double-bit error is answered with an error response (R24). -/
def beatRead (es : EccWords) (a : Nat) (l : Live) : Option Word × Live :=
  if (regionAt l a).isSome && doubleAt es a then (none, readErrors es a 8 l)
  else match fabricRead a l with
    | some (w, l) => (some w, readErrors es a 8 l)
    | none => (none, l)

/-- One beat of the burst (R351). -/
def dmaBeat (es : EccWords) (c : Nat) (l : Live) : BeatEnd × Live :=
  let x := l.dc c
  let ok := fun (l : Live) => (BeatEnd.done, l.updDc c beatMoved)
  match descOp x.desc with
  | 0 => match beatRead es x.src l with
    | (none, l) => (.error 0 x.src, l)
    | (some w, l) => match fabricWrite x.dst w l with
      | none => (.error 1 x.dst, l)
      | some l => ok l
  | 1 => match fabricWrite x.dst (BitVec.ofNat 64 (descField x.desc 63 0)) l with
    | none => (.error 1 x.dst, l)
    | some l => ok l
  | _ => match beatRead es x.src l with
    | (none, l) => (.error 0 x.src, l)
    | (some a, l) => match beatRead es x.dst l with
      | (none, l) => (.error 0 x.dst, l)
      | (some b, l) => if a = b then ok l else (.mismatch x.dst, l)

/-- The errors that a beat leaves to be found: a corrected word has been written back (R24). -/
def errorsLeft (x : DmaChannel) (es : EccWords) : EccWords :=
  es.filter (fun e => decide (e.1.toNat ≠ x.src) && (descOp x.desc ≠ 2 || decide (e.1.toNat ≠ x.dst)))

/-- Up to n beats, until one fails. -/
def dmaBeats (c : Nat) : Nat → EccWords → Live → BeatEnd × Live
  | 0, _, l => (.done, l)
  | n + 1, es, l => match dmaBeat es c l with
    | (.done, l') => dmaBeats c n (errorsLeft (l.dc c) es) l'
    | r => r

/-- A compare beat differs: MISMATCH, completion, no chain (R351). -/
def dmaMismatch (c a : Nat) (l : Live) : Live :=
  let l := (noteBit (0x3A00 + c) 2 2 l).updDc c (fun x => { x with status := setBit x.status 2, failAddr := BitVec.ofNat 40 a, burst := none })
  let l := dmaCompleted c l
  let l := l.updDc c (fun x => { x with state := .stopped })
  writeRecord (0x8000 + 0x40 * c) 0x60 (5 * 2 ^ 24 + (l.dc c).descCnt.toNat % 2 ^ 24) l

/-- DMA_BURST_DONE: the beats of the burst in flight move; the descriptor completes with its last one (R351, R354). -/
def dmaBurstDone (c : Nat) (es : EccWords) (l : Live) : Live :=
  if !awake l then l else
  match (l.dc c).burst with
  | none => l
  | some n => match dmaBeats c (n / 8) es l with
    | (.error dir a, l) => dmaHalt c dir a l
    | (.mismatch a, l) => dmaMismatch c a l
    | (.done, l) =>
      let l := l.updDc c (fun x => { x with burst := none, endAt := some l.now })
      let x := l.dc c
      if x.remaining ≠ 0 then l
      else if descFence x.desc && descOp x.desc ≠ 2 then l.setDc c { x with fencing := true }
      else dmaFinish c l

/-- Address that a fence reads: the last one written. -/
def fenceAddr (x : DmaChannel) : Nat := if descDfix x.desc then x.dst else x.dst - 8

/-- FENCE_READ_DONE: the last address written has been read back (R354). -/
def dmaFenceDone (c : Nat) (es : EccWords) (l : Live) : Live :=
  let a := fenceAddr (l.dc c)
  if !(awake l && (l.dc c).fencing) then l
  else if (regionAt l a).isSome && doubleAt es a then dmaHalt c 3 a (readErrors es a 8 l)
  else dmaFinish c (readErrors es a 8 l)

/-- DESCRIPTOR_FETCH_DONE: the chained descriptor is loaded, or halts the channel (R350, R355). -/
def dmaFetched (c : Nat) (es : EccWords) (l : Live) : Live :=
  let x := l.dc c
  let a := descNext x.desc
  let d := readBytes l.mem a 32
  if !(awake l && x.fetching) then l
  else if !(mayFetch l a && (inTables a 32 || lpddrOpen l)) then dmaHalt c 2 a l
  else
    let l := readErrors es a 32 l
    if (List.range 4).any (fun i => doubleAt es (a + 8 * i)) || !descOk l d then dmaHalt c 2 a l else l.setDc c (loadDesc d a x)

/-- DMA_BUS_ERROR: an error response to beat `beat` of the burst in flight, for a compare to its read at SRC or to its `second` one, at
DST, or to the fetch or fence read in progress. An error on a read of a permitted memory address comes from a double-bit error
(R24, R357). -/
def dmaBusError (c dir beat : Nat) (second : Bool) (l : Live) : Live :=
  let x := l.dc c
  if !awake l then l
  else if dir = 2 then (if x.fetching then dmaHalt c 2 (descNext x.desc) (doubleBit (descNext x.desc) l) else l)
  else if dir = 3 then (if x.fencing then dmaHalt c 3 (fenceAddr x) (doubleBit (fenceAddr x) l) else l)
  else match x.burst with
    | none => l
    | some n =>
      if n / 8 ≤ beat || (dir = 0 && descOp x.desc = 1) || (dir = 1 && descOp x.desc = 2)
          || (second && !(dir = 0 && descOp x.desc = 2)) then l
      else match dmaBeats c beat [] l with
        | (.error d a, l) => dmaHalt c d a l
        | (.mismatch a, l) => dmaMismatch c a l
        | (.done, l) =>
          let y := l.dc c
          let a := if second then y.dst else y.src
          if dir = 0 then dmaHalt c 0 a (doubleBit a l) else dmaHalt c 1 y.dst l

/-! ### Commands of the dictionary (R352, R356, R357) -/

/-- The first descriptor as committed. -/
def firstDesc (l : Live) (c : Nat) : List Byte := slice (l.val (key (0x2A00 + c) 3)).toBytes 0 32

/-- Start: the first descriptor is loaded and the descriptor counter starts at 0 (R352). -/
def dmaBegin (c : Nat) (l : Live) : Live :=
  l.updDc c (fun x => { loadDesc (firstDesc l c) 0 x with state := .running, descCnt := 0, endAt := none })

/-- Command 1. -/
def dmaStart (c : Nat) (l : Live) : Live × Nat :=
  if (l.dc c).state = .running then (l, abState) else if dmaUp l then (dmaBegin c l, 0) else (l, 0)

/-- The values that are undefined after a disable (R356). -/
def dmaUndefine (c : Nat) (l : Live) : Live :=
  let r := drawFree l
  let s := drawFree r.2
  let t := drawFree s.2
  let u := drawFree t.2
  u.2.updDc c (fun x => { x with remaining := r.1.setWidth 32, descCnt := s.1.setWidth 32, src := t.1.toNat % 2 ^ 40,
                                 dst := u.1.toNat % 2 ^ 40 })

/-- Beats of the burst in flight that their targets had accepted: how many is open (R356). -/
def dmaCutBurst (c : Nat) (l : Live) : Live := match (l.dc c).burst with
  | none => l
  | some n =>
    let r := drawFree l
    (dmaBeats c (r.1.toNat % (n / 8 + 1)) [] r.2).2

/-- Command 2 (R356). -/
def dmaDisable (c : Nat) (l : Live) : Live :=
  let flight := (l.dc c).burst.isSome
  let l := dmaUndefine c (dmaCutBurst c l)
  let l := if flight then noteBit (0x3A00 + c) 2 4 l else l
  l.updDc c (fun x => { x with state := .disabled, burst := none, fetching := false, fencing := false, soft := false,
                               status := if flight then setBit x.status 4 else x.status })

/-- Command 3: resumes from the failing beat; a failed fetch or fence read is made again (R357; log entry 35). -/
def dmaContinue (c : Nat) (l : Live) : Live :=
  l.updDc c (fun x => if x.state ≠ .halted then x
    else { x with state := .running, fetching := x.dir = 2, fencing := x.dir = 3, endAt := none })

/-- A software request; a further one is dropped (R347). -/
def dmaSoft (c : Nat) (l : Live) : Live :=
  if !dmaUp l then l
  else (if (l.dc c).soft then noteBit (0x3A00 + c) 2 3 l else l).updDc c (fun x => if x.soft then { x with status := setBit x.status 3, dropCnt := x.dropCnt + 1 } else { x with soft := true })

/-- Reset of WARM reach or wider, or BLOCK reset of the DMA unit (R358): as command 2; counters follow R85. -/
def dmaReset (l : Live) : Live :=
  forAll (fun c l =>
    let l := dmaCutBurst c l
    let x := l.dc c
    l.setDc c { busCnt := x.busCnt, dropCnt := x.dropCnt }) (List.range 32) { l with dmaLast := [] }

/-- The commit of R358 starts the channels with Autostart. -/
def dmaAutostart (l : Live) : Live :=
  forAll (fun c l => if l.flag (0x2A00 + c) 4 then dmaBegin c l else l) (List.range 32) l

/-- A commit of a CRL select clears the pending DREQ of the channel it leaves (R348). -/
def crlLeft (old : Nat) (l : Live) : Live := if old < 512 then l.updChan old (fun x => { x with dreq := false }) else l

/-! ### Memory load (R359) -/

/-- MEMORY_LOAD. A load into LPDDR4X that is being zeroed meets error responses and is aborted (log entry 38). -/
def memoryLoad (data : List Byte) (l : Live) : Live × Nat :=
  let n := data.length - 8
  let a := fieldLE data 0 8
  if data.length < 8 || n % 8 ≠ 0 || decide (65536 < n) then (l, abLength)
  else if a % 8 ≠ 0 || !(inTables a n || inLpddr l a n) || (l.logOn && inRing l a n) then (l, abRange)
  else if inLpddr l a n && !lpddrOpen l then (l, abState)
  else ({ l with mem := writeBytes l.mem a (data.drop 8) }, 0)

/-! ### Patrol scrubber (R24, R25) -/

/-- Size of a region in 8-byte words; 8 stands for LPDDR4X. -/
def regionWords (l : Live) (r : Nat) : Nat := match r with
  | 1 => 16384
  | 2 => 8192
  | 3 => 262144
  | 4 => 8192
  | 5 => 49152
  | 6 => 32768
  | 7 => 112640
  | 8 => l.rst.fittedMiB * 131072
  | _ => 0

/-- PATROL_SCRUB: a corrected error counts, a double-bit error is reported (R24). Region 0 has parity and its own scrubber. -/
def patrolScrub (r off : Nat) (ecc : EccResult) (l : Live) : Live :=
  if !(domainUp .mem l && awake l) || decide (regionWords l r ≤ off) then l
  else match ecc with
    | .clean => l
    | .single => countCorrected r l
    | .double => reportMemory (if r = 8 then 0xD040 else 0xD000 + r) off l

/-! ### Commands -/

def execDmaRequestTake (c : Fin 32) (s : State) : Out := ran (dmaTake c.val) s
def execDmaBurstDone (read : DmaRead) (s : State) : Out := ran (dmaBurstDone read.c.val read.ecc) s
def execFenceReadDone (read : DmaRead) (s : State) : Out := ran (dmaFenceDone read.c.val read.ecc) s
def execDescriptorFetchDone (read : DmaRead) (s : State) : Out := ran (dmaFetched read.c.val read.ecc) s
def execDmaBusError (c : Fin 32) (dir : BitVec 2) (beat : BurstBeat) (s : State) : Out :=
  ran (dmaBusError c.val dir.toNat beat.beat.val beat.second) s

def execDmaStart (conn : Conn) (c : Fin 32) (s : State) : Out :=
  ran (onObject conn (0x2A00 + c.val) 5 (dmaStart c.val)) s
def execDmaDisable (conn : Conn) (c : Fin 32) (s : State) : Out :=
  ran (onObject conn (0x2A00 + c.val) 5 (done (dmaDisable c.val))) s
def execDmaContinue (conn : Conn) (c : Fin 32) (s : State) : Out :=
  ran (onObject conn (0x2A00 + c.val) 5 (done (dmaContinue c.val))) s
def execDmaSoftwareRequest (conn : Conn) (c : Fin 32) (s : State) : Out :=
  ran (onObject conn (0x2A00 + c.val) 5 (done (dmaSoft c.val))) s

def execMemoryLoad (conn : Conn) (data : List Byte) (s : State) : Out :=
  ran (onObject conn 0x2A21 1 (memoryLoad data)) s

def execPatrolScrub (region : Fin 9) (offset : BitVec 28) (ecc : EccResult) (s : State) : Out :=
  ran (patrolScrub region.val offset.toNat ecc) s

end Sys2Proof.Machine
end

