-- ==== Sys2Proof/Machine/Reset.lean ====
section
/-! DEFINITION. What the assertion of a reset does: sources, reach and domains (R442–R446, R450), the state that TOTAL, COLD, WARM
and COMM reach leave (R59, R85, R91), and BLOCK reset of each block (R121, R228, R263, R296, R319, R321, R342, R358, R456, R457).
Release and start-up are in Startup.lean. -/

namespace Sys2Proof.Machine

open Sys2Proof

/-! ### Sources and reach (R442, R444) -/

/-- Reach of a source: 0 TOTAL, 1 COLD, 2 WARM, 3 COMM, 4 BLOCK. -/
def reachOf (src : Nat) : Nat := if src ≤ 3 then 0 else if src ≤ 7 then 1 else if src ≤ 12 then 2 else if src = 13 then 3 else 4

/-- The source is asserted deliberately. -/
def commanded (src : Nat) : Bool := !(src = 1 || src = 2 || src = 3 || src = 5 || src = 7 || src = 9 || src = 12)

/-- All domains, in the order of their release (R445). -/
def allDomains : List Domain := [.clk, .aon, .prot, .mem, .core, .comm]

/-- Domains that a reach resets. -/
def domainsOf (reach : Nat) : List Domain := match reach with
  | 0 | 1 => allDomains
  | 2 => [.prot, .core, .comm]
  | 3 => [.comm]
  | _ => []

/-- Numbers of the set bits of a word. -/
def bitsOf {w : Nat} (x : BitVec w) : List Nat := (List.range w).filter (fun i => x.getLsbD i)

/-- A source that is asserted reaches a domain. -/
def sourceHolds (l : Live) (d : Domain) : Bool := (bitsOf l.rst.asserted).any (fun s => (domainsOf (reachOf s)).contains d)

/-- FAULT_N is driven low (R451). -/
def faultLow (l : Live) : Bool :=
  l.rst.starting || l.rst.asserted.getLsbD 7 || bitOf l.rst.status.toNat 4
    || anyBelow 8 (fun k => anyMask (l.cluster k).status 0x60)

/-! ### State left by COMM reach -/

/-- Elements of a map with what a reset keeps of each. -/
def keepEach {α : Type} [DecidableEq α] (d : α) (f : α → α) (m : SMap α) : SMap α :=
  (m.map (fun e => (e.1, f e.2))).filter (fun e => decide (e.2 ≠ d))

/-- What COMM reset keeps of a bus: the event counters (R85) and what LSS has stored. -/
def keepBus (b : Bus) : Bus :=
  { rpdoFaultCnt := b.rpdoFaultCnt, hbTimeoutCnt := b.hbTimeoutCnt, emcyDropCnt := b.emcyDropCnt, nodeId := b.nodeId,
    storedCode := b.storedCode, lss := { nodeId := b.lss.nodeId, bitCode := b.lss.bitCode } }

/-- A connection is locked and its count of wrong keys is 0; a lockout lasts its 60 s (R394, R395; log entry 41). -/
def keepConn (c : ConnState) : ConnState := { lockEnd := c.lockEnd, answer := c.answer }

/-- Leaving OPERATIONAL disarms with cause 6 (R399). -/
def leaveOperational (l : Live) : Live := if l.net.nmt = nmtOp then disarm 6 l else l

/-- The COMM domain as a reset leaves it: the device leaves OPERATIONAL (R399) for INITIALISING, no transfer, no error list; any reset ends doze (R384). The rings of
the host port lie outside it (R418). -/
def commReset (l : Live) : Live :=
  let l := leaveOperational l
  let n := l.net
  let host := l.connSt 256
  let conns := keepEach {} keepConn (n.conns.filter (fun e => decide (e.1 < 256)))
  let host := { keepConn host with lastReq := host.lastReq, lastAlloc := host.lastAlloc }
  { l with net := { buses := keepEach {} keepBus n.buses, conns := SMap.put {} conns 256 host, key := n.key },
           doze := { l.doze with requested := false, asleep := false, waking := false } }

/-! ### State left by WARM reach (R59, R85, R91, R446) -/

/-- Base values of the time configuration that a WARM reset keeps (R91). -/
def timeKey (k : Key) : Bool :=
  (k / 256 = 0x2000 && 2 ≤ k % 256 && decide (k % 256 ≤ 0x0C)) || (k / 256 = 0x4000 && 0x20 ≤ k % 256 && decide (k % 256 ≤ 0x22))

/-- A cluster keeps its counters, and a ROM fault (R171). -/
def keepCluster (c : Cluster) : Cluster :=
  let x : Cluster := { runawayCnt := c.runawayCnt, mcCnt := c.mcCnt, abandonCnt := c.abandonCnt, protectCnt := c.protectCnt }
  let x := { x with scrubCnt := c.scrubCnt, status := c.status &&& 0x40 }
  if bitOf c.status.toNat 6 then { x with state := 2, status := c.status &&& 0x60 } else x

/-- A channel keeps its counters. -/
def keepChannel (c : Channel) : Channel := { ovfCnt := c.ovfCnt, lateCnt := c.lateCnt, linkCnt := c.linkCnt }

/-- A T-pin keeps the level at its ball and its counter; its output is in high impedance, the Winter state. -/
def keepTpin (t : TPin) : TPin := { level := t.level, shortCnt := t.shortCnt }

def keepTrip (t : TripInput) : TripInput := { cnt := t.cnt, refusedCnt := t.refusedCnt }
def keepInput (a : AnInput) : AnInput := { limitCnt := a.limitCnt, openCnt := a.openCnt, refusedCnt := a.refusedCnt }
def keepConv (c : Converter) : Converter := { status := c.status &&& 0x04, ovfCnt := c.ovfCnt, factors := c.factors }
def keepSeq (s : Sequence) : Sequence := { passCnt := s.passCnt, dropCnt := s.dropCnt, delayCnt := s.delayCnt }
def keepGroup (g : Group) : Group := { lateCnt := g.lateCnt, refusedCnt := g.refusedCnt }
def keepIrq (g : IrqGroup) : IrqGroup := { entryCnt := g.entryCnt }

/-- The reset controller's own state when a reset of WARM reach asserts: block resets end (R456), the self-test fault clears (R455). -/
def warmRst (r : ResetUnit) : ResetUnit :=
  { r with blocks := [], pulses := [], hostPulseAt := none, status := clrBit r.status 4, selfTest := 0, committed := false,
           selfTestDue := false, dueEmcy := [] }

/-- The configuration that a WARM reset leaves in force: that of the time unit (R91), and that of the log writer, which belongs to a domain
that it does not reset (R368, R444; log entry 55). -/
def warmKey (k : Key) : Bool := timeKey k || k / 256 = 0x2A40

/-- Units of CORE and PROT lose their process state but for the event counters (R85). -/
def warmUnits (l : Live) : Live :=
  let l := forAll wheelReset (List.range 4) (forAll portReset (List.range 8) l)
  let l := wipeEvents (dmaReset (forAll (peReset true) (List.range 16) l))
  let an : AnalogUnit := { inputs := keepEach {} keepInput l.analog.inputs, convs := keepEach {} keepConv l.analog.convs,
                           seqs := keepEach {} keepSeq l.analog.seqs, calTemp := l.analog.calTemp,
                           unset := unsetResult l }
  { l with groups := keepEach {} keepGroup l.groups, channels := keepEach {} keepChannel l.channels,
           tpins := keepEach {} keepTpin l.tpins, clusters := keepEach {} keepCluster l.clusters, micro := {},
           pairs := keepEach {} keepPair l.pairs, trips := keepEach {} keepTrip l.trips, analog := an,
           pwm := { disarmCnt := l.pwm.disarmCnt, refuseCnt := l.pwm.refuseCnt } }

/-- Staging begins to flush into the ring, unless the ring can take nothing (R368, R446). -/
def startFlush (l : Live) : Live :=
  if coreUp l && domainUp .mem l then
    let l := loseWaiting l
    { l with log := { l.log with flushing := true, startDue := none } }
  else l

/-- C of every tracker is that of the configuration now in force (R228). -/
def freshCycles (l : Live) : Live := forAll (fun w l => l.updWheel w (fun x => { x with cyc := revTicks l w })) (List.range 4) l

/-- A reset of WARM reach. Its pairs go to IDLE, the first row of R280 that applies, before the device leaves OPERATIONAL. -/
def warmLive (l : Live) : Live :=
  let l := commReset (warmUnits (startFlush (leaveOperational (pairsIdle l))))
  let c : ConfUnit := { gen := l.conf.gen, refusedCnt := l.conf.refusedCnt, objs := l.conf.objs.filter (fun e => warmKey e.1) }
  let h := l.host.stat &&& 0xFFFF0000
  let time := { l.time with ppsOut := false, ppsHiZ := true, ppsWarm := l.time.ppsWarm || !l.time.ppsHiZ }
  let snap : SnapUnit := { seq := l.snap.seq, taken := l.snap.taken, deferredCnt := l.snap.deferredCnt, wipe := true }
  let irq : IrqUnit :=
    { groups := keepEach {} keepIrq l.irq.groups, lstat := keepEach 0 (fun x => x &&& 0xFFFF0000) l.irq.lstat }
  freshCycles { l with conf := c, time := time, host := { stat := h }, doze := {}, snap := snap, irq := irq, rst := warmRst l.rst,
                       mem := wipeSpan l.mem tableBase (tableBase + tableSize) }

/-! ### State left by COLD and TOTAL reach (R59, R449, R450, R459–R463) -/

/-- What the reset controller, its record and the life-cycle cells keep. -/
def coldRst (total : Bool) (r : ResetUnit) : ResetUnit :=
  let x : ResetUnit := { r with held := allDomains, blocks := [], pulses := [], hostPulseAt := none, selfTest := 0, dieTemp := 0 }
  let x := { x with committed := false, selfTestDue := false, wdLast := 0, wdFirst := false, wdStage1 := [], outRange := 0 }
  let x := { x with sourceDue := none, dueEmcy := [], recorded := 0 }
  let x := { x with warmCnt := 0, blockCnt := 0, memError := false, corrected := [], status := clrMask r.status 0xFF18 }
  if total then { x with status := 0, lastBlock := 0xFFFF, sticky := r.sticky &&& 0xF } else x

/-- A reset of COLD or TOTAL reach: everything starts anew but MRAM, the cells, the reset record, and at COLD the journal queue, which
is written before AON is reset (R446; log entry 39). Answers already given stand. -/
def coldLive (total : Bool) (l : Live) : Live :=
  { time := { refselPin := l.time.refselPin }, mram := l.mram, freeIdx := l.freeIdx, rst := coldRst total l.rst,
    journal := { queue := if total then [] else l.journal.queue, newest := l.journal.newest }, snap := { wipe := true },
    mail := { stat := 8 }, net := { conns := keepEach {} (fun c => { answer := c.answer }) l.net.conns } }

/-! ### Assertion (R445, R446, R450) -/

/-- The record of a source's assertion. -/
def noteSource (src : Nat) (l : Live) : Live :=
  let r := l.rst
  let fresh := r.sources = 0
  let reach := reachOf src
  let last := if fresh then reach else min r.lastReach.toNat reach
  let old := if fresh then 0 else r.sources
  let srcs := if reach = 0 then setBit (old &&& 0xF) src else setBit old src
  let r := { r with asserted := setBit r.asserted src, sources := srcs, lastSources := srcs, sticky := setBit r.sticky src }
  let r := { r with srcAt := SMap.put 0 (if fresh then [] else r.srcAt) src l.now, lastReach := BitVec.ofNat 8 last }
  let r := { r with assertDtime := if last ≤ 1 then 0 else if fresh then l.time.dtime else r.assertDtime }
  let r := if fresh then { r with recorded := 0, genDone := false } else r
  { l with rst := { r with starting := r.starting || decide (reach ≤ 2) } }

/-- Holds domains. -/
def holdDomains (ds : List Domain) (l : Live) : Live :=
  { l with rst := { l.rst with held := allDomains.filter (fun d => l.rst.held.contains d || ds.contains d) } }

/-- A source asserts. One already asserted changes nothing; the domains it reaches are held, and lose their state where they were
out of reset. A TOTAL or COLD source always restarts AON's own state. -/
def assertSource (src : Nat) (l : Live) : Live :=
  if l.rst.asserted.getLsbD src then l else
  let l := noteSource src l
  let reach := reachOf src
  let ds := domainsOf reach
  let new := ds.any (fun d => domainUp d l)
  if reach ≤ 1 then coldLive (reach = 0) l
  else if !new then l
  else holdDomains ds (if reach = 2 then warmLive l else commReset l)

/-- A source no longer asserts. -/
def releaseSource (src : Nat) (l : Live) : Live := { l with rst := { l.rst with asserted := clrBit l.rst.asserted src } }

/-- A source inside the device asserts for the TCLK and no longer. -/
def pulseSource (src : Nat) (l : Live) : Live := releaseSource src (assertSource src l)

/-! ### Block reset (R456, R457) -/

/-- Source of a block code, none for a code of no block. -/
def blockSource (code : Nat) : Option Nat :=
  if code < 8 then some 16 else if code = 0x10 then some 17 else if code = 0x18 then some 18
  else if 0x20 ≤ code ∧ code < 0x28 then some 19 else if 0x28 ≤ code ∧ code < 0x2C then some 20
  else if 0x30 ≤ code ∧ code < 0x40 then some 21 else if code = 0x40 then some 22 else if code = 0x48 then some 23 else none

/-- BLOCK reset of a cluster (R109, R121, R175, R458): threads stop, T-pins take their failsafe levels, the channels' process state and
their request latches clear; the control store and the scrubber's position stay. -/
def clusterReset (k : Nat) (l : Live) : Live :=
  let c := l.cluster k
  let x : Cluster := { keepCluster c with state := 3, status := c.status &&& 0x60, store := c.store, copy := c.copy,
                                            masks := c.masks, tlost := c.tlost ++ c.tpend.toList }
  let x := { x with scrubPos := c.scrubPos, poisoned := c.poisoned, loadFault := c.loadFault }
  let chans := failsafeChans l k
  let l := forAll (fun i l => l.updChan (64 * k + i) keepChannel) (List.range 64) (l.setCluster k x)
  let l := forAll (goFailsafe 4) chans l
  { l with irq := { l.irq with latch := l.irq.latch.put 0 k 0 } }

/-- A claimed group at a BLOCK reset of the host port: IDLE or PENDING by its lines, without hold-off (R375). -/
def dropClaim (g : Nat) (l : Live) : Live :=
  let x := l.irqGroup g
  match x.state with
  | .active | .activePending =>
    if enabledLines l g = 0 then l.setIrqGroup g { x with state := .idle }
    else l.setIrqGroup g { x with state := .pending, entryCnt := x.entryCnt + 1 }
  | _ => l

/-- The host port's BLOCK reset (R375, R410, R418): 1S-1S-1S, both rings empty, the session closed, SESSION_LOST set. -/
def hostReset (l : Live) : Live :=
  let m : MailUnit := { stat := setBit (l.mail.stat &&& 0xFFFF0000) 3 }
  let l := { l with host := { stat := l.host.stat &&& 0xFFFF0000 }, mail := m }
  forAll dropClaim (List.range 40) (l.setConnSt 256 {})

/-- What a block loses and drives when its reset asserts. -/
def blockEffect (code : Nat) (l : Live) : Live :=
  if code < 8 then clusterReset code l
  else if code = 0x10 then pwmBlockReset l
  else if code = 0x18 then noCheck (analogReset l)
  else if code < 0x28 then portReset (code - 0x20) l
  else if code < 0x2C then wheelReset (code - 0x28) l
  else if code < 0x40 then peReset false (code - 0x30) l
  else if code = 0x40 then dmaReset l
  else hostReset l

/-- The record of a block reset (R450). -/
def blockRecord (src code : Nat) (l : Live) : Live :=
  let r := l.rst
  let r := { r with sticky := setBit r.sticky src, lastBlock := BitVec.ofNat 16 code, blockCnt := r.blockCnt + 1 }
  writeRecord (0xF000 + src) 0x70 (r.gen.toNat + 4 * 65536 + code * 2 ^ 24) { l with rst := r }

/-- A block reset asserts; an assert on a block already held has no effect (R456). -/
def assertBlock (code : Nat) (l : Live) : Live := match blockSource code with
  | some src =>
    if blockHeld l code || !coreUp l then l
    else
      let l := blockRecord src code (blockEffect code l)
      { l with rst := { l.rst with blocks := l.rst.blocks ++ [code] } }
  | none => l

end Sys2Proof.Machine
end

