-- ==== Sys2Proof/Machine/Threads.lean ====
section
/-! DEFINITION. Threads outside a routine's own words: abandonment, start of a function, stop of a channel and of a cluster, and what
commits of channel objects do (R113, R114, R154, R155, R161, R163, R164, R170, R492). -/

namespace Sys2Proof.Machine

open Sys2Proof

/-- The routine running on channel c. -/
def runOf (l : Live) (c : Nat) : Option Routine := match (l.cluster (c / 64)).run with
  | some r => if r.slot = c % 64 then some r else none
  | none => none

/-- The channel is in the HI lane. -/
def hiLane (l : Live) (c : Nat) : Bool := l.cfg (0x2200 + c) 3 = 1

/-- A table read in flight will complete, its data discarded (R140, R161). -/
def Cluster.loseRead (x : Cluster) : Cluster := { x with tpend := none, tlost := x.tlost ++ x.tpend.toList }

/-- The routine on channel c leaves the engine without a trace; a LO thread keeps its turn, and the data of a table read in flight
will be discarded (R156, R161). -/
def dropRoutine (c : Nat) (l : Live) : Live :=
  l.updCluster (c / 64) (fun x => { x.loseRead with run := none, kept := if hiLane l c then x.kept else some (c % 64) })

/-- An uncommitted routine of the channel is abandoned by a parameter commit, a protected one too: READY, not counted (R113, R164; log
entry 109). -/
def abandonByCommit (c : Nat) (l : Live) : Live := match runOf l c with
  | some r => if r.committed then l
    else (dropRoutine c l).updChan c (fun x => { x with thread := .ready, restart := true })
  | none => l

/-- The channel's slot no longer keeps a turn. -/
def forgetTurn (c : Nat) (l : Live) : Live :=
  l.updCluster (c / 64) (fun x => { x with kept := if x.kept = some (c % 64) then none else x.kept })

/-- A stop by Enable = 0 or Cluster enable = 0 (R109, R154, R164): an uncommitted routine is dropped, a committed one runs to END
first; T-pins go to failsafe with cause 1. -/
def stopChannel (c : Nat) (l : Live) : Live :=
  let l := match runOf l c with
    | some r => if r.committed then l
      else (dropRoutine c l).updChan c (fun x => { x with thread := .disabled, abandons := 0 })
    | none => l.updChan c (fun x => { x with thread := .disabled, abandons := 0 })
  goFailsafe 1 c (forgetTurn c (l.updChan c (fun x => { x with startDue := none })))

/-- The private words with which a ROM function starts. -/
def startWords (f : Nat) (x : Channel) : SMap Word :=
  if f = 0 ∨ f = 11 then SMap.put 0 [] 16 (x.ecnt.setWidth 64) else []

/-- The function of a channel starts (R114). A ROM function initialises its private words, disarms both matches, empties the capture
FIFO and clears its results. CAPTURE and LOGGER keep in SW16 the ECNT up to which they have counted. -/
def startNow (c : Nat) (l : Live) : Live :=
  let f := BitVec.ofNat 4 (l.cfg (0x2200 + c) 1)
  let l := match runOf l c with
    | some _ => dropRoutine c l
    | none => l
  let x := { l.chan c with en := true, func := f, thread := .ready, stored := 0x800, first := true, restart := false }
  let x := { x with abandons := 0, startDue := none, mcRestart := false, romFn := if f.toNat < 12 then some f.toNat else none }
  let x := if f.toNat < 12 then { x with ma := disarmMatch l x.ma, mb := disarmMatch l x.mb, fifo := [],
                                             sw := startWords f.toNat x } else x
  raiseReq c 0x20 (forgetTurn c (l.setChan c x))

/-- The start of a channel's function by the commit that sets EN, or changes FUNC on an enabled channel (R114). A committed routine that
still runs to END does so first (R154, R164; log entry 109). -/
def startChannel (sets : Bool) (c : Nat) (l : Live) : Live :=
  if (runOf l c).any (fun r => r.committed) then
    l.updChan c (fun x => { x with en := true, startDue := some (sets || x.startDue = some true) })
  else startNow c l

/-- A commit that enables a channel: its function starts, its longest run counts afresh, and its T-pins leave failsafe (R109, R114, R180). -/
def enableChannel (c : Nat) (l : Live) : Live :=
  endFailsafe c ((startChannel true c l).updChan c (fun x => { x with longest := 0 }))

/-- A commit that writes Enable (R109, R114, R154). EN set while the cluster is stopped sets the stored entry (R130). -/
def enableCommit (c : Nat) (l : Live) : Live :=
  let x := l.chan c
  let clusterOn := l.flag (0x2100 + c / 64) 1
  if l.flag (0x2200 + c) 2 then
    if x.en && x.thread ≠ .runaway && x.thread ≠ .halted then l
    else if clusterOn then enableChannel c l
    else l.setChan c { x with en := true, stored := 0x800 }
  else if x.en then
    let l := l.setChan c { x with en := false }
    if x.thread = .runaway || x.thread = .halted || x.thread = .disabled then l else stopChannel c l
  else l

/-- A commit that changes FUNC (R114, R130). A thread that is DISABLED, RUNAWAY or HALTED does not start by it (R154). -/
def funcCommit (c : Nat) (l : Live) : Live :=
  let x := l.chan c
  let f := BitVec.ofNat 4 (l.cfg (0x2200 + c) 1)
  if f = x.func then l
  else if x.en && (x.thread = .idle || x.thread = .ready || x.thread = .running) then startChannel false c l
  else l.setChan c { x with func := f, stored := 0x800 }

/-- A commit that changes the input T-pin or ININV is no edge: the level is taken as already accepted (R492). -/
def inputCommit (c : Nat) (l : Live) : Live :=
  let pin := l.cfg (0x2200 + c) 4
  l.updChan c (fun x => { x with input := decide (pin < 192) && (ballLevel l pin != l.flag (0x2200 + c) 6) })

/-- A change of arm bits that a mode carries: 1 arms the match with the value it holds, 0 disarms it (R96, R98). -/
def armByMode (l : Live) (on : Bool) (m : MatchReg) : MatchReg :=
  if on = m.cur.en then m else if on then armMatch l m.cur.value m.cur.fine m else disarmMatch l m

/-- A commit of CCTL raw: the mode of a user function (R96). -/
def modeCommit (c : Nat) (l : Live) : Live :=
  let v := l.cfg (0x4200 + c) 0x20
  l.updChan c (fun x => { x with mode := modeOf v, ma := armByMode l (bitOf v 15) x.ma, mb := armByMode l (bitOf v 14) x.mb })

/-- A channel of a stopped cluster: its thread stops, and the T-pins of a disabled channel go to failsafe too (R109). -/
def clusterStop (c : Nat) (l : Live) : Live :=
  let x := l.chan c
  if x.thread ≠ .disabled then stopChannel c l
  else if (x.en || !(pinsOf l c).isEmpty) && !x.cstat.getLsbD 7 then goFailsafe 1 c l
  else l

/-- A commit that writes Cluster enable (R154, R155, R170): 0 stops every thread; a change to 1 acts on each channel with EN = 1; a
cluster held by policy 1 resumes without that. -/
def clusterCommit (old : Bool) (k : Nat) (l : Live) : Live :=
  let x := l.cluster k
  let chans := (List.range 64).map (fun i => 64 * k + i)
  if l.flag (0x2100 + k) 1 then
    let l := if x.state = 0 then l.setCluster k { x with state := 1 } else l
    let l := if x.mcHeld then l.updCluster k (fun x => { x with state := 1, mcHeld := false, status := clrBit x.status 5 }) else l
    if old then l else forAll (fun c l => if (l.chan c).en then enableChannel c l else l) chans l
  else
    let l := if x.state = 1 then l.setCluster k { x with state := 0 } else l
    forAll clusterStop chans l

end Sys2Proof.Machine
end

