-- ==== Sys2Proof/Machine/TimeOps.lean ====
section
/-! DEFINITION. Rate, discipline state, effective polarity and PPS_OUT of the time unit, and what a commit of its configuration does
(R41, R50, R52, R57, R60). -/

namespace Sys2Proof.Machine

open Sys2Proof

/-- Code of a discipline state (R61). -/
def Disc.code : Disc → Nat
  | .off => 0
  | .acquire => 1
  | .track => 2
  | .locked => 3
  | .holdover => 4

/-- The clamp of the rate correction: ±500 ppm (R41). -/
def rateLimit : Int := 2147483

/-- Flags of the time status word set by hardware (R62, R84). -/
def timeFlags (m : Nat) (l : Live) : Live :=
  noteFlags (key 0x3000 4) m { l with time := { l.time with status := l.time.status ||| BitVec.ofNat 16 m } }

/-- SLEW_LIMIT, where the clamp acts on a rate (R41, R62). -/
def slewLimit (r : Int) (l : Live) : Live :=
  if r < -rateLimit ∨ rateLimit < r then timeFlags 0x40 l else l

/-- A new rate correction, clamped; AT entries are predicted afresh (R41, R195). -/
def setRate (r : Int) (l : Live) : Live :=
  let l := slewLimit r l
  let r := clampInt (-rateLimit) rateLimit r
  if r = l.time.rate then l else atRetime { l with time := { l.time with rate := r } }

/-- PPS_OUT may pulse (R57). In a reset it may not: the release of R59 is taken to be that of CORE (log entry 107). -/
def ppsOutPermitted (l : Live) : Bool :=
  coreUp l && (match l.cfg 0x2000 7 with
    | 0 => false
    | 1 => true
    | _ => l.time.disc = .locked || l.time.disc = .holdover)

/-- PPS_OUT is held low where it may not pulse (R57). A pulse that runs then is cut at once (log entry 107). -/
def holdPpsOut (l : Live) : Live :=
  if ppsOutPermitted l then l else { l with time := { l.time with ppsOut := false } }

/-- Whole seconds of the running holdover, or of the last one (R52, R61). -/
def holdoverSeconds (l : Live) : BitVec 32 := match l.time.holdoverSince with
  | some t => BitVec.ofNat 32 ((l.now - t) / 400000000)
  | none => l.time.holdoverSecs

/-- A change of the discipline state (R52): record, LOCK_LOST on leaving LOCKED, the counts of the state left behind. -/
def setDisc (new : Disc) (l : Live) : Live :=
  let t := l.time
  if new = t.disc then l
  else
    let flags := b2n (t.disc = Disc.locked) + 2 * b2n (new = Disc.holdover)
    let t := { t with disc := new, holdoverSecs := holdoverSeconds l }
    let t := { t with holdoverSince := if new = Disc.holdover then some l.now else none }
    let p := { t.pps with goodRun := if new = Disc.track ∨ new = Disc.locked then t.pps.goodRun else 0 }
    let p := if new = Disc.acquire ∨ new = Disc.off then { p with pairFirst := none, outRun := [] } else p
    holdPpsOut (writeRecord 0xA001 0x11 new.code (timeFlags flags { l with time := { t with pps := p } }))

/-- A commit of PPS mode (R52). -/
def ppsModeCommit (l : Live) : Live :=
  if l.cfg 0x2000 2 = 0 then setRate (l.cfgS 0x4000 0x22) (setDisc .off l)
  else if l.time.disc = .off then setDisc .acquire l
  else l

/-- The pulse in progress and its edge end where the active level becomes the other one (log entry 52). -/
def PpsState.dropPulse (p : PpsState) : PpsState := { p with active := false, toProcess := false, longJudged := false }

/-- A commit of PPS polarity (R50): the effective polarity is the committed value, and the counts of pulses start again. Where that
turns the active level, the pulse of the old one is over. -/
def ppsPolarityCommit (l : Live) : Live :=
  let t := l.time
  let p := { t.pps with longRun := 0, shortRun := 0 }
  let p := if t.status.getLsbD 13 = l.flag 0x2000 3 then p else p.dropPulse
  { l with time := { t with status := putBit t.status 13 (l.flag 0x2000 3), pps := p } }

/-- A commit of the manual rate, which applies in OFF (R60). -/
def manualRateCommit (l : Live) : Live := if l.time.disc = .off then setRate (l.cfgS 0x4000 0x22) l else l

end Sys2Proof.Machine
end

