-- ==== Sys2Proof/Machine/CommitRules.lean ====
section
/-! DEFINITION. Values as a check sees them, staged or in force, and the rules that refuse a commit: ratio limits, sequence steps,
limits of inputs, sin/cos sources, windows and programs of pin engines (R75, R227, R301, R315, R320, R327, R328, R334). -/

namespace Sys2Proof.Machine

open Sys2Proof

/-! ### Values as a check sees them -/

/-- Owner of an object (R75). -/
def ownerOf (l : Live) (k : Key) : Nat :=
  ((List.range 64).find? (fun g => (l.group g).members.any (fun m => storeKey m = storeKey k))).getD 0

/-- The staged value of an object in its owner group. -/
def stagedVal (l : Live) (k : Key) : Option Val :=
  ((l.group (ownerOf l k)).staged.objs.find? (fun e => e.1 = storeKey k)).map (fun e => e.2)

/-- A value as a check sees it: staged, or where nothing is staged, in force (R111, R268). -/
def seenVal (l : Live) (idx sub : Nat) : Nat := match stagedVal l (key idx sub) with
  | some v => v.toNat
  | none => l.cfg idx sub

/-- A group and what is in force: no other group holds a value staged (R111). -/
def onlyGroup (g : Nat) (l : Live) : Live :=
  { l with groups := l.groups.map (fun e => if e.1 = g then e else (e.1, { e.2 with staged := {} })) }

/-! ### Ratio limits of a wheel tracker (R227) -/

/-- The missed-tooth limits are in order. -/
def ratiosAgree (l : Live) (w : Nat) : Bool := decide (seenVal l (0x4600 + w) 0x23 < seenVal l (0x4600 + w) 0x24)

/-! ### Sequence steps and their sources (R301, R303, R320) -/

/-- A source of a step is permitted (R301). -/
def selOk (l : Live) (x : Nat) : Bool :=
  if x < 48 then seenVal l (0x2700 + x / 2 * 2) 1 = 0
  else if selPair x then seenVal l (0x2700 + 2 * (x - 0x40)) 1 = 1
  else decide (0xF0 ≤ x ∧ x ≤ 0xF5) || x = 0xFF

/-- A step word (R301, R303). -/
def stepOk (l : Live) (v : Nat) : Bool :=
  let w := BitVec.ofNat 64 v
  let ks := stepConvs w
  field v 63 58 = 0 && field v 47 34 = 0 && decide (4 ≤ stepAcq w ∧ stepAcq w ≤ 1000)
    && (List.range 4).all (fun k => selOk l (stepSel w k))
    && ks.all (fun k => seenVal l (0x2730 + k) 1 = 1)
    && decide ((ks.map (stepSel w)).Nodup)

/-- Step n of sequence s is the source of some port. -/
def stepIsSource (l : Live) (s n : Nat) : Bool := anyBelow 8 (fun p => seenVal l (0x2500 + p) 0x1D = s * 256 + n)

/-- A sin/cos source names a step that qualifies (R320). -/
def sourceOk (l : Live) (v : Nat) : Bool :=
  v = 0xFFFF || (decide (v / 256 < 4) && decide (v % 256 < 32)
    && (sincosConv (BitVec.ofNat 64 (seenVal l (0x2740 + v / 256) (0x10 + v % 256)))).isSome)

/-! ### Windows and programs of pin engines (R327, R328, R334) -/

/-- Two windows share a P-pin. -/
def overlap (b w b' w' : Nat) : Bool := decide (b < b' + w' ∧ b' < b + w)

/-- The window of engine e against those of the other enabled engines, all as seen. -/
def windowOk (l : Live) (e s v : Nat) : Bool :=
  let get := fun (i x : Nat) => if i = e ∧ x = s then v else seenVal l (0x2900 + i) x
  decide (get e 2 + get e 3 ≤ 32)
    && (get e 1 = 0 || (List.range 16).all (fun i => i = e || get i 1 = 0 || !overlap (get e 2) (get e 3) (get i 2) (get i 3)))

/-- The programs of an engine under a window width and masks. -/
def programsOk (l : Live) (e s v : Nat) : Bool :=
  let get := fun (x : Nat) => if x = s then v else seenVal l (0x2900 + e) x
  let x := l.pe e
  let ok := peProgramOk (get 3) (get 7) (get 8)
  ok (peBytes x.bankA) && ok (peBytes x.bankB) && (match stagedVal l (key (0x2900 + e) 0x0D) with
    | some b => ok b.toBytes
    | none => true)

/-- No mask has a bit at or above the window width (R328). -/
def masksOk (l : Live) (e : Nat) : Bool :=
  let n := 2 ^ seenVal l (0x2900 + e) 3
  decide (seenVal l (0x2900 + e) 7 < n ∧ seenVal l (0x2900 + e) 8 < n)

/-! ### Commits that break a rule -/

/-- Sets base values. -/
def setBases (vs : List (Key × Val)) (l : Live) : Live := forAll (fun e l => l.setBase e.1 e.2) vs l

/-- A committed object breaks a rule that refuses its commit, by the values in force after the commit. -/
def breaksRule (l : Live) (k : Key) : Bool :=
  let i := k / 256 % 256
  let s := k % 256
  let v := l.cfg (k / 256) s
  match k / 256 / 256 with
  | 0x25 => s = 0x1D && !sourceOk l v
  | 0x27 => decide (0x40 ≤ i ∧ i < 0x44 ∧ 0x10 ≤ s)
      && (!stepOk l v || (stepIsSource l (i - 0x40) (s - 0x10) && (sincosConv (BitVec.ofNat 64 v)).isNone))
  | 0x29 => (decide (1 ≤ s ∧ s ≤ 3) && !windowOk l i s v) || (([3, 7, 8].contains s) && !(masksOk l i && programsOk l i s v))
  | 0x46 => !ratiosAgree l i
  | 0x47 => decide (toSigned 32 (l.cfg (k / 256) 0x20) < toSigned 32 (l.cfg (k / 256) 0x21))
  | _ => false

/-- The commit of a group now breaks a rule (R227, R301, R315, R320, R327, R328, R334; log entry 110). -/
def commitBreaks (l : Live) (g : Nat) : Bool :=
  let vs := (l.group g).staged.objs
  let after := setBases vs { l with groups := l.groups.map (fun e => (e.1, { e.2 with staged := {} })) }
  vs.any (fun e => breaksRule after e.1)

end Sys2Proof.Machine
end

