-- ==== Sys2Proof/Machine/Commit.lean ====
section
/-! DEFINITION. Commit groups: staging, membership, arming, the commit with what it does to each unit, its timing for PWM members and
its refusal (R18, R73–R79, R88, R493), and the commands GROUP_ARM to REMOVE_MEMBER. -/

namespace Sys2Proof.Machine

open Sys2Proof

/-! ### Which unit holds an object -/

/-- Index of an object within a run of n indices at a base, of the basic or the expert range. -/
def inRange (base n : Nat) (k : Key) : Option Nat :=
  let i := k / 256
  if base ≤ i ∧ i < base + n then some (i - base)
  else if base + 0x2000 ≤ i ∧ i < base + 0x2000 + n then some (i - base - 0x2000)
  else none

/-- Block code of the unit that holds an object (R456). -/
def unitOfKey (k : Key) : Option Nat :=
  let at_ := fun (base n code per : Nat) => (inRange base n k).map (fun i => code + i / per)
  (at_ 0x2100 8 0 1).orElse fun _ => (at_ 0x2200 512 0 64).orElse fun _ => (at_ 0x2400 24 0x10 24).orElse fun _ =>
  (at_ 0x2418 1 0x10 1).orElse fun _ =>
  (if k / 256 = 0x2610 ∧ 1 ≤ k % 256 ∧ k % 256 ≤ 4 then some (0x27 + k % 256) else none).orElse fun _ => (at_ 0x2500 8 0x20 1).orElse fun _ => (at_ 0x2600 4 0x28 1).orElse fun _ => (at_ 0x2700 0x51 0x18 0x51).orElse fun _ =>
  (at_ 0x2900 16 0x30 1).orElse fun _ => at_ 0x2A00 0x22 0x40 0x22

/-- An object belongs to a unit that is held in BLOCK reset. -/
def keyHeld (l : Live) (k : Key) : Bool := match unitOfKey k with
  | some c => blockHeld l c
  | none => false

/-! ### Staging (R73, R75, R76) -/

/-- Event entries that a group holds staged (R191). -/
def stagedEntries (l : Live) (g : Nat) : Nat :=
  (l.events.entries.filter (fun e => match e.2.phase with
    | .dormant g' => g' = g
    | .walking (some g') _ => g' = g
    | _ => false)).length

/-- Objects that a group holds staged now (R88). -/
def stagedCount (l : Live) (g : Nat) : Nat :=
  let s := (l.group g).staged
  s.objs.length + s.cancels.length + stagedEntries l g

/-- A list of staged values with one value set. -/
def putStaged (k : Key) (v : Val) (l : List (Key × Val)) : List (Key × Val) :=
  if l.any (fun e => e.1 = k) then l.map (fun e => if e.1 = k then (k, v) else e) else l ++ [(k, v)]

/-- Stages a value in a group (R73, R76). -/
def stageIn (g : Nat) (k : Key) (v : Val) (l : Live) : Live :=
  beginStaging g (l.updGroup g (fun x => { x with staged := { x.staged with objs := putStaged k v x.staged.objs } }))

/-- Drops a staged value from a group; its last one returns it to IDLE (R76). -/
def unstage (g : Nat) (k : Key) (l : Live) : Live :=
  let l := l.updGroup g (fun x => { x with staged := { x.staged with objs := x.staged.objs.filter (fun e => e.1 ≠ k) } })
  if stagedCount l g = 0 && (l.group g).state = .staging then l.updGroup g (fun x => { x with state := .idle }) else l

/-! ### PWM members (R78, R274) -/

/-- The shadow field of an object, if it is one. -/
def shadowOf (k : Key) : Option (Nat × Nat) :=
  if 0x4400 ≤ k / 256 ∧ k / 256 < 0x4418 ∧ 0x20 ≤ k % 256 ∧ k % 256 ≤ 0x22 then some (k / 256 - 0x4400, k % 256 - 0x20) else none

/-- A reload of a pair that counts for a shadow field falls in this TCLK: to come, or already made. -/
def reloadToCome (l : Live) (u what : Nat) : Bool :=
  let p := l.pair u
  let bd := match p.nextB with
    | some b => decide (b / 64 = l.now)
    | none => false
  let md := match p.lastB with
    | some b => what ≠ 0 && !isPP u && decide (l.cfg (0x2400 + u) 0x0E = 1) && !p.midDone && decide (midOf l u p b / 64 = l.now)
    | none => false
  p.state = .running && (bd || md)

def reloadMade (l : Live) (u what : Nat) : Bool :=
  let p := l.pair u
  p.state = .running && p.reloadAt = some l.now
    && ((match p.lastB with
      | some b => decide (b / 64 = l.now)
      | none => false) || what ≠ 0)

/-- A committed value reaches its shadow now, or skips one reload. -/
def loadShadow (late : Bool) (l : Live) (u what v : Nat) : Live :=
  let skip := if reloadToCome l u what then 1 else if reloadMade l u what then 0
    else if late && (l.pair u).state = .running then 1 else 0
  if skip = 0 then
    l.updPair u (fun p => ({ p with deferred := p.deferred.filter (fun w => w.what ≠ what) }).setShadow ⟨0, what, v⟩)
  else l.updPair u (fun p => { p with deferred := p.deferred ++ [⟨1, what, v⟩] })

/-- Loads the PWM members among committed values; answers whether the commit is late. A boundary trigger is never late (R78). The duty
shadow of a pair that streamed before the commit is the stream's (R277). -/
def loadMembers (old : Live) (byBoundary : Bool) (vals : List (Key × Val)) (l : Live) : Live × Bool :=
  let all := vals.filterMap (fun e => (shadowOf e.1).map (fun s => (s.1, s.2, e.2.toNat)))
  let pwm := all.filter (fun s => !(s.2.1 = 1 && streaming old s.1))
  let late := !byBoundary && pwm.any (fun s => reloadToCome l s.1 s.2.1 || reloadMade l s.1 s.2.1)
  (forAll (fun s l => loadShadow late l s.1 s.2.1 s.2.2) pwm l, late)

/-! ### What a commit does in the units -/

/-- Elements of a family that committed objects touch. -/
def touched (base n : Nat) (ks : List Key) : List Nat := (ks.filterMap (inRange base n)).eraseDups

/-- Channels (R113, R114, R492). -/
def channelHooks (old : Live) (ks : List Key) (c : Nat) (l : Live) : Live :=
  let has := fun (i s : Nat) => ks.contains (key i s)
  let ch := fun (s : Nat) => old.cfg (0x2200 + c) s ≠ l.cfg (0x2200 + c) s
  let l := if ch 4 || ch 6 then inputCommit c l else l
  let l := if has (0x2200 + c) 7 then drivePins c l else l
  let l := if has (0x4200 + c) 0x20 then modeCommit c l else l
  let l := if (List.range 16).any (fun i => has (0x4200 + c) (0x10 + i)) then abandonByCommit c l else l
  let l := if has (0x2200 + c) 2 then enableCommit c l else l
  if has (0x2200 + c) 1 then funcCommit c l else l

/-- T-pins: a new driver's failsafe state becomes the pin's; a driver whose cluster is stopped, checked or held in reset takes its T-pins
to failsafe (R107, R109). -/
def tpinHooks (n : Nat) (l : Live) : Live :=
  let d := driverOf l n
  let l := match clusterFailsafe l d with
    | some cause => if d < 512 && !bitOf (l.chan d).cstat.toNat 7 then goFailsafe cause d l else l
    | none => l
  let fs := decide (d < 512) && bitOf (l.chan d).cstat.toNat 7
  drivePin n (l.updTpin n (fun t => { t with failsafe := fs }))

/-- Pairs (R270, R277, R280). -/
def pairHooks (old : Live) (ks : List Key) (u : Nat) (l : Live) : Live :=
  let has := fun (s : Nat) => ks.contains (key (0x2400 + u) s)
  let l := if has 7 then outputModeCommit u l else l
  let l := if !streaming old u && streaming l u then streamStart u l else l
  let l := if has 1 then pairEnableCommit u (old.flag (0x2400 + u) 1) (l.flag (0x2400 + u) 1) l else l
  if has 8 || has 9 || has 0x0A || has 0x0B then redrivePair u l else l

/-- Trip inputs: the level follows a change of the active level. -/
def tripHooks (old : Live) (i : Nat) (l : Live) : Live :=
  if old.cfg (0x2420 + i) 2 = l.cfg (0x2420 + i) 2 then l else l.updTrip i (fun t => { t with level := !t.level })

/-- Structural parameters of a port (R252). -/
def portStructural : List Nat := [1, 2, 0x13, 0x14, 0x15, 0x16, 0x1D, 0x1E]

/-- Feedback ports (R247, R252). -/
def portHooks (ks : List Key) (n : Nat) (l : Live) : Live :=
  let has := fun (s : Nat) => ks.contains (key (0x2500 + n) s)
  let l := if portStructural.any has || ks.contains (key (0x4500 + n) 0x28) then portStart n l else l
  if has 0x17 then ssiPeriodCommit n l else l

/-- Wheel trackers: a change of a structural parameter (R227). -/
def wheelHooks (old : Live) (w : Nat) (l : Live) : Live :=
  let ch := fun (s : Nat) => old.cfg (0x2600 + w) s ≠ l.cfg (0x2600 + w) s
  if [1, 2, 3, 5, 6, 7, 8].any ch || old.cfg 0x2610 (1 + w) ≠ l.cfg 0x2610 (1 + w) then wheelStructural w l else l

/-- Event queues (R186, R188). -/
def queueHooks (old : Live) (ks : List Key) (q : Nat) (l : Live) : Live :=
  let l := if qBase old q = qBase l q then l else rebaseQueue q l
  if ks.contains (key (0x2800 + q) 1) || ks.contains (key (0x2800 + q) 5) then trackQueue q l else l

/-- Pin engines (R337, R338). -/
def peHooks (old : Live) (ks : List Key) (e : Nat) (l : Live) : Live :=
  let ch := fun (s : Nat) => old.cfg (0x2900 + e) s ≠ l.cfg (0x2900 + e) s
  let l := if ks.contains (key (0x2900 + e) 0x0D) then peLoad e l else l
  let on := l.flag (0x2900 + e) 1
  if on && (ch 1 || [2, 3, 5, 6, 7, 8].any ch) then peStart e l
  else if !on && ch 1 then peStop e l
  else if on && ch 0x0C then peRedrive e l
  else l

/-- Everything else: PWM unit, analogue unit, DMA, log, time unit, periodic snapshots. -/
def deviceHooks (old : Live) (ks : List Key) (l : Live) : Live :=
  let has := fun (i s : Nat) => ks.contains (key i s)
  let ch := fun (i s : Nat) => old.cfg i s ≠ l.cfg i s
  let l := if has 0x2418 1 && !l.flag 0x2418 1 then disarm 7 l else l
  let l := if old.flag 0x2750 1 && !l.flag 0x2750 1 then analogDisable l else l
  let l := forAll (fun n l => if ch 0x2A20 (1 + n) then crlLeft (old.cfg 0x2A20 (1 + n)) l else l) (List.range 28) l
  let l := if ch 0x2A40 2 || ch 0x2A40 3 then emptyRing l else l
  let l := if !old.flag 0x2A40 1 && l.flag 0x2A40 1 then logStart 3 l else l
  let l := if has 0x2000 2 then ppsModeCommit l else l
  let l := if has 0x2000 3 then ppsPolarityCommit l else l
  let l := if has 0x4000 0x22 then manualRateCommit l else l
  let l := if has 0x2000 7 then holdPpsOut l else l
  if has 0x2C80 1 then { l with snap := { l.snap with nextPeriodic := l.now + l.cfg 0x2C80 1 * 400 } } else l

/-- What committed objects do in their units; a unit held in BLOCK reset takes its configuration at its release (R91). -/
def commitHooks (old : Live) (ks0 : List Key) (l : Live) : Live :=
  let ks := ks0.filter (fun k => !keyHeld l k)
  let l := forAll (channelHooks old ks) (touched 0x2200 512 ks) l
  let l := forAll (fun k l => if ks.contains (key (0x2100 + k) 1) then clusterCommit (old.flag (0x2100 + k) 1) k l else l)
    (touched 0x2100 8 ks) l
  let l := forAll tpinHooks (touched 0x2D00 192 ks) l
  let l := forAll (pairHooks old ks) (touched 0x2400 24 ks) l
  let l := forAll (tripHooks old) (touched 0x2420 16 ks) l
  let l := forAll (portHooks ks) (touched 0x2500 8 ks) l
  let l := forAll (wheelHooks old) (touched 0x2600 4 ks ++ (if ks.any (fun k => k / 256 = 0x2610) then List.range 4 else [])) l
  let l := forAll (queueHooks old ks) (touched 0x2800 16 ks) l
  let l := forAll (peHooks old ks) (touched 0x2900 16 ks) l
  deviceHooks old ks l

/-! ### The commit (R74, R90) -/

/-- The configuration generation advances by one; answers whether it wrapped. -/
def advanceGen (l : Live) : Live × Bool :=
  ({ l with conf := { l.conf with gen := l.conf.gen + 1 } }, l.conf.gen = 0xFFFF)

/-- The commit of a group in this TCLK (R74, R78, R192): every staged value becomes the base value, and the units act on it. -/
def commitGroup (g : Nat) (byBoundary : Bool) (l : Live) : Live :=
  let old := l
  let vs := (l.group g).staged.objs
  let l := commitEvents g (setBases vs l)
  let r := loadMembers old byBoundary vs l
  let a := advanceGen r.1
  let l := a.1
  let x := l.group g
  let flags := b2n r.2 + 4 * b2n a.2
  let l := noteFlags (key (0x3C00 + g) 2) flags l
  let st := x.status ||| BitVec.ofNat 8 flags
  let x := { x with state := .idle, status := st, lateCnt := if r.2 then x.lateCnt + 1 else x.lateCnt, staged := {}, armedBy := none }
  let x := { x with lastDtime := l.time.dtime, genAt := l.conf.gen }
  let l := writeRecord (0xE800 + g) 0x18 (l.conf.gen.toNat + st.toNat * 65536) (l.setGroup g x)
  commitHooks old (vs.map (fun e => e.1)) l

/-- A unit that holds a member of the group is in reset (R76). -/
def memberHeld (l : Live) (g : Nat) : Bool :=
  let x := l.group g
  x.members.any (keyHeld l) || x.staged.objs.any (fun e => keyHeld l e.1)

/-- The trigger of an ARMED group (R76): the commit, or its refusal. A commit that breaks a rule at a trigger, where no SDO waits for an
answer, is refused in the same way (log entry 110). -/
def triggerGroup (byBoundary : Bool) (g : Nat) (l : Live) : Live :=
  let x := l.group g
  if x.state ≠ .armed then l
  else if memberHeld l g || commitBreaks l g then
    noteFlags (key (0x3C00 + g) 2) 2
      (l.setGroup g { x with state := .staging, status := setBit x.status 1, refusedCnt := x.refusedCnt + 1, armedBy := none })
  else commitGroup g byBoundary l

/-- Every ARMED group of a trigger kind, in ascending number (R74, R77): 2 SYNC, 3 PPS. -/
def triggerKind (kind : Nat) (l : Live) : Live :=
  forAll (fun g l => if l.cfg (0x2C00 + g) 1 = kind then triggerGroup false g l else l) (List.range 64) l

/-- The boundary of pair u as a trigger (R18). -/
def triggerBoundary (u : Nat) (l : Live) : Live :=
  forAll (fun g l => if l.cfg (0x2C00 + g) 1 = 4 && l.cfg (0x2C00 + g) 2 = u then triggerGroup true g l else l) (List.range 64) l

/-! ### Group commands (R76) -/

/-- Command 1. An immediate commit that breaks a rule is refused with the abort. -/
def groupArm (g : Nat) (l : Live) : Live × Nat :=
  if (l.group g).state ≠ .staging then (l, 0)
  else if l.cfg (0x2C00 + g) 1 ≠ 0 then (l.updGroup g (fun x => { x with state := .armed }), 0)
  else if commitBreaks l g then (l, abRange)
  else (commitGroup g false l, 0)

/-- Command 2. -/
def groupDisarm (g : Nat) (l : Live) : Live :=
  l.updGroup g (fun x => if x.state = .armed then { x with state := .staging, armedBy := none } else x)

/-- Command 3. -/
def groupDiscard (g : Nat) (l : Live) : Live :=
  if (l.group g).state = .idle then l
  else (discardEvents g l).updGroup g (fun x => { x with state := .idle, staged := {}, armedBy := none })

/-! ### Membership (R75, R493) -/

/-- Objects that may be members (R75). -/
def admissible (k : Key) : Bool :=
  let idx := k / 256
  let s := k % 256
  (decide (0x2400 ≤ idx ∧ idx < 0x2418) && 3 ≤ s && decide (s ≤ 5)) || (shadowOf k).isSome
    || (decide (0x2200 ≤ idx ∧ idx < 0x2400) && (s = 1 || (0x10 ≤ s && decide (s ≤ 0x1F))))
    || (decide (0x4200 ≤ idx ∧ idx < 0x4400) && 0x10 ≤ s && decide (s ≤ 0x20))
    || (decide (0x2740 ≤ idx ∧ idx < 0x2744) && ((s = 1 || s = 2) || (0x10 ≤ s && decide (s ≤ 0x2F))))

/-- The object that an entry of :04 and :05 names, none where [7:0] is not 0. -/
def memberKey (v : Nat) : Option Key := if v % 256 = 0 then some (v / 256) else none

/-- The encoding of the member list. -/
def memberEntry (k : Key) : List Byte := bytesLE 4 (k * 256)

/-- Moves the staged value of an object between groups (R493). -/
def moveStagedValue (a b : Nat) (k : Key) (l : Live) : Live :=
  match (l.group a).staged.objs.find? (fun e => e.1 = storeKey k) with
  | some e => stageIn b e.1 e.2 (unstage a e.1 l)
  | none => l

/-- An add or a remove is refused for an ARMED group (R493). -/
def membershipLocked (l : Live) (g : Nat) (k : Key) : Bool :=
  groupArmed l g || (groupArmed l 0 && (stagedVal l k).isSome)

/-- ADD_MEMBER. -/
def addMember (g v : Nat) (l : Live) : Live × Nat := match memberKey v with
  | none => (l, abRange)
  | some k =>
    if g = 0 || !admissible k then (l, abRange)
    else if membershipLocked l g k then (l, abState)
    else if ownerOf l k = g then (l, 0)
    else if ownerOf l k ≠ 0 then (l, abState)
    else if 512 ≤ (l.group g).members.length then (l, abMemory)
    else (moveStagedValue 0 g k (l.updGroup g (fun x => { x with members := x.members ++ [k] })), 0)

/-- REMOVE_MEMBER. -/
def removeMember (g v : Nat) (l : Live) : Live × Nat := match memberKey v with
  | none => (l, abRange)
  | some k =>
    if g = 0 || ownerOf l k ≠ g then (l, abRange)
    else if membershipLocked l g k then (l, abState)
    else
      let l := moveStagedValue g 0 k l
      (l.updGroup g (fun x => { x with members := x.members.filter (fun m => storeKey m ≠ storeKey k) }), 0)

/-! ### Commands -/

def execGroupArm (conn : Conn) (g : Fin 64) (s : State) : Out :=
  ran (onObject conn (0x2C00 + g.val) 3 (groupArm g.val)) s

def execGroupDisarm (conn : Conn) (g : Fin 64) (s : State) : Out :=
  ran (onObject conn (0x2C00 + g.val) 3 (done (groupDisarm g.val))) s

def execGroupDiscard (conn : Conn) (g : Fin 64) (s : State) : Out :=
  ran (onObject conn (0x2C00 + g.val) 3 (done (groupDiscard g.val))) s

def execAddMember (conn : Conn) (g : Fin 64) (entry : BitVec 32) (s : State) : Out :=
  ran (onObject conn (0x2C00 + g.val) 4 (addMember g.val entry.toNat)) s

def execRemoveMember (conn : Conn) (g : Fin 64) (entry : BitVec 32) (s : State) : Out :=
  ran (onObject conn (0x2C00 + g.val) 5 (removeMember g.val entry.toNat)) s

end Sys2Proof.Machine
end

