-- ==== Sys2Proof/Machine/ProcRead.lean ====
section
/-! DEFINITION. The value of every readable object: process and status objects as a snapshot froze them, configuration, communication
and device objects as they stand (R61, R69, R87–R90, R122, R180, R181, R206, R207, R231, R266, R299, R324, R344, R371, R389, R404,
R413, R419, R420, R441, R465, R466). -/

namespace Sys2Proof.Machine

open Sys2Proof

/-! ### Forms -/

/-- A signed quantity in its object's width; outside it the spec states no value (log entry 3). -/
def fitS (l : Live) (bits : Nat) (v : Int) : Val :=
  if -(2 ^ (bits - 1) : Nat) ≤ v ∧ v < (2 ^ (bits - 1) : Nat) then .num (ofSigned bits v)
  else .num ((Config.freeValue l.freeIdx).toNat % 2 ^ bits)

/-- An unsigned quantity in its object's width. -/
def fitU (l : Live) (bits v : Nat) : Val := if v < 2 ^ bits then .num v else .num ((Config.freeValue l.freeIdx).toNat % 2 ^ bits)

/-- A result word: VALID in the top bit, its tag, and the value (R83). -/
def resultWord (top tagLo : Nat) (valid : Bool) (tag v : Nat) : Nat := b2n valid * 2 ^ top + tag * 2 ^ tagLo + v

def num {w : Nat} (x : BitVec w) : Val := .num x.toNat

/-! ### Process objects by block -/

/-- 0x3000 (R61, R389, R420). -/
def readTime (l : Live) (s : Nat) : Val :=
  let t := l.time
  match s with
  | 0x01 => num t.dtime
  | 0x02 => num l.atime
  | 0x03 => .num t.disc.code
  | 0x04 => num t.status
  | 0x05 => fitS l 64 t.phaseError
  | 0x06 => fitS l 32 (divFree (t.rate * 1000000000) (2 ^ 32))
  | 0x07 => num t.accepted
  | 0x08 => num t.rejectCnt
  | 0x09 => num t.stepCnt
  | 0x0A => num t.glitchCnt
  | 0x0B => num t.refLossCnt
  | 0x0C => num t.lastPps
  | 0x0D => num (holdoverSeconds l)
  | 0x0E => num t.skipCnt
  | 0x10 => num l.doze.cause
  | 0x11 => num l.doze.tpin
  | 0x12 => num l.doze.dtime
  | 0x20 | 0x21 => num (l.bus (s - 0x20)).status
  | 0x22 | 0x23 => num (l.bus (s - 0x22)).rpdoFaultCnt
  | 0x24 | 0x25 => num (l.bus (s - 0x24)).hbTimeoutCnt
  | 0x26 | 0x27 => num (l.bus (s - 0x26)).emcyDropCnt
  | _ => .num 0

/-- Channels in failsafe (R180). -/
def failsafeCount (l : Live) (k : Nat) : Nat :=
  ((List.range 64).filter (fun i => bitOf (l.chan (64 * k + i)).cstat.toNat 7)).length

/-- 0x3100 + k and its mirror (R180, R181). -/
def readCluster (l : Live) (k s : Nat) : Val :=
  let x := l.cluster k
  match s with
  | 0x01 => .num x.state
  | 0x02 => .num (failsafeCount l k)
  | 0x03 => num x.status
  | 0x04 => num x.runawayCnt
  | 0x05 => num x.mcCnt
  | 0x06 => num x.abandonCnt
  | 0x07 => num x.protectCnt
  | 0x08 => num x.scrubCnt
  | 0x09 => num x.load
  | 0x20 => .num (match x.run with
    | some r => r.slot
    | none => 0xFF)
  | 0x21 => num x.lastMc
  | 0x22 => num x.lastRunaway
  | _ => .num 0

/-- Codes of a thread state (R122). -/
def ThreadState.code : ThreadState → Nat
  | .disabled => 0
  | .idle => 1
  | .ready => 2
  | .running => 3
  | .runaway => 4
  | .halted => 5

/-- Head of a capture FIFO as a read gives it: VALID in bit 63, clear for the last entry repeated (R81, R103). -/
def fifoHead (x : Channel) : Word := match x.fifo with
  | e :: _ => setBit e 63
  | [] => clrBit x.fifoLast 63

/-- 0x3200 + c and its mirror (R122). -/
def readChannel (l : Live) (c s : Nat) : Val :=
  let x := l.chan c
  match s with
  | 0x01 => num x.cstat
  | 0x02 => num x.fl
  | 0x03 => num x.ma.cur.value
  | 0x04 => num x.mb.cur.value
  | 0x05 => num x.capa
  | 0x06 => num x.capb
  | 0x07 => num (fifoHead x)
  | 0x08 => num x.ecnt
  | 0x09 => num x.ovfCnt
  | 0x0A => num x.lateCnt
  | 0x0B => num x.linkCnt
  | 0x0C => .num (pinLevels x)
  | 0x20 => num x.req
  | 0x21 => num x.lnkd
  | 0x22 => .num x.thread.code
  | 0x23 => .num x.abandons
  | 0x24 => num x.longest
  | 0x25 => num x.stored
  | s => if 0x10 ≤ s ∧ s ≤ 0x1F then num (stateWord l c (s - 0x10)) else .num 0

/-- Codes of a pair state (R299). -/
def PairState.code : PairState → Nat
  | .idle => 0
  | .running => 1
  | .tripped => 2

/-- 0x3400 + u and its mirror (R299). A duty above the period is in effect as the period (R268). -/
def readPair (l : Live) (u s : Nat) : Val :=
  let p := l.pair u
  match s with
  | 0x01 => .num p.state.code
  | 0x02 => num p.status
  | 0x03 => num p.boundary
  | 0x04 => num p.eff.period
  | 0x05 => .num (min p.eff.duty.toNat p.eff.period.toNat)
  | 0x06 => num p.eff.dead
  | 0x07 => num p.lateCnt
  | 0x08 => num p.underCnt
  | 0x09 => num p.shortCnt
  | 0x0A => num p.tripDtime
  | 0x20 => num p.tapsH
  | 0x21 => num p.tapsL
  | _ => .num 0

/-- 0x3418 (R299). -/
def readArm (l : Live) (s : Nat) : Val :=
  let u := l.pwm
  match s with
  | 0x01 => .num (b2n (armed l))
  | 0x02 => num u.status
  | 0x03 => num u.disarmCnt
  | 0x04 => num u.refuseCnt
  | 0x05 => num u.armDtime
  | 0x06 => num u.disarmDtime
  | _ => .num 0

/-- 0x3420 + i (R299). -/
def readTrip (l : Live) (i s : Nat) : Val :=
  let t := l.trip i
  match s with
  | 0x01 => num (putBit t.status 4 t.level)
  | 0x02 => num t.cnt
  | 0x03 => num t.refusedCnt
  | 0x04 => num t.dtime
  | _ => .num 0

/-- Codes of a port state (R266). -/
def PortState.code : PortState → Nat
  | .off => 0
  | .starting => 1
  | .running => 2
  | .lost => 3

/-- Sector of a port in Hall mode; 0xFF in any other (R240). -/
def sectorOf (l : Live) (n : Nat) : Nat := if fbMode l n = 4 then hallSector (l.port n).lines else 0xFF

/-- Speed in 0.001 rpm: v̂ × 60,000 / CPR, 0 if CPR is 0 (R255). The worked example after R259 takes 36,621.09 to 36,621: a fraction
below one half is dropped, any other is open (log entry 5). -/
def portRpm (l : Live) (n : Nat) : Int :=
  let num := (l.port n).vHat * 60000
  let den := fbCpr l n * 65536
  if 0 ≤ num ∧ 2 * (num % den) < den then num / den else divFree num den

/-- 0x3500 + n and its mirror (R266). -/
def readPort (l : Live) (n s : Nat) : Val :=
  let p := l.port n
  match s with
  | 0x01 => .num p.state.code
  | 0x02 => num p.status
  | 0x03 => num p.pos
  | 0x04 => num p.posDtime
  | 0x05 => fitS l 64 p.vHat
  | 0x06 => fitS l 32 (portRpm l n)
  | 0x07 => fitS l 64 (p.aHat.tdiv 65536)
  | 0x08 => num p.pHat
  | 0x09 => num p.idxPos
  | 0x0A => num p.idxDtime
  | 0x0B => .num (resultWord 63 48 p.probeValid p.probeTag.toNat p.probeCount.toNat)
  | 0x0C => num p.probeObs
  | 0x0D => num p.probeDtime
  | 0x0E => .num (resultWord 63 48 p.rawValid p.rawTag.toNat p.rawFrame.toNat)
  | 0x0F => .num (sectorOf l n)
  | 0x10 => num p.amplitude
  | 0x11 => num p.illegalCnt
  | 0x12 => num p.dirCnt
  | 0x13 => num p.frameCnt
  | 0x14 => num p.dropCnt
  | 0x15 => num p.lineCnt
  | 0x16 => num p.refFaultCnt
  | 0x17 => num p.lastFault
  | 0x20 => num p.delay
  | 0x21 => fitS l 32 p.indexErr
  | 0x22 => fitS l 32 p.countDiff
  | _ => .num 0

/-- 0x3600 + w (R231). The lane and its backlog stand as at the start of the TCLK of the snapshot (R64). -/
def readWheel (l : Live) (w s : Nat) : Val :=
  let x := l.wheel w
  match s with
  | 0x01 => .num x.state.code
  | 0x02 => num x.status
  | 0x03 => .num x.laneWas
  | 0x04 => .num (x.laneWas * 360000 / (wheelN l w * 1024))
  | 0x05 => .num x.cyc
  | 0x06 => fitU l 32 (toothSpeed l w)
  | 0x07 => fitU l 32 (revSpeed l w)
  | 0x08 => fitU l 32 (divFree x.refNum x.refDiv).toNat
  | 0x09 => fitU l 16 ({ x with lane := x.laneWas }.backlog (l.now - 1))
  | 0x0A => .num x.lastTooth
  | 0x0B => num x.noiseCnt
  | 0x0C => num x.missedCnt
  | 0x0D => num x.lossCnt
  | 0x0E => num x.camCnt
  | 0x0F => .num x.lastLoss
  | _ => .num 0

/-- 0x3610 and 0x5610 (R224, R226, R231): the phase in 0.001° is taken to the nearest unit, as the worked example of R226 shows. -/
def readPhase (l : Live) (s : Nat) : Val :=
  let deg := fun (w : Nat) => nearFree ((l.wheel w).phase * 360000) (wheelN l w * 1024 * 64)
  if 1 ≤ s ∧ s ≤ 4 then
    let x := l.wheel (s - 1)
    .num (resultWord 31 20 x.phaseValid x.phaseTag.toNat (deg (s - 1) % 2 ^ 20))
  else if 0x11 ≤ s ∧ s ≤ 0x14 then num (l.wheel (s - 0x11)).phaseDtime
  else if 0x21 ≤ s ∧ s ≤ 0x24 then
    let x := l.wheel (s - 0x21)
    .num (resultWord 63 48 x.phaseValid x.phaseTag.toNat (x.phase % 2 ^ 25))
  else .num 0

/-- 0x3700 + a (R324). -/
def readInput (l : Live) (a s : Nat) : Val :=
  let x := l.anIn a
  match s with
  | 0x01 => num x.status
  | 0x02 => num x.limitCnt
  | 0x03 => num x.openCnt
  | 0x04 => num x.refusedCnt
  | 0x05 => num x.tripDtime
  | _ => .num 0

/-- 0x3730 + k (R324). -/
def readConv (l : Live) (k s : Nat) : Val :=
  let x := l.conv k
  match s with
  | 0x01 => num x.status
  | 0x02 => .num x.fifo.length
  | 0x03 => num x.ovfCnt
  | _ => .num 0

/-- 0x3740 + q (R324). -/
def readSeq (l : Live) (q s : Nat) : Val :=
  let x := l.seq q
  match s with
  | 0x01 => num (putBit x.status 3 x.run.isSome)
  | 0x02 => num x.passCnt
  | 0x03 => num x.dropCnt
  | 0x04 => num x.delayCnt
  | 0x05 => num x.startDtime
  | s => if 0x40 ≤ s then num (resultReg l q ((s - 0x40) / 4) ((s - 0x40) % 4)) else .num 0

/-- Entries of a queue in a phase (R206). -/
def phaseCount (l : Live) (q : Nat) (live : Bool) : Nat :=
  ((l.queue q).order.filter (fun e => ((l.entry e).phase = .live) = live)).length

/-- First live entry of a queue. -/
def headEntry (l : Live) (q : Nat) : Option Nat := (queueOrder l q).find? (fun e => (l.entry e).phase = .live)

/-- 0x3800 + q (R206). -/
def readQueue (l : Live) (q s : Nat) : Val :=
  let x := l.queue q
  match s with
  | 0x01 => num (putBit x.status 7 (queueBlocked l q))
  | 0x02 => .num (phaseCount l q true)
  | 0x03 => .num (phaseCount l q false)
  | 0x04 => .num (match headEntry l q with
    | some e => (l.entry e).key
    | none => 0)
  | 0x05 => num x.fired
  | 0x06 => num x.lateCnt
  | 0x07 => num x.skipCnt
  | 0x08 => num x.faultCnt
  | 0x09 => num x.lastLate
  | 0x0A => num x.lastSlip
  | _ => .num 0

/-- 0x3810 (R206). -/
def readPool (l : Live) (s : Nat) : Val := match s with
  | 0x01 => .num (freeEntries l)
  | 0x02 => num l.events.poolStatus
  | 0x03 => num l.events.dropCnt
  | 0x04 => .num (armedEntries l)
  | _ => .num 0

/-- Codes of a pin engine's state (R344). -/
def PeState.code : PeState → Nat
  | .disabled => 0
  | .running => 1
  | .waiting => 2
  | .reset => 3

/-- 0x3900 + e and its mirror (R344). -/
def readPe (l : Live) (e s : Nat) : Val :=
  let x := l.pe e
  match s with
  | 0x01 => .num x.state.code
  | 0x02 => .num x.statWord
  | 0x03 => num x.waitCnt
  | 0x04 => num x.underCnt
  | 0x05 => num x.txCnt
  | 0x06 => num x.rxCnt
  | 0x07 => num x.swapCnt
  | 0x08 => num x.shortCnt
  | 0x09 => num x.lost
  | 0x20 => .num x.addr
  | 0x21 => .num x.count
  | 0x22 => .bytes (peBytes x.bank)
  | 0x23 => num x.lc
  | _ => .num 0

/-- Codes of a DMA channel's state (R371). -/
def DmaState.code : DmaState → Nat
  | .disabled => 0
  | .running => 1
  | .stopped => 2
  | .halted => 3

/-- 0x3A00 + c (R371). -/
def readDma (l : Live) (c s : Nat) : Val :=
  let x := l.dc c
  match s with
  | 0x01 => .num x.state.code
  | 0x02 => num x.status
  | 0x03 => num x.remaining
  | 0x04 => num x.descAddr
  | 0x05 => num x.failAddr
  | 0x06 => num x.descCnt
  | 0x07 => num x.busCnt
  | 0x08 => num x.dropCnt
  | _ => .num 0

/-- 0x3A40 (R371): RING_FULL is the state of the ring. -/
def readLog (l : Live) (s : Nat) : Val :=
  let g := l.log
  match s with
  | 0x01 => num (putBit g.status 3 (ringFull l))
  | 0x02 => .num g.head
  | 0x03 => .num g.tail
  | 0x04 => .num g.count
  | 0x05 => num g.tailSeq
  | 0x06 => num g.nextSeq
  | 0x07 => num g.lost
  | 0x08 => num g.lossCnt
  | 0x09 => .num g.staging.length
  | _ => .num 0

/-- Codes of an interrupt group's state (R388). -/
def IrqState.code : IrqState → Nat
  | .idle => 0
  | .pending => 1
  | .activePending => 2
  | .active => 3
  | .held => 4

/-- 0x3B00 + g (R388). -/
def readIrq (l : Live) (g s : Nat) : Val := match s with
  | 0x01 => .num (l.irqGroup g).state.code
  | 0x02 => num (groupLines l g)
  | 0x03 => num (l.irqGroup g).entryCnt
  | 0x04 => num (l.irqGroup g).status
  | _ => .num 0

/-- Codes of a commit group's state (R88). -/
def GroupState.code : GroupState → Nat
  | .idle => 0
  | .staging => 1
  | .armed => 2

/-- 0x3C00 + g (R88). -/
def readGroup (l : Live) (g s : Nat) : Val :=
  let x := l.group g
  match s with
  | 0x01 => .num x.state.code
  | 0x02 => num x.status
  | 0x03 => num x.lateCnt
  | 0x04 => num x.refusedCnt
  | 0x05 => num x.lastDtime
  | 0x06 => num x.genAt
  | 0x07 => fitU l 16 (stagedCount l g)
  | _ => .num 0

/-- 0x3C80 (R88). -/
def readSnap (l : Live) (s : Nat) : Val := match s with
  | 0x01 => num l.snap.seq
  | 0x02 => num l.snap.dtime
  | 0x03 => num l.snap.status
  | 0x04 => num l.snap.deferredCnt
  | 0x05 => num l.conf.gen
  | _ => .num 0

/-- 0x3D00 + n (R122). -/
def readTpin (l : Live) (n s : Nat) : Val :=
  let t := l.tpin n
  match s with
  | 0x01 => num (putBit (putBit t.status 3 t.failsafe) 0 (ballLevel l n))
  | 0x02 => num t.shortCnt
  | _ => .num 0

/-- Bytes of an overlay slot, 1–12; none is empty (R431). -/
def slotBytes (l : Live) (s : Nat) : List Byte := l.mram.overlays.get [] s

/-- A slot is not empty: written, with a delta count above 0 (R431). -/
def slotUsed (l : Live) (s : Nat) : Bool := fieldLE (slotBytes l s) 6 2 ≠ 0

/-- Trigger code of the pending overlay (R433). -/
def pendingWord (l : Live) : Nat := match l.conf.pending with
  | some s => 0x80 + 0x10 + s
  | none => 0

/-- 0x3E00 (R441). -/
def readConf (l : Live) (s : Nat) : Val :=
  let c := l.conf
  match s with
  | 0x01 => num c.status
  | 0x02 => .num c.active
  | 0x03 => .num (pendingWord l)
  | 0x04 => num c.activeCopy
  | 0x05 => num c.storeCount
  | 0x06 => num c.imageStatus
  | 0x07 => num c.refusedCnt
  | 0x08 => num c.lastDtime
  | 0x09 => .num (maskOf ((List.range 13).map (fun i => i ≠ 0 && slotUsed l i)))
  | _ => .num 0

/-- 0x3F00 (R419): a port in Hall mode, with HX-64 view enabled, in the layout of the HX-64. -/
def readCompat (l : Live) (s : Nat) : Val :=
  let on := fun (n : Nat) => l.flag 0x2F00 1 && fbMode l n = 4
  if 1 ≤ s ∧ s ≤ 8 then
    (if on (s - 1) then .num (sectorOf l (s - 1) * 256 + (l.port (s - 1)).lines.toNat) else .num 0xFF00)
  else if 0x11 ≤ s ∧ s ≤ 0x18 then
    (if on (s - 0x11) then fitS l 32 ((l.port (s - 0x11)).vHat.tdiv 65536) else .num 0)
  else .num 0

/-- 0x5E40 (R466). -/
def readReset (l : Live) (s : Nat) : Val :=
  let r := l.rst
  match s with
  | 0x10 => num r.gen
  | 0x11 => num r.sticky
  | 0x12 => num r.lastSources
  | 0x13 => num r.lastReach
  | 0x14 => num r.status
  | 0x15 => num r.assertDtime
  | 0x16 => num r.lastBlock
  | 0x17 => num r.warmCnt
  | 0x18 => num r.blockCnt
  | 0x19 => num r.selfTest
  | 0x1A => num r.dieTemp
  | _ => .num 0

/-- A process object of the life-cycle, the journal or the reset controller (R466). -/
def readDeviceProcess (l : Live) (idx s : Nat) : Val := match idx with
  | 0x5E10 => if s = 1 then num l.rst.life else num l.rst.transitions
  | 0x5E20 => (match s with
    | 2 => .bytes l.journal.result
    | 3 => num l.journal.newest
    | 4 => .num l.journal.valid
    | 5 => num (putBit l.journal.status 2 (!l.journal.queue.isEmpty))
    | _ => num l.journal.lossCnt)
  | _ => readReset l s

/-- A process object read from a frozen device, by its page within 0x3000–0x3FFF; a mirror object lies on the same page. -/
def readProcess (l : Live) (idx s : Nat) : Val :=
  let i := idx % 0x100
  if 0x5E00 ≤ idx then readDeviceProcess l idx s
  else if idx / 256 = 0x50 then
    (if s = 0x20 then fitS l 32 l.time.rate else fitS l 32 l.time.freq)
  else match (if 0x5000 ≤ idx then idx / 256 - 0x20 else idx / 256) with
  | 0x30 => readTime l s
  | 0x31 => readCluster l i s
  | 0x32 => readChannel l i s
  | 0x33 => readChannel l (256 + i) s
  | 0x34 => if i < 24 then readPair l i s else if i = 0x18 then readArm l s else readTrip l (i - 0x20) s
  | 0x35 => readPort l i s
  | 0x36 => if i = 0x10 then readPhase l s else readWheel l i s
  | 0x37 => if i < 48 then readInput l i s else if i < 0x34 then readConv l (i - 0x30) s
    else if i < 0x44 then readSeq l (i - 0x40) s else if s = 1 then num l.analog.status else num l.analog.calTemp
  | 0x38 => if i < 16 then readQueue l i s else readPool l s
  | 0x39 => readPe l i s
  | 0x3A => if i = 0x40 then readLog l s else readDma l i s
  | 0x3B => readIrq l i s
  | 0x3C => if i = 0x80 then readSnap l s else readGroup l i s
  | 0x3D => readTpin l i s
  | 0x3E => readConf l s
  | _ => readCompat l s

/-- Process and status objects: read from a snapshot bank (R69, R466). -/
def isProcess (idx sub : Nat) : Bool :=
  decide ((0x3000 ≤ idx ∧ idx < 0x4000) ∨ (0x5000 ≤ idx ∧ idx < 0x5E00))
    || (idx = 0x5E10 && sub ≠ 2) || (idx = 0x5E20 && decide (2 ≤ sub ∧ sub ≤ 6)) || (idx = 0x5E40 && decide (0x10 ≤ sub))

/-- Pop objects and objects without a numeric form (R81). -/
def isPop (idx sub : Nat) : Bool := (decide (0x3200 ≤ idx ∧ idx < 0x3400) && sub = 7) || (idx = 0x3A40 && sub = 0x10)

/-- TPDO-mappable: a numeric process object that is no pop object (R392, R466). -/
def tpdoMappable (idx sub : Nat) : Bool := isProcess idx sub && !isPop idx sub && (match objRow idx sub with
  | some r => decide (0 < r.bits ∧ r.acc ≠ .wo)
  | none => false)

/-! ### Device objects 0x5E00–0x5FFF (R437–R441, R464–R466, R181) -/

/-- The control-store window (R181): [18:16] cluster, [11:0] address. -/
def windowWord (l : Live) : List Byte :=
  let v := l.micro.winSel.toNat
  let w := microFetch l (field v 18 16) (field v 11 0)
  bytesLE 16 w.1.toNat ++ [w.2]

/-- State of the expert level on a connection (R394, R395). -/
def expertState (c : Conn) (l : Live) : Nat :=
  if l.rst.life = 1 ∨ l.rst.life = 2 then 2 else b2n (l.connSt (connId c)).unlocked

/-- A device object that is no process object. -/
def readDevice (c : Conn) (l : Live) (idx s : Nat) : Val := match idx with
  | 0x5E00 => num l.conf.resyncStatus
  | 0x5E01 => .bytes l.conf.summary
  | 0x5E30 => if s = 1 then num l.micro.winSel else .bytes (windowWord l)
  | 0x5E31 => if s = 3 then num l.micro.status else if s = 4 then num l.micro.activeGen else num l.micro.activeCopy
  | _ => .num (expertState c l)

/-! ### Communication objects 0x1000–0x1FFF (R404) -/

/-- Bytes of "HX-512". -/
def deviceName : List Byte := [0x48, 0x58, 0x2D, 0x35, 0x31, 0x32]

/-- A communication object of the map of values, with the default that names the node-ID (R404). The COB-IDs of a PDO use the node-ID
of the bus that carries it. -/
def commVal (l : Live) (idx s : Nat) : Nat :=
  let p := idx % 256
  let node := fun (bus : Nat) => (l.bus bus).nodeId.toNat
  match l.conf.objs.get none (key idx s) with
  | some v => v.toNat
  | none =>
    if s = 1 ∧ 0x1400 ≤ idx ∧ idx < 0x1410 then
      (if p < 4 then 0x80000200 + 0x100 * p + node (b2n (bitOf l.net.choice.rpdoBus p)) else 0x80000000)
    else if s = 1 ∧ 0x1800 ≤ idx ∧ idx < 0x1810 then
      (if p < 4 then 0x80000180 + 0x100 * p + node (b2n (bitOf l.net.choice.tpdoBus p)) else 0x80000000)
    else dfltOf (key idx s)

/-- The bus whose own value of a per-bus object a connection sees: its own, CAN0 for the host port. -/
def connBus : Conn → Nat
  | .can b _ => b.val
  | .host => 0

/-- A communication object. -/
def readComm (c : Conn) (l : Live) (idx s : Nat) : Val :=
  if idx = 0x1001 then num (errorRegister l)
  else if idx = 0x1003 then (if s = 0 then .num l.net.errors.length else num (nth 0 l.net.errors (s - 1)))
  else if idx = 0x1008 then .bytes deviceName
  else if idx = 0x1009 then .bytes Config.hardwareVersion
  else if idx = 0x100A then .bytes Config.softwareVersion
  else if idx = 0x1010 ∨ idx = 0x1011 then .num 1
  else if idx = 0x1014 then .num (cobEmcy l (connBus c))
  else if idx = 0x1018 then
    (if s = 1 then num Config.vendorId else if s = 2 then .num 0x512 else if s = 3 then .num 0x10000 else num Config.serialNumber)
  else if idx = 0x1021 then .bytes Config.storeEds
  else if idx = 0x1200 ∨ idx = 0x1201 then
    .num ((if s = 1 then 0x600 else 0x580) + (l.bus (idx - 0x1200)).nodeId.toNat)
  else .num (commVal l idx s)

/-! ### Configuration objects (R73, R391) -/

/-- Size of MRAM region 7, the customer area (R421). -/
def customerSize : Nat := 622592

/-- The customer data as a read gives it: up to 65,536 bytes from the offset, within the region (R440). -/
def customerBytes (l : Live) : List Byte :=
  readBytes l.mram.customer l.conf.custOffset (min 65536 (customerSize - l.conf.custOffset))

/-! ### Basic and raw forms (R112, R268, R298, R323, R391) -/

/-- The unit of a channel's word at basic level: 1 ns, 2 ps, 0 the same as raw. -/
def wordUnit (f i : Nat) : Nat := match f, i with
  | 1, 2 | 3, 1 | 4, 1 | 4, 2 | 5, 1 | 5, 2 | 5, 4 | 5, 7 | 6, 3 | 7, 1 | 7, 3 | 8, 3 | 9, 1 => 1
  | 10, 1 => 2
  | _, _ => 0

/-- Ticks back in whole ns or ps, rounded down (R112). -/
def ticksToNs (v : Nat) : Nat := v * 5 / 2
def fineToPs (v : Nat) : Nat := v * 625 / 16

/-- A raw pair value as its basic object shows it: period, dead time and start offset in ps or ns, duty in 2^-16 of the period. -/
def pairBasic (l : Live) (u s raw : Nat) : Nat :=
  let p := l.cfg (0x4400 + u) 0x20
  if s = 4 then (if unitsOf u p = 0 then 0 else unitsOf u raw * 65536 / unitsOf u p)
  else if isPP u then fineToPs raw
  else if s = 5 then ticksToNs (raw / 64)
  else ticksToNs (raw / 64 * l.cfg (0x2400 + u) 0x0D)

/-- A configuration value as the basic object shows the raw one (R112, R391); the SSI clock as its half-period gives it (R242). -/
def basicOf (l : Live) (idx s : Nat) : Val :=
  let k := key idx s
  let v := l.val (storeKey k)
  let full : Int := if 0x2700 ≤ idx && l.cfg idx 1 = 1 then 6600000 else 3300000
  let threshold := decide (0x2700 ≤ idx ∧ idx < 0x2730 ∧ s = 7)
  if threshold then .num (ofSigned 32 (uvToLsb (full = 6600000) (toSigned 32 v.toNat) * full / 65536))
  else if 0x2500 ≤ idx ∧ idx < 0x2508 ∧ s = 0x12 then .num (200000 / ssiHalf l (idx - 0x2500))
  else if storeKey k = k then v
  else if idx < 0x2400 then
    let u := wordUnit (l.cfg idx 1) (s - 0x10)
    .num (if u = 1 then ticksToNs v.toNat else if u = 2 then fineToPs v.toNat else v.toNat)
  else if idx < 0x2500 then .num (pairBasic l (idx - 0x2400) s v.toNat)
  else .num (ofSigned 32 (toSigned 32 v.toNat * full / 65536))

/-- CCTL as committed: the basic objects and the mode (R96). -/
def cctlCommitted (l : Live) (c : Nat) : Nat :=
  l.cfg (0x2200 + c) 1 % 16 * 2 ^ 28 + b2n (l.flag (0x2200 + c) 2) * 2 ^ 27 + l.cfg (0x2200 + c) 3 % 2 * 2 ^ 26
    + field (l.cfg (0x4200 + c) 0x20) 25 14 * 2 ^ 14 + b2n (l.flag (0x2200 + c) 6) * 2 ^ 13 + b2n (l.flag (0x2200 + c) 7) * 2 ^ 12
    + l.cfg (0x2200 + c) 5 % 256

/-- Word 0–15 of a channel, basic or raw. -/
def wordObject (idx s : Nat) : Bool :=
  (decide (0x2200 ≤ idx ∧ idx < 0x2400) || decide (0x4200 ≤ idx ∧ idx < 0x4400)) && 0x10 ≤ s && decide (s < 0x20)

/-- A word as its configuration object shows it: a result word as it stands, a parameter word as committed; a word that the ROM function
does not list reads 0 (R111, R122). -/
def readWord (l : Live) (idx i : Nat) : Val :=
  let c := idx % 0x2000 - 0x200
  if isResult l c i then num (stateWord l c i)
  else if (l.chan c).func.toNat < 12 && decide (paramWords (l.chan c).func.toNat ≤ i) then .num 0
  else basicOf l idx (0x10 + i)

/-- A configuration object. -/
def readConfig (c : Conn) (l : Live) (idx s : Nat) : Val :=
  let k := key idx s
  if k = key 0x2000 1 then .num (b2n l.time.refsel)
  else if k = key 0x2000 0x24 ∨ k = key 0x2000 0x25 then num (l.bus (s - 0x24)).nodeId
  else if k = key 0x2810 1 then .bytes l.events.lastLive
  else if k = key 0x2810 2 then num l.events.lastCancel
  else if k = key 0x2810 3 then num (l.connSt (connId c)).lastAlloc
  else if k = key 0x2811 2 then .bytes l.events.listResult
  else if k = key 0x2811 4 then num l.events.imageStatus
  else if decide (0x2C00 ≤ idx ∧ idx < 0x2C40) && s = 6 then .bytes ((l.group (idx - 0x2C00)).members.flatMap memberEntry)
  else if decide (idx = 0x2E00 ∧ 0x11 ≤ s ∧ s ≤ 0x1C) then .bytes (slotBytes l (s - 0x10))
  else if k = key 0x2E00 0x20 then .num l.conf.custOffset
  else if k = key 0x2E00 0x21 then .bytes (customerBytes l)
  else if decide (0x4200 ≤ idx ∧ idx < 0x4400) && s = 0x20 then .num (cctlCommitted l (idx - 0x4200))
  else if wordObject idx s then readWord l idx (s - 0x10)
  else basicOf l idx s

end Sys2Proof.Machine
end

