-- ==== Sys2Proof/Machine/Values.lean ====
section
/-! DEFINITION. What a written value must satisfy before it is staged or applied: its length, its limits, its raw form, and the limits
that relate it to other values as staged or, where nothing is staged, as committed (R96, R111, R112, R122, R205, R227, R230, R265,
R268, R277, R284, R286, R298, R300, R301, R315, R320, R323, R327, R328, R334, R338, R344, R350, R364, R370, R388, R400, R413). -/

namespace Sys2Proof.Machine

open Sys2Proof

/-! ### Length and limits of the object's own row -/

/-- Bytes of an object's type. -/
def ObjRow.size (r : ObjRow) : Nat := (r.bits + 7) / 8

/-- A number in the limits of its row. -/
def ObjRow.admits (r : ObjRow) (v : Nat) : Bool :=
  let x : Int := if r.signed then toSigned r.bits v else (v : Int)
  decide (r.lo ≤ x ∧ x ≤ r.hi)

/-- Permitted lengths of objects without a numeric form: exact, or up to a bound. -/
def bytesFit (idx s n : Nat) : Bool :=
  if key idx s = key 0x2000 0x2C then n % 4 = 0 && decide (n ≤ 4096)
  else if key idx s = key 0x2810 1 then n = 17
  else if decide (0x2900 ≤ idx ∧ idx < 0x2910) then n = 144
  else if decide (0x2A00 ≤ idx ∧ idx < 0x2A20) then n = 32
  else true

/-- A written value in the form of its object's type, or the abort (R393). -/
def parseValue (idx s : Nat) (data : List Byte) : Except Nat Val := match objRow idx s with
  | none => .error abNoObject
  | some r =>
    if r.bits = 0 then (if bytesFit idx s data.length then .ok (.bytes data) else .error abLength)
    else if data.length ≠ r.size then .error abLength
    else if r.admits (ofBytesLE data) then .ok (.num (ofBytesLE data))
    else .error abRange

/-! ### Raw forms (R112, R268, R298, R323) -/

/-- ns to whole TCLK, ps to fine ticks. -/
def nsToTicks (v : Nat) : Nat := roundHalfDown (v * 2) 5
def psToFine (v : Nat) : Nat := roundHalfDown (v * 16) 625

/-- The raw form of a basic pair value; a period beyond its basic limits has none. -/
def pairRaw (l : Live) (u s v : Nat) : Option Nat :=
  if s = 3 ∧ (if isPP u then v < 40000 ∨ 163839960 < v else v < 40 ∨ 41942400 < v) then none
  else if s = 4 then
    let p := seenVal l (0x4400 + u) 0x20
    let d := roundHalfDown (unitsOf u p * v) 65536
    some (if isPP u then d else d * 64)
  else if isPP u then some (psToFine v)
  else if s = 5 then some (nsToTicks v * 64)
  else some (roundHalfDown (v * 2) (5 * seenVal l (0x2400 + u) 0x0D) * 64)

/-- The form in which a number written to an object is stored; none where it lies outside its limits. -/
def toRaw (l : Live) (idx s v : Nat) : Option Nat :=
  if storeKey (key idx s) = key idx s then some v
  else if idx < 0x2400 then
    let u := wordUnit (seenVal l idx 1) (s - 0x10)
    some (if u = 1 then nsToTicks v else if u = 2 then psToFine v else v)
  else if idx < 0x2500 then pairRaw l (idx - 0x2400) s v
  else some (ofSigned 32 (uvToLsb (seenVal l idx 1 = 1) (toSigned 32 v)))

/-! ### Channels and T-pins (R96, R107, R111, R116, R122) -/

/-- A word as a check sees it: staged, in force, or a ROM function's default where none was written (log entry 30). The caller leaves
only the words' own group staged (R111). -/
def seenParam (l : Live) (f c i : Nat) : Nat :=
  let k := key (0x4200 + c) (0x10 + i)
  match stagedVal l k, romLimits f i with
  | some v, _ => v.toNat
  | none, some (_, _, d) => if wordWritten l c i then l.cfg (0x4200 + c) (0x10 + i) else d
  | none, none => l.cfg (0x4200 + c) (0x10 + i)

/-- A table descriptor of entries of n bytes each (R116). -/
def tableOk (n v : Nat) : Bool :=
  let cnt := field v 47 32
  let off := field v 31 0
  decide (1 ≤ cnt) && off % 8 = 0 && decide (off + (cnt * n + 7) / 8 * 8 ≤ tableSize)

/-- The HI service bound plus 2 TCLK, in fine ticks: the shortest delay of FOLLOW (R115, R120, R165; log entry 40). -/
def followFloor (l : Live) (c : Nat) : Nat := (16 * l.cfg (0x4100 + c / 64) 0x20 + 2) * 64

/-- Limits that relate word i of a ROM function to another word or to the mode (R111): those that name word i. -/
def wordsAgree (l : Live) (f c i v : Nat) : Bool :=
  let w := fun (j : Nat) => if j = i then v else seenParam l f c j
  match f, i with
  | 5, 1 => decide (w 2 + 2 ≤ w 1) && decide (w 3 * w 1 ≤ w 4)
  | 5, 2 => decide (w 2 + 2 ≤ w 1)
  | 5, 3 | 5, 4 => decide (w 3 * w 1 ≤ w 4)
  | 5, 6 => tableOk 8 v
  | 6, 2 => tableOk 4 v
  | 7, 1 | 7, 3 => decide (2 * w 3 ≤ w 1)
  | 8, 0 => decide (w 1 ≤ w 0) && (w 2 = 0 || w 0 % 2 = 0)
  | 8, 1 => decide (w 1 ≤ w 0)
  | 8, 2 => w 2 = 0 || w 0 % 2 = 0
  | 10, 1 => decide (followFloor l c ≤ v)
  | _, _ => true

/-- A write of word i in raw form (R111, R141). -/
def checkWord (l0 : Live) (c i v : Nat) : Nat :=
  let l := onlyGroup (ownerOf l0 (key (0x4200 + c) (0x10 + i))) l0
  let f := seenVal l (0x2200 + c) 1
  if isResultOf l f c i then abReadOnly
  else if 12 ≤ f then 0
  else match romLimits f i with
    | none => abRange
    | some (lo, hi, _) =>
      if (f = 2 ∧ i = 1 ∧ 192 ≤ v ∧ v ≠ 0xFF) ∨ v < lo ∨ hi < v ∨ wordsAgree l f c i v = false then abRange else 0

/-- HI channels of a cluster but c, as seen. -/
def hiOthers (l : Live) (c : Nat) : Nat :=
  ((List.range 64).filter (fun i =>
    let d := c / 64 * 64 + i
    d ≠ c && seenVal l (0x2200 + d) 3 = 1)).length

def checkChannel (l : Live) (c s v : Nat) : Nat := match s with
  | 0x03 => if v = 1 ∧ 8 ≤ hiOthers l c then abRange else 0
  | 0x04 => if v < 192 ∨ v = 0xFF then 0 else abRange
  | 0x08 => if v < 512 ∨ v = 0xFFFF then 0 else abRange
  | _ => 0

/-! ### PWM and trips (R268, R277, R284, R286, R298) -/

/-- R268 on raw values. -/
def pairAgrees (l : Live) (u s v : Nat) : Bool :=
  let get := fun (x : Nat) => if x = s then v else seenVal l (0x4400 + u) x
  let n := if isPP u then 1 else 64 * seenVal l (0x2400 + u) 0x0D
  let p := unitsOf u (get 0x20) * n
  let low := if isPP u then 16 * 64 else 2 * n
  decide (low ≤ p) && decide (16 * 64 ≤ p) && decide (2 * get 0x22 < p) && decide (unitsOf u (get 0x23) * n < p)

def checkPairRaw (l : Live) (u s v : Nat) : Nat :=
  if (if s = 0x22 then 2 ^ 16 else 2 ^ 22) ≤ v ∨ (isPP u = false ∧ v % 64 ≠ 0) then abRange
  else if s = 0x21 then (if streaming l u then abLocal else 0)
  else if pairAgrees l u s v then 0 else abRange

def checkPair (l : Live) (u s v : Nat) : Nat :=
  let get := fun (x : Nat) => if x = s then v else seenVal l (0x2400 + u) x
  match s with
  | 0x08 | 0x09 | 0x0A | 0x0B => if get 0x0A = 1 - get 8 ∧ get 0x0B = 1 - get 9 then abRange else 0
  | 0x0D => if isPP u ∧ v ≠ 1 then abRange else 0
  | 0x0E => if isPP u ∧ v ≠ 0 then abRange else 0
  | _ => 0

def checkTrip (l : Live) (i s v : Nat) : Nat :=
  let get := fun (x : Nat) => if x = s then v else seenVal l (0x2420 + i) x
  if (s = 5 ∧ 512 ≤ v ∧ v ≠ 0xFFFF) ∨ ((s = 3 ∨ s = 5) ∧ get 3 = 1 ∧ get 5 = 0xFFFF) then abRange else 0

/-! ### Feedback and wheels (R227, R230, R265, R320) -/

def checkPort (l : Live) (n s v : Nat) : Nat :=
  let get := fun (x : Nat) => if x = s then v else seenVal l (0x2500 + n) x
  let ok := match s with
    | 0x03 => decide (v ≤ 64) || seenVal l (0x2500 + n) 1 = 4
    | 0x13 | 0x14 | 0x15 => decide (get 0x13 + get 0x14 + get 0x15 ≤ 48)
    | 0x17 => v = 0 || decide (10 ≤ v)
    | 0x1B => v = 0xFF || (decide (v < 8) && v ≠ n)
    | 0x1C => v ≠ 0
    | 0x1D => sourceOk l v
    | _ => true
  if ok then 0 else abRange

def checkWheel (l : Live) (w s v : Nat) : Nat := match s with
  | 0x02 => if v < 192 ∨ v = 0xFF then 0 else abRange
  | 0x09 => if v ≤ seenVal l (0x2600 + w) 5 * 512 then 0 else abRange
  | _ => 0

/-- The limits of each expert ratio by itself; their order is the commit's to hold (R227). -/
def checkRatio (s v : Nat) : Nat :=
  let ok := match s with
    | 0x20 => decide (100 ≤ v ∧ v < 1000)
    | 0x21 => decide (500 ≤ v ∧ v < 1000)
    | 0x22 => decide (1000 < v ∧ v ≤ 2000)
    | 0x23 | 0x24 => decide (1000 < v ∧ v ≤ 4000)
    | 0x25 => decide (500 ≤ v ∧ v ≤ 1000)
    | _ => decide (1000 ≤ v ∧ v ≤ 2000)
  if ok then 0 else abRange

/-! ### Analogue (R300, R301, R303, R310, R315, R320) -/

def checkInput (_l : Live) (a s v : Nat) : Nat := if s = 1 ∧ a % 2 = 1 ∧ v = 1 then abRange else 0

/-- R315 on raw limits. -/
def checkLimits (l : Live) (a s v : Nat) : Nat :=
  let get := fun (x : Nat) => toSigned 32 (if x = s then v else seenVal l (0x4700 + a) x)
  if get 0x20 < get 0x21 then abRange else 0

def checkConv (k s v : Nat) : Nat := if (s = 2 ∧ v % 2 = 1) ∨ (s = 3 ∧ v = 1 ∧ k % 2 = 1) then abRange else 0

def checkStep (l : Live) (q s v : Nat) : Nat :=
  if s < 0x10 then 0
  else if stepOk l v && (!stepIsSource l q (s - 0x10) || (sincosConv (BitVec.ofNat 64 v)).isSome) then 0
  else abRange

/-! ### Pin engines (R327, R328, R334, R338) -/

def checkPe (l : Live) (e s : Nat) (v : Val) : Nat :=
  let n := v.toNat
  let idx := 0x2900 + e
  match s with
  | 0x01 | 0x02 => if windowOk l e s n then 0 else abRange
  | 0x03 => if windowOk l e s n && programsOk l e s n then 0 else abRange
  | 0x07 | 0x08 => if decide (n < 2 ^ seenVal l idx 3) && programsOk l e s n then 0 else abRange
  | 0x09 => if (List.range 8).any (fun j => field n (2 * j + 1) (2 * j) = 3) then abRange else 0
  | 0x0D => if (l.pe e).swapPending then abState
    else if peProgramOk (seenVal l idx 3) (seenVal l idx 7) (seenVal l idx 8) v.toBytes then 0 else abRange
  | _ => 0

/-! ### DMA, log, interrupts, network, groups (R346, R350, R364, R370, R388, R400, R413) -/

/-- Ring base and size fit the fitted memory (R364, R370). -/
def ringFits (l : Live) (base size : Nat) : Bool :=
  base % 1048576 = 0 && decide (lpddrBase ≤ base) && decide (base + max 1 size * 1048576 ≤ lpddrEnd l)

/-- A change of the ring is staged. -/
def ringStaged (l : Live) : Bool :=
  let moved := fun (s : Nat) => match stagedVal l (key 0x2A40 s) with
    | some v => v.toNat ≠ l.cfg 0x2A40 s
    | none => false
  moved 2 || moved 3

def checkLog (l : Live) (s v : Nat) : Nat :=
  let get := fun (x : Nat) => if x = s then v else seenVal l 0x2A40 x
  match s with
  | 0x01 => if v = 1 ∧ ringStaged l then abState else 0
  | 0x02 | 0x03 => if seenVal l 0x2A40 1 ≠ 0 then abState else if ringFits l (get 2) (get 3) then 0 else abRange
  | _ => 0

def checkDmaObj (l : Live) (s : Nat) (v : Val) : Nat := match s with
  | 0x01 => if v.toNat < 96 ∨ v.toNat = 0xFE ∨ v.toNat = 0xFF then 0 else abRange
  | 0x03 => if descOk l v.toBytes then 0 else abRange
  | _ => 0

/-- Entries of the host bundle map (R413). -/
def mapOk (b : List Byte) : Bool :=
  (List.range (b.length / 4)).all (fun i => match memberKey (fieldLE b (4 * i) 4) with
    | some k => tpdoMappable (k / 256) (k % 256)
    | none => false)

def checkTimeObj (s : Nat) (v : Val) : Nat := match s with
  | 0x20 | 0x22 => if [125, 250, 500, 800, 1000].contains v.toNat then 0 else abRange
  | 0x21 | 0x23 => if [0, 1000, 2000, 4000, 5000, 8000].contains v.toNat then 0 else abRange
  | 0x2C => if mapOk v.toBytes then 0 else abNotMappable
  | _ => 0

/-! ### The check of a configuration value in raw form -/

/-- 0 where the value of a stored object is accepted, else the abort code. The object is named by its stored key. -/
def checkValue (l : Live) (k : Key) (v : Val) : Nat :=
  let idx := k / 256
  let s := k % 256
  let n := v.toNat
  let i := idx % 256
  match idx / 256 with
  | 0x20 => checkTimeObj s v
  | 0x22 | 0x23 => checkChannel l (idx - 0x2200) s n
  | 0x24 => if i < 24 then checkPair l i s n else if i = 0x18 then 0 else checkTrip l (i - 0x20) s n
  | 0x25 => checkPort l i s n
  | 0x26 => if i = 0x10 then (if n = 0xFF ∨ (n < 4 ∧ n ≠ s - 1) then 0 else abRange) else checkWheel l i s n
  | 0x27 => if i < 48 then checkInput l i s n else if i < 0x34 then checkConv (i - 0x30) s n
    else if i < 0x44 then checkStep l (i - 0x40) s n else 0
  | 0x29 => checkPe l i s v
  | 0x2A => if i < 0x20 then checkDmaObj l s v
    else if i = 0x20 then (if n < 512 ∨ n = 0xFFFF then 0 else abRange)
    else if i = 0x40 then checkLog l s n else 0
  | 0x2B => if s = 3 ∧ 4 ≤ n ∧ n ≠ 0xFF then abRange else 0
  | 0x2C => if i = 0x80 ∧ s = 1 ∧ n ≠ 0 ∧ n < 100 then abRange else 0
  | 0x2D => if s = 2 ∧ 512 ≤ n ∧ n ≠ 0xFFFE ∧ n ≠ 0xFFFF then abRange else 0
  | 0x42 | 0x43 =>
    if s = 0x20 then (if seenVal l (idx - 0x2000) 1 < 12 then abRange else 0) else checkWord l (idx - 0x4200) (s - 0x10) n
  | 0x44 => checkPairRaw l i s n
  | 0x46 => checkRatio s n
  | 0x47 => checkLimits l i s n
  | _ => 0

/-- A value written to a configuration object, in its stored form, or its abort code. -/
def admitValue (l : Live) (idx s : Nat) (v : Val) : Except Nat Val := match v with
  | .bytes b => match checkValue l (storeKey (key idx s)) (.bytes b) with
    | 0 => .ok v
    | a => .error a
  | .num n => match toRaw l idx s n with
    | none => .error abRange
    | some r => match checkValue l (storeKey (key idx s)) (.num r) with
      | 0 => .ok (.num r)
      | a => .error a

end Sys2Proof.Machine
end

