-- ==== Sys2Proof/Machine/Stage.lean ====
section
/-! DEFINITION. Writes of configuration objects into their commit group and writes of status words (R73–R76, R84, R86, R404, R434), and
the commands CONFIG_OBJECT_WRITE's staging and STATUS_W1C_WRITE's clearing share with SDO, mailbox and RPDO. -/

namespace Sys2Proof.Machine

open Sys2Proof

/-- The active overlay covers an object (R434). -/
def covered (l : Live) (k : Key) : Bool := l.conf.ovl.any (fun e => e.1 = storeKey k)

/-- Stages an accepted value in the group that owns the object (R73, R76, R434). -/
def stageValue (k : Key) (v : Val) (l : Live) : Live × Nat :=
  if covered l k then (l, abLocal)
  else if groupArmed l (ownerOf l k) then (l, abState)
  else (stageIn (ownerOf l k) (storeKey k) v l, 0)

/-- A write of a configuration object (R73). -/
def stageWrite (idx s : Nat) (data : List Byte) (l : Live) : Live × Nat := match parseValue idx s data with
  | .error a => (l, a)
  | .ok v => match admitValue l idx s v with
    | .error a => (l, a)
    | .ok r => stageValue (key idx s) r l

/-! ### Status words (R84) -/

/-- 0x3000 (R62, R389, R420). -/
def clearTime (s v : Nat) (l : Live) : Live := match s with
  | 0x04 => { l with time := { l.time with status := clrMask l.time.status (BitVec.ofNat 16 (v &&& 0x3FF)) } }
  | 0x10 => { l with doze := { l.doze with cause := clrMask l.doze.cause (BitVec.ofNat 8 (v &&& 0xBF)) } }
  | 0x20 | 0x21 =>
    l.updBus (s - 0x20) (fun b =>
      let st := clrMask b.status (BitVec.ofNat 16 (v &&& 0x0FFC))
      { b with status := st, tpdoDrop := if anyMask st 0x100 then b.tpdoDrop else 0,
               rpdoFlag := if anyMask st 0x600 then b.rpdoFlag else 0 })
  | _ => l

/-- A clearing write of the arm status (R299). -/
def clearArm (v : Nat) (l : Live) : Live :=
  { l with pwm := { l.pwm with status := clrMask l.pwm.status (BitVec.ofNat 16 (v &&& 0x1F)) } }

/-- A clearing write of the analogue objects (R324). -/
def clearAnalog (i v : Nat) (l : Live) : Live :=
  if i < 48 then l.updAnIn i (fun x => { x with status := clrMask x.status (BitVec.ofNat 8 (v &&& 0x0F)) })
  else if i < 0x34 then l.updConv (i - 0x30) (fun x => { x with status := clrMask x.status (BitVec.ofNat 8 (v &&& 0x0B)) })
  else if i < 0x44 then l.updSeq (i - 0x40) (fun x => { x with status := clrMask x.status (BitVec.ofNat 8 (v &&& 0x07)) })
  else { l with analog := { l.analog with status := clrMask l.analog.status (BitVec.ofNat 8 (v &&& 0x12)) } }

/-- A clearing write of the event objects (R206). -/
def clearEvents (i v : Nat) (l : Live) : Live :=
  if i < 16 then l.updQueue i (fun x => { x with status := clrMask x.status (BitVec.ofNat 16 (v &&& 0x7F)) })
  else { l with events := { l.events with poolStatus := clrMask l.events.poolStatus (BitVec.ofNat 8 (v &&& 0x03)) } }

/-- A clearing write of a DMA channel or of the log (R371). -/
def clearDma (i v : Nat) (l : Live) : Live :=
  if i = 0x40 then { l with log := { l.log with status := clrMask l.log.status (BitVec.ofNat 8 (v &&& 0x07)) } }
  else l.updDc i (fun x => { x with status := clrMask x.status (BitVec.ofNat 8 (v &&& 0x1F)) })

/-- A clearing write of a group or of the snapshot controller (R88). -/
def clearGroup (i v : Nat) (l : Live) : Live :=
  if i = 0x80 then { l with snap := { l.snap with status := clrMask l.snap.status (BitVec.ofNat 8 (v &&& 0x07)) } }
  else l.updGroup i (fun x => { x with status := clrMask x.status (BitVec.ofNat 8 (v &&& 0x07)) })

/-- A clearing write of the journal or of the reset block (R465, R466). -/
def clearDevice (idx s v : Nat) (l : Live) : Live :=
  if idx = 0x5E20 then { l with journal := { l.journal with status := clrMask l.journal.status (BitVec.ofNat 8 (v &&& 0x03)) } }
  else if s = 0x11 then { l with rst := { l.rst with sticky := clrMask l.rst.sticky (BitVec.ofNat 32 v) } }
  else { l with rst := { l.rst with status := clrMask l.rst.status (BitVec.ofNat 16 (v &&& 0x00E7)) } }

/-- A clearing write of a status word: bits marked w1c and written as 1 clear, all else has no effect, and a flag that hardware sets in
the same TCLK stays set (R84, R86). -/
def clearStatus (idx s w : Nat) (l : Live) : Live :=
  let v := clearable l (key idx s) w
  let i := idx % 256
  match idx / 256 with
  | 0x30 => clearTime s v l
  | 0x31 => l.updCluster i (fun x => { x with status := clrMask x.status (BitVec.ofNat 8 (v &&& 0x1F)) })
  | 0x32 | 0x33 =>
    if s = 1 then l.updChan (idx - 0x3200) (fun x => { x with cstat := clrMask x.cstat (BitVec.ofNat 16 (v &&& 0x7F)) })
    else l.updChan (idx - 0x3200) (fun x => { x with fl := clrMask x.fl (BitVec.ofNat 8 v) })
  | 0x34 =>
    if i < 24 then l.updPair i (fun p => { p with status := clrMask p.status (BitVec.ofNat 16 (v &&& 0xFF)) })
    else if i = 0x18 then clearArm v l
    else l.updTrip (i - 0x20) (fun t => { t with status := clrMask t.status (BitVec.ofNat 8 (v &&& 0x07)) })
  | 0x35 =>
    l.updPort i (fun p =>
      portCleared (BitVec.ofNat 32 v) { p with status := clrMask p.status (BitVec.ofNat 32 (v &&& 0x1FFFF)) })
  | 0x36 => l.updWheel i (fun x => { x with status := clrMask x.status (BitVec.ofNat 16 (v &&& 0x1FF)) })
  | 0x37 => clearAnalog i v l
  | 0x38 => clearEvents i v l
  | 0x39 => peW1c i (v &&& 0xFF) l
  | 0x3A => clearDma i v l
  | 0x3B => l.setIrqGroup i { l.irqGroup i with status := clrMask (l.irqGroup i).status (BitVec.ofNat 8 (v &&& 0x01)) }
  | 0x3C => clearGroup i v l
  | 0x3D => if bitOf v 1 then clearTpinShort i l else l
  | 0x3E => { l with conf := { l.conf with status := clrMask l.conf.status (BitVec.ofNat 8 (v &&& 0x7B)) } }
  | _ => clearDevice idx s v l

/-- A write to a status word of its own length (R84, R393). -/
def statusWrite (idx s : Nat) (data : List Byte) (l : Live) : Live × Nat := match objRow idx s with
  | none => (l, abNoObject)
  | some r => if data.length ≠ r.size then (l, abLength) else (clearStatus idx s (ofBytesLE data) l, 0)

end Sys2Proof.Machine
end

