-- ==== Sys2Proof/Machine/DeviceRecord.lean ====
section
/-! DEFINITION. The device record in MRAM (R422): its form, the choice of the newer valid one, and its write. -/

namespace Sys2Proof.Machine

open Sys2Proof

/-- The settings of a device record: expert key, and node-ID and arbitration code of each bus. -/
structure Settings where
  key : Nat := 0
  node : List Nat := [0xFF, 0xFF]
  /-- Code 0–4 of the LSS table; 0xFF where LSS has stored none (log entry 42). -/
  code : List Nat := [0xFF, 0xFF]
deriving DecidableEq, Repr

/-- A device record without its CRC, bytes 0–27 (R422). -/
def deviceBody (count : Nat) (x : Settings) : List Byte :=
  [0x50, 0x59, 0x44, 0x31] ++ bytesLE 2 1 ++ bytesLE 2 0 ++ bytesLE 4 count ++ bytesLE 4 x.key
    ++ bytesLE 1 (nth 0xFF x.node 0) ++ bytesLE 1 (nth 0xFF x.code 0) ++ bytesLE 1 (nth 0xFF x.node 1)
    ++ bytesLE 1 (nth 0xFF x.code 1) ++ bytesLE 8 0

/-- A whole device record. -/
def deviceBytes (count : Nat) (x : Settings) : List Byte :=
  let b := deviceBody count x
  b ++ bytesLE 4 (crc32c b).toNat

/-- A record is valid: magic, version, reserved bytes and CRC (R422). -/
def recordValid (b : List Byte) : Bool :=
  decide (b.length = 32) && decide (b.take 4 = [0x50, 0x59, 0x44, 0x31]) && fieldLE b 4 2 = 1 && fieldLE b 6 2 = 0
    && fieldLE b 20 8 = 0 && fieldLE b 28 4 = (crc32c (b.take 28)).toNat

def recordCount (b : List Byte) : Nat := fieldLE b 8 4

/-- The settings that a record holds. -/
def recordSettings (b : List Byte) : Settings :=
  { key := fieldLE b 12 4, node := [fieldLE b 16 1, fieldLE b 18 1], code := [fieldLE b 17 1, fieldLE b 19 1] }

/-- Record A is the one a start-up reads: valid, and not older than a valid B (R422). -/
def recordA (l : Live) : Bool :=
  recordValid l.mram.recA
    && !(recordValid l.mram.recB && newer32 (recordCount l.mram.recB) (recordCount l.mram.recA))

/-- The settings in MRAM: key 0 and node-IDs 0xFF where neither record is valid (R422). -/
def storedSettings (l : Live) : Settings :=
  if recordA l then recordSettings l.mram.recA
  else if recordValid l.mram.recB then recordSettings l.mram.recB
  else {}

/-- Writes the device record to the copy that does not hold the newer valid one, with a write count one higher (R422). -/
def storeSettings (x : Settings) (l : Live) : Live :=
  if recordA l then
    { l with mram := { l.mram with recB := deviceBytes ((recordCount l.mram.recA + 1) % 2 ^ 32) x } }
  else
    let n := if recordValid l.mram.recB then (recordCount l.mram.recB + 1) % 2 ^ 32 else 1
    { l with mram := { l.mram with recA := deviceBytes n x } }

end Sys2Proof.Machine
end

