-- ==== Sys2Proof/Machine/Overlay.lean ====
section
/-! DEFINITION. Month overlays: the slot image, its check on writing, and the application as one commit, or its refusal (R430–R436). -/

namespace Sys2Proof.Machine

open Sys2Proof

/-! ### The slot image (R430, R431) -/

/-- A delta: index, subindex, length, value. -/
structure Delta where
  idx : Nat
  sub : Nat
  len : Nat
  val : Nat
deriving DecidableEq, Repr

/-- Number of deltas of a slot image, and delta i. -/
def deltaCount (b : List Byte) : Nat := fieldLE b 6 2
def deltaAt (b : List Byte) (i : Nat) : Delta :=
  let o := 0x20 + 16 * i
  ⟨fieldLE b o 2, fieldLE b (o + 2) 1, fieldLE b (o + 3) 1, fieldLE b (o + 8) 8⟩
def deltasOf (b : List Byte) : List Delta := (List.range (deltaCount b)).map (deltaAt b)

/-- A delta names an overlay-able object with the size of its type and a value within the object's own limits (R430, R431). -/
def deltaOk (b : List Byte) (i : Nat) : Bool :=
  let d := deltaAt b i
  fieldLE b (0x20 + 16 * i + 4) 4 = 0 && decide (1 ≤ d.len ∧ d.len ≤ 8) && (match objRow d.idx d.sub with
    | some r => r.ovl && decide (d.len = r.size) && decide (d.val < 2 ^ (8 * d.len)) && r.admits d.val
    | none => false)

/-- The last four bytes are the CRC of every byte before them (R430). -/
def slotCrcOk (b : List Byte) : Bool := fieldLE b (b.length - 4) 4 = (crc32c (b.take (b.length - 4))).toNat

/-- A slot image is accepted for slot s (R431). -/
def slotImageOk (s : Nat) (b : List Byte) : Bool :=
  let n := deltaCount b
  decide (b.take 4 = [0x50, 0x59, 0x4F, 0x31]) && fieldLE b 4 2 = 1 && decide (n ≤ 512) && fieldLE b 8 1 = s
    && fieldLE b 9 7 = 0 && decide (b.length = 0x24 + 16 * n) && slotCrcOk b && (List.range n).all (deltaOk b)
    && decide (((deltasOf b).map (fun d => (d.idx, d.sub))).Nodup)

/-- OVERLAY_SLOT_WRITE (R431). -/
def slotWrite (s : Nat) (data : List Byte) (l : Live) : Live × Nat :=
  if l.conf.active = s ∨ l.conf.pending = some s then (l, abState)
  else if slotImageOk s data then
    ({ l with mram := { l.mram with overlays := l.mram.overlays.put [] s data } }, 0)
  else (l, abRange)

/-! ### Application (R432–R436) -/

/-- The device as a check of an overlay sees it: no staged values, and the deltas taken so far in force (R433). -/
def underOverlay (vs : List (Key × Val)) (l : Live) : Live :=
  { l with groups := l.groups.map (fun e => (e.1, { e.2 with staged := { e.2.staged with objs := [] } })),
           conf := { l.conf with ovl := vs } }

/-- The order in which deltas take their stored form: what a conversion depends on comes before what it converts. -/
def deltaRank (d : Delta) : Nat :=
  let k := key d.idx d.sub
  if storeKey k = k then 0 else if d.idx / 256 = 0x24 ∧ d.sub = 4 then 2 else 1

/-- Takes the deltas of a rank into stored form; none where one has none. -/
def takeDeltas (l : Live) (rank : Nat) : List Delta → List (Key × Val) → Option (List (Key × Val))
  | [], vs => some vs
  | d :: r, vs =>
    if deltaRank d ≠ rank then takeDeltas l rank r vs
    else match toRaw (underOverlay vs l) d.idx d.sub d.val with
      | some v => takeDeltas l rank r (putStaged (storeKey (key d.idx d.sub)) (.num v) vs)
      | none => none

/-- The values of a slot in stored form. -/
def overlayValues (l : Live) (ds : List Delta) : Option (List (Key × Val)) :=
  ((takeDeltas l 0 ds []).bind (takeDeltas l 1 ds)).bind (takeDeltas l 2 ds)

/-- The first check that a value fails under the values that would be in force, 0 for none (R433). -/
def overlayCheck (l : Live) (vs : List (Key × Val)) : Nat :=
  let u := underOverlay vs l
  match vs.find? (fun e => checkValue u e.1 e.2 ≠ 0) with
  | some e => checkValue u e.1 e.2
  | none => 0

/-- The reason for which an application is refused, 0 for none, with the values of the slot (R433). Of several reasons the lowest. -/
def overlayReason (s : Nat) (l : Live) : Nat × List (Key × Val) :=
  let b := slotBytes l s
  if s = 0 then (0, [])
  else if !slotUsed l s || !slotCrcOk b then (1, [])
  else match overlayValues l (deltasOf b) with
    | none => (2, [])
    | some vs =>
      let c := overlayCheck l vs
      if c = abLocal then (3, vs) else if c ≠ 0 then (2, vs)
      else if vs.any (fun e => groupArmed l (ownerOf l e.1) && (stagedVal l e.1).isSome) then (4, vs)
      else if vs.any (fun e => keyHeld l e.1) then (5, vs)
      else (0, vs)

/-- The record of an application (R436). -/
def overlayRecord (new old trigger reason : Nat) (l : Live) : Live :=
  writeRecord (0xE000 + 0x40 * new) 0x73
    (l.conf.gen.toNat + new * 2 ^ 16 + old * 2 ^ 20 + trigger * 2 ^ 24 + reason * 2 ^ 28) l

/-- A refused application (R433). -/
def overlayRefused (new trigger reason : Nat) (l : Live) : Live :=
  let c := l.conf
  overlayRecord new c.active trigger reason
    (noteBit 0x3E00 1 0 { l with conf := { c with status := setBit c.status 0, refusedCnt := c.refusedCnt + 1 } })

/-- Staged values of covered objects are dropped (R432). -/
def dropCovered (vs : List (Key × Val)) (l : Live) : Live := forAll (fun e l => unstage (ownerOf l e.1) e.1 l) vs l

/-- The objects that the change of overlay gives a new value in force. -/
def overlayKeys (old new : List (Key × Val)) : List Key :=
  new.map (fun e => e.1) ++ (old.map (fun e => e.1)).filter (fun k => !(new.any (fun e => e.1 = k)))

/-- The application as one commit (R432). -/
def overlayCommit (s trigger : Nat) (vs : List (Key × Val)) (l : Live) : Live :=
  let old := l
  let slot := l.conf.active
  let ks := overlayKeys l.conf.ovl vs
  let l := dropCovered vs l
  let c := { l.conf with ovl := vs, active := s, lastDtime := l.time.dtime, status := setBit l.conf.status 1 }
  let a := advanceGen (noteBit 0x3E00 1 1 { l with conf := c })
  let l := if a.2 then noteBit 0x3E00 1 6 { a.1 with conf := { a.1.conf with status := setBit a.1.conf.status 6 } } else a.1
  let r := loadMembers l false (ks.map (fun k => (k, l.val k))) l
  let l := if r.2 then noteBit 0x3E00 1 5 { r.1 with conf := { r.1.conf with status := setBit r.1.conf.status 5 } } else r.1
  commitHooks old ks (overlayRecord s slot trigger 0 l)

/-- An application of slot s by a trigger, or its refusal (R432, R433). -/
def applyOverlay (s trigger : Nat) (l : Live) : Live :=
  let r := overlayReason s l
  if r.1 = 0 then overlayCommit s trigger r.2 l else overlayRefused s trigger r.1 l

/-- The application that waits for the next PPS (R435). -/
def pendingOverlay (l : Live) : Live := match l.conf.pending with
  | some s => applyOverlay s 1 { l with conf := { l.conf with pending := none } }
  | none => l

/-- The trip overlay, 1 TCLK after the first latch after arming (R435). -/
def tripOverlay (l : Live) : Live := match l.conf.tripDue with
  | some t =>
    if t ≤ l.now then
      let l := { l with conf := { l.conf with tripDue := none } }
      let s := l.cfg 0x2E00 4
      if s = 0 then l else applyOverlay s 3 l
    else l
  | none => l

/-- A write of the Apply overlay object 0x2E00:03: [3:0] slot, [11:8] kind. A new command replaces the pending application (R435, R440). -/
def overlayObject (v : Nat) (l : Live) : Live × Nat :=
  let s := field v 3 0
  let kind := field v 11 8
  if 12 < s || 1 < kind || decide (v ≠ s + kind * 256) then (l, abRange)
  else if s ≠ 0 && !slotUsed l s then (l, abState)
  else
    let l := { l with conf := { l.conf with pending := none } }
    if kind = 0 then (applyOverlay s 0 l, 0) else ({ l with conf := { l.conf with pending := some s } }, 0)

/-- OVERLAY_CANCEL (R435). -/
def overlayCancel (v : Nat) (l : Live) : Live × Nat :=
  if v = 1 then ({ l with conf := { l.conf with pending := none } }, 0) else (l, abRange)

def execOverlaySlotWrite (conn : Conn) (slot : Fin 12) (data : List Byte) (s : State) : Out :=
  ran (onObject conn 0x2E00 (0x11 + slot.val) (slotWrite (slot.val + 1) data)) s

def execApplyOverlayImmediate (conn : Conn) (slot : BitVec 4) (s : State) : Out :=
  ran (onObject conn 0x2E00 3 (overlayObject slot.toNat)) s

def execApplyOverlayNextPps (conn : Conn) (slot : BitVec 4) (s : State) : Out :=
  ran (onObject conn 0x2E00 3 (overlayObject (0x100 + slot.toNat))) s

def execOverlayCancel (conn : Conn) (value : Byte) (s : State) : Out :=
  ran (onObject conn 0x2E00 5 (overlayCancel value.toNat)) s

end Sys2Proof.Machine
end

