-- ==== Sys2Proof/Machine/Images.lean ====
section
/-! DEFINITION. Pyrosh images: their form and validity, store, restore and base image write, the customer area, and the resync summary
(R421–R428, R437–R440). The start-up from an image is in Startup.lean. -/

namespace Sys2Proof.Machine

open Sys2Proof

/-! ### Records (R424, R425) -/

/-- Rounded up to a multiple of 8. -/
def pad8 (n : Nat) : Nat := (n + 7) / 8 * 8

/-- A record of an image. -/
structure ImageRec where
  idx : Nat
  sub : Nat
  kind : Nat
  value : List Byte
deriving DecidableEq, Repr

/-- A record as bytes. -/
def ImageRec.toBytes (r : ImageRec) : List Byte :=
  bytesLE 2 r.idx ++ bytesLE 1 r.sub ++ bytesLE 1 r.kind ++ bytesLE 2 r.value.length ++ [0, 0]
    ++ r.value ++ List.replicate (pad8 r.value.length - r.value.length) 0

/-- Objects that an image holds: rw objects of the communication profile and of the configuration, but those kept elsewhere (R425). -/
def imageObject (k : Key) : Bool :=
  let idx := k / 256
  decide ((0x1000 ≤ idx ∧ idx < 0x3000) ∨ (0x4000 ≤ idx ∧ idx < 0x5000)) && !(idx = 0x2E00 && k % 256 ≠ 4)
    && (match objRow idx (k % 256) with
      | some r => r.acc = .rw
      | none => false)

/-- The bytes of a value in the size of its object's type. -/
def valBytes (k : Key) (v : Val) : List Byte := match v with
  | .bytes b => b
  | .num n => match objRow (k / 256) (k % 256) with
    | some r => bytesLE r.size n
    | none => []

/-- The default of an object in stored form; that of a COB-ID names the node-ID (R404, R425). -/
def imageDefault (l : Live) (k : Key) : Val := match objRow (k / 256) (k % 256) with
  | none => .num 0
  | some r =>
    if r.bits = 0 then .bytes (dfltBytes k)
    else if k = key 0x1014 0 then .num (0x80 + (l.bus 0).nodeId.toNat)
    else if k % 256 = 1 ∧ (k / 4096 = 0x140 ∨ k / 4096 = 0x180) then
      .num (commVal { l with conf := { l.conf with objs := [] } } (k / 256) 1)
    else .num (r.default (k / 256))

/-- The record of a committed base value, if it differs from the default (R425). -/
def objectRecord (l : Live) (k : Key) (o : Option Val) : Option ImageRec := match o with
  | some v => if imageObject k && decide (v ≠ imageDefault l k) then some ⟨k / 256, k % 256, 0, valBytes k v⟩ else none
  | none => none

/-- The committed base values that differ from the default, as records (R425). -/
def objectRecords (l : Live) : List ImageRec := l.conf.objs.filterMap (fun e => objectRecord l e.1 e.2)

/-- The members of CG01–CG63 as records. -/
def memberRecords (l : Live) : List ImageRec :=
  (List.range 64).flatMap (fun g => if g = 0 then [] else (l.group g).members.map (fun m => ⟨0x2C00 + g, 4, 1, memberEntry m⟩))

/-! ### Images (R423, R426) -/

/-- Puts the CRC-32C of every byte before it at the end. -/
def withCrc (b : List Byte) : List Byte := b ++ bytesLE 4 (crc32c b).toNat

/-- An image of records, with the store count that follows the active copy's (R423, R426). -/
def buildImage (defaults : Bool) (overlay : Nat) (recs : List ImageRec) (l : Live) : List Byte :=
  let body := recs.flatMap ImageRec.toBytes
  withCrc ([0x50, 0x59, 0x52, 0x31] ++ bytesLE 2 1 ++ bytesLE 2 (b2n defaults) ++ bytesLE 4 (64 + body.length + 4)
    ++ bytesLE 4 ((l.conf.storeCount.toNat + 1) % 2 ^ 32) ++ bytesLE 2 l.conf.gen.toNat ++ bytesLE 1 overlay
    ++ bytesLE 1 l.rst.life.toNat ++ bytesLE 4 recs.length ++ bytesLE 8 l.time.dtime.toNat ++ bytesLE 8 l.atime.toNat
    ++ bytesLE 24 0 ++ body)

/-- The image that "save" stores, and the one that "load" stores (R426). -/
def saveImage (l : Live) : List Byte := buildImage false (l.baseVal (key 0x2E00 2)).toNat (objectRecords l ++ memberRecords l) l
def defaultsImage (l : Live) : List Byte := buildImage true 0 [] l

/-- Reads n records; none where one breaks R424. -/
def readRecords : Nat → List Byte → Option (List ImageRec)
  | 0, b => if b.isEmpty then some [] else none
  | n + 1, b =>
    let len := fieldLE b 4 2
    let total := 8 + pad8 len
    let value := slice b 8 len
    if b.length < total ∨ len = 0 ∨ 4096 < len ∨ fieldLE b 6 2 ≠ 0 ∨ ofBytesLE (slice b (8 + len) (pad8 len - len)) ≠ 0 then none
    else (readRecords n (b.drop total)).map (fun r => ⟨fieldLE b 0 2, fieldLE b 2 1, fieldLE b 3 1, value⟩ :: r)

/-- A record has its kind's form, and the length of its object's type (R424). -/
def recordOk (r : ImageRec) : Bool :=
  if r.kind = 0 then
    (match objRow r.idx r.sub with
      | some o => o.bits = 0 || decide (r.value.length = o.size)
      | none => false)
  else r.kind = 1 && decide (0x2C01 ≤ r.idx ∧ r.idx < 0x2C40) && r.sub = 4 && r.value.length = 4

/-- Objects first, rising without repeats; then members by rising group (R424). -/
def recordsOrdered : List ImageRec → Bool
  | a :: b :: r =>
    (if a.kind = 0 ∧ b.kind = 0 then decide (key a.idx a.sub < key b.idx b.sub)
     else if a.kind = 0 then true
     else b.kind = 1 && decide (a.idx ≤ b.idx)) && recordsOrdered (b :: r)
  | _ => true

/-- The records of an image. -/
def imageRecords (b : List Byte) : Option (List ImageRec) := readRecords (fieldLE b 0x14 4) ((b.drop 64).take (b.length - 68))

/-- A copy is valid (R427). -/
def imageValid (b : List Byte) : Bool :=
  decide (68 ≤ b.length ∧ b.length ≤ 258048) && decide (b.take 4 = [0x50, 0x59, 0x52, 0x31]) && fieldLE b 4 2 = 1
    && decide (fieldLE b 6 2 ≤ 1) && fieldLE b 8 4 = b.length && fieldLE b 0x28 24 = 0
    && fieldLE b (b.length - 4) 4 = (crc32c (b.take (b.length - 4))).toNat
    && (fieldLE b 6 2 = 0 || fieldLE b 0x14 4 = 0)
    && (match imageRecords b with
      | some rs => rs.all recordOk && recordsOrdered rs
      | none => false)

def imageCount (b : List Byte) : Nat := fieldLE b 0x0C 4
def imageGen (b : List Byte) : Nat := fieldLE b 0x10 2
def imageOverlay (b : List Byte) : Nat := fieldLE b 0x12 1

/-- An image with another store count and its CRC anew (R428). -/
def withCount (n : Nat) (b : List Byte) : List Byte :=
  withCrc (b.take 0x0C ++ bytesLE 4 n ++ (b.take (b.length - 4)).drop 0x10)

/-! ### Storing (R426, R428) -/

/-- The copy that is not active: B beside an active A, else A. -/
def inactiveCopy (l : Live) : Nat := if l.conf.activeCopy = 0 then 1 else 0

def baseCopy (l : Live) (c : Nat) : List Byte := if c = 0 then l.mram.baseA else l.mram.baseB
def setBaseCopy (c : Nat) (b : List Byte) (l : Live) : Live :=
  if c = 0 then { l with mram := { l.mram with baseA := b } } else { l with mram := { l.mram with baseB := b } }

/-- Starts a store. -/
def beginStore (k : StoreKind) (b : List Byte) (l : Live) : Live := { l with conf := { l.conf with storing := some (k, b) } }

/-- STORE_ALL: "save" (R426). The base values are those at the end of the TCLK in which the write is accepted. -/
def storeAll (conn v : Nat) (l : Live) : Live × Nat :=
  if v ≠ 0x65766173 then (l, abRange)
  else if l.conf.storing.isSome then (l, abState)
  else (beginStore (.save conn) (saveImage l) l, 0)

/-- RESTORE_DEFAULTS: "load" (R426). -/
def restoreDefaults (conn v : Nat) (l : Live) : Live × Nat :=
  if v ≠ 0x64616F6C then (l, abRange)
  else if l.conf.storing.isSome then (l, abState)
  else (beginStore (.restore conn) (defaultsImage l) l, 0)

/-- BASE_IMAGE_WRITE (R428). -/
def baseImageWrite (conn : Nat) (data : List Byte) (l : Live) : Live × Nat :=
  if 258048 < data.length then (l, abLength)
  else if l.conf.storing.isSome then (l, abState)
  else if imageValid data then
    let b := withCount ((l.conf.storeCount.toNat + 1) % 2 ^ 32) data
    (beginStore (.image conn) b { l with conf := { l.conf with imageStatus := 1 } }, 0)
  else ({ l with conf := { l.conf with imageStatus := 3 } }, abRange)

/-- The connection whose command a store answers. -/
def StoreKind.conn : StoreKind → Nat
  | .save c => c
  | .restore c => c
  | .image c => c

/-- The base image status after a base image write. -/
def StoreKind.status (k : StoreKind) (ok : Bool) (old : Byte) : Byte := match k with
  | .image _ => if ok then 2 else 4
  | _ => old

/-- STORE_COMPLETE: the copy is written and read back; one that checks becomes the active copy (R426). The write is answered; a copy that
fails its read-back is no longer valid. -/
def storeComplete (ok : Bool) (l : Live) : Live := match l.conf.storing with
  | none => l
  | some (k, b) =>
    let c := inactiveCopy l
    let l := setBaseCopy c (if ok then b else []) l
    let u := { l.conf with storing := none, imageStatus := k.status ok l.conf.imageStatus }
    let u := if ok then
        { u with activeCopy := BitVec.ofNat 8 c, storeCount := BitVec.ofNat 32 (imageCount b), status := setBit u.status 4 }
      else { u with status := setBit u.status 3 }
    answer k.conn .done (noteBit 0x3E00 1 (if ok then 4 else 3) { l with conf := u })

/-! ### Customer area (R440) -/

/-- CUSTOMER_DATA_WRITE. -/
def customerWrite (data : List Byte) (l : Live) : Live × Nat :=
  if 65536 < data.length ∨ customerSize < l.conf.custOffset + data.length then (l, abLength)
  else ({ l with mram := { l.mram with customer := writeBytes l.mram.customer l.conf.custOffset data } }, 0)

/-- A write of the customer offset: a multiple of 8 below the size of the region. -/
def customerOffset (v : Nat) (l : Live) : Live × Nat :=
  if v % 8 ≠ 0 ∨ customerSize ≤ v then (l, abRange) else ({ l with conf := { l.conf with custOffset := v } }, 0)

/-! ### The resync summary (R437–R439) -/

/-- One byte, or n bytes, per element below a count. -/
def each (n count : Nat) (f : Nat → Nat) : List Byte := (List.range count).flatMap (fun i => bytesLE n (f i))

/-- A mask of the elements below a count. -/
def maskBelow (count : Nat) (f : Nat → Bool) : Nat := maskOf ((List.range count).map f)

/-- Offsets 0x000–0x057. -/
def summaryHead (seq dtime : Nat) (f : Live) : List Byte :=
  [0x48, 0x58, 0x53, 0x31] ++ bytesLE 2 1 ++ bytesLE 2 512 ++ bytesLE 4 seq ++ bytesLE 2 f.conf.gen.toNat
    ++ bytesLE 2 f.rst.gen.toNat ++ bytesLE 8 dtime ++ bytesLE 8 f.atime.toNat ++ [f.rst.life, f.net.nmt]
    ++ bytesLE 1 f.time.disc.code ++ bytesLE 1 f.conf.active ++ bytesLE 1 (pendingWord f) ++ bytesLE 1 (b2n (armed f))
    ++ bytesLE 2 f.time.status.toNat ++ bytesLE 4 f.rst.sticky.toNat ++ [f.rst.lastReach, errorRegister f]
    ++ bytesLE 2 f.pwm.status.toNat ++ bytesLE 8 (faultBitmap f) ++ each 4 8 (fun i => (nth 0 f.net.errors i).toNat)

/-- Offsets 0x058–0x0FF. -/
def summaryUnits (f : Live) : List Byte :=
  (List.range 8).flatMap (fun k =>
      [BitVec.ofNat 8 (f.cluster k).state, BitVec.ofNat 8 (failsafeCount f k), (f.cluster k).status, 0])
    ++ bytesLE 4 (maskBelow 24 (fun u => (f.pair u).state = .running))
    ++ bytesLE 4 (maskBelow 24 (fun u => (f.pair u).state = .tripped))
    ++ bytesLE 2 (maskBelow 16 (fun i => bitOf (f.trip i).status.toNat 3)) ++ [f.analog.status, 0]
    ++ bytesLE 8 (maskBelow 48 (fun a => bitOf (f.anIn a).status.toNat 4))
    ++ each 2 24 (fun u => (f.pair u).status.toNat) ++ each 1 8 (fun n => (f.port n).state.code)
    ++ each 4 8 (fun n => (f.port n).status.toNat)
    ++ (List.range 4).flatMap (fun w => bytesLE 1 (f.wheel w).state.code ++ [0] ++ bytesLE 2 (f.wheel w).status.toNat)
    ++ each 1 4 (fun k => (f.conv k).status.toNat) ++ each 1 4 (fun q => (readSeq f q 1).toNat) ++ bytesLE 4 0

/-- Offsets 0x100–0x19B. -/
def summaryEngines (f : Live) : List Byte :=
  each 1 16 (fun e => (f.pe e).state.code) ++ each 1 16 (fun e => (f.pe e).stat.toNat)
    ++ bytesLE 8 ((List.range 32).foldl (fun a c => a + (f.dc c).state.code * 4 ^ c) 0)
    ++ each 1 32 (fun c => (f.dc c).status.toNat) ++ each 2 16 (fun q => (readQueue f q 1).toNat)
    ++ bytesLE 2 (freeEntries f) ++ [f.events.poolStatus, 0]
    ++ bytesLE 8 (maskBelow 40 (fun g => (f.irqGroup g).state = .pending || (f.irqGroup g).state = .activePending))
    ++ each 1 40 (fun g => (f.irqGroup g).entryCnt.toNat)

/-- Offsets 0x19C–0x1FB. -/
def summaryTail (f : Live) : List Byte :=
  bytesLE 1 (readLog f 1).toNat ++ [f.log.lossCnt] ++ bytesLE 2 0 ++ bytesLE 4 f.log.head ++ bytesLE 4 f.log.tail
    ++ bytesLE 4 f.log.tailSeq.toNat ++ bytesLE 4 f.log.nextSeq.toNat ++ bytesLE 8 f.log.lost.toNat ++ bytesLE 4 f.log.count
    ++ bytesLE 8 (maskBelow 64 (fun g => (f.group g).state = .armed))
    ++ bytesLE 8 (maskBelow 64 (fun g => anyMask (f.group g).status 3)) ++ [f.conf.imageStatus, f.conf.activeCopy, f.conf.status, 0]
    ++ bytesLE 4 f.conf.storeCount.toNat ++ each 2 2 (fun b => (f.bus b).status.toNat) ++ bytesLE 2 f.mail.session.toNat
    ++ bytesLE 1 (field f.mail.stat.toNat 7 0) ++ bytesLE 1 (field f.host.stat.toNat 7 0) ++ bytesLE 32 0

/-- The summary of a snapshot: 512 bytes (R438). -/
def summaryOf (b : Bank) : List Byte :=
  withCrc (summaryHead b.seq.toNat b.dtime.toNat b.frozen ++ summaryUnits b.frozen ++ summaryEngines b.frozen ++ summaryTail b.frozen)

/-- A resync command takes a snapshot, or joins the one whose summary is being built (R437). -/
def beginResync (l : Live) : Live :=
  if l.conf.resyncStatus = 1 then l
  else
    let n := if snapNow l then l.snap.seq else nextSeq l.snap
    wantSnapshot { l with conf := { l.conf with resyncStatus := 1, resyncSeq := n, summaryNext := [] } }

/-- RESYNC: the write is answered when the summary is ready. -/
def resync (conn : Nat) (l : Live) : Live × Nat :=
  let l := beginResync l
  ({ l with conf := { l.conf with resyncConns := l.conf.resyncConns ++ [conn] } }, 0)

/-- The summary is built from the snapshot of the command as it is published (R437, R438). -/
def summaryOfBank (b : Bank) (l : Live) : Live :=
  if l.conf.resyncStatus = 1 ∧ l.conf.summaryNext = [] ∧ b.seq = l.conf.resyncSeq then
    { l with conf := { l.conf with summaryNext := summaryOf b } }
  else l

/-- The summary is complete: the writes that wait are answered (R437). Mailbox requests are answered in Mailbox.lean. A supervisor that
has stopped completes none (R15). -/
def summaryComplete (l : Live) : Live :=
  if supervisorUp l = true ∧ l.conf.resyncStatus = 1 ∧ l.conf.summaryNext ≠ [] then
    let l := forAll (fun i l => answer i .done l) l.conf.resyncConns l
    { l with conf := { l.conf with resyncStatus := 2, summary := l.conf.summaryNext, summaryNext := [], resyncConns := [] } }
  else l

/-! ### Commands -/

def execStoreAll (conn : Conn) (signature : BitVec 32) (s : State) : Out :=
  ran (onObjectLater conn 0x1010 1 (storeAll (connId conn) signature.toNat)) s

def execRestoreDefaults (conn : Conn) (signature : BitVec 32) (s : State) : Out :=
  ran (onObjectLater conn 0x1011 1 (restoreDefaults (connId conn) signature.toNat)) s

def execBaseImageWrite (conn : Conn) (data : List Byte) (s : State) : Out :=
  ran (onObjectLater conn 0x2E00 1 (baseImageWrite (connId conn) data)) s

def execCustomerDataWrite (conn : Conn) (data : List Byte) (s : State) : Out :=
  ran (onObject conn 0x2E00 0x21 (customerWrite data)) s

def execResync (conn : Conn) (s : State) : Out := ran (onObjectLater conn 0x5E00 1 (resync (connId conn))) s

end Sys2Proof.Machine
end

