-- ==== Sys2Proof/WellFormed.lean ====
section
/-! DEFINITION. Which commands can reach the device at all. The operand types of `Instr` already hold every operand within its
range; what a type does not say is checked here. A command that fails a check ends in the fault `illFormed`. -/

namespace Sys2Proof

/-- A CAN FD frame carries at most 64 data bytes (R401, R406). -/
def wfFrame (data : List Byte) : Bool := decide (data.length ≤ 64)

/-- A command that some transfer or event of this hardware spells. -/
def Instr.wf : Instr → Bool
  | .rpdoReceived _ _ data => wfFrame data
  | _ => true

end Sys2Proof
end

