-- ==== Sys2Proof/Machine/Network.lean ====
section
/-! DEFINITION. Network management, SYNC, PDOs, heartbeats, bus conditions and EMCY inhibition (R396–R408, R420), and the commands of
these services. A TPDO is built from a snapshot bank; the commands that build one take the published bank from the whole state. -/

namespace Sys2Proof.Machine

open Sys2Proof

/-! ### State of a bus -/

/-- The network services run: COMM is out of reset and the state is not INITIALISING (R396); in doze the controllers stop (R382). -/
def netUp (l : Live) : Bool := schedUp l && domainUp .comm l && l.net.nmt ≠ 0

/-- A bus takes part: it has a node-ID and is not bus-off (R400, R402). -/
def busActive (l : Live) (b : Nat) : Bool := netUp l && busConfigured l b && field (l.bus b).status.toNat 1 0 < 2

/-- Services that run in PRE-OPERATIONAL and OPERATIONAL (R396). -/
def preOrOp (l : Live) : Bool := l.net.nmt = nmtPre || l.net.nmt = nmtOp

def operational (l : Live) : Bool := l.net.nmt = nmtOp

/-- A bus runs CANopen FD (R400). -/
def isFd (l : Live) (b : Nat) : Bool := (l.bus b).dataRate ≠ 0

/-- Source ID of an element of a bus (R420). -/
def busSource (b e : Nat) : Nat := 0xB000 + 0x40 * b + e

def Live.tpdo (l : Live) (p : Nat) : Tpdo := l.net.tpdos.get {} p
def Live.updTpdo (l : Live) (p : Nat) (f : Tpdo → Tpdo) : Live :=
  { l with net := { l.net with tpdos := l.net.tpdos.put {} p (f (l.tpdo p)) } }
def Live.rpdo (l : Live) (p : Nat) : Rpdo := l.net.rpdos.get {} p
def Live.setRpdo (l : Live) (p : Nat) (x : Rpdo) : Live :=
  { l with net := { l.net with rpdos := l.net.rpdos.put {} p x } }

/-! ### PDO mappings (R404, R405) -/

/-- The entries of a mapping: index, subindex, bits. -/
def pdoEntries (l : Live) (base p : Nat) : List (Nat × Nat × Nat) :=
  (List.range (commVal l (base + p) 0)).map (fun i =>
    let v := commVal l (base + p) (i + 1)
    (v / 65536, v / 256 % 256, v % 256))

/-- Length of a mapping in bytes. -/
def pdoLength (es : List (Nat × Nat × Nat)) : Nat := (es.map (fun e => e.2.2 / 8)).foldl (· + ·) 0

/-- The valid FD data length that holds n bytes (R404). -/
def fdLength (n : Nat) : Nat := ([8, 12, 16, 20, 24, 32, 48, 64].find? (fun m => n ≤ m)).getD 64

/-- Length of the frame of a PDO on a bus: in FD mode the next longer valid length (R404). -/
def frameLength (l : Live) (b n : Nat) : Nat := if isFd l b ∧ 8 < n then fdLength n else n

/-- COB-ID of a PDO. -/
def pdoCob (l : Live) (base p : Nat) : Nat := commVal l (base + p) 1
def pdoValid (l : Live) (base p : Nat) : Bool := !bitOf (pdoCob l base p) 31

/-- Type of a PDO. -/
def pdoType (l : Live) (base p : Nat) : Nat := commVal l (base + p) 2

/-- Buses of PDO p + 1 (R400). -/
def tpdoBusOf (l : Live) (p : Nat) : Nat := b2n (bitOf l.net.choice.tpdoBus p)
def rpdoBusOf (l : Live) (p : Nat) : Nat := b2n (bitOf l.net.choice.rpdoBus p)

/-! ### TPDOs (R399, R405) -/

/-- The data of a TPDO, from the values a snapshot froze. -/
def tpdoData (l frozen : Live) (p : Nat) : List Byte :=
  let es := pdoEntries l 0x1A00 p
  let d := es.flatMap (fun e => bytesLE (e.2.2 / 8) (readProcess frozen e.1 e.2.1).toNat)
  d ++ List.replicate (frameLength l (tpdoBusOf l p) d.length - d.length) 0

/-- The TPDO exists and may be sent from a bank: OPERATIONAL, valid, mapped, and the snapshot taken in that state (R399). -/
def tpdoOpen (l : Live) (bank : Bank) (p : Nat) : Bool :=
  operational l && busActive l (tpdoBusOf l p) && pdoValid l 0x1800 p && !(pdoEntries l 0x1A00 p).isEmpty
    && decide (l.net.opAt < bank.dtime.toNat)

/-- Gives a TPDO to the controller of its bus. -/
def sendTpdo (sync : Bool) (data : List Byte) (p : Nat) (l : Live) : Live :=
  let f : Frame := { cobId := BitVec.ofNat 32 (pdoCob l 0x1800 p % 2 ^ 30), data := data, tpdo := some p }
  let l := transmit (tpdoBusOf l p) f l
  l.updTpdo p (fun x => { x with last := data, lastAt := some l.now, due := false, timerFrom := l.now, queued := x.queued || sync })

/-- A synchronous TPDO of a SYNC, built from its snapshot; type 0 only if a mapped value differs from the one last sent (R405). -/
def syncTpdo (bank : Bank) (p : Nat) (l : Live) : Live :=
  let x := l.tpdo p
  if !x.wantSync then l
  else
    let l := l.updTpdo p (fun x => { x with wantSync := false })
    let d := tpdoData l bank.frozen p
    if !tpdoOpen l bank p || (pdoType l 0x1800 p = 0 && decide (x.last = d)) then l else sendTpdo true d p l

/-- The inhibit time of a TPDO has passed (R405). -/
def inhibitOver (l : Live) (p : Nat) : Bool := match (l.tpdo p).lastAt with
  | none => true
  | some t => decide (t + commVal l (0x1800 + p) 3 * 40000 ≤ l.now)

/-- An event-driven TPDO is to be sent now, or when its inhibit time has passed. -/
def sendEvent (bank : Bank) (p : Nat) (l : Live) : Live :=
  if inhibitOver l p then sendTpdo false (tpdoData l bank.frozen p) p l else l.updTpdo p (fun x => { x with due := true })

/-- An event-driven TPDO is checked against a newly published snapshot (R405). -/
def eventTpdo (bank : Bank) (p : Nat) (l : Live) : Live :=
  if pdoType l 0x1800 p < 254 || !tpdoOpen l bank p || decide ((l.tpdo p).last = tpdoData l bank.frozen p) then l
  else sendEvent bank p l

/-- What the publication of a bank means for the TPDOs. -/
def tpdosOfBank (bank : Bank) (l : Live) : Live :=
  forAll (eventTpdo bank) (List.range 16) (forAll (syncTpdo bank) (List.range 16) l)

/-- The event timer of a TPDO expires (R405). -/
def tpdoTimer (bank : Bank) (p : Nat) (l : Live) : Live :=
  let t := commVal l (0x1800 + p) 5
  if pdoType l 0x1800 p < 254 || t = 0 || !tpdoOpen l bank p || decide (l.now < (l.tpdo p).timerFrom + t * 400000) then l
  else sendEvent bank p (l.updTpdo p (fun x => { x with timerFrom := l.now }))

/-- The inhibit time of a TPDO that waits for it has passed (R405). -/
def tpdoInhibitEnd (bank : Bank) (p : Nat) (l : Live) : Live :=
  if (l.tpdo p).due && inhibitOver l p && tpdoOpen l bank p then sendTpdo false (tpdoData l bank.frozen p) p l else l

/-! ### SYNC (R65, R77, R404, R405) -/

/-- The count of SYNCs of a cyclic synchronous TPDO, from 1 to n; with the counter in use and a start value, the SYNC that bears the
start value is number 1 and none counts before it (log entry 43). -/
def syncNumber (n start : Nat) (counter : Option Nat) (now : Nat) : Nat := match counter with
  | some c => if start = 0 ∨ now ≠ 0 then now % n + 1 else if c = start then 1 else 0
  | none => now % n + 1

/-- A SYNC marks the synchronous TPDOs that it sends. `next` when its snapshot is deferred (R67). -/
def markSync (counter : Option Nat) (next : Bool) (p : Nat) (l : Live) : Live :=
  let n := pdoType l 0x1800 p
  if 240 < n || !pdoValid l 0x1800 p then l
  else
    let x := l.tpdo p
    let used := if commVal l 0x1019 0 = 0 then none else counter
    let k := if n = 0 then 0 else syncNumber n (commVal l (0x1800 + p) 6) used x.syncCount
    let hit := n = 0 || k = n
    l.updTpdo p (fun x => { x with syncCount := k, wantSync := x.wantSync || (hit && !next), wantNext := x.wantNext || (hit && next) })

/-- An accepted SYNC: a snapshot if the SYNC snapshot object is 1, the groups that wait for SYNC, the synchronous TPDOs. -/
def syncAccepted (published : Option Bank) (counter : Option Nat) (l : Live) : Live :=
  let w := commVal l 0x1007 0
  let l := { l with net := { l.net with lastSync := some l.now, window := if w = 0 then none else some (l.now + w * 400) } }
  let snap := l.flag 0x2C80 2
  let l := if operational l then forAll (markSync counter (snap && snapDeferred l)) (List.range 16) l else l
  let l := if snap then wantSnapshot l else match published with
    | some b => forAll (syncTpdo b) (List.range 16) l
    | none => l
  triggerKind 2 l

/-- SYNC_RECEIVED: a SYNC is accepted on the SYNC bus in PRE-OPERATIONAL and OPERATIONAL (R396, R400). -/
def syncReceived (published : Option Bank) (b : Nat) (counter : Option Byte) (l : Live) : Live :=
  if busActive l b && preOrOp l && b = l.net.choice.syncBus then syncAccepted published (counter.map (·.toNat)) l else l

/-- SYNC_LOST: no SYNC for 1.5 × the communication cycle period (R404). -/
def syncLost (b : Nat) (l : Live) : Live :=
  let period := commVal l 0x1006 0
  match l.net.lastSync with
  | some t =>
    if period ≠ 0 && busActive l b && preOrOp l && b = l.net.choice.syncBus && decide (t + period * 600 ≤ l.now) then
      let l := { l with net := { l.net with lastSync := none } }
      emcy 0x8100 (busSource b 3) 0 ((noteBus b 11 l).updBus b (fun x => { x with status := setBit x.status 11 }))
    else l
  | none => l

/-- A synchronous TPDO that has not won arbitration is withdrawn (R405). -/
def withdrawTpdo (unsent : BitVec 16) (p : Nat) (l : Live) : Live :=
  let x := l.tpdo p
  let late := x.queued && unsent.getLsbD p
  let l := l.updTpdo p (fun x => { x with queued := false, wantSync := false, wantNext := false })
  if late || x.wantSync || x.wantNext then
    (noteBus (tpdoBusOf l p) 8 l).updBus (tpdoBusOf l p) (fun b =>
      { b with tx := if late then b.tx.filter (fun f => f.tpdo ≠ some p) else b.tx, status := setBit b.status 8,
               tpdoDrop := setBit b.tpdoDrop p })
  else l

/-- SYNCHRONOUS_WINDOW_END (R405). -/
def windowEnd (unsent : BitVec 16) (l : Live) : Live := match l.net.window with
  | some t =>
    if t ≤ l.now then forAll (withdrawTpdo unsent) (List.range 16) { l with net := { l.net with window := none } } else l
  | none => l

/-! ### NMT (R396–R399) -/

/-- Source ID of an NMT command (R420). -/
def nmtSource : NmtSource → Nat
  | .can0 => busSource 0 1
  | .can1 => busSource 1 1
  | .mailbox => 0xC000

/-- The command reaches the device: CAN0 always, CAN1 if NMT from CAN1 is 1, the mailbox; in INITIALISING there is no service that
could (R396, R397). -/
def nmtHeard (src : NmtSource) (l : Live) : Bool := match src with
  | .can0 => busActive l 0
  | .can1 => busActive l 1 && l.net.choice.nmtCan1
  | .mailbox => netUp l

/-- A record of a change of state (R420). -/
def nmtRecord (src cs : Nat) (new old : Byte) (l : Live) : Live :=
  writeRecord src 0x71 (new.toNat + old.toNat * 256 + cs * 65536) l

/-- The NMT state changes (R397, R399): leaving OPERATIONAL disarms; entering STOPPED drops transfers (R396). NMT_CHANGED is set on both
buses, which share the state. -/
def nmtGo (new : Byte) (src cs : Nat) (l : Live) : Live :=
  let old := l.net.nmt
  if new = old then l
  else
    let l := leaveOperational l
    let dropped := l.net.conns.map (fun e => (e.1, if e.1 < 256 then { e.2 with transfer := false } else e.2))
    let n := { l.net with nmt := new, conns := if new = nmtStop then dropped.filter (fun e => decide (e.2 ≠ {})) else l.net.conns }
    let n := if new = nmtOp then { n with opAt := l.now } else n
    let n := if old = nmtPre ∨ old = nmtOp then n else { n with lastSync := some l.now }
    let l := { l with net := n }
    let l := forAll (fun b l => (noteBus b 2 l).updBus b (fun x => { x with status := setBit x.status 2 })) [0, 1] l
    let fresh := fun (x : Tpdo) => { x with timerFrom := l.now, syncCount := 0, due := false, wantSync := false, wantNext := false }
    let l := if new = nmtOp then forAll (fun p l => l.updTpdo p fresh) (List.range 16) l else l
    nmtRecord src cs new old l

/-- The device may enter OPERATIONAL (R455). -/
def mayOperate (l : Live) : Bool := l.rst.life ≠ 1 && l.rst.life ≠ 4 && !bitOf l.rst.status.toNat 4

/-- NMT Start, Stop and Enter pre-operational. -/
def nmtStart (src : NmtSource) (l : Live) : Live := if nmtHeard src l && mayOperate l then nmtGo nmtOp (nmtSource src) 1 l else l
def nmtStopCommand (src : NmtSource) (l : Live) : Live := if nmtHeard src l then nmtGo nmtStop (nmtSource src) 2 l else l
def nmtPreOp (src : NmtSource) (l : Live) : Live := if nmtHeard src l then nmtGo nmtPre (nmtSource src) 0x80 l else l

/-- NMT Reset node: a WARM reset from source 10 (R397, R442). -/
def nmtResetNode (src : NmtSource) (l : Live) : Live := if nmtHeard src l then pulseSource 10 l else l

/-- NMT Reset communication: a COMM reset from source 13; the change to INITIALISING is recorded (R397, R442). -/
def nmtResetComm (src : NmtSource) (l : Live) : Live :=
  if nmtHeard src l then nmtRecord (nmtSource src) 0x82 0 l.net.nmt (pulseSource 13 l) else l

/-! ### RPDOs (R406) -/

/-- Flags of an RPDO of a bus. -/
def rpdoFlag (bit b p : Nat) (l : Live) : Live :=
  (noteBus b bit l).updBus b (fun x =>
    { x with status := setBit x.status bit, rpdoFlag := setBit x.rpdoFlag p, rpdoFaultCnt := x.rpdoFaultCnt + 1 })

/-- A frame is refused: nothing is staged (R406). -/
def rpdoRefuse (code b p : Nat) (l : Live) : Live := emcy code (busSource b (32 + p)) 0 (rpdoFlag 9 b p l)

/-- The values of a frame by mapped object. -/
def rpdoValues : List (Nat × Nat × Nat) → List Byte → List (Nat × Nat × List Byte)
  | [], _ => []
  | (i, s, bits) :: r, d => (i, s, d.take (bits / 8)) :: rpdoValues r (d.drop (bits / 8))

/-- Stages every value of a frame in its group, or none: an abort of one refuses the frame. -/
def stageAll : List (Nat × Nat × List Byte) → Live → Option Live
  | [], l => some l
  | (i, s, d) :: r, l => match stageWrite i s d l with
    | (l', 0) => stageAll r l'
    | _ => none

/-- The group that the objects of an RPDO belong to, if they belong to one (R406). -/
def rpdoGroup (l : Live) (es : List (Nat × Nat × Nat)) : Option Nat := match es with
  | [] => none
  | e :: r =>
    let g := ownerOf l (key e.1 e.2.1)
    if r.all (fun x => ownerOf l (key x.1 x.2.1) = g) then some g else none

/-- The trigger kind that a type asks for: SYNC for 0–240, immediate for 254 and 255. -/
def rpdoKind (type : Nat) : Nat := if type ≤ 240 then 2 else 0

/-- The group may take the frame: its trigger kind fits the type, and no other source has armed it (R406). -/
def rpdoFits (l : Live) (g p : Nat) : Bool :=
  l.cfg (0x2C00 + g) 1 = rpdoKind (pdoType l 0x1400 p)
    && (!groupArmed l g || (l.group g).armedBy = some p)

/-- A frame of RPDO p + 1 stages its values and arms its group; a group that an earlier frame of it armed is disarmed first. -/
def rpdoApply (b p g : Nat) (data : List Byte) (l0 : Live) : Live :=
  let es := pdoEntries l0 0x1600 p
  match stageAll (rpdoValues es data) (groupDisarm g l0) with
  | none => rpdoRefuse 0xFF04 b p l0
  | some l =>
    let r := groupArm g l
    if r.2 ≠ 0 then rpdoRefuse 0xFF04 b p l0
    else r.1.updGroup g (fun x => if x.state = .armed then { x with armedBy := some p } else x)

/-- RPDO_RECEIVED (R406). -/
def rpdoReceived (b p : Nat) (data : List Byte) (l : Live) : Live :=
  if !(supervisorUp l && operational l && busActive l b && b = rpdoBusOf l p && pdoValid l 0x1400 p) then l
  else
    let es := pdoEntries l 0x1600 p
    let n := pdoLength es
    let l := l.setRpdo p { lastAt := some l.now }
    if es.isEmpty then l
    else if data.length < n then rpdoRefuse 0x8210 b p l
    else
      let l := match rpdoGroup l es with
        | some g => if rpdoFits l g p then rpdoApply b p g data l else rpdoRefuse 0xFF04 b p l
        | none => rpdoRefuse 0xFF04 b p l
      if frameLength l b n < data.length then emcy 0x8220 (busSource b (32 + p)) 0 l else l

/-- RPDO_DEADLINE (R406): no frame within the deadline after the last one. -/
def rpdoDeadline (p : Nat) (l : Live) : Live :=
  let d := commVal l (0x1400 + p) 5
  let b := rpdoBusOf l p
  match (l.rpdo p).lastAt with
  | some t =>
    if d ≠ 0 && operational l && busActive l b && decide (t + d * 400000 ≤ l.now) then
      emcy 0x8250 (busSource b (32 + p)) 0 (rpdoFlag 10 b p (l.setRpdo p {}))
    else l
  | none => l

/-! ### EMCY inhibition, heartbeats, bus conditions (R401, R402, R408) -/

/-- The inhibit time has passed: the next queued EMCY is sent (R408). -/
def emcyInhibitEnd (b : Nat) (l : Live) : Live :=
  let x := l.bus b
  match x.emcyQueue with
  | f :: r =>
    if busActive l b && preOrOp l && decide (x.emcyInhibit ≤ l.now) then
      l.setBus b { x with tx := x.tx ++ [f], emcyQueue := r, emcyInhibit := l.now + emcyInhibitTime l }
    else l
  | [] => l

/-- COB-ID 0x700 + node-ID: heartbeat and boot-up (R398). -/
def heartbeatFrame (l : Live) (b : Nat) (state : Byte) : Frame :=
  { cobId := BitVec.ofNat 32 (0x700 + (l.bus b).nodeId.toNat), data := [state] }

/-- The producer heartbeat time expires (R401, R404). -/
def heartbeatProduce (b : Nat) (l : Live) : Live :=
  let t := commVal l 0x1017 0
  if busActive l b && t ≠ 0 && decide ((l.bus b).lastHb + t * 400000 ≤ l.now) then
    (transmit b (heartbeatFrame l b l.net.nmt) l).updBus b (fun x => { x with lastHb := l.now })
  else l

/-- Consumer heartbeat i of a bus: node-ID and time in ms (R404). -/
def consumerOf (l : Live) (b i : Nat) : Nat := commVal l 0x1016 (4 * b + i + 1)

/-- A consumed node's heartbeat restarts its timer (R402). -/
def heartbeatReceived (b node : Nat) (l : Live) : Live :=
  if !busActive l b then l
  else forAll (fun i l =>
    let c := consumerOf l b i
    if field c 23 16 = node ∧ field c 15 0 ≠ 0 then
      l.updBus b (fun x => { x with consumers := x.consumers.put {} i { armed := true, last := l.now } })
    else l) [0, 1, 2, 3] l

/-- 0x1029:01: PRE-OPERATIONAL, no change, STOPPED (R402, R404). -/
def errorBehaviour (l : Live) : Live := match commVal l 0x1029 1 with
  | 0 => nmtGo nmtPre 0 0 l
  | 2 => nmtGo nmtStop 0 0 l
  | _ => l

/-- A consumed heartbeat misses its time (R402). -/
def hbTimeout (b i : Nat) (l : Live) : Live :=
  let c := consumerOf l b i
  let x := (l.bus b).consumers.get {} i
  if busActive l b && x.armed && field c 15 0 ≠ 0 && decide (x.last + field c 15 0 * 400000 ≤ l.now) then
    let l := (noteBus b 7 l).updBus b (fun y =>
      { y with consumers := y.consumers.put {} i {}, status := setBit y.status 7, hbTimeoutCnt := y.hbTimeoutCnt + 1 })
    errorBehaviour (emcy 0x8130 (busSource b 5) 0 l)
  else l

/-- BUS_STATE of a bus (R420). -/
def busState (l : Live) (b : Nat) : Nat := field (l.bus b).status.toNat 1 0
def setBusState (b st : Nat) (l : Live) : Live :=
  l.updBus b (fun x => { x with status := clrMask x.status 3 ||| BitVec.ofNat 16 st })

/-- A controller enters error passive from error active (R402). -/
def errorPassive (b : Nat) (l : Live) : Live :=
  if busActive l b && busState l b = 0 then
    emcy 0x8120 (busSource b 0) 0 ((noteBus b 4 (setBusState b 1 l)).updBus b (fun x => { x with status := setBit x.status 4 }))
  else l

/-- A controller returns to error active from error passive (R420). -/
def errorActive (b : Nat) (l : Live) : Live := if busActive l b && busState l b = 1 then setBusState b 0 l else l

/-- A controller goes bus-off (R402). -/
def busOff (b : Nat) (l : Live) : Live :=
  if busActive l b then (noteBus b 5 (setBusState b 2 l)).updBus b (fun x => { x with status := setBit x.status 5 }) else l

/-- Bus-off recovery ends (R402). -/
def busOffRecovery (b : Nat) (l : Live) : Live :=
  if netUp l && busState l b = 2 then emcy 0x8140 (busSource b 0) 0 (setBusState b 0 l) else l

/-- A frame is lost because the receive buffer is full (R402). -/
def rxOverrun (b : Nat) (l : Live) : Live :=
  if busActive l b then emcy 0x8110 (busSource b 0) 0 ((noteBus b 3 l).updBus b (fun x => { x with status := setBit x.status 3 })) else l

/-! ### Commands -/

/-- A command that builds a TPDO from the published bank; without one there is nothing to build from (R71). -/
def withBank (f : Bank → Live → Live) (s : State) : Out := match s.published with
  | some b => ran (f b) s
  | none => ran id s

def execNmtStart (src : NmtSource) (s : State) : Out := ran (nmtStart src) s
def execNmtStop (src : NmtSource) (s : State) : Out := ran (nmtStopCommand src) s
def execNmtEnterPreOperational (src : NmtSource) (s : State) : Out := ran (nmtPreOp src) s
def execNmtResetNode (src : NmtSource) (s : State) : Out := ran (nmtResetNode src) s
def execNmtResetCommunication (src : NmtSource) (s : State) : Out := ran (nmtResetComm src) s

def execSyncReceived (bus : Fin 2) (counter : Option Byte) (s : State) : Out :=
  ran (syncReceived s.published bus.val counter) s

def execSyncLost (bus : Fin 2) (s : State) : Out := ran (syncLost bus.val) s
def execTpdoEventTimer (p : Fin 16) (s : State) : Out := withBank (fun b => tpdoTimer b p.val) s
def execTpdoInhibitEnd (p : Fin 16) (s : State) : Out := withBank (fun b => tpdoInhibitEnd b p.val) s
def execSynchronousWindowEnd (unsent : BitVec 16) (s : State) : Out := ran (windowEnd unsent) s

/-- A frame of more than 64 data bytes exists on no bus (`Instr.wf`). -/
def execRpdoReceived (bus : Fin 2) (p : Fin 16) (data : List Byte) (s : State) : Out :=
  if wfFrame data then ran (rpdoReceived bus.val p.val data) s else .fault (.illFormed "RPDO_RECEIVED")

def execRpdoDeadline (p : Fin 16) (s : State) : Out := ran (rpdoDeadline p.val) s
def execEmcyInhibitEnd (bus : Fin 2) (s : State) : Out := ran (emcyInhibitEnd bus.val) s
def execHeartbeatProduce (bus : Fin 2) (s : State) : Out := ran (heartbeatProduce bus.val) s

/-- The state that the other node reports does not matter to the timer. -/
def execHeartbeatReceived (bus : Fin 2) (node : BitVec 7) (_nodeState : Byte) (s : State) : Out :=
  ran (heartbeatReceived bus.val node.toNat) s

def execHbTimeout (bus : Fin 2) (i : Fin 4) (s : State) : Out := ran (hbTimeout bus.val i.val) s
def execErrorPassive (bus : Fin 2) (s : State) : Out := ran (errorPassive bus.val) s
def execErrorActive (bus : Fin 2) (s : State) : Out := ran (errorActive bus.val) s
def execBusOff (bus : Fin 2) (s : State) : Out := ran (busOff bus.val) s
def execBusOffRecovery (bus : Fin 2) (s : State) : Out := ran (busOffRecovery bus.val) s
def execRxOverrun (bus : Fin 2) (s : State) : Out := ran (rxOverrun bus.val) s

end Sys2Proof.Machine
end

