-- ==== Sys2Proof/Machine/Snapshots.lean ====
section
/-! DEFINITION. The commands of the snapshot controller (R64–R72, R87). -/

namespace Sys2Proof.Machine

open Sys2Proof

/-- A value of the snapshot request object 0x2C80:03: 1 take, 2 hold, 3 release (R70, R87). -/
def snapRequest (v : Nat) (l : Live) : Live × Nat :=
  if v = 1 then (wantSnapshot l, 0) else ({ l with snap := { l.snap with hold := some (v = 2) } }, 0)

/-- PERIODIC_SNAPSHOT: the interval, counted from the commit that set it, has passed (R65). -/
def periodicSnapshot (l : Live) : Live :=
  let t := l.cfg 0x2C80 1 * 400
  if coreUp l && t ≠ 0 && decide (l.snap.nextPeriodic ≤ l.now) then
    wantSnapshot { l with snap := { l.snap with nextPeriodic := l.snap.nextPeriodic + t } }
  else l

/-- SNAPSHOT_COPY_DONE: the filled bank becomes the published one in one step, and the TPDOs of its snapshot are built (R67, R68, R405).
A deferred request is served in the next TCLK (Tick.lean). -/
def copyDone (s : State) : State := match s.filling with
  | some b =>
    if s.live.snap.copying then
      let f := fun (l : Live) => summaryOfBank b (tpdosOfBank b { l with snap := { l.snap with copying := false } })
      { s.apply f with published := some b, filling := none }
    else s
  | none => s

/-- The waiting request is served: DEFERRED, its counter, and the SYNCs that wait for its snapshot (R67, R405). -/
def deferredLive (l : Live) : Live :=
  let u := { l.snap with waiting := false, deferredCnt := l.snap.deferredCnt + 1 }
  let turn := fun (x : Tpdo) => { x with wantSync := x.wantSync || x.wantNext, wantNext := false }
  forAll (fun p l => l.updTpdo p turn) (List.range 16) (snapFlags 1 { l with snap := u })

/-- The deferred snapshot, in the first TCLK after the copy (R67): it freezes the values that the TCLK starts with. -/
def takeDeferred (s : State) : State :=
  if s.live.snap.waiting && !s.live.snap.copying then takeSnap s.start { s with live := deferredLive s.live } else s

/-- HOLD_EXPIRED: the hold ends after 400,000 TCLK (R70). -/
def holdExpired (s : State) : State := match s.held with
  | some (_, t) =>
    if t + 400000 ≤ s.live.now then
      let f := fun (l : Live) => snapFlags 2 { l with snap := { l.snap with hold := some false } }
      s.apply f
    else s
  | none => s

def execSnapshotTake (conn : Conn) (s : State) : Out := ran (onObject conn 0x2C80 3 (snapRequest 1)) s
def execSnapshotHold (conn : Conn) (s : State) : Out := ran (onObject conn 0x2C80 3 (snapRequest 2)) s
def execSnapshotRelease (conn : Conn) (s : State) : Out := ran (onObject conn 0x2C80 3 (snapRequest 3)) s
def execPeriodicSnapshot (s : State) : Out := ran periodicSnapshot s
def execSnapshotCopyDone (s : State) : Out := .next (copyDone s)
def execHoldExpired (s : State) : Out := .next (holdExpired s)

end Sys2Proof.Machine
end

