-- ==== Sys2Proof/Machine/EventActions.lean ====
section
/-! DEFINITION. The scheduler's half of the event table: the actions of entries, pre-arming, firing, and the landing of pin actions
(R184, R185, R195–R202). -/

namespace Sys2Proof.Machine

open Sys2Proof

/-! ### Actions (R184, R185) -/

/-- Action 0x01. -/
def actKick (q c : Nat) (l : Live) : Live := if blockHeld l (c / 64) then noTarget q l else raiseReq c 0x40 l

/-- Actions 0x02–0x04: OUT of the channel that drives the T-pin, or the T-pin's own latch. -/
def actPin (q n fine : Nat) (a : PinAct) (l : Live) : Live :=
  let d := driverOf l n
  if d = 0xFFFF then noTarget q l
  else if d = 0xFFFE then drivePin n (l.updTpin n (fun t => { t with latch := applyAct a t.latch }))
  else if blockHeld l (d / 64) then noTarget q l
  else pinAction d fine 3 a l

/-- Action 0x05. -/
def actCommit (q g : Nat) (l : Live) : Live :=
  if groupArmed l g && l.cfg (0x2C00 + g) 1 = 1 then triggerGroup false g l else noTarget q l

/-- Action 0x06: the first PCLK edge at or after the firing TCLK (R19). In BLOCK reset of the unit the start is dropped as well (R306). -/
def actSequence (q s : Nat) (l : Live) : Live :=
  let l := seqStart s (pclkAt l.now) l
  if blockHeld l 0x18 then noTarget q l else l

/-- Action 0x07. -/
def actSsi (q n : Nat) (l : Live) : Live :=
  if !ssiMode l n || blockHeld l (0x20 + n) then noTarget q l else ssiRequest n l

/-- Action 0x08. -/
def actOverlay (q slot : Nat) (l : Live) : Live :=
  if slot ≠ 0 && !slotUsed l slot then noTarget q l else applyOverlay slot 2 l

/-- Action 0x09; a channel that is not RUNNING counts as disabled (R347). -/
def actDma (q c : Nat) (l : Live) : Live :=
  if (l.dc c).state ≠ .running || blockHeld l 0x40 then noTarget q l else dmaSoft c l

/-- Action 0x0A: a flag named in both masks is set. -/
def actFlags (q e : Nat) (set clr : Byte) (l : Live) : Live :=
  if blockHeld l (0x30 + e) then noTarget q l else peSetFlags e set (peClearFlags e clr l)

/-- Action 0x0B. -/
def actMark (q payload : Nat) (l : Live) : Live := writeRecord (0x9000 + 0x40 * q) 0x33 payload l

/-- The action of an entry that is no pin action (R184, R198). -/
def doAction (x : EvEntry) (l : Live) : Live :=
  let q := x.queue
  match x.act with
  | 0x01 => actKick q x.tgt l
  | 0x05 => actCommit q x.tgt l
  | 0x06 => actSequence q x.tgt l
  | 0x07 => actSsi q x.tgt l
  | 0x08 => actOverlay q x.tgt l
  | 0x09 => actDma q x.tgt l
  | 0x0A => actFlags q x.tgt (BitVec.ofNat 8 (field x.arg.toNat 7 0)) (BitVec.ofNat 8 (field x.arg.toNat 15 8)) l
  | 0x0B => actMark q x.arg.toNat l
  | 0x0C => wantSnapshot l
  | _ => l

/-- The pin action of an entry, by its code. -/
def pinActOf (x : EvEntry) : Option PinAct := match x.act with
  | 0x02 => some .set
  | 0x03 => some .clear
  | 0x04 => some .toggle
  | _ => none

/-! ### Pre-arming (R195, R199) -/

/-- What the scheduler knows of an entry's due instant: its DTIME, the fine position of its pin action, whether the entry is late. -/
structure Due where
  at_ : Nat
  fine : Nat
  late : Bool
deriving DecidableEq, Repr

/-- The due instant of a live entry, none where it has none yet (R187, R195, R199, R203, R222). -/
def dueOf (l : Live) (e : Nat) : Option Due :=
  let x := l.entry e
  let q := x.queue
  let b := qBase l q
  if b < 2 then
    if x.late || keyBehind l q x.key then some ⟨l.now - backOf l q x.key, 0, true⟩
    else if x.slow then none
    else some ⟨if b = 0 then l.now + modDist 48 x.key l.stamp.toNat else atKeyDue l x.key, x.arg.toNat % 64, false⟩
  else if b < 6 then
    match x.reached with
    | some t => some ⟨t, x.fine, x.late || decide (t < l.now)⟩
    | none =>
      if x.late then some ⟨l.now, 0, true⟩
      else ((l.wheel (b - 2)).predict l.now x.key).map (fun p => ⟨p.1, p.2, false⟩)
  else x.reached.map (fun t => ⟨t, 0, false⟩)

/-- The first live entry of a queue that is not yet pre-armed, with its due instant, if it is eligible (R195). -/
def eligible (l : Live) (q : Nat) : Option (Nat × Due) :=
  if queueBlocked l q then none
  else match (queueOrder l q).find? (fun e => (l.entry e).phase = .live && (l.entry e).armed.isNone) with
    | some e => match dueOf l e with
      | some d => if d.at_ ≤ l.now + 64 then some (e, d) else none
      | none => none
    | none => none

/-- The earliest due instant; the lower queue number breaks a tie. -/
def earliest (l : Live) : List Nat → Option (Nat × Due)
  | [] => none
  | q :: r => match eligible l q, earliest l r with
    | some a, some b => if b.2.at_ < a.2.at_ then some b else some a
    | some a, none => some a
    | none, x => x

/-- EVENT_PREARM: at most one entry in each ECLK (R195). A late entry falls due at once (log entry 45). -/
def eventPrearm (l : Live) : Live :=
  if !schedUp l || l.events.prearmAt = some (l.now / 2) || decide (32 ≤ armedEntries l) then l
  else match earliest l (List.range 16) with
    | none => l
    | some (e, d) =>
      let l := l.updEntry e (fun x => { x with armed := some (if d.late then l.now else d.at_), fine := d.fine, late := d.late })
      { l with events := { l.events with prearmAt := some (l.now / 2) } }

/-! ### Firing (R196, R200, R201) -/

/-- An armed entry whose due TCLK has come: a WA entry only when the lane has reached its key (R188). -/
def readyAt (l : Live) (e : Nat) : Option Nat :=
  let x := l.entry e
  let b := qBase l x.queue
  match x.armed with
  | some due =>
    if x.phase = .live && decide (due ≤ l.now) && !queueBlocked l x.queue
        && !(decide (2 ≤ b) && decide (b < 6) && x.reached.isNone && !x.late) then some due
    else none
  | none => none

/-- Of the entries that are ready the one that takes the slot: earliest due instant, then queue, then order (R196). -/
def slotWinner (l : Live) : Option (Nat × Nat) :=
  let ready := ((List.range 16).flatMap (queueOrder l)).filterMap (fun e => (readyAt l e).map (fun d => (e, d)))
  ready.foldl (fun best c => match best with
    | some b => if c.2 < b.2 then some c else some b
    | none => some c) none

/-- Lateness at firing in the unit of the key base (R187, R189, R199). -/
def latenessOf (l : Live) (x : EvEntry) : Nat :=
  let b := qBase l x.queue
  if 6 ≤ b then x.fpDist
  else if !x.late then 0
  else if b < 2 then backOf l x.queue x.key
  else
    let w := l.wheel (b - 2)
    (w.trueAngle l.now + w.cyc - x.key % w.cyc) % w.cyc

/-- The record of a firing or a skip (R201). -/
def firingRecord (e lateness kind : Nat) (l : Live) : Live :=
  let src := 0x9000 + 0x40 * (l.entry e).queue + (if kind = 0x30 then 0 else 2)
  writeRecord src kind (e * 2 ^ 20 + satTo 20 lateness) l

/-- A late entry is skipped (R200). -/
def skipLate (l : Live) (x : EvEntry) (lateness : Nat) : Bool :=
  decide (lateWindow l x.queue < lateness) || x.skiplate || l.cfg (0x2800 + x.queue) 2 = 1

/-- The skip of a late entry (R200, R201). -/
def skipEntry (e lateness : Nat) (l : Live) : Live :=
  let x := l.entry e
  let tooLate := decide (lateWindow l x.queue < lateness)
  let l := noteFlags (key (0x3800 + x.queue) 1) (if tooLate then 6 else 2) l
  let l := l.updQueue x.queue (fun y =>
    { y with status := if tooLate then setBit (setBit y.status 1) 2 else setBit y.status 1, skipCnt := y.skipCnt + 1 })
  afterFiring e (firingRecord e lateness 0x32 l)

/-- The firing of an entry: its action, its record, and its reinsertion or end (R196, R200–R202). A pin action that has landed is not
repeated. -/
def fireEntry (e lateness : Nat) (l : Live) : Live :=
  let x := l.entry e
  let mark := fun (y : EvQueue) =>
    let y := { y with fired := y.fired + 1 }
    if x.late then { y with status := setBit y.status 0, lateCnt := y.lateCnt + 1 } else y
  let l := (if x.late then noteBit (0x3800 + x.queue) 1 0 l else l).updQueue x.queue mark
  let l := if x.late then firingRecord e lateness 0x31 l else if x.logf then firingRecord e lateness 0x30 l else l
  let l := match pinActOf x with
    | some a => if x.landed then l else actPin x.queue x.tgt (if x.late then 0 else x.fine) a l
    | none => doAction x l
  afterFiring e l

/-- The slot of this ECLK carries entry e: slip and lateness of its queue, then the firing or the skip (R196, R200). -/
def takeSlot (e due : Nat) (l : Live) : Live :=
  let x := l.entry e
  let n := latenessOf l x
  let slip := satTo 8 (l.now / 2 - due / 2)
  let l := { l with events := { l.events with slotAt := some (l.now / 2) } }
  let l := l.updQueue x.queue (fun y =>
    { y with lastSlip := BitVec.ofNat 8 slip, lastLate := if x.late then BitVec.ofNat 32 (satTo 32 n) else y.lastLate })
  if x.late && skipLate l x n then skipEntry e n l else fireEntry e n l

/-- The entry that takes the fire slot of this ECLK in this TCLK: in its due TCLK, or in the first TCLK of a later ECLK (R196). -/
def slotTaker (l : Live) : Option (Nat × Nat) :=
  if !schedUp l || l.events.slotAt = some (l.now / 2) then none
  else (slotWinner l).filter (fun w => l.now = w.2 || (decide (w.2 / 2 < l.now / 2) && l.now % 2 = 0))

/-- A boundary of this TCLK that is a group's trigger is still to be applied (R18, R64). -/
def boundaryCommitDue (l : Live) : Bool :=
  (List.range 64).any (fun g => groupArmed l g && l.cfg (0x2C00 + g) 1 = 4 &&
    (let p := l.pair (l.cfg (0x2C00 + g) 2)
     p.state = .running && !p.stopDue && (p.nextB.map (· / 64)) = some l.now))

/-- The action of an entry is a commit: a trigger or an overlay (R64). -/
def EvEntry.commits (x : EvEntry) : Bool := x.act = 0x05 || x.act = 0x08

/-- Commits of this TCLK whose cause the device knows come before its other event actions (R64). -/
def commitFirst (l : Live) : Bool :=
  boundaryCommitDue l || (match slotTaker l with
    | some w => (l.entry w.1).commits
    | none => false)

/-- EVENT_FIRE: entry e takes the fire slot of this ECLK (R196). An entry that is no commit waits for a boundary's commit, which may cancel
it (R64, R192). -/
def eventFire (e : Nat) (l : Live) : Live := match slotTaker l with
  | some (e', due) => if e' = e && ((l.entry e).commits || !boundaryCommitDue l) then takeSlot e due l else l
  | none => l

/-- EVENT_PIN_LAND: the pin action of a pre-armed entry lands in its due TCLK, after the commits of that TCLK (R64, R185, R196). -/
def eventPinLand (e : Nat) (l : Live) : Live :=
  let x := l.entry e
  match pinActOf x, readyAt l e with
  | some a, some due =>
    if schedUp l && due = l.now && !x.late && !x.landed && !commitFirst l then
      actPin x.queue x.tgt x.fine a (l.setEntry e { x with landed := true })
    else l
  | _, _ => l

/-! ### Commands -/

/-- An action of queue q, while the core runs. -/
def queueAction (f : Live → Live) (s : State) : Out := ran (fun l => if schedUp l then f l else l) s

def execEventPrearm (s : State) : Out := ran eventPrearm s
def execEventFire (e : BitVec 12) (s : State) : Out := ran (eventFire e.toNat) s
def execEventPinLand (e : BitVec 12) (s : State) : Out := ran (eventPinLand e.toNat) s
def execKickChannel (q : Fin 16) (c : Fin 512) (s : State) : Out := queueAction (actKick q.val c.val) s
def execEventPinSet (q : Fin 16) (n : Fin 192) (fine : BitVec 6) (s : State) : Out :=
  queueAction (actPin q.val n.val fine.toNat .set) s
def execEventPinClear (q : Fin 16) (n : Fin 192) (fine : BitVec 6) (s : State) : Out :=
  queueAction (actPin q.val n.val fine.toNat .clear) s
def execEventPinToggle (q : Fin 16) (n : Fin 192) (fine : BitVec 6) (s : State) : Out :=
  queueAction (actPin q.val n.val fine.toNat .toggle) s
def execCommitTrigger (q : Fin 16) (g : Fin 64) (s : State) : Out := queueAction (actCommit q.val g.val) s
def execStartSequence (q : Fin 16) (sq : Fin 4) (s : State) : Out := queueAction (actSequence q.val sq.val) s
def execSsiFrameRequest (q : Fin 16) (n : Fin 8) (s : State) : Out := queueAction (actSsi q.val n.val) s
def execApplyOverlay (q : Fin 16) (slot : Fin 13) (s : State) : Out := queueAction (actOverlay q.val slot.val) s
def execDmaRequest (q : Fin 16) (c : Fin 32) (s : State) : Out := queueAction (actDma q.val c.val) s
def execPinEngineFlags (q : Fin 16) (e : Fin 16) (setMask clrMask : Byte) (s : State) : Out :=
  queueAction (actFlags q.val e.val setMask clrMask) s
def execLogMark (q : Fin 16) (arg : BitVec 32) (s : State) : Out := queueAction (actMark q.val arg.toNat) s
def execEventSnapshot (_q : Fin 16) (s : State) : Out := queueAction wantSnapshot s

end Sys2Proof.Machine
end

