-- ==== Sys2Proof/Machine/PwmCommands.lean ====
section
/-! DEFINITION. The commands of the PWM pairs, the trip inputs and the arm logic (R267–R299); a published boundary is also the trigger
of commit groups (R18). -/

namespace Sys2Proof.Machine

open Sys2Proof

/-- PWM_BOUNDARY: the pair reloads, and a published boundary triggers the groups bound to it (R18, R272). -/
def boundaryCommand (u : Nat) (l : Live) : Live :=
  let r := pairBoundary u l
  if r.2 then triggerBoundary u r.1 else r.1

/-- The disarm command has no effect while DISARMED, which the device is until the first rise of ARM0 (R291, R292). -/
def disarmCommand (l : Live) : Live := if l.pwm.arm = .armed then disarm 1 l else l

/-- ARM_COMMAND and DISARM_COMMAND write 0x2418:02 with 1 and 2 (R291, R293). -/
def armObject (v : Nat) (l : Live) : Live × Nat := if v = 1 then armCommand l else (disarmCommand l, 0)

/-- A readback of an output of the PWM unit (R294). -/
def outReadback (out : PwmOut) (level : Bool) (l : Live) : Live := match out with
  | .pairH u => pairReadback u.val false level l
  | .pairL u => pairReadback u.val true level l
  | .arm j => armReadback j.val level l

def execPwmBoundary (u : Fin 24) (s : State) : Out := ran (boundaryCommand u.val) s
def execPwmMidReload (u : Fin 24) (s : State) : Out := ran (pwmMidReload u.val) s
def execPwmOutputEdge (u : Fin 24) (edge : PwmEdge) (s : State) : Out := ran (pwmOutputEdge u.val edge) s
def execStreamBeatWrite (u : Fin 24) (beat : Word) (s : State) : Out := ran (streamBeat u.val beat) s

def execDlineCalibration (u : Fin 24) (isL : Bool) (taps : Byte) (s : State) : Out := ran (dlineCalibration u.val isL taps) s

def execPairStart (u : Fin 24) (s : State) : Out := ran (pairStart u.val) s

def execTripDecision (i : Fin 16) (stamp : Stamp) (active : Bool) (s : State) : Out := ran (tripDecision i.val stamp active) s

def execBlankLimit (i : Fin 16) (s : State) : Out := ran (blankLimit i.val) s

def execTripClear (conn : Conn) (i : Fin 16) (s : State) : Out :=
  ran (onObject conn (0x2420 + i.val) 8 (done (clearTrip i.val))) s

def execClearAllTrips (conn : Conn) (s : State) : Out := ran (onObject conn 0x2418 4 (done clearAll)) s
def execArmCommand (conn : Conn) (s : State) : Out := ran (onObject conn 0x2418 2 (armObject 1)) s
def execDisarmCommand (conn : Conn) (s : State) : Out := ran (onObject conn 0x2418 2 (armObject 2)) s
def execArmStart (s : State) : Out := ran armStart s
def execArmToggle (s : State) : Out := ran armToggle s
def execPwmReadback (out : PwmOut) (level : Bool) (s : State) : Out := ran (outReadback out level) s

end Sys2Proof.Machine
end

