-- ==== Sys2Proof/Machine/CommObjects.lean ====
section
/-! DEFINITION. Writes of the communication objects 0x1000–0x1FFF, which act when they are accepted (R404–R406), and what each starts anew. -/

namespace Sys2Proof.Machine

open Sys2Proof

/-- An index of the communication profile. -/
def isComm (idx : Nat) : Bool := decide (0x1000 ≤ idx ∧ idx < 0x2000)

/-- Page of a PDO object: 0x14 and 0x16 RPDOs, 0x18 and 0x1A TPDOs. -/
def pdoPage (idx : Nat) : Nat := idx / 256

/-- The key under which a communication object is stored: COB-ID EMCY is one per bus (R404). -/
def commKey (bus idx s : Nat) : Key := if idx = 0x1014 then key 0x1014 bus else key idx s

/-- A mapping entry names a mappable object with its own length, or nothing (R392, R404). -/
def entryOk (rpdo : Bool) (v : Nat) : Bool :=
  v = 0 || (match objRow (v / 65536) (v / 256 % 256) with
    | some r => v % 256 = 8 * r.size
      && (if rpdo then admissible (key (v / 65536) (v / 256 % 256)) else tpdoMappable (v / 65536) (v / 256 % 256))
    | none => false)

/-- Bytes that a PDO may carry on its bus (R404). -/
def pdoRoom (l : Live) (idx : Nat) : Nat :=
  let p := idx % 256
  let b := if pdoPage idx = 0x16 then rpdoBusOf l p else tpdoBusOf l p
  if isFd l b then 64 else 8

/-- The first n entries of a mapping may be used: all name an object, the total fits, and those of an RPDO have one group (R404, R406). -/
def mappingCheck (l : Live) (idx n : Nat) : Nat :=
  let vs := (List.range n).map (fun i => commVal l idx (i + 1))
  let es := vs.map (fun v => (v / 65536, v / 256 % 256, v % 256))
  if vs.any (fun v => v = 0) then abNotMappable
  else if pdoRoom l idx < pdoLength es then abMapLength
  else if pdoPage idx = 0x16 && n ≠ 0 && (rpdoGroup l es).isNone then abMapGroups
  else 0

/-- What a value must satisfy whatever it replaces; 0 where it does (R404). -/
def commCheck (l : Live) (idx s v : Nat) : Nat := match pdoPage idx with
  | 0x10 =>
    if (idx = 0x1005 ∨ idx = 0x1012) ∧ bitOf v 30 then abRange
    else if idx = 0x1019 ∧ v = 1 then abRange else 0
  | 0x14 | 0x18 => if s = 2 ∧ 240 < v ∧ v < 254 then abRange else 0
  | 0x16 => if s = 0 then (if 64 < v then abRange else mappingCheck l idx v) else if entryOk true v then 0 else abNotMappable
  | 0x1A => if s = 0 then (if 64 < v then abRange else mappingCheck l idx v) else if entryOk false v then 0 else abNotMappable
  | _ => 0

/-- The value in force of a communication object, as bus `bus` sees it. -/
def commNow (l : Live) (bus idx s : Nat) : Nat := if idx = 0x1014 then cobEmcy l bus else commVal l idx s

/-- An object whose bit 31 declares a COB-ID invalid. -/
def isCob (idx s : Nat) : Bool := idx = 0x1014 || ((pdoPage idx = 0x14 || pdoPage idx = 0x18) && s = 1)

/-- A COB-ID may be changed only by first setting bit 31; a mapping only while its PDO is invalid and its :00 is 0 (R404). -/
def changeRefused (l : Live) (bus idx s v : Nat) : Bool :=
  let old := commNow l bus idx s
  if isCob idx s then !bitOf old 31 && !bitOf v 31 && v ≠ old
  else if pdoPage idx = 0x16 || pdoPage idx = 0x1A then
    pdoValid l (idx / 256 * 256 - 0x200) (idx % 256) || (s ≠ 0 && commVal l idx 0 ≠ 0)
  else false

/-- What an accepted value starts anew: the heartbeat, the time of the last SYNC, a consumer's timer, an event timer. -/
def commStart (idx s : Nat) (l : Live) : Live :=
  if idx = 0x1017 then forAll (fun b l => l.updBus b (fun x => { x with lastHb := l.now })) [0, 1] l
  else if idx = 0x1006 then { l with net := { l.net with lastSync := some l.now } }
  else if idx = 0x1016 then l.updBus ((s - 1) / 4) (fun x => { x with consumers := x.consumers.put {} ((s - 1) % 4) {} })
  else if pdoPage idx = 0x18 ∧ s = 5 then l.updTpdo (idx % 256) (fun x => { x with timerFrom := l.now })
  else l

/-- Writing 0 to 0x1003:00 clears the error list and the bits of rows without a flag (R404, R407). -/
def clearErrors (l : Live) : Live := { l with net := { l.net with errors := [], sticky := 0 } }

/-- A write of a communication object that acts when it is accepted (R404). -/
def commWrite (bus idx s : Nat) (data : List Byte) (l : Live) : Live × Nat := match parseValue idx s data with
  | .error a => (l, a)
  | .ok v =>
    if idx = 0x1003 then (clearErrors l, 0)
    else if changeRefused l bus idx s v.toNat then (l, abRange)
    else match commCheck l idx s v.toNat with
      | 0 => (commStart idx s (l.setBase (commKey bus idx s) v), 0)
      | a => (l, a)

end Sys2Proof.Machine
end

