-- ==== Sys2Proof/Machine/Lss.lean ====
section
/-! DEFINITION. The LSS slave of each bus (R409). The spec names CiA 305; the forms of its frames and its Fastscan sequence are taken from
that standard (log entry 44). -/

namespace Sys2Proof.Machine

open Sys2Proof

/-- LSS runs in every NMT state but INITIALISING, on a bus without a node-ID too (R396, R400), unless the bus is off. -/
def lssUp (l : Live) (b : Nat) : Bool := netUp l && busState l b ≠ 2

def lssConf (l : Live) (b : Nat) : Bool := (l.bus b).lss.configuration

/-- Sends an LSS answer of the slave: COB-ID 0x7E4, the command specifier first, 8 bytes. -/
def lssReply (b : Nat) (data : List Byte) (l : Live) : Live :=
  transmit b { cobId := 0x7E4, data := data ++ List.replicate (8 - data.length) 0 } l

def updLss (b : Nat) (f : LssState → LssState) (l : Live) : Live := l.updBus b (fun x => { x with lss := f x.lss })

/-- The LSS address of the device: the identity of 0x1018 (R409). -/
def identityPart (i : Nat) : BitVec 32 := match i with
  | 0 => Config.vendorId
  | 1 => 0x512
  | 2 => 0x10000
  | _ => Config.serialNumber

/-- A service of the configuration state. -/
def inConf (b : Nat) (f : Live → Live) (l : Live) : Live := if lssUp l b && lssConf l b then f l else l

/-- Switch state global: 1 configuration, 0 waiting. -/
def lssGlobal (b : Nat) (mode : Byte) (l : Live) : Live :=
  if lssUp l b && decide (mode.toNat < 2) then updLss b (fun x => { x with configuration := mode = 1 }) l else l

/-- Switch state selective: the slave whose identity is named enters configuration and answers. -/
def lssSelective (b : Nat) (a : LssAddress) (l : Live) : Live :=
  let mine := a.vendor = identityPart 0 && a.product = identityPart 1 && a.revision = identityPart 2 && a.serial = identityPart 3
  if lssUp l b && !lssConf l b && mine then lssReply b [68] (updLss b (fun x => { x with configuration := true }) l) else l

/-- Configure node-ID: 1–127 or 0xFF, in force at the next COMM reset; others are refused with error 1 (R409). -/
def lssNodeId (b : Nat) (id : Byte) (l : Live) : Live :=
  if (decide (1 ≤ id.toNat) && decide (id.toNat ≤ 127)) || id = 0xFF then
    lssReply b [17, 0, 0] (updLss b (fun x => { x with nodeId := some id }) l)
  else lssReply b [17, 1, 0] l

/-- Configure bit timing: table 0, entries 0–4; others are refused with error 1 (R409). -/
def lssBitTiming (b : Nat) (table entry : Byte) (l : Live) : Live :=
  if table = 0 && decide (entry.toNat ≤ 4) then
    lssReply b [19, 0, 0] (updLss b (fun x => { x with bitCode := some entry }) l)
  else lssReply b [19, 1, 0] l

/-- Rate of a code of the LSS table in kbit/s (R409). -/
def lssRate (code : Nat) : Nat := nth 500 [1000, 800, 500, 250, 125] code

/-- Activate bit timing: the bus works at the configured rate; the switch delay is not modelled. -/
def lssActivate (b : Nat) (l : Live) : Live := match (l.bus b).lss.bitCode with
  | some c => l.updBus b (fun x => { x with arbRate := lssRate c.toNat })
  | none => l

/-- Store configuration: the node-ID and the arbitration rate of this bus go into the device record (R409, R422). What LSS has not
configured is stored as it is in use. -/
def lssStore (b : Nat) (l : Live) : Live :=
  let x := l.bus b
  let old := storedSettings l
  let node := (x.lss.nodeId.getD x.nodeId).toNat
  let code := match x.lss.bitCode with
    | some c => c.toNat
    | none => ([0, 1, 2, 3, 4].find? (fun c => lssRate c = x.arbRate)).getD 0xFF
  lssReply b [23, 0, 0] (storeSettings { old with node := old.node.set b node, code := old.code.set b code } l)

/-- Inquire identity: vendor-ID, product code, revision or serial number. -/
def lssIdentity (b which : Nat) (l : Live) : Live :=
  lssReply b (BitVec.ofNat 8 (90 + which) :: bytesLE 4 (identityPart which).toNat) l

/-- Inquire node-ID. -/
def lssInquireNode (b : Nat) (l : Live) : Live := lssReply b [94, (l.bus b).nodeId] l

/-- Identify remote slave: vendor and product equal, revision and serial number within the range. -/
def lssIdentify (b : Nat) (lo hi : LssAddress) (l : Live) : Live :=
  let within := fun (x y z : BitVec 32) => decide (x.toNat ≤ y.toNat) && decide (y.toNat ≤ z.toNat)
  if lssUp l b && lo.vendor = identityPart 0 && lo.product = identityPart 1 && within lo.revision (identityPart 2) hi.revision
      && within lo.serial (identityPart 3) hi.serial then lssReply b [79] l
  else l

/-- The slave has no node-ID, in use or configured. -/
def unconfigured (l : Live) (b : Nat) : Bool := !busConfigured l b && (l.bus b).lss.nodeId.getD 0xFF = 0xFF

/-- Identify non-configured slave. -/
def lssIdentifyOpen (b : Nat) (l : Live) : Live := if lssUp l b && unconfigured l b then lssReply b [80] l else l

/-- A Fastscan step compares the bits of one part of the LSS address from bitCheck up; the last part matched whole selects the slave. -/
def lssFastscan (b : Nat) (idNumber : BitVec 32) (bitCheck lssSub lssNext : Byte) (l : Live) : Live :=
  if !(lssUp l b && unconfigured l b && !lssConf l b) then l
  else if bitCheck = 0x80 then lssReply b [79] (updLss b (fun x => { x with scanPart := 0 }) l)
  else if lssSub.toNat ≠ (l.bus b).lss.scanPart || decide (32 ≤ bitCheck.toNat) || decide (4 ≤ lssSub.toNat) then l
  else if idNumber >>> bitCheck.toNat = identityPart lssSub.toNat >>> bitCheck.toNat then
    let all := bitCheck = 0 && decide (lssNext.toNat < lssSub.toNat)
    lssReply b [79] (updLss b (fun x => { x with scanPart := lssNext.toNat, configuration := x.configuration || all }) l)
  else l

def execLssSwitchStateGlobal (bus : Fin 2) (mode : Byte) (s : State) : Out := ran (lssGlobal bus.val mode) s
def execLssSwitchStateSelective (bus : Fin 2) (addr : LssAddress) (s : State) : Out := ran (lssSelective bus.val addr) s
def execLssConfigureNodeId (bus : Fin 2) (id : Byte) (s : State) : Out := ran (inConf bus.val (lssNodeId bus.val id)) s

def execLssConfigureBitTiming (bus : Fin 2) (table entry : Byte) (s : State) : Out :=
  ran (inConf bus.val (lssBitTiming bus.val table entry)) s

/-- The delay before and after the switch of the rate is timing (log entry 44). -/
def execLssActivateBitTiming (bus : Fin 2) (_delayMs : BitVec 16) (s : State) : Out := ran (inConf bus.val (lssActivate bus.val)) s

def execLssStoreConfiguration (bus : Fin 2) (s : State) : Out := ran (inConf bus.val (lssStore bus.val)) s

def execLssInquireIdentity (bus : Fin 2) (which : Fin 4) (s : State) : Out :=
  ran (inConf bus.val (lssIdentity bus.val which.val)) s

def execLssInquireNodeId (bus : Fin 2) (s : State) : Out := ran (inConf bus.val (lssInquireNode bus.val)) s

def execLssIdentifyRemoteSlave (bus : Fin 2) (lo hi : LssAddress) (s : State) : Out := ran (lssIdentify bus.val lo hi) s

def execLssIdentifyNonConfiguredSlave (bus : Fin 2) (s : State) : Out := ran (lssIdentifyOpen bus.val) s

def execLssFastscan (bus : Fin 2) (idNumber : BitVec 32) (bitCheck lssSub lssNext : Byte) (s : State) : Out :=
  ran (lssFastscan bus.val idNumber bitCheck lssSub lssNext) s

end Sys2Proof.Machine
end

