-- ==== Sys2Proof/Machine/Interrupts.lean ====
section
/-! DEFINITION. Interrupt groups, their claim and complete, the four lines (R374–R380), doze and wake (R381–R386), and their commands. -/

namespace Sys2Proof.Machine

open Sys2Proof

/-! ### Groups (R374, R375) -/

/-- Settings of a group. -/
def irqPriority (l : Live) (g : Nat) : Nat := l.cfg (0x2B00 + g) 2
def irqTarget (l : Live) (g : Nat) : Nat := l.cfg (0x2B00 + g) 3
/-- Hold-off in TCLK, from µs. -/
def irqHoldOff (l : Live) (g : Nat) : Nat := l.cfg (0x2B00 + g) 4 * 400
/-- Claim timeout in TCLK, from ms; 0 off. -/
def irqTimeout (l : Live) (g : Nat) : Nat := l.cfg (0x2B00 + g) 5 * 400000

/-- A group has an enabled line: a bit of ASSERTED (R374, R377). -/
def irqAsserted (l : Live) (g : Nat) : Bool := l.cfg (0x2B00 + g) 1 ≠ 0 && enabledLines l g ≠ 0

/-- A group is ACTIVE or ACTIVE-PENDING. -/
def IrqGroup.claimed (x : IrqGroup) : Bool := x.state = .active || x.state = .activePending

/-- A group enters PENDING. -/
def IrqGroup.pend (x : IrqGroup) : IrqGroup := { x with state := .pending, entryCnt := x.entryCnt + 1 }

/-- A group follows its lines (R375). -/
def IrqGroup.follow (on : Bool) (x : IrqGroup) : IrqGroup := match x.state, on with
  | .idle, true => x.pend
  | .pending, false => { x with state := .idle }
  | .activePending, false => { x with state := .active }
  | .active, true => { x with state := .activePending }
  | _, _ => x

def settleGroup (g : Nat) (l : Live) : Live := l.setIrqGroup g ((l.irqGroup g).follow (irqAsserted l g))

/-- Every group follows its lines: flags come first in a TCLK (R379). -/
def settleGroups (l : Live) : Live := forAll settleGroup (List.range 40) l

/-- A claimed group completes (R375). -/
def IrqGroup.complete (holdEnd : Option Nat) (x : IrqGroup) : IrqGroup := match holdEnd with
  | some t => { x with state := .held, holdEnd := t }
  | none => if x.state = .activePending then x.pend else { x with state := .idle }

def completeGroup (g : Nat) (l : Live) : Live :=
  let h := irqHoldOff l g
  l.setIrqGroup g ((l.irqGroup g).complete (if h = 0 then none else some (l.now + h)))

/-! ### Lines and vectors (R376, R377) -/

/-- A group is PENDING and above every claimed group routed to the line. -/
def holdsLine (l : Live) (n g : Nat) : Bool :=
  irqTarget l g = n && (l.irqGroup g).state = .pending
    && (List.range 40).all (fun h =>
      !((l.irqGroup h).claimed && irqTarget l h = n) || decide (irqPriority l h < irqPriority l g))

/-- The group that VECTORn shows: the highest priority, then the lowest number. -/
def vectorGroup (l : Live) (n : Nat) : Option Nat :=
  (List.range 40).foldl (fun best g =>
    if holdsLine l n g then
      (match best with
        | some b => if irqPriority l b < irqPriority l g then some g else best
        | none => some g)
    else best) none

/-- Source ID of the lowest-numbered enabled line of a group. -/
def vectorSource (l : Live) (g : Nat) : Nat :=
  match (List.range 64).find? (fun i => (enabledLines l g).getLsbD i) with
  | some i => lineSource l g i
  | none => 0

/-- VECTORn. -/
def vectorWord (l : Live) (n : Nat) : BitVec 32 := match vectorGroup l n with
  | some g => BitVec.ofNat 32 (2 ^ 31 + irqPriority l g * 2 ^ 24 + g * 2 ^ 16 + vectorSource l g)
  | none => 0

/-- IRQn_N is driven low (R376, R380). -/
def irqLow (l : Live) (n : Nat) : Bool := hostUp l && (vectorGroup l n).isSome

/-- ASSERTED and ACTIVE. -/
def assertedWord (l : Live) : Word := BitVec.ofNat 64 (maskOf ((List.range 40).map (irqAsserted l)))
def activeWord (l : Live) : Word := BitVec.ofNat 64 (maskOf ((List.range 40).map (fun g => (l.irqGroup g).claimed)))

/-! ### Claim, complete, hold-off, timeout (R375, R378) -/

/-- A refused write: its bit of LSTATn and its counter. -/
def irqRefuse (n bit lo : Nat) (l : Live) : Live :=
  noteFlags (hostReg (0x10C + 16 * n)) (2 ^ bit)
    { l with irq := { l.irq with lstat := l.irq.lstat.put 0 n (bumpAt (setBit (l.irq.lstat.get 0 n) bit) lo) } }

/-- A write to CLAIMn. -/
def irqClaim (n g : Nat) (l : Live) : Live :=
  let l := settleGroups l
  if vectorGroup l n = some g then l.setIrqGroup g { l.irqGroup g with state := .activePending, claimAt := l.now }
  else irqRefuse n 0 24 l

/-- A write to COMPLETEn. -/
def irqComplete (n g : Nat) (l : Live) : Live :=
  let l := settleGroups l
  if g < 40 ∧ irqTarget l g = n ∧ (l.irqGroup g).claimed then completeGroup g l else irqRefuse n 1 16 l

/-- The hold-off of a group ends. -/
def holdOffEnd (g : Nat) (l : Live) : Live :=
  let x := l.irqGroup g
  if x.state = .held ∧ x.holdEnd ≤ l.now then
    l.setIrqGroup g (if irqAsserted l g then x.pend else { x with state := .idle })
  else l

/-- The claim timeout of a group expires. -/
def claimTimeout (g : Nat) (l : Live) : Live :=
  let l := settleGroup g l
  let x := l.irqGroup g
  if x.claimed && irqTimeout l g ≠ 0 && decide (x.claimAt + irqTimeout l g ≤ l.now) then
    completeGroup g (noteBit (0x3B00 + g) 4 0 (l.setIrqGroup g { x with status := setBit x.status 0 }))
  else l

/-- A write to LATCHg: w1c for the groups of channels, ignored for the others (R372, R377). -/
def latchClear (g : Nat) (mask : Word) (l : Live) : Live :=
  let m := BitVec.ofNat 64 (clearable l (hostReg (0x208 + 16 * g)) mask.toNat)
  if g < 8 then { l with irq := { l.irq with latch := l.irq.latch.put 0 g (clrMask (l.irq.latch.get 0 g) m) } } else l

/-! ### Doze (R381–R385) -/

/-- What refuses a doze request (R381). -/
def dozeRefused (l : Live) : Bool :=
  armed l || l.net.nmt = nmtOp || anyBelow 32 (fun c => (l.dc c).state = .running)
    || anyBelow 4 (fun s => (l.seq s).run.isSome) || calibrating l
    || anyBelow 4 (fun w => l.flag (0x2600 + w) 1) || anyBelow 8 (fun n => l.cfg (0x2500 + n) 1 ≠ 0) || l.micro.todo ≠ []

/-- A write of the doze command: the wake latches are cleared and armed (R381, R388). -/
def dozeCommand (v : Nat) (l : Live) : Live × Nat :=
  if v ≠ 1 then (l, abRange)
  else if dozeRefused l then (l, abState)
  else ({ l with doze := { l.doze with requested := true, latches := 0, tpinLatched := none } }, 0)

/-- The clocks stop (R381). -/
def dozeEnter (l : Live) : Live :=
  if coreUp l && l.doze.requested then { l with doze := { l.doze with requested := false, asleep := true } } else l

/-- Bit of a wake kind in the wake kinds and in Wake cause (R388, R389). -/
def wakeBit : WakeKind → Nat
  | .trip _ => 0
  | .pps => 1
  | .can b => 2 + b.val
  | .chipSelect => 4
  | .tpin _ => 5

/-- A wake source may set its latch: its kind is enabled, the trip input is enabled, the T-pin is selected (R383). -/
def wakeEnabled (k : WakeKind) (l : Live) : Bool :=
  bitOf (l.cfg 0x2000 0x11) (wakeBit k) && (match k with
    | .trip i => l.flag (0x2420 + i.val) 1
    | .tpin n => bitOf (l.cfg 0x2000 (0x12 + n.val / 64)) (n.val % 64)
    | _ => true)

/-- The T-pins latched so far, by the lowest (R389). -/
def latchTpin (k : WakeKind) (old : Option Nat) : Option Nat := match k, old with
  | .tpin n, some m => some (min m n.val)
  | .tpin n, none => some n.val
  | _, _ => old

/-- Wake T-pin. -/
def wakeTpin (t : Option Nat) : Byte := BitVec.ofNat 8 (t.getD 0xFF)

/-- A latch sets: in doze it starts the wake; before the clocks have stopped it aborts the entry (R384). -/
def wakeLatch (k : WakeKind) (l : Live) : Live :=
  let d := l.doze
  if !coreUp l || !wakeEnabled k l then l
  else if d.asleep then
    let d := if d.waking then d else { d with waking := true, wakeAt := l.now }
    { l with doze := { d with latches := setBit d.latches (wakeBit k), tpinLatched := latchTpin k d.tpinLatched } }
  else if d.requested then
    let d := { d with requested := false, tpin := wakeTpin (latchTpin k d.tpinLatched) }
    noteFlags (key 0x3000 0x10) (2 ^ wakeBit k + 0x80) { l with doze := { d with cause := setBit (setBit d.cause (wakeBit k)) 7 } }
  else l

/-- The device runs again (R384). -/
def wakeComplete (l : Live) : Live :=
  let d := l.doze
  if d.asleep && d.waking then
    noteFlags (key 0x3000 0x10) d.latches.toNat
      { l with doze := { d with asleep := false, waking := false, cause := d.cause ||| d.latches, dtime := l.time.dtime,
                                tpin := wakeTpin d.tpinLatched } }
  else l

/-! ### Commands -/

/-- A write transaction to one register, which a host port that serves nothing discards (R386). -/
def hostAct (f : Live → Live) (s : State) : Out := ran (fun l => if hostUp l then f (csFall l) else l) s

def execIrqClaim (n : Fin 4) (g : BitVec 6) (s : State) : Out := hostAct (irqClaim n.val g.toNat) s
def execIrqComplete (n : Fin 4) (g : BitVec 6) (s : State) : Out := hostAct (irqComplete n.val g.toNat) s
def execHoldOffEnd (g : Fin 40) (s : State) : Out := ran (holdOffEnd g.val) s
def execClaimTimeout (g : Fin 40) (s : State) : Out := ran (claimTimeout g.val) s
def execLatchClear (g : Fin 40) (mask : Word) (s : State) : Out := hostAct (latchClear g.val mask) s
def execDozeCommand (conn : Conn) (s : State) : Out := ran (onObject conn 0x2000 0x10 (dozeCommand 1)) s
def execDozeEnter (s : State) : Out := ran dozeEnter s
def execWakeLatch (kind : WakeKind) (s : State) : Out := ran (wakeLatch kind) s
def execWakeComplete (s : State) : Out := ran wakeComplete s

end Sys2Proof.Machine
end

