-- ==== Sys2Proof/Machine/Mailbox.lean ====
section
/-! DEFINITION. The mailbox rings, their registers and messages (R414–R416, R418), without what a request does to the dictionary
(MailCommands.lean). -/

namespace Sys2Proof.Machine

open Sys2Proof

def updMail (f : MailUnit → MailUnit) (l : Live) : Live := { l with mail := f l.mail }

/-! ### Messages (R416) -/

/-- The parts of a request. -/
def reqOp (b : List Byte) : Nat := fieldLE b 0 1
def reqFlags (b : List Byte) : Nat := fieldLE b 1 1
def reqLen (b : List Byte) : Nat := fieldLE b 2 2
def reqIndex (b : List Byte) : Nat := fieldLE b 4 2
def reqSub (b : List Byte) : Nat := fieldLE b 6 1
def reqOffset (b : List Byte) : Nat := fieldLE b 8 4
def reqGen (b : List Byte) : Nat := fieldLE b 12 2
def reqData (b : List Byte) : List Byte := slice b 16 (reqLen b)

/-- The opcode is known and the reserved bytes are 0. -/
def reqValid (b : List Byte) : Bool :=
  decide (1 ≤ reqOp b ∧ reqOp b ≤ 4) && decide (reqFlags b < 4) && fieldLE b 14 2 = 0

/-- A response: the request's header with the opcode raised by 0x80, its flags, the data length, the reset generation, the status, and
whether the request bears another host generation than the session's. -/
def response (l : Live) (req : List Byte) (flags status : Nat) (data : List Byte) : List Byte :=
  bytesLE 1 (reqOp req + 0x80) ++ bytesLE 1 flags ++ bytesLE 2 data.length ++ slice req 4 8 ++ bytesLE 2 l.rst.gen.toNat
    ++ bytesLE 1 status ++ bytesLE 1 (b2n (reqGen req ≠ l.mail.session.toNat)) ++ data

/-! ### Rings (R415) -/

/-- Requests counted by REQ_PROD and not taken, and responses not released. -/
def reqWaiting (m : MailUnit) : Nat := modDist 8 m.reqProd.toNat m.reqCons.toNat
def rspHeld (m : MailUnit) : Nat := modDist 8 m.rspProd.toNat m.rspCons.toNat

/-- A flag of MBSTAT is set (R84). -/
def noteMail (bit : Nat) (l : Live) : Live := noteFlags (hostReg 0x10004) (2 ^ bit) l

/-- Posts a response: it stands in its slot before RSP_PROD advances, and sets RSP_READY. -/
def post (b : List Byte) (l : Live) : Live :=
  let put := fun (m : MailUnit) => m.rspSlots.put [] (m.rspProd.toNat % 8) b
  noteMail 0 (updMail (fun m => { m with rspSlots := put m, rspProd := m.rspProd + 1, stat := setBit m.stat 0 }) l)

/-- The request at the front of the ring. -/
def frontRequest (l : Live) : List Byte := slice (l.mail.reqSlots.get [] (l.mail.reqCons.toNat % 8)) 0 2048

/-- The device takes a request: a session is open, mailbox requests are served, a response slot is free, and no request is unanswered
(R396, R414, R415; log entry 64). -/
def mayTake (l : Live) : Bool :=
  served .host l && decide (0 < reqWaiting l.mail) && decide (rspHeld l.mail < 8) && l.mail.taken.isNone && l.mail.aborts.isEmpty

/-- Takes the front request. -/
def takeRequest (l : Live) : Live :=
  updMail (fun m => { m with reqCons := m.reqCons + 1, taken := some (slice (frontRequest l) 0 16) }) l

/-- Answers the request taken. -/
def answerTaken (flags status : Nat) (data : List Byte) (l : Live) : Live := match l.mail.taken with
  | some h => post (response l h flags status data) (updMail (fun m => { m with taken := none }) l)
  | none => l

/-- Answers the request taken with an abort code. -/
def abortTaken (code : Nat) (l : Live) : Live := match l.mail.taken with
  | some h => answerTaken (reqFlags h) 1 (bytesLE 4 code) l
  | none => l

/-- A request that waited for the end of what it started is answered with what its connection was answered (R426, R437). -/
def mailSettle (l : Live) : Live := match l.mail.taken with
  | some h => (match (l.connSt 256).answer with
    | .none => l
    | .done => answerTaken (reqFlags h) 0 [] l
    | .abort a => abortTaken a.toNat l
    | .value d => answerTaken (reqFlags h) 0 d l)
  | none => l

/-! ### Resets (R418) -/

/-- Posts ABORTED_BY_RESET responses as far as slots are free. -/
def postAborts : Nat → Live → Live
  | 0, l => l
  | n + 1, l => match l.mail.aborts with
    | [] => l
    | h :: r =>
      if rspHeld l.mail < 8 then
        postAborts n (post (response l h (reqFlags h) 2 [])
          (noteMail 1 (updMail (fun m => { m with aborts := r, stat := setBit m.stat 1 }) l)))
      else l

/-- The headers of the requests in the ring, the front one first. -/
def ringHeaders (m : MailUnit) : List (List Byte) :=
  (List.range (reqWaiting m)).map (fun i => slice (m.reqSlots.get [] ((m.reqCons.toNat + i) % 8)) 0 16)

/-- Every request not answered is discarded: ABORT_CNT counts it, and its response is due. -/
def discardRequests (l : Live) : Live :=
  updMail (fun m =>
    let hs := m.taken.toList ++ ringHeaders m
    let stat := hs.foldl (fun s _ => bumpAt s 24) m.stat
    { m with aborts := m.aborts ++ hs, taken := none, reqCons := m.reqProd, stat := stat, readBuf := [], readAt := none,
             writeBuf := [], writing := false }) l

/-! ### Registers (R414, R415) -/

/-- The expert level of the session is locked and its count of wrong keys is 0 (R394, R395, R414). -/
def lockSession (l : Live) : Live := l.updConnSt 256 (fun c => { c with unlocked := false, wrongKeys := 0 })

/-- A write of a host generation: 0 closes the session, a new one opens it, or reopens it with SESSION_LOST. -/
def sessionWrite (g : BitVec 16) (l : Live) : Live :=
  let clean := fun (m : MailUnit) => { m with session := g, readBuf := [], readAt := none, writeBuf := [], writing := false }
  if g = l.mail.session then l
  else if g = 0 then updMail clean l
  else
    let stat := if l.mail.session = 0 then l.mail.stat else setBit l.mail.stat 3
    let l := if l.mail.session = 0 then l else noteMail 3 l
    lockSession (updMail (fun m => { clean m with stat := stat }) l)

/-- A write of REQ_PROD. -/
def reqProdWrite (v : Byte) (l : Live) : Live :=
  let l := if modDist 8 v.toNat l.mail.reqCons.toNat ≤ 8 then l else noteMail 2 l
  updMail (fun m =>
    if modDist 8 v.toNat m.reqCons.toNat ≤ 8 then { m with reqProd := v }
    else { m with stat := bumpAt (setBit m.stat 2) 16 }) l

/-- A write of RSP_CONS releases response slots. -/
def rspConsWrite (v : Byte) (l : Live) : Live := postAborts 8 (updMail (fun m => { m with rspCons := v }) l)

def execSessionOpen (generation : BitVec 16) (s : State) : Out := hostAct (sessionWrite generation) s
def execSessionClose (s : State) : Out := hostAct (sessionWrite 0) s
def execReqProdWrite (value : Byte) (s : State) : Out := hostAct (reqProdWrite value) s
def execRspConsWrite (value : Byte) (s : State) : Out := hostAct (rspConsWrite value) s

end Sys2Proof.Machine
end

