-- ==== Sys2Proof/Machine/MicroImage.lean ====
section
/-! DEFINITION. Microcode images and the control stores: the layout of a Quiny image and its checks, the word that an image gives to
an address of a cluster, the ROM words that the spec lists, a fetch, and the load of a store (R123, R127, R128, R131, R151, R152). -/

namespace Sys2Proof.Machine

open Sys2Proof

/-! ### Quiny images (R151, R152) -/

/-- A segment descriptor: cluster, start address, word count, and the offset of its first word in the image. -/
structure Segment where
  cluster : Nat
  start : Nat
  count : Nat
  offset : Nat
deriving DecidableEq, Repr

def imgGen (b : List Byte) : Nat := fieldLE b 0x06 2
def imgSegs (b : List Byte) : Nat := fieldLE b 0x0C 2
def imgMask (b : List Byte) : Nat := fieldLE b 0x0E 1

/-- The segments of an image, from descriptor i on, with the offset of the next word. -/
def segmentsFrom (b : List Byte) (off : Nat) : Nat → Nat → List Segment
  | _, 0 => []
  | i, n + 1 =>
    let d := 64 + 8 * i
    let s : Segment := ⟨fieldLE b d 1, fieldLE b (d + 2) 2, fieldLE b (d + 4) 2, off⟩
    s :: segmentsFrom b (off + 16 * s.count) (i + 1) n

def segmentsOf (b : List Byte) : List Segment := segmentsFrom b (64 + 8 * imgSegs b) 0 (imgSegs b)

/-- The segment holds words for cluster k. -/
def Segment.serves (s : Segment) (mask k : Nat) : Bool := bitOf mask k && (s.cluster = 0xFF || s.cluster = k)

/-- A descriptor's own checks. -/
def segmentOk (b : List Byte) (i : Nat) (s : Segment) : Bool :=
  let d := 64 + 8 * i
  (s.cluster = 0xFF || (decide (s.cluster < 8) && bitOf (imgMask b) s.cluster)) && fieldLE b (d + 1) 1 = 0 && fieldLE b (d + 6) 2 = 0
    && decide (s.start ≤ 0x7FF) && decide (1 ≤ s.count) && decide (s.count ≤ 2048) && decide (s.start + s.count ≤ 0x800)

/-- Two segments hold a word of one cluster at one address. -/
def segmentsClash (mask : Nat) (s t : Segment) : Bool :=
  anyBelow 8 (fun k => s.serves mask k && t.serves mask k)
    && decide (s.start < t.start + t.count) && decide (t.start < s.start + s.count)

def noClash (mask : Nat) : List Segment → Bool
  | [] => true
  | s :: r => r.all (fun t => !segmentsClash mask s t) && noClash mask r

/-- Word i of the words that follow the descriptors. -/
def imageWordAt (b : List Byte) (off : Nat) : Microword := BitVec.ofNat 128 (fieldLE b off 16)

/-- Every word of a segment obeys R127. -/
def segmentWordsOk (b : List Byte) (s : Segment) : Bool :=
  (List.range s.count).all (fun j => wordAllowed (imageWordAt b (s.offset + 16 * j)))

/-- Header checks of R151. -/
def imageHeaderOk (b : List Byte) : Bool :=
  decide (68 ≤ b.length) && decide (b.length ≤ 278528) && decide (b.take 4 = [0x51, 0x4E, 0x59, 0x31]) && fieldLE b 4 2 = 1
    && fieldLE b 8 4 = b.length && decide (1 ≤ imgSegs b) && decide (imgSegs b ≤ 64) && fieldLE b 0x0F 1 = 0
    && decide (fieldLE b 0x20 2 ≤ 1) && fieldLE b 0x22 30 = 0

/-- The CRC over all bytes before the last four. -/
def imageCrcOk (b : List Byte) : Bool := fieldLE b (b.length - 4) 4 = (crc32c (b.take (b.length - 4))).toNat

/-- Sum of the word counts. -/
def wordTotal (ss : List Segment) : Nat := ss.foldl (fun n s => n + s.count) 0

/-- The image is accepted by R152. -/
def microImageOk (b : List Byte) : Bool :=
  let ss := segmentsOf b
  imageHeaderOk b && imageCrcOk b && decide (b.length = 64 + 8 * imgSegs b + 16 * wordTotal ss + 4)
    && (List.range ss.length).all (fun i => segmentOk b i (nth ⟨0, 0, 0, 0⟩ ss i))
    && noClash (imgMask b) ss && ss.all (segmentWordsOk b)

/-- The word that an image gives to an address of cluster k: the all-zero word where no segment covers it (R152). -/
def imageWord (b : List Byte) (k addr : Nat) : Microword :=
  match (segmentsOf b).find? (fun s => s.serves (imgMask b) k && decide (s.start ≤ addr) && decide (addr < s.start + s.count)) with
  | some s => imageWordAt b (s.offset + 16 * (addr - s.start))
  | none => 0

/-! ### Fetches and loads (R128, R152) -/

/-- Writes a word of the writable store. -/
def putWord (k addr : Nat) (w : Microword × Byte) (l : Live) : Live :=
  l.updCluster k (fun x => { x with store := x.store.put (0, 0) addr w })

/-- The parity check of a fetch (R128). -/
def parityHolds (w : Microword × Byte) : Bool := w.2 = parityOf w.1

/-- A word with one of its 136 bits inverted. -/
def flipWord (w : Microword × Byte) (i : Fin 136) : Microword × Byte :=
  if i.val < 128 then (w.1 ^^^ BitVec.ofNat 128 (2 ^ i.val), w.2) else (w.1, w.2 ^^^ BitVec.ofNat 8 (2 ^ (i.val - 128)))

/-- An upset of a stored bit (R168, R172): it stays in a writable word. -/
def upsetStore (k addr : Nat) (u : Option (Fin 136)) (l : Live) : Live := match u with
  | some i => if addr < 0x800 then putWord k addr (flipWord (storeWordAt l k addr) i) l else l
  | none => l

/-- The whole writable store of cluster k as an image gives it (R152). -/
def storeFrom (b : List Byte) (k : Nat) : SMap (Microword × Byte) :=
  if bitOf (imgMask b) k then
    (List.range 0x800).foldl (fun m a => SMap.put (0, 0) m a (withParity (imageWord b k a))) []
  else []

/-- The result masks that an image gives the user functions (R141, R151). -/
def imageMasks (b : List Byte) : List Nat := (List.range 4).map (fun u => fieldLE b (0x10 + 4 * u) 2)

/-- Loads the store of cluster k from a copy (R152, R153, R178): its bad words are gone. -/
def loadStore (copy : Byte) (k : Nat) (l : Live) : Live :=
  let b := microCopy l copy
  l.updCluster k (fun x => { x with store := storeFrom b k, masks := imageMasks b, copy := copy, poisoned := [] })

/-- The word that recovery writes: from the copy active for the cluster, or the all-zero word of R153 (R170). -/
def recoveryWord (l : Live) (k addr : Nat) : Microword × Byte :=
  withParity (imageWord (microCopy l (l.cluster k).copy) k addr)

/-- Reloads every writable word that is bad (R170, step 4). -/
def reloadBad (k : Nat) (l : Live) : Live :=
  let fix := fun (a : Nat) (l : Live) => if parityHolds (storeWordAt l k a) then l else putWord k a (recoveryWord l k a) l
  (forAll fix (List.range 0x800) l).updCluster k (fun x => { x with poisoned := [] })

end Sys2Proof.Machine
end

