-- ==== Sys2Proof/Machine/RomFunctions.lean ====
section
/-! DEFINITION. The twelve ROM functions: what one run of each writes and stages (R104, R111, R114–R120, R494, R495 and the function
tables of 04). A run works on the requests and captures that its routine sampled. How a function uses its private words is the
model's own (log entry 46); words from 32 up are the model's store for the periods of PERIOD. -/

namespace Sys2Proof.Machine

open Sys2Proof

/-- What a run of a ROM function stages: word writes, other effects, and how many free values it drew. -/
structure RomOut where
  sw : List (Nat × Word) := []
  fx : StagedFx := {}
  draws : Nat := 0
deriving DecidableEq, Repr

/-- What a run works on: the device, the channel, the function, the sampled routine. -/
structure RomIn where
  l : Live
  c : Nat
  f : Nat
  r : Routine

/-! ### Inputs -/

def RomIn.param (s : RomIn) (i : Nat) : Nat := romParam s.l s.f s.c i
def RomIn.word (s : RomIn) (i : Nat) : Word := (s.l.chan s.c).sw.get 0 i
def RomIn.num (s : RomIn) (i : Nat) : Nat := (s.word i).toNat
/-- The value of a result word. -/
def RomIn.result (s : RomIn) (i : Nat) : Nat := s.num i % 2 ^ 48
def RomIn.req (s : RomIn) (i : Nat) : Bool := s.r.req.getLsbD i
def RomIn.capa (s : RomIn) : Nat := s.r.capa.toNat
def RomIn.capb (s : RomIn) : Nat := s.r.capb.toNat
def RomIn.start (s : RomIn) : Nat := s.r.start.toNat
def RomIn.chan (s : RomIn) : Channel := s.l.chan s.c
/-- The stamp of the TCLK of the commit. -/
def RomIn.now (s : RomIn) : Nat := s.l.stamp.toNat

def m48 (n : Nat) : Nat := n % 2 ^ 48
/-- a is at or before b (R36). -/
def notAfter (a b : Nat) : Bool := !aheadAt 48 a b

/-! ### Outputs -/

def RomOut.put (i v : Nat) (o : RomOut) : RomOut :=
  { o with sw := (o.sw.filter (fun e => e.1 ≠ i)) ++ [(i, BitVec.ofNat 64 v)] }
/-- A new result: value, next tag and VALID together (R83, R104). -/
def RomOut.publish (s : RomIn) (i v : Nat) (o : RomOut) : RomOut :=
  o.put i (2 ^ 63 + (field (s.num i) 55 48 + 1) % 256 * 2 ^ 48 + m48 v)
/-- A timeout without a new result: VALID = 0, same value and tag (R104). -/
def RomOut.stale (s : RomIn) (i : Nat) (o : RomOut) : RomOut := o.put i (s.num i % 2 ^ 63)
def RomOut.armA (stamp fine : Nat) (o : RomOut) : RomOut :=
  { o with fx := { o.fx with ma := some (.load (BitVec.ofNat 48 stamp) (BitVec.ofNat 6 fine)) } }
def RomOut.armB (stamp fine : Nat) (o : RomOut) : RomOut :=
  { o with fx := { o.fx with mb := some (.load (BitVec.ofNat 48 stamp) (BitVec.ofNat 6 fine)) } }
def RomOut.offA (o : RomOut) : RomOut := { o with fx := { o.fx with ma := some .disarm } }
def RomOut.offB (o : RomOut) : RomOut := { o with fx := { o.fx with mb := some .disarm } }
def RomOut.mode (m : Mode) (o : RomOut) : RomOut := { o with fx := { o.fx with mode := some m } }
def RomOut.pin (a : PinAct) (o : RomOut) : RomOut := { o with fx := { o.fx with pins := o.fx.pins ++ [(a, 0)] } }
def RomOut.flag (i : Nat) (o : RomOut) : RomOut := { o with fx := { o.fx with fset := setBit o.fx.fset i } }
def RomOut.when (b : Bool) (f : RomOut → RomOut) (o : RomOut) : RomOut := if b then f o else o

/-- Action code of a match for OUT active or inactive, by an active level word (0 high, 1 low). -/
def actCode (low : Bool) (on : Bool) : BitVec 2 := if on != low then 1 else 2
def actPinOf (low : Bool) (on : Bool) : PinAct := if on != low then .set else .clear

/-! ### CAPTURE (R494) -/

def romCapture (s : RomIn) : RomOut :=
  let e := s.param 0
  let n := s.param 1
  let opts := s.param 2
  let m : Mode := { caedge := BitVec.ofNat 2 e, cbedge := if e = 3 then 1 else 0, fifoen := bitOf opts 2 }
  let ecnt := s.chan.ecnt.toNat
  let new := (ecnt + 65536 - s.num 16 % 65536) % 65536
  let total := m48 (s.result 9 + new)
  let gap := modDist 48 total (s.num 17)
  let o := RomOut.when (new ≠ 0) (fun o => (o.put 16 ecnt).publish s 9 total) (RomOut.mode m {})
  if gap < n then o
  else
    let rising := if e = 1 then true else if e = 2 then false else s.capb = s.capa
    let link := BitVec.ofNat 64 (b2n rising * 2 ^ 63 + s.c * 2 ^ 54 + s.capa)
    let o := (o.put 17 (m48 (s.num 17 + n * (gap / n)))).publish s 8 s.capa
    let o := o.when (bitOf opts 0) (fun o => { o with fx := { o.fx with links := [(none, link)] } })
    o.when (bitOf opts 1) (fun o => { o with fx := { o.fx with dreq := true } })

/-! ### PERIOD -/

/-- The two words that hold period number i, modulo 256. -/
def periodWord (i : Nat) : Nat := 32 + 2 * (i % 256)

/-- Sums of the newest n of the periods counted up to `cnt`, the present one given apart. -/
def periodSums (s : RomIn) (cnt n p a : Nat) : Nat × Nat :=
  (List.range (n - 1)).foldl (fun acc i =>
    (acc.1 + s.num (periodWord (cnt + 255 - i)), acc.2 + s.num (periodWord (cnt + 255 - i) + 1))) (p, a)

/-- The active time between two reference edges: from the other edge that lies between them. A run that finds none, since a later
edge has replaced it, has no measure for it: a free value (log entry 46). -/
def activeTime (s : RomIn) (rising : Bool) (prev t : Nat) : Nat × Nat :=
  let inside := fun (b : Nat) => aheadAt 48 b prev && aheadAt 48 t b
  let saved := s.num 17
  let b := if inside s.capb then some s.capb else if bitOf saved 63 && inside (m48 saved) then some (m48 saved) else none
  match b with
  | some b => (if rising then modDist 48 b prev else modDist 48 t b, 0)
  | none => ((Config.freeValue s.l.freeIdx).toNat % (modDist 48 t prev + 1), 1)

def romPeriod (s : RomIn) : RomOut :=
  let ref := s.param 0
  let n := s.param 1
  let limit := s.param 2
  let m : Mode := { caedge := BitVec.ofNat 2 ref, cbedge := BitVec.ofNat 2 (3 - ref) }
  let ca := s.req 2
  let out := s.req 0 && !(ca && notAfter s.capa s.chan.ma.cur.value.toNat)
  let o := RomOut.mode m {}
  let o := o.when (s.req 3) (fun o => o.put 17 (2 ^ 63 + s.capb))
  let o := o.when out (fun o => ((((o.stale s 8).stale s 9).stale s 10).put 16 0).flag 0)
  let o := o.when out (fun o => o.put 18 0)
  let cnt := if out then 0 else s.num 18
  let known := bitOf (s.num 16) 63 && !out
  if ca then
    let t := s.capa
    let prev := m48 (s.num 16)
    let o := (o.put 16 (2 ^ 63 + t)).armA (m48 (t + limit)) 0
    if known then
      let p := modDist 48 t prev
      let a := activeTime s (ref = 1) prev t
      let o := ((o.put (periodWord cnt) p).put (periodWord cnt + 1) a.1).put 18 (cnt + 1)
      let o := { o with draws := a.2 }
      if n ≤ cnt + 1 then
        let sums := periodSums s cnt n p a.1
        let o := o.publish s 8 (divFree sums.1 n).toNat
        let o := o.publish s 9 (divFree sums.2 n).toNat
        o.publish s 10 (divFree (sums.2 * 65536) sums.1).toNat
      else o
    else o
  else o.when s.r.first (fun o => o.armA (m48 (s.start + limit)) 0)

/-! ### COUNT -/

/-- COUNT. With a gate, match A looks after a free interval whether it has closed (log entry 19). -/
def romCount (s : RomIn) : RomOut :=
  let n := s.num 16
  let closed := s.num 19
  let o := RomOut.mode { caedge := BitVec.ofNat 2 (s.param 0) } {}
  let look := (Config.freeValue s.l.freeIdx).toNat % 2 ^ 46
  let o := o.when (s.param 1 ≠ 0xFF && (s.req 0 || !s.chan.ma.cur.en))
    (fun o => { o.armA (m48 (s.start + 1 + look)) 0 with draws := 1 })
  let o := o.when (n ≠ s.result 8 || !bitOf (s.num 8) 63) (fun o => o.publish s 8 n)
  o.when (bitOf closed 63) (fun o => ((o.publish s 9 (s.num 18)).publish s 10 (m48 closed)).put 19 0)

/-! ### FREQ -/

def romFreq (s : RomIn) : RomOut :=
  let gate := s.param 1
  let o := RomOut.mode { caedge := BitVec.ofNat 2 (s.param 0) } {}
  if s.r.first then
    let e := m48 (s.start + gate)
    (o.put 16 (2 ^ 63 + e)).armA e 0
  else if s.req 0 then
    let e := m48 (s.num 16 + gate)
    let n := s.num 17
    let span := modDist 48 (s.num 19) (s.num 18)
    let o := (((o.put 17 (s.num 20)).put 18 (s.num 21)).put 19 (s.num 22)).put 20 0
    let o := ((o.put 16 (2 ^ 63 + e)).armA e 0).publish s 9 n
    if n < s.param 2 then o.stale s 8 else o.publish s 8 (divFree ((n - 1) * 400000000 * 65536 : Nat) span).toNat
  else o

/-! ### PULSE (R115, R495) -/

/-- A pulse in progress: start, end, phase (0 none, 1 placed, 2 active), and a pulse that waits for the end of this one. -/
structure PulseSt where
  start : Nat
  stop : Nat
  phase : Nat
  wait : Option (Nat × Nat)
  armA : Bool := false
  armB : Bool := false
  fl : Nat := 0
  last : Option Nat := none
  /-- The pulse ended before the run that extends it: OUT turns active again at once. -/
  again : Bool := false
deriving DecidableEq, Repr

/-- The triggers that a run finds, as stamps (R495). -/
def pulseTriggers (s : RomIn) : List Nat :=
  let t := s.param 0
  (if s.req 2 && decide (t % 4 ≠ 0) then [s.capa] else []) ++ (if s.req 4 && bitOf t 2 then [m48 s.r.lnkd.toNat] else [])
    ++ (if s.req 5 && bitOf t 3 then [s.start] else []) ++ (if s.req 6 && bitOf t 4 then [s.start] else [])

/-- Places a pulse from s on; one that is not ahead of the commit starts in the next TCLK and keeps its full width (R98, R115). -/
def placePulse (s : RomIn) (start : Nat) (p : PulseSt) : PulseSt :=
  let late := notAfter start s.now
  let e := m48 ((if late then s.now + 1 else start) + s.param 2)
  { p with start := start, stop := e, phase := if p.phase = 2 then 2 else 1, armA := true, armB := true,
           fl := if late then p.fl ||| 2 else p.fl, wait := none }

/-- One trigger (retrigger rules of R115). -/
def pulseTrigger (s : RomIn) (p : PulseSt) (t : Nat) : PulseSt :=
  let start := m48 (t + s.param 1)
  if p.phase ≠ 0 && s.param 3 = 0 then { p with fl := p.fl ||| 4 }
  else
    let p := { p with last := some t }
    if p.phase = 0 then placePulse s start p
    else if s.param 3 = 2 then
      let late := notAfter start s.now
      let e := m48 ((if late then s.now + 1 else start) + s.param 2)
      { p with stop := e, armB := true, fl := if late then p.fl ||| 2 else p.fl }
    else if p.phase = 2 && aheadAt 48 start p.stop then { p with wait := some (start, m48 (start + s.param 2)) }
    else placePulse s start p

/-- The end of a pulse; one that waited for it is placed. -/
def pulseOver (s : RomIn) (p : PulseSt) : PulseSt :=
  let p := { p with phase := 0 }
  match p.wait with
  | some (a, _) => placePulse s a p
  | none => p

/-- A trigger that came during a pulse which has ended since (R115; log entry 109). -/
def pulseEarlier (s : RomIn) (p : PulseSt) (t : Nat) : PulseSt :=
  if s.param 3 = 2 then { pulseTrigger s p t with again := true, phase := 2 }
  else if s.param 3 = 0 then { p with fl := p.fl ||| 4 }
  else placePulse s (m48 (t + s.param 1)) { p with last := some t, phase := 0 }

/-- The triggers of a run by age, and the end of the pulse where match B has fired: a trigger before that end came during the pulse. -/
def pulseRun (s : RomIn) : Bool → List Nat → PulseSt → PulseSt
  | ended, [], p => if ended then pulseOver s p else p
  | ended, t :: r, p =>
    if !ended then pulseRun s false r (pulseTrigger s p t)
    else if !aheadAt 48 p.stop t then pulseRun s false r (pulseTrigger s (pulseOver s p) t)
    else pulseRun s (s.param 3 = 0) r (pulseEarlier s p t)

def romPulse (s : RomIn) : RomOut :=
  let low := s.param 4 = 1
  let m : Mode := { maact := actCode low true, mbact := actCode low false, caedge := BitVec.ofNat 2 (s.param 0 % 4) }
  let w := s.num 20
  let p : PulseSt :=
    { start := s.num 16, stop := s.num 17, phase := s.num 18, wait := if bitOf w 63 then some (s.num 19, m48 w) else none }
  let fired := s.req 0 && p.phase ≠ 0
  let p := if fired then { p with phase := 2 } else p
  let byAge := (pulseTriggers s).mergeSort (fun a b => modDist 48 (a + 2 ^ 47) s.now ≤ modDist 48 (b + 2 ^ 47) s.now)
  let p := pulseRun s (s.req 1 && p.phase = 2) byAge p
  let o := ((((RomOut.mode m {}).put 16 p.start).put 17 p.stop).put 18 p.phase)
  let o := match p.wait with
    | some (a, b) => (o.put 19 a).put 20 (2 ^ 63 + b)
    | none => o.put 20 0
  let o := o.when p.armA (fun o => o.armA p.start 0)
  let o := o.when p.again (fun o => o.pin (actPinOf low true))
  let o := o.when p.armB (fun o => o.armB p.stop 0)
  let o := o.when fired (fun o => o.publish s 9 (s.result 9 + 1))
  let o := match p.last with
    | some t => o.publish s 8 t
    | none => o
  { o with fx := { o.fx with fset := BitVec.ofNat 8 p.fl } }

/-! ### TRAIN and tables (R116) -/

/-- Entries and byte offset of a table descriptor (R116). -/
def tabCount (d : Nat) : Nat := field d 47 32
def tabOffset (d : Nat) : Nat := field d 31 0

/-- Word i of a table in region 7. -/
def tabWord (l : Live) (d i : Nat) : Nat := ofBytesLE (readBytes l.mem (tableBase + tabOffset d + 8 * i) 8)

/-- The place of TRAIN in its sequence: pulses still to come in the burst or pass, bursts or passes still to come (none: endless),
start of the burst, descriptor in use and index of the next entry. -/
structure TrainPos where
  left : Nat
  rounds : Option Nat
  burst : Nat
  desc : Nat
  switched : Bool := false
deriving DecidableEq, Repr

/-- A new burst or pass begins, if one is left. -/
def trainRound (s : RomIn) (start : Nat) (p : TrainPos) : Option TrainPos :=
  match p.rounds with
  | some 0 => none
  | r =>
    let r := r.map (· - 1)
    if s.param 0 = 2 then
      let d := s.param 6
      if tabCount d = 0 then none
      else some { left := tabCount d, rounds := r, burst := start, desc := d, switched := p.switched || decide (d ≠ p.desc) }
    else some { p with left := s.param 3, rounds := r, burst := start }

/-- The pulse at a start: its width, the start of the next pulse, and the pulses left after it. -/
def trainPulse (s : RomIn) (start : Nat) (p : TrainPos) : Nat × Nat × TrainPos :=
  match s.param 0 with
  | 0 => (s.param 2, m48 (start + s.param 1), p)
  | 1 => (s.param 2, if p.left = 1 then m48 (p.burst + s.param 4) else m48 (start + s.param 1), { p with left := p.left - 1 })
  | _ =>
    let w := tabWord s.l p.desc (tabCount p.desc - p.left)
    (field w 31 0, m48 (start + field w 63 32), { p with left := p.left - 1 })

/-- The place of the pulse at a start after an earlier one: the burst or pass it begins reads its parameters in this run (R116). -/
def trainNext (s : RomIn) (start : Nat) (p : TrainPos) : Option TrainPos :=
  if s.param 0 = 0 || p.left ≠ 0 then some p else trainRound s start p

/-- Words of TRAIN: SW16 start of the placed pulse and whether one is placed, SW17 end that waits for match B, SW18 pulses left, SW19
rounds left (bit 63 endless), SW20 burst start, SW21 descriptor, SW22 start of the next pulse. -/
def trainPos (s : RomIn) : TrainPos :=
  { left := s.num 18, rounds := if bitOf (s.num 19) 63 then none else some (s.num 19), burst := s.num 20, desc := s.num 21 }

def romTrain (s : RomIn) : RomOut :=
  let o := RomOut.mode { maact := 1, mbact := 2 } {}
  let started := s.req 0 && bitOf (s.num 16) 63
  let begin_ := s.req 5 || s.req 6
  let endless : TrainPos := { left := 0, rounds := if s.param 5 = 0 then none else some (s.param 5), burst := 0, desc := s.result 9 }
  -- The pulse to be placed now.
  let plan : Option (Nat × TrainPos) :=
    if begin_ then
      let t := m48 (s.start + s.param 7)
      if s.param 0 = 0 then some (t, endless) else (trainRound s t endless).map (fun q => (t, q))
    else if started then
      let t := if s.param 0 = 0 then m48 (m48 (s.num 16) + s.param 1) else m48 (s.num 22)
      (trainNext s t (trainPos s)).map (fun p => (t, p))
    else none
  let o := o.when started (fun o => o.publish s 8 (s.result 8 + 1))
  -- Match B is free once it has fired; an end that waited for it is placed first.
  let bFree := s.req 1 || !s.chan.mb.cur.en
  let waiting := if bitOf (s.num 17) 63 && !begin_ then some (m48 (s.num 17)) else none
  let o := match waiting with
    | some e => o.when bFree (fun o => (o.armB e 0).put 17 0)
    | none => o
  match plan with
  | some (t, p) =>
    let r := trainPulse s t p
    let e := m48 (t + r.1)
    let q := r.2.2
    let o := (((o.armA t 0).put 16 (2 ^ 63 + t)).put 22 r.2.1).put 18 q.left
    let o := ((o.put 19 (q.rounds.getD (2 ^ 63))).put 20 q.burst).put 21 q.desc
    let o := if bFree && waiting.isNone then (o.armB e 0).put 17 0 else o.put 17 (2 ^ 63 + e)
    let o := o.when (s.param 0 = 2 && q.desc ≠ s.result 9) (fun o => o.publish s 9 q.desc)
    o.when q.switched (fun o => o.flag 3)
  | none => o.when (started && s.param 0 ≠ 0) (fun o => o.put 16 0)

/-! ### DDS -/

/-- Increment number i of a table: two in each 64-bit word, the lower half first (log entry 46). -/
def tabIncrement (l : Live) (d i : Nat) : Nat :=
  let w := tabWord l d (i / 2)
  if i % 2 = 0 then field w 31 0 else field w 63 32

/-- DDS: SW16 first TCLK after the last wrap, SW17 phase in it, SW18 increment in use, SW19 DTIME stamp at which the table entry began,
SW20 its index, SW21 the descriptor in use. -/
def ddsPlace (t phase inc thr : Nat) (o : RomOut) : RomOut :=
  let wrap := t * 64 + (divFree (((2 ^ 32 - phase) * 64 : Nat) : Int) inc).toNat
  let fall : Int := (t * 64 : Nat) + divFree (((thr : Int) - (phase : Int)) * 64) inc
  let fall := (fall + (2 ^ 54 : Nat)).toNat
  (o.armA (m48 (wrap / 64)) (wrap % 64)).armB (m48 (fall / 64)) (fall % 64)

/-- The table entry in force at a wrap: index, its start, descriptor, and whether the descriptor changed (R116, dwell of SW03). -/
def ddsEntry (s : RomIn) (t : Nat) : Nat × Nat × Nat × Bool :=
  let d := s.num 21
  let n := modDist 48 t (s.num 19) / s.param 3
  let i := s.num 20 + n
  let since := m48 (s.num 19 + n * s.param 3)
  if i < tabCount d then (i, since, d, false)
  else (0, t, s.param 2, decide (s.param 2 ≠ d))

def romDds (s : RomIn) : RomOut :=
  let o := RomOut.mode { maact := 1, mbact := 2 } {}
  let thr := s.param 4
  let table := s.param 0 = 1
  if s.req 5 || s.req 6 then
    let d := s.param 2
    let inc := if table then tabIncrement s.l d 0 else s.param 1
    if inc = 0 then o
    else
      let o := (((o.put 16 s.start).put 17 0).put 18 inc).put 19 s.start
      let o := ((o.put 20 0).put 21 d).pin .set
      ddsPlace s.start 0 inc thr (o.publish s 8 inc)
  else if s.req 0 && decide (s.num 18 ≠ 0) then
    let inc := s.num 18
    let phase := s.num 17
    let steps := (2 ^ 32 - phase + inc - 1) / inc
    let t := m48 (s.num 16 + steps)
    let p := phase + steps * inc - 2 ^ 32
    let e := ddsEntry s t
    let want := if table then tabIncrement s.l e.2.2.1 e.1 else s.param 1
    let next := if want = 0 then inc else want
    let o := (((o.put 16 t).put 17 p).put 18 next).publish s 9 (s.result 9 + 1)
    let o := o.when table (fun o => ((o.put 19 e.2.1).put 20 e.1).put 21 e.2.2.1)
    let o := o.when (table && e.2.2.2) (fun o => o.flag 3)
    let o := o.when (next ≠ inc) (fun o => o.publish s 8 next)
    ddsPlace t p next thr o
  else o

/-! ### SLOWPWM -/

/-- A period starts: the on time with the residue carried, and what it becomes. -/
def romSlowPwm (s : RomIn) : RomOut :=
  let low := s.param 0 = 1
  let o := RomOut.mode { mbact := actCode low false } {}
  if s.r.first || s.req 0 then
    let period := s.param 1
    let t := if s.r.first then s.start else m48 (s.num 16)
    let on : Int := (period * s.param 2 / 65536 : Nat) + toSigned 64 (s.num 17)
    let off : Int := period - on
    let least : Int := s.param 3
    let next := m48 (t + period)
    let o := ((o.put 16 next).armA next 0).publish s 8 (s.result 8 + 1)
    if on < least ∨ on ≤ 0 then ((o.put 17 (ofSigned 64 on)).pin (actPinOf low false)).offB
    else if off < least ∨ off ≤ 0 then ((o.put 17 (ofSigned 64 (on - period))).pin (actPinOf low true)).offB
    else ((o.put 17 0).pin (actPinOf low true)).armB (m48 (s.now + on.toNat)) 0
  else o

/-! ### ZBURST (R117, R118) -/

/-- ZBURST: SW16 last crossing (bit 63), SW17 accumulator, SW18 half-cycles of the window, SW19 window, SW20 on-count, SW21 mode, SW22
flags, SW23 agreeing intervals. -/
structure Burst where
  acc : Nat
  units : Nat
  win : Nat
  on : Nat
  full : Bool
  /-- A window runs; the crossings are lost; match A holds the loss watch; the present cycle conducts. -/
  inWin : Bool
  lost : Bool
  watch : Bool
  fires : Bool
  agree : Nat
deriving DecidableEq, Repr

def burstOf (s : RomIn) : Burst :=
  let f := s.num 22
  ⟨s.num 17, s.num 18, s.num 19, s.num 20, s.num 21 = 1, bitOf f 0, bitOf f 1, bitOf f 2, bitOf f 3, s.num 23⟩

def Burst.store (b : Burst) (o : RomOut) : RomOut :=
  let o := ((((o.put 17 b.acc).put 18 b.units).put 19 b.win).put 20 b.on).put 21 (b2n b.full)
  (o.put 22 (maskOf [b.inWin, b.lost, b.watch, b.fires])).put 23 b.agree

/-- The window that starts at a rising crossing reads SW00–SW02 (R117). -/
def Burst.window (s : RomIn) (b : Burst) : Burst :=
  let full := s.param 2 = 1
  let on := min (s.param 1) (s.param 0)
  { b with full := full, win := s.param 0, on := if full then on / 2 * 2 else on, units := 0, inWin := true,
           acc := if b.inWin then b.acc else 0 }

/-- The decision for the half-cycle that starts at the predicted crossing, which rises or falls (R117). -/
def Burst.settle (rises : Bool) (b : Burst) : Burst :=
  if b.full then
    if rises then
      let acc := b.acc + b.on / 2
      let f := decide (b.win / 2 ≤ acc)
      { b with acc := if f then acc - b.win / 2 else acc, fires := f, units := b.units + 1 }
    else { b with units := b.units + 1 }
  else
    let acc := b.acc + b.on
    let f := decide (b.win ≤ acc)
    { b with acc := if f then acc - b.win else acc, fires := f, units := b.units + 1 }

/-- The instant by which the next crossing must have come (R118). -/
def lossAt (s : RomIn) (z half : Nat) : Nat := m48 (z + (divFree ((half * s.param 5 : Nat) : Int) 256).toNat)

/-- A match action of ZBURST: match A sets OUT active or inactive. -/
def burstArm (s : RomIn) (t : Nat) (on : Bool) (o : RomOut) : RomOut :=
  (o.mode { maact := actCode (s.param 4 = 1) on }).armA t 0

/-- A crossing Z (R117, R118). -/
def burstCrossing (s : RomIn) (b : Burst) (o : RomOut) : RomOut :=
  let z := m48 s.r.lnkd.toNat
  let rises := !s.r.lnkd.getLsbD 63
  let o := o.put 16 (2 ^ 63 + z)
  if !bitOf (s.num 16) 63 then b.store o
  else
    let h := modDist 48 z (s.num 16)
    let old := s.result 9
    let close := decide (old ≠ 0) && decide (10 * (max h old - min h old) ≤ old)
    let b := { b with agree := if close then min (b.agree + 1) 255 else 1 }
    let o := o.publish s 9 h
    let b := if b.lost && decide (4 ≤ b.agree) && rises then { b with lost := false, inWin := false } else b
    let opens := !b.lost && rises && (!b.inWin || decide (b.win ≤ b.units))
    let b := if opens then b.window s else b
    let o := o.when opens (fun o => o.publish s 10 b.on)
    if b.lost then b.store o
    else if b.inWin then
      let b := b.settle rises
      let cut := decide (9 * h ≤ 10 * s.param 3)
      let lead := if cut then (9 * h - 1) / 10 else s.param 3
      let o := o.when cut (fun o => o.flag 1)
      let o := o.when b.fires (fun o => o.publish s 8 (s.result 8 + 1))
      { b with watch := false }.store (burstArm s (m48 (z + h + 2 ^ 48 - lead)) b.fires o)
    else { b with watch := true }.store (burstArm s (lossAt s z h) false o)

/-- The loss watch has fired: the crossings are lost (R118). -/
def Burst.miss (b : Burst) : Burst := { b with watch := false, lost := true, inWin := false, fires := false, agree := 0 }

/-- Match A has fired: after a decision the loss watch is placed (R118). -/
def burstMatch (s : RomIn) (b : Burst) (o : RomOut) : RomOut :=
  if b.lost then b.store o
  else { b with watch := true }.store (burstArm s (lossAt s (m48 (s.num 16)) (s.result 9)) false o)

/-- ZBURST. A crossing at or before the instant of loss has come in time, also where it is sampled together with match A (R118). -/
def romZburst (s : RomIn) : RomOut :=
  let b := burstOf s
  let inTime := s.req 4 && notAfter (m48 s.r.lnkd.toNat) s.chan.ma.cur.value.toNat
  let missed := s.req 0 && b.watch && !inTime
  let b := if missed then b.miss else b
  let o := RomOut.when s.r.first (fun o => o.mode {}) {}
  let o := o.when missed (fun o => o.flag 0)
  if s.req 4 then burstCrossing s b o
  else if s.req 0 then burstMatch s b o
  else o

/-! ### WDOG (R119) -/

/-- WDOG. Where an HCMD and an edge are sampled together, the edge's deadline stands (log entry 109). -/
def romWdog (s : RomIn) : RomOut :=
  let acts := s.param 2
  let o := RomOut.mode { caedge := BitVec.ofNat 2 (s.param 0) } {}
  let ca := s.req 2
  let expires := s.req 0 && !(ca && notAfter s.capa s.chan.ma.cur.value.toNat)
  let n := m48 (s.result 9 + 1)
  let o := o.when expires (fun o => (o.flag 0).publish s 9 n)
  let o := o.when (expires && bitOf acts 0) (fun o => o.pin .set)
  let o := o.when (expires && bitOf acts 1) (fun o => { o with fx := { o.fx with irq := true } })
  let o := o.when (expires && bitOf acts 2) (fun o => { o with fx := { o.fx with logs := [BitVec.ofNat 32 n] } })
  let flag := expires || s.chan.fl.getLsbD 0
  let o := o.when (s.req 5) (fun o => (o.when (bitOf acts 0) (fun o => o.pin .clear)).armA (m48 (s.start + s.param 1)) 0)
  let o := o.when ca (fun o => o.publish s 8 s.capa)
  o.when (ca && (!flag || s.param 3 = 1)) (fun o =>
    (o.when (bitOf acts 0) (fun o => o.pin .clear)).armA (m48 (s.capa + s.param 1)) 0)

/-! ### FOLLOW (R120) -/

/-- The pending edges, oldest first: level in [54], instant in fine ticks in [53:0]; SW16–SW23, bit 63 set. -/
def followQueue (s : RomIn) : List Nat :=
  ((List.range 8).map (fun i => s.num (16 + i))).filter (fun w => bitOf w 63)

def followLevel (w : Nat) : Bool := bitOf w 54

/-- Takes the first pending edge of a level. -/
def followTake (level : Bool) : List Nat → List Nat
  | [] => []
  | w :: r => if followLevel w = level then r else w :: followTake level r

/-- Places a pending edge on match A (level 1) or B (level 0), unless that match is still armed. -/
def followPlace (s : RomIn) (firedA firedB : Bool) (w : Nat) (o : RomOut) : RomOut :=
  let t := field w 53 0
  if followLevel w then (if s.chan.ma.cur.en && !firedA then o else o.armA (t / 64) (t % 64))
  else (if s.chan.mb.cur.en && !firedB then o else o.armB (t / 64) (t % 64))

def romFollow (s : RomIn) : RomOut :=
  let o := RomOut.mode { maact := 1, mbact := 2 } {}
  let q := followQueue s
  let q := if s.req 0 then followTake true q else q
  let q := if s.req 1 then followTake false q else q
  let done := b2n (s.req 0) + b2n (s.req 1)
  let d := s.r.lnkd.toNat
  let edge := 2 ^ 63 + b2n (bitOf d 63 != decide (s.param 0 = 1)) * 2 ^ 54
    + (m48 d * 64 + field d 53 48 + s.param 1) % 2 ^ 54
  let q := if s.req 4 then q ++ [edge] else q
  let full := decide (8 < q.length)
  let q := if full then q.take 7 else q
  let o := o.when (done ≠ 0) (fun o => o.publish s 8 (s.result 8 + done))
  let o := o.when full (fun o => (o.flag 0).publish s 9 (s.result 9 + 2))
  let o := (List.range 8).foldl (fun o i => o.put (16 + i) (nth 0 q i)) o
  match q with
  | [] => o
  | [a] => followPlace s (s.req 0) (s.req 1) a o
  | a :: b :: _ =>
    let o := followPlace s (s.req 0) (s.req 1) a o
    if followLevel a = followLevel b then o else followPlace s (s.req 0) (s.req 1) b o

/-! ### LOGGER -/

/-- One edge: its number, the records of its millisecond, the records written and suppressed. SW16 ECNT counted, SW17 extended count
popped, SW18 millisecond, SW19 records in it, SW20 extended count. -/
structure Logger where
  count : Nat
  ms : Nat
  inMs : Nat
  written : Nat
  skipped : Nat
  out : List (Nat × BitVec 32)
deriving DecidableEq, Repr

def logEdge (s : RomIn) (g : Logger) (w : Word) : Logger :=
  let t := widen s.l.now (m48 w.toNat)
  let ms := t / 400000
  let n := m48 (g.count + 1)
  let used := if ms = g.ms then g.inMs else 0
  if used < s.param 1 then
    let rec_ := BitVec.ofNat 32 (b2n (w.getLsbD 62) * 2 ^ 31 + n % 2 ^ 24)
    { count := n, ms := ms, inMs := used + 1, written := g.written + 1, skipped := g.skipped, out := g.out ++ [(t, rec_)] }
  else { g with count := n, ms := ms, inMs := used, skipped := g.skipped + 1 }

def romLogger (s : RomIn) : RomOut :=
  let o := RomOut.mode { caedge := BitVec.ofNat 2 (s.param 0), fifoen := true } {}
  let ecnt := s.chan.ecnt.toNat
  let total := m48 (s.num 20 + (ecnt + 65536 - s.num 16 % 65536) % 65536)
  let fifo := s.chan.fifo.drop s.r.staged.pops
  let g := fifo.foldl (logEdge s) ⟨s.num 17, s.num 18, s.num 19, 0, 0, []⟩
  let gone := modDist 48 total g.count
  let skipped := g.skipped + gone
  let o := ((((o.put 16 ecnt).put 20 total).put 17 total).put 18 g.ms).put 19 g.inMs
  let o := o.when (g.written ≠ 0) (fun o => o.publish s 8 (s.result 8 + g.written))
  let o := o.when (skipped ≠ 0) (fun o => o.publish s 9 (s.result 9 + skipped))
  { o with fx := { o.fx with pops := fifo.length, edges := g.out } }

/-! ### The library -/

/-- A run of ROM function f. -/
def romRun (f : Nat) (s : RomIn) : RomOut := match f with
  | 0 => romCapture s
  | 1 => romPeriod s
  | 2 => romCount s
  | 3 => romFreq s
  | 4 => romPulse s
  | 5 => romTrain s
  | 6 => romDds s
  | 7 => romSlowPwm s
  | 8 => romZburst s
  | 9 => romWdog s
  | 10 => romFollow s
  | _ => romLogger s

/-- Longest path of a ROM function in ECLK without its two dispatch words (ROM library of 04). -/
def romPath (f : Nat) : Nat := nth 8 [5, 9, 6, 12, 8, 10, 11, 8, 14, 5, 9, 6] f

end Sys2Proof.Machine
end

