-- ==== Sys2Proof/Machine/Micro.lean ====
section
/-! DEFINITION. The microengines: scheduling, routines and their staged effects, microwords, abandonment, RUNAWAY, machine checks and
their recovery, scrubbing and activation (R124–R181). -/

namespace Sys2Proof.Machine

open Sys2Proof

/-! ### Routines and their channel -/

/-- The channel of a cluster's running routine. -/
def runChan (k : Nat) (r : Routine) : Nat := 64 * k + r.slot

/-- Source ID of a channel (R23). -/
def chanSource (c : Nat) : Nat := 0x1000 + c

/-- Source ID of a cluster's machine checks (R174). -/
def mcSource (k : Nat) : Nat := 0x1801 + 0x40 * k

def setRun (k : Nat) (r : Routine) (l : Live) : Live := l.updCluster k (fun x => { x with run := some r })

def updRun (k : Nat) (f : Routine → Routine) (l : Live) : Live := l.updCluster k (fun x => { x with run := x.run.map f })

/-- ECLK spent by the running routine, in its budget and in the load of its cluster (R158, R167). -/
def spend (k n : Nat) (l : Live) : Live :=
  (updRun k (fun r => { r with used := r.used + n }) l).updCluster k (fun x => { x with busy := x.busy + n })

/-- The routine that executes words now: the cluster runs, or it was stopped while a committed routine runs to END (R154). -/
def running (l : Live) (k : Nat) : Option Routine :=
  let x := l.cluster k
  match x.run with
  | some r => if engineUp l k && (x.state = 1 || (x.state = 0 && r.committed)) then some r else none
  | none => none

/-! ### RUNAWAY (R144, R158, R159) -/

/-- The routine ends in RUNAWAY: 0 budget, 1 staging limit. -/
def enterRunaway (k reason : Nat) (l : Live) : Live := match (l.cluster k).run with
  | none => l
  | some r =>
    let c := runChan k r
    let last := BitVec.ofNat 32 (reason * 2 ^ 28 + r.slot * 2 ^ 22 + r.lastAddr.toNat)
    let l := (noteBit (0x3100 + k) 3 0 l).updCluster k (fun x =>
      { x.loseRead with run := none, status := setBit x.status 0, runawayCnt := x.runawayCnt + 1, lastRunaway := last })
    let l := l.updChan c (fun x => { x with thread := .runaway, abandons := 0, startDue := none })
    let l := goFailsafe 2 c l
    let payload := reason * 2 ^ 28 + r.budget % 4096 * 2 ^ 16 + r.lastAddr.toNat
    disarm 8 (reportJournal (chanSource c) 0x23 payload l)

/-! ### Effects (R142–R150) -/

/-- A match after a change takes effect (R98, R146). -/
def changeMatch (l : Live) (s : Option MatchChange) (m : MatchReg) : MatchReg := match s with
  | some (.load v f) => armMatch l v f m
  | some (.loadOff v f) => m.change l.now ⟨v, f, false, false⟩
  | some .arm => armMatch l m.cur.value m.cur.fine m
  | some .disarm => disarmMatch l m
  | none => m

/-- Pops n entries of a capture FIFO. -/
def popMany (c : Nat) : Nat → Live → Live
  | 0, l => l
  | n + 1, l => popMany c n (popFifo c l).2

/-- Effects become visible in this TCLK: words, matches, mode, pin actions, pops, flags, links, requests, posts, records. -/
def applyFx (c : Nat) (fx : StagedFx) (l : Live) : Live :=
  let l := l.updChan c (fun x => { x with sw := fx.sw.foldl (fun m e => m.put 0 e.1 e.2) x.sw })
  let l := l.updChan c (fun x => { x with ma := changeMatch l fx.ma x.ma, mb := changeMatch l fx.mb x.mb,
                                          mode := fx.mode.getD x.mode })
  let l := forAll (fun p => pinAction c p.2 2 p.1) fx.pins l
  let l := popMany c fx.pops l
  let l := (noteFlags (key (0x3200 + c) 2) fx.fset.toNat l).updChan c (fun x => { x with fl := clrMask (x.fl ||| fx.fset) fx.fclr, dreq := x.dreq || fx.dreq })
  let l := forAll (fun e => sendLink c e.1 e.2) fx.links l
  let l := if fx.irq then
      noteFlags (hostReg (0x208 + 16 * (c / 64))) (2 ^ (c % 64))
        { l with irq := { l.irq with latch := l.irq.latch.put 0 (c / 64) (setBit (l.irq.latch.get 0 (c / 64)) (c % 64)) } }
    else l
  let l := forAll (fun e => postEvent e.1 e.2) fx.posts l
  let l := forAll (fun p => writeRecord (chanSource c) 0x21 p.toNat) fx.logs l
  let l := forAll (writeRecord (chanSource c) 0x22) fx.faults l
  forAll (fun e => writeRecordAt e.1 (chanSource c) 0x20 e.2.toNat) fx.edges l

/-- The first commit of a routine: its staged effects become visible together, and the sampled requests are cleared (R80, R105,
R143). -/
def commitRun (k : Nat) (l : Live) : Live := match (l.cluster k).run with
  | some r =>
    if r.committed then l
    else
      let c := runChan k r
      let l := setRun k { r with committed := true, staged := {} } l
      let l := l.updChan c (fun x => { x with req := clrMask x.req r.req ||| x.fresh, fresh := 0 })
      applyFx c r.staged l
  | none => l

/-- Takes an effect: staged before the commit, applied after it; beyond the staging buffer the routine ends in RUNAWAY (R142–R144). -/
def takeFx (k : Nat) (f : Live → Routine → StagedFx → Option StagedFx) (l : Live) : Live := match (l.cluster k).run with
  | some r =>
    if r.committed then
      (match f l r {} with
       | some fx => applyFx (runChan k r) fx l
       | none => l)
    else match f l r r.staged with
      | some fx => setRun k { r with staged := fx } l
      | none => enterRunaway k 1 l
  | none => l

/-! ### One effect of a word (R141, R144, R146–R150) -/

/-- Adds to a list of limited length. -/
def addLimited {α : Type} (n : Nat) (x : α) (xs : List α) : Option (List α) := if xs.length < n then some (xs ++ [x]) else none

/-- A state word write; a word of SW00–SW15 that is no result word is not written, which its record tells (R141). -/
def fxWord (c i : Nat) (v : Word) (l : Live) (r : Routine) (fx : StagedFx) : Option StagedFx :=
  if i < 16 && !isResult l c i then some { fx with faults := fx.faults ++ [i * 2 ^ 16 + r.addr.toNat] }
  else
    let others := fx.sw.filter (fun e => e.1 ≠ i)
    (addLimited 8 (i, v) others).map (fun s => { fx with sw := s })

/-- A load of a match, and its arming or disarming over what is staged (R146). -/
def offChange (s : Option MatchChange) : MatchChange := match s with
  | some (.load v f) => .loadOff v f
  | some (.loadOff v f) => .loadOff v f
  | _ => .disarm
def onChange (s : Option MatchChange) : MatchChange := match s with
  | some (.load v f) => .load v f
  | some (.loadOff v f) => .load v f
  | _ => .arm

def fxLoad (isB : Bool) (v : Nat) (fine : Nat) (_ : Live) (_ : Routine) (fx : StagedFx) : Option StagedFx :=
  let m := some (MatchChange.load (BitVec.ofNat 48 v) (BitVec.ofNat 6 fine))
  some (if isB then { fx with mb := m } else { fx with ma := m })
def fxOff (isB : Bool) (_ : Live) (_ : Routine) (fx : StagedFx) : Option StagedFx :=
  some (if isB then { fx with mb := some (offChange fx.mb) } else { fx with ma := some (offChange fx.ma) })
def fxArm (isB : Bool) (_ : Live) (_ : Routine) (fx : StagedFx) : Option StagedFx :=
  some (if isB then { fx with mb := some (onChange fx.mb) } else { fx with ma := some (onChange fx.ma) })

/-- A pop of the capture FIFO; of an empty one nothing happens (R146). -/
def fxPop (c : Nat) (l : Live) (_ : Routine) (fx : StagedFx) : Option StagedFx :=
  if (l.chan c).fifo.length ≤ fx.pops then some fx
  else if fx.pops < 4 then some { fx with pops := fx.pops + 1 } else none

def fxMode (v : Nat) (_ : Live) (_ : Routine) (fx : StagedFx) : Option StagedFx := some { fx with mode := some (modeOf v) }

def fxPin (a : PinAct) (fine : Nat) (_ : Live) (_ : Routine) (fx : StagedFx) : Option StagedFx :=
  (addLimited 4 (a, fine) fx.pins).map (fun p => { fx with pins := p })

/-- The action that writes OUT with a level (R147). -/
def levelAct (b : Bool) : PinAct := if b then .set else .clear

/-- FSET and FCLR of one word: a bit in both is set; the last operation on a bit holds (R148). -/
def fxFlags (set clr : Byte) (_ : Live) (_ : Routine) (fx : StagedFx) : Option StagedFx :=
  some { fx with fset := clrMask fx.fset clr ||| set, fclr := clrMask (fx.fclr ||| clr) set }

/-- A link with SRC of this channel (R149). It takes its staged place whether or not the channel has targets, which the commit finds out
(log entry 109). -/
def fxLink (c : Nat) (one : Option Nat) (data : Word) (_ : Live) (_ : Routine) (fx : StagedFx) : Option StagedFx :=
  let d := data.toNat
  let w := BitVec.ofNat 64 (field d 63 63 * 2 ^ 63 + c * 2 ^ 54 + field d 53 0)
  (addLimited 2 (one, w) fx.links).map (fun s => { fx with links := s })

def fxIrq (_ : Live) (_ : Routine) (fx : StagedFx) : Option StagedFx := some { fx with irq := true }
def fxDreq (_ : Live) (_ : Routine) (fx : StagedFx) : Option StagedFx := some { fx with dreq := true }
def fxPost (_ : Live) (r : Routine) (fx : StagedFx) : Option StagedFx :=
  (addLimited 2 (nth 0 r.x 6, nth 0 r.x 7) fx.posts).map (fun s => { fx with posts := s })
def fxLog (v : Word) (_ : Live) (_ : Routine) (fx : StagedFx) : Option StagedFx :=
  (addLimited 4 (v.setWidth 32) fx.logs).map (fun s => { fx with logs := s })

/-- TACT (R146). -/
def fxTimer (c tact : Nat) (v : Nat) (fine : Nat) (l : Live) (r : Routine) (fx : StagedFx) : Option StagedFx := match tact with
  | 0x1 => fxLoad false v fine l r fx
  | 0x2 => fxLoad true v fine l r fx
  | 0x3 => fxLoad false v (field v 53 48) l r fx
  | 0x4 => fxLoad true v (field v 53 48) l r fx
  | 0x5 => fxOff false l r fx
  | 0x6 => fxOff true l r fx
  | 0x7 => (fxOff false l r fx).bind (fxOff true l r)
  | 0x8 => fxArm false l r fx
  | 0x9 => fxArm true l r fx
  | 0xA => fxPop c l r fx
  | 0xB => fxMode v l r fx
  | _ => some fx

/-- PACT (R147). -/
def fxPact (pact : Nat) (v : Word) (c' : Bool) (fine : Nat) (l : Live) (r : Routine) (fx : StagedFx) : Option StagedFx := match pact with
  | 0x1 => fxPin .set fine l r fx
  | 0x2 => fxPin .clear fine l r fx
  | 0x3 => fxPin .toggle fine l r fx
  | 0x4 => fxPin (levelAct (v.getLsbD 0)) fine l r fx
  | 0x5 => fxPin (levelAct c') fine l r fx
  | _ => some fx

/-- LINK (R149). -/
def fxLinkField (c link : Nat) (v : Word) (l : Live) (r : Routine) (fx : StagedFx) : Option StagedFx :=
  if link = 1 then fxLink c none v l r fx else if 8 ≤ link then fxLink c (some (link - 8)) v l r fx else some fx

/-- An effect that a bit of the word asks for. -/
def fxIf (b : Bool) (f : Live → Routine → StagedFx → Option StagedFx) (l : Live) (r : Routine) (fx : StagedFx) : Option StagedFx :=
  if b then f l r fx else some fx

/-- All side effects of a word (R125, steps 4 and 5). -/
def wordFx (c : Nat) (w : Microword) (v : Word) (c' : Bool) (l : Live) (r : Routine) (fx : StagedFx) : Option StagedFx :=
  let fine := (mwFine w).toNat
  (fxIf (mwSwr w) (fxWord c (mwSaddr w) v) l r fx).bind fun fx =>
  (fxTimer c (mwTact w) v.toNat fine l r fx).bind fun fx =>
  (fxPact (mwPact w) v c' fine l r fx).bind fun fx =>
  (fxFlags (mwFset w) (mwFclr w) l r fx).bind fun fx =>
  (fxLinkField c (mwLink w) v l r fx).bind fun fx =>
  (fxIf (mwBit w 83) fxIrq l r fx).bind fun fx =>
  (fxIf (mwBit w 84) fxDreq l r fx).bind fun fx =>
  (fxIf (mwBit w 85) fxPost l r fx).bind fun fx =>
  fxIf (mwBit w 86) (fxLog v) l r fx

/-! ### User tables (R140) -/

/-- A write to TADDR; it discards an earlier read in flight. -/
def tableStart (k : Nat) (v : Word) (l : Live) : Live :=
  l.updCluster k (fun x => { x.loseRead with tpend := some (field v.toNat 31 0), tready := false, terr := false })

/-- An offset that names no table word. -/
def tableBad (off : Nat) : Bool := decide (off % 8 ≠ 0) || decide (tableSize ≤ off)

/-- What SECDED finds at a table read (R24). -/
def tableEcc (off : Nat) (ecc : EccResult) (l : Live) : Live :=
  if tableBad off then l else match ecc with
    | .clean => l
    | .single => countCorrected 7 l
    | .double => doubleBit (tableBase + off) l

/-- The end of the oldest read in flight: one whose data is discarded, or the one that the routine waits for. -/
def tableDone (k : Nat) (ecc : EccResult) (l : Live) : Live := match (l.cluster k).tlost, (l.cluster k).tpend with
  | off :: r, _ => tableEcc off ecc (l.updCluster k (fun x => { x with tlost := r }))
  | [], none => l
  | [], some off =>
    let l := tableEcc off ecc l
    let err := tableBad off || ecc = .double
    let data := if err then 0 else BitVec.ofNat 64 (ofBytesLE (readBytes l.mem (tableBase + off) 8))
    l.updCluster k (fun x => { x with tpend := none, tready := true, terr := err, tdata := data })

/-! ### Next address (R129, R130, R143) -/

/-- END: the routine commits if it has not, and the thread yields (R143, R154). -/
def endRun (k naddr : Nat) (l : Live) : Live :=
  let l := commitRun k l
  match (l.cluster k).run with
  | none => l
  | some r =>
    let c := runChan k r
    let x := l.chan c
    let stopped := !x.en || !l.flag (0x2100 + k) 1
    let th := if stopped then ThreadState.disabled else if x.req = 0 then .idle else .ready
    let y := { x with thread := th, stored := BitVec.ofNat 12 naddr, first := false, restart := false, abandons := 0 }
    let l := l.setChan c { y with longest := BitVec.ofNat 16 (max x.longest.toNat r.used) }
    let l := l.updCluster k (fun x => { x with run := none, lastLo := if hiLane l c then x.lastLo else r.slot })
    match x.startDue with
    | some sets => if stopped then l else (startNow c l).updChan c (fun y => if sets then { y with longest := 0 } else y)
    | none => l

/-- The successor of a word that does not end (R129). -/
def successor (nsel naddr : Nat) (c' : Bool) (func : Nat) : Nat := match nsel with
  | 1 => naddr / 2 * 2 + b2n c'
  | 2 => naddr / 16 * 16 + func % 16
  | _ => naddr

/-- Takes the next address of the running routine. -/
def goTo (k addr : Nat) (l : Live) : Live := updRun k (fun r => { r with addr := BitVec.ofNat 12 addr }) l

/-! ### Words -/

/-- ECLK that a word takes (R124). -/
def wordTime (w : Microword) : Nat := if mwAop w = 0xA then 4 else 1

/-- A word acts on its operands and c′: result, flags, effects, successor (R125). `waited` tells that a WAIT released it. -/
def actWord (k : Nat) (w : Microword) (waited c' : Bool) (a b : Word) (l : Live) : Live := match (l.cluster k).run with
  | none => l
  | some r =>
    let c := runChan k r
    let o := alu (mwAop w) (mwWid w) a b c'
    let d := mwDsel w
    let r := { r with result := o.result, z := o.z, n := o.n, c := o.c, ah := o.ah, div0 := o.div0.getD r.div0,
                      div := none, lastAddr := r.addr, wtoExpired := if waited then !c' else r.wtoExpired,
                      x := if 8 ≤ d ∧ d ≤ 15 then setNth r.x (d - 8) o.result else r.x }
    let l := setRun k r l
    let l := if d = 5 then tableStart k o.result l else l
    let l := takeFx k (wordFx c w o.result c') l
    let l := if mwCommit w then commitRun k l else l
    if mwNsel w = 3 then endRun k (mwNaddr w).toNat l
    else goTo k (successor (mwNsel w) (mwNaddr w).toNat c' (l.chan c).func.toNat) l

/-- The last TCLK of the fourth ECLK from the present one (R124). -/
def divDue (l : Live) : Nat := (l.now / 2 + 3) * 2 + 1

/-- A word executes, with c′ given by a WAIT (R125). A DIV word takes its operands and its condition now and acts in its fourth ECLK
(R124). -/
def execWord (k : Nat) (w : Microword) (waited : Option Bool) (l : Live) : Live := match (l.cluster k).run with
  | none => l
  | some r =>
    let c := runChan k r
    let r := { r with swRead := if mwSrd w then seenWord l c r (mwSaddr w) else 0, stall := none }
    let a := operand l k c r w (mwAsel w)
    let b := operand l k c r w (mwBsel w)
    let own := alu (mwAop w) (mwWid w) a b false
    let c' := waited.getD (condPrime l k c r w (if mwAop w = 0xE then keptFlags r else own) b)
    let l := spend k (wordTime w) (setRun k r l)
    if mwAop w = 0xA then updRun k (fun r => { r with div := some ⟨w, c', waited.isSome, a, b, divDue l⟩ }) l
    else actWord k w waited.isSome c' a b l

/-- The DIV word of a running routine acts in its fourth ECLK (R124). -/
def divEnd (k : Nat) (l : Live) : Live := match running l k with
  | some r => (match r.div with
    | some d => if d.due ≤ l.now then actWord k d.word d.waited d.c' d.a d.b l else l
    | none => l)
  | none => l

/-- c′ of a WAIT word in the present ECLK: codes 0x01–0x04 keep the flags of the preceding word (R134). -/
def waitCond (l : Live) (k : Nat) (r : Routine) (w : Microword) : Bool :=
  let c := runChan k r
  let r := { r with swRead := if mwSrd w then seenWord l c r (mwSaddr w) else 0 }
  condPrime l k c r w (keptFlags r) (operand l k c r w (mwBsel w))

/-- Number of the present ECLK of a WAIT word, from 1, and whether it is the last (R134). -/
def waitEclk (r : Routine) : Nat := r.stall.getD 0 + 1
def waitLast (r : Routine) (w : Microword) : Bool := decide (2 ^ (mwWto w + 1) ≤ waitEclk r)

/-- One ECLK of a WAIT word: it stalls, or executes once, which must fit the budget (R158). -/
def waitStep (k : Nat) (r : Routine) (w : Microword) (l : Live) : Live :=
  let go := waitCond l k r w
  if !(go || waitLast r w) then spend k 1 (updRun k (fun x => { x with stall := some (waitEclk r), word := w }) l)
  else if r.budget < r.used + wordTime w then enterRunaway k 0 l
  else execWord k w (some go) l

/-! ### Runs of ROM functions (R131, R142, R144) -/

/-- The channel as the routine sees it, its own staged effects applied. -/
def stagedView (c : Nat) (r : Routine) (l : Live) : Live :=
  l.updChan c (fun x =>
    { x with sw := r.staged.sw.foldl (fun m e => m.put 0 e.1 e.2) x.sw, ma := { x.ma with cur := seenMa x r },
             mb := { x.mb with cur := seenMb x r }, mode := seenMode x r, fl := seenFl x r })

/-- The staged effects of a routine with those of the ROM function that its words jumped into. -/
def mergeFx (old fx : StagedFx) : StagedFx :=
  { fx with sw := old.sw.filter (fun e => !(fx.sw.any (fun n => n.1 = e.1))) ++ fx.sw,
            ma := fx.ma.orElse (fun _ => old.ma), mb := fx.mb.orElse (fun _ => old.mb), mode := fx.mode.orElse (fun _ => old.mode),
            pins := old.pins ++ fx.pins, pops := old.pops + fx.pops, fset := clrMask old.fset fx.fclr ||| fx.fset,
            fclr := clrMask (old.fclr ||| fx.fclr) fx.fset, links := old.links ++ fx.links, irq := old.irq || fx.irq,
            dreq := old.dreq || fx.dreq, posts := old.posts ++ fx.posts, logs := old.logs ++ fx.logs, faults := old.faults ++ fx.faults }

/-- The merged effects keep the staging capacity (R144); of the private words only those count that the user's own words wrote, since
the function's use of its own is the model's (log entry 46). -/
def mergeFits (old fx : StagedFx) : Bool :=
  let m := mergeFx old fx
  let words := old.sw.filter (fun e => !(fx.sw.any (fun n => n.1 = e.1))) ++ fx.sw.filter (fun e => decide (e.1 < 16))
  decide (words.length ≤ 8 ∧ m.pins.length ≤ 4 ∧ m.pops ≤ 4 ∧ m.links.length ≤ 2 ∧ m.posts.length ≤ 2
    ∧ m.logs.length + m.edges.length ≤ 4)

/-- What a run of ROM function f stages, and the free values it drew. -/
def romStages (k f : Nat) (r : Routine) (l : Live) : StagedFx × Nat :=
  let c := runChan k r
  let out := romRun f { l := stagedView c r l, c := c, f := f, r := r }
  let ok := fun (e : Nat × Word) => decide (16 ≤ e.1) || isResult l c e.1
  ({ out.fx with sw := out.sw.filter ok, faults := (out.sw.filter (fun e => !ok e)).map (fun e => e.1 * 2 ^ 16 + r.addr.toNat) }, out.draws)

/-- A ROM function runs from its entry word to its COMMIT: its effects are staged with the routine's, or applied at once (R131; log
entry 47). -/
def romStage (k f : Nat) (l : Live) : Live := match (l.cluster k).run with
  | none => l
  | some r =>
    let c := runChan k r
    let st := romStages k f r l
    let l := { l with freeIdx := l.freeIdx + st.2 }
    let l := spend k (romPath f) (updRun k (fun x => { x with lastAddr := r.addr }) l)
    if r.committed then applyFx c st.1 (l.updChan c (fun x => { x with romFn := some f }))
    else if mergeFits r.staged st.1 then
      updRun k (fun x => { x with staged := mergeFx r.staged st.1 }) (l.updChan c (fun x => { x with romFn := some f }))
    else enterRunaway k 1 l

/-- A ROM function runs to its END. -/
def execRom (k f : Nat) (l : Live) : Live := endRun k (romEntry f) (romStage k f l)

/-! ### Machine checks (R168–R174) -/

/-- A machine check of cluster k at an address: 0 writable parity, 1 ROM parity, 2 reserved address. -/
def machineCheck (k addr cause : Nat) (l : Live) : Live :=
  let x := l.cluster k
  let slot := match x.run with
    | some r => r.slot
    | none => 0
  let payload := cause * 2 ^ 28 + slot * 2 ^ 12 + addr
  let l := match x.run with
    | some r => l.updChan (runChan k r) (fun y =>
        if r.committed || cause = 2 then { y with thread := .halted, abandons := 0, startDue := none }
        else { y with thread := .ready, restart := true, mcRestart := true })
    | none => l
  let x := { x.loseRead with run := none, state := 2, mcHeld := false, status := setBit x.status 2, mcCnt := x.mcCnt + 1 }
  let x := { x with lastMc := BitVec.ofNat 32 payload, recovery := some ⟨BitVec.ofNat 12 addr, cause⟩ }
  let l := forAll (goFailsafe 3) (failsafeChans l k) (noteBit (0x3100 + k) 3 2 (l.setCluster k x))
  let l := reportFault (mcSource k) 0x24 payload 0x6000 l
  let soon := match l.micro.lastMcAt with
    | some t => decide (l.now < t + 400000000)
    | none => false
  let l := { l with micro := { l.micro with lastMcAt := some l.now } }
  if soon then pulseSource 12 l else l

/-- The cluster's scheduler runs again, unless Cluster enable is 0 (R170). -/
def resumeCluster (k : Nat) (l : Live) : Live :=
  l.updCluster k (fun x => { x with state := if l.flag (0x2100 + k) 1 then 1 else 0, status := clrBit x.status 5, recovery := none })

/-- The cluster stays in state 2 (R170, R171). -/
def unrecovered (k : Nat) (rom : Bool) (l : Live) : Live :=
  l.updCluster k (fun x => { x with recovery := none, status := if rom then setBit (setBit x.status 5) 6 else setBit x.status 5 })

/-- MC_RECOVERY_DONE (R170, R171): the MRAM read and the read-back went well or not, and the three reads of a ROM word. A cluster that
was unrecovered before stays so: only an activation or a reset brings it back. -/
def mcRecoveryDone (k : Nat) (mramOk readbackOk : Bool) (romReads : BitVec 3) (l : Live) : Live :=
  let x := l.cluster k
  match x.recovery with
  | none => l
  | some m =>
    if !engineUp l k then l
    else if m.cause = 1 && romReads ≠ 7 then unrecovered k true l
    else if m.cause = 0 && ((x.copy ≠ 0xFF && !mramOk) || !readbackOk) then unrecovered k false l
    else
      let l := if m.cause = 0 then putWord k m.addr.toNat (recoveryWord l k m.addr.toNat) l else l
      let l := reloadBad k l
      let l := writeRecord (mcSource k) 0x24 (0xF * 2 ^ 28 + m.addr.toNat) l
      if bitOf x.status.toNat 5 then l.updCluster k (fun x => { x with recovery := none })
      else if l.cfg (0x4100 + k) 0x21 = 1 then l.updCluster k (fun x => { x with recovery := none, mcHeld := true })
      else resumeCluster k l

/-! ### Scheduling (R156, R160–R163) -/

/-- The slot is READY in a lane. -/
def readyIn (l : Live) (k : Nat) (hi : Bool) (slot : Nat) : Bool :=
  let c := 64 * k + slot
  (l.chan c).thread = .ready && hiLane l c = hi

/-- The first READY slot of a lane after the last one served. -/
def firstReady (l : Live) (k : Nat) (hi : Bool) (last : Nat) : Option Nat :=
  ((List.range 64).map (fun i => (last + 1 + i) % 64)).find? (readyIn l k hi)

/-- The scheduler's choice (R156). -/
def pickThread (l : Live) (k : Nat) : Option Nat :=
  let x := l.cluster k
  match firstReady l k true x.lastHi with
  | some s => some s
  | none => match x.kept with
    | some s => if readyIn l k false s then some s else firstReady l k false x.lastLo
    | none => firstReady l k false x.lastLo

/-- The run is protected by restart credit (R163). A restart after a machine check keeps its protection and is not counted again (R169; log
entry 109). -/
def protectedRun (l : Live) (k c : Nat) : Bool := l.flag (0x2100 + k) 2 && decide (3 ≤ (l.chan c).abandons)

/-- ROUTINE_START: the engine is idle and takes the chosen thread (R130, R135, R136, R156, R163). -/
def routineStart (k : Nat) (l : Live) : Live :=
  let x := l.cluster k
  if !engineUp l k || x.state ≠ 1 || x.paused || x.run.isSome then l
  else match pickThread l k with
    | none => l
    | some slot =>
      let c := 64 * k + slot
      let y := l.chan c
      let prot := protectedRun l k c
      let r : Routine :=
        { slot := slot, addr := y.stored, lastAddr := y.stored, req := y.req, lnkd := y.lnkd, capa := y.capa, capb := y.capb,
          start := BitVec.ofNat 48 (l.now / 2 * 2), x := List.replicate 8 0, z := false, n := false, c := false, ah := false,
          div0 := false, wtoExpired := false, committed := false, used := 0, budget := l.cfg (0x4100 + k) 0x20, staged := {},
          protect := prot, restart := y.restart, first := y.first, stall := none, swRead := 0, result := 0 }
      let x := { x with run := some r, kept := none, lastHi := if hiLane l c then slot else x.lastHi }
      let x := if prot && !y.mcRestart then { x with status := setBit x.status 1, protectCnt := x.protectCnt + 1 } else x
      let l := (if prot && !y.mcRestart then noteBit (0x3100 + k) 3 1 l else l).setCluster k { x with kept := if hiLane l c then (l.cluster k).kept else none }
      l.setChan c { y with thread := .running, fresh := 0, mcRestart := false, linkSampled := y.linkSampled || y.req.getLsbD 4 }

/-- ROUTINE_ABANDON (R160, R161, R163). A DIV word completes first; a cluster that pauses for an activation lets its routine end (R178). -/
def routineAbandon (k : Nat) (l : Live) : Live := match running l k with
  | some r =>
    let c := runChan k r
    if hiLane l c || r.committed || r.protect || r.div.isSome || (l.cluster k).paused || (firstReady l k true (l.cluster k).lastHi).isNone then l
    else
      let l := (dropRoutine c l).updChan c (fun x =>
        { x with thread := .ready, restart := true, abandons := if x.abandons < 255 then x.abandons + 1 else 255 })
      l.updCluster k (fun x => { x with abandonCnt := x.abandonCnt + 1 })
  | none => l

/-- The budget is spent before END, or a word would pass it (R158). -/
def overBudget (l : Live) (k : Nat) (r : Routine) : Bool :=
  let n := match romFunctionAt r.addr.toNat with
    | some f => romPath f
    | none => wordTime (microFetch l k r.addr.toNat).1
  decide (r.budget ≤ r.used) || (r.stall.isNone && decide (r.budget < r.used + n))

/-- RUNAWAY (R158, R159). -/
def runawayStep (k : Nat) (l : Live) : Live := match running l k with
  | some r => if r.div.isNone && overBudget l k r then enterRunaway k 0 l else l
  | none => l

/-- The machine check that a fetch raises: 2 reserved address, 1 bad ROM word, 0 bad writable word (R123, R128, R168, R172). -/
def fetchCheck (l : Live) (k addr : Nat) (upset : Bool) : Option Nat :=
  if 0xC00 ≤ addr then some 2
  else if !parityHolds (microFetch l k addr) || (decide (0x800 ≤ addr) && upset) || (l.cluster k).poisoned.contains addr then
    some (if addr < 0x800 then 0 else 1)
  else none

/-- A parity error in a word of ROM function f: which of its words fails, and whether the run has committed before, are free values, since
the spec does not list its words (R128, R131). -/
def romUpset (k f : Nat) (l : Live) : Live :=
  let d := drawFree l
  let l := if d.1.getLsbD 0 then commitRun k (romStage k f d.2) else d.2
  if (l.cluster k).run.isSome then machineCheck k (romEntry f + d.1.toNat / 2 % romPath f) 1 l else l

/-- The fetched word of the running routine executes. -/
def fetchedWord (k : Nat) (r : Routine) (l : Live) : Live :=
  if overBudget l k r then enterRunaway k 0 l
  else match romFunctionAt r.addr.toNat with
    | some f => execRom k f l
    | none =>
      let w := (microFetch l k r.addr.toNat).1
      if mwWait w then waitStep k r w l else execWord k w none l

/-- MICROWORD_EXECUTE: the next word of the running routine, with an upset of a fetched word if there was one (R123–R134, R168). -/
def microwordExecute (k : Nat) (u : Option (Fin 136)) (l : Live) : Live := match running l k with
  | none => l
  | some r =>
    let addr := r.addr.toNat
    if r.div.isSome then l
    else if r.stall.isSome then (if r.budget ≤ r.used then enterRunaway k 0 l else waitStep k r r.word l)
    else
      let l := upsetStore k addr u l
      if r.budget ≤ r.used then enterRunaway k 0 l
      else match fetchCheck l k addr u.isSome, romFunctionAt addr with
        | some _, some f => romUpset k f l
        | some cause, none => machineCheck k addr cause l
        | none, _ => fetchedWord k r l

/-- The WAIT word at which the running routine stands: the one that stalls, or the one it fetches, if that passes its check. -/
def waitWord (l : Live) (k : Nat) : Option (Routine × Microword) := match running l k with
  | some r =>
    let addr := r.addr.toNat
    let w := if r.stall.isSome then r.word else (microFetch l k addr).1
    if mwWait w && r.div.isNone && (r.stall.isSome || ((romFunctionAt addr).isNone && (fetchCheck l k addr false).isNone))
        && decide (r.used < r.budget) then some (r, w) else none
  | none => none

/-- A WAIT word that the running routine fetches and that fails its check. -/
def badWait (l : Live) (k : Nat) : Option (Nat × Nat) := match running l k with
  | some r =>
    let addr := r.addr.toNat
    if r.stall.isNone && r.div.isNone && decide (r.used < r.budget) && mwWait (microFetch l k addr).1 then
      (fetchCheck l k addr false).map (fun cause => (addr, cause))
    else none
  | none => none

/-- MICROWORD_WAIT: an ECLK of the stall (R134), with the check of the fetch in its first (R128). -/
def microwordWait (k : Nat) (l : Live) : Live := match waitWord l k, badWait l k with
  | some (r, w), _ => if waitCond l k r w || waitLast r w then l else waitStep k r w l
  | none, some (addr, cause) => machineCheck k addr cause l
  | none, none => l

/-- WAIT_RELEASE (R134). -/
def waitRelease (k : Nat) (l : Live) : Live := match waitWord l k with
  | some (r, w) => if r.stall.isSome && waitCond l k r w then waitStep k r w l else l
  | none => l

/-- WAIT_TIMEOUT (R134). -/
def waitTimeout (k : Nat) (l : Live) : Live := match waitWord l k with
  | some (r, w) => if r.stall.isSome && waitLast r w && !waitCond l k r w then waitStep k r w l else l
  | none => l

/-! ### Single parts of a word, on the running routine -/

/-- Acts while a routine runs on cluster k. -/
def onRun (k : Nat) (f : Routine → Live → Live) (l : Live) : Live := match running l k with
  | some r => f r l
  | none => l

/-- An ALU operation: its result and flags (R137, R138). -/
def aluStep (k op : Nat) (wid : BitVec 2) (a b : Word) (sel : Routine → Live → Bool) : Live → Live :=
  onRun k (fun r l =>
    let o := alu op wid.toNat a b (sel r l)
    setRun k { r with result := o.result, z := o.z, n := o.n, c := o.c, ah := o.ah, div0 := o.div0.getD r.div0 } l)

/-- c′ of a SEL word with a condition code and polarity (R133). -/
def selCond (k : Nat) (b : Word) (cond : BitVec 6) (cpol : Bool) (r : Routine) (l : Live) : Bool :=
  condPrime l k (runChan k r) r (BitVec.ofNat 128 (cond.toNat * 2 ^ 14 + b2n cpol * 2 ^ 20)) (keptFlags r) b

/-- SRD (R141, R142). -/
def wordRead (k i : Nat) : Live → Live := onRun k (fun r l => setRun k { r with swRead := seenWord l (runChan k r) r i } l)

/-- SWR (R141). -/
def wordWrite (k i : Nat) (v : Word) : Live → Live :=
  onRun k (fun r l => takeFx k (fxWord (runChan k r) i v) l)

/-- A side effect of the running routine. -/
def effect (k : Nat) (f : Nat → Live → Routine → StagedFx → Option StagedFx) : Live → Live :=
  onRun k (fun r l => takeFx k (f (runChan k r)) l)

/-! ### Scrubber and load (R167, R172) -/

/-- SCRUB_READ: the next word of the store; a bad writable word is poisoned, a bad ROM word is a machine check (R171, R172). -/
def scrubRead (k : Nat) (u : Option (Fin 136)) (l : Live) : Live :=
  if !engineUp l k then l
  else
    let a := (l.cluster k).scrubPos
    let l := upsetStore k a u l
    let l := l.updCluster k (fun x => { x with scrubPos := (a + 1) % 3072 })
    if 0x800 ≤ a then (if u.isSome then machineCheck k a 1 l else l)
    else if parityHolds (storeWordAt l k a) || (l.cluster k).poisoned.contains a then l
    else (noteBit (0x3100 + k) 3 3 l).updCluster k (fun x =>
      { x with poisoned := x.poisoned ++ [a], status := setBit x.status 3, scrubCnt := x.scrubCnt + 1 })

/-- SCRUB_REPAIR_DONE: the oldest poisoned word is reloaded; a reload that fails leaves it poisoned (log entry 48). -/
def scrubRepair (k : Nat) (ok : Bool) (l : Live) : Live := match (l.cluster k).poisoned with
  | a :: r => if ok && engineUp l k then
      (putWord k a (recoveryWord l k a) l).updCluster k (fun x => { x with poisoned := r }) else l
  | [] => l

/-- LOAD_MEASURE: busy ECLK of the interval in 2^-16 of 2,000,000 (R167); a figure that does not fit 16 bits is a free value. -/
def loadOne (k : Nat) (l : Live) : Live :=
  let n := (divFree (((l.cluster k).busy * 65536 : Nat) : Int) 2000000).toNat
  let d := drawFree l
  let l := if n < 65536 then l else d.2
  l.updCluster k (fun x => { x with busy := 0, load := if n < 65536 then BitVec.ofNat 16 n else d.1.setWidth 16 })

/-! ### Images and activation (R176–R179) -/

/-- The copy that is not active: the one a write goes to; copy A where none is active (log entry 49). -/
def spareCopy (l : Live) : Byte := if l.micro.activeCopy = 0 then 1 else 0

/-- MICROCODE_IMAGE_WRITE (R176, R181). -/
def microImageWrite (data : List Byte) (l : Live) : Live × Nat :=
  if (l.net.nmt ≠ nmtPre && l.net.nmt ≠ nmtOp) || !l.micro.todo.isEmpty then (l, abState)
  else if 278528 < data.length then (l, abLength)
  else
    let ok := microImageOk data
    let m := if spareCopy l = 1 then { l.mram with microB := data } else { l.mram with microA := data }
    ({ l with mram := m, micro := { l.micro with accepted := ok, status := if ok then 1 else 2 } }, 0)

/-- The reason that refuses an activation, 0 none (R177). -/
def activateReason (l : Live) : Byte :=
  let b := microCopy l (spareCopy l)
  if !microImageOk b then 2
  else if l.micro.activeCopy ≠ 0xFF && !newer16 (imgGen b) l.micro.activeGen.toNat then 3
  else if anyBelow 8 (fun k => (l.cluster k).recovery.isSome) then 6
  else 0

/-- The activation ends: the new copy is active (R178). -/
def activationEnd (l : Live) : Live :=
  let c := spareCopy l
  let b := microCopy l c
  let l := { l with micro := { l.micro with status := 5, activeCopy := c, activeGen := BitVec.ofNat 16 (imgGen b), todo := [] } }
  forAll (fun k l => if bitOf (imgMask b) k then writeRecord (mcSource k) 0x24 (0xE * 2 ^ 28 + imgGen b) l else l) (List.range 8) l

/-- The next cluster of an activation pauses, or the activation ends. -/
def activationNext (ks : List Nat) (l : Live) : Live := match ks with
  | [] => activationEnd l
  | k :: _ => { l with micro := { l.micro with todo := ks } }.updCluster k (fun x => { x with paused := true })

/-- MICROCODE_ACTIVATE (R177, R178). One that comes while an activation is in progress is refused and leaves the image status (log
entry 109). -/
def microActivate (l : Live) : Live × Nat :=
  if !l.micro.todo.isEmpty then (l, abState)
  else
    let r := activateReason l
    if r ≠ 0 then ({ l with micro := { l.micro with status := r } }, abState)
    else
      let mask := imgMask (microCopy l (spareCopy l))
      (activationNext ((List.range 8).filter (fun k => bitOf mask k)) { l with micro := { l.micro with status := 4 } }, 0)

/-- Threads of user functions after the swap (R179). -/
def swapThreads (k : Nat) (l : Live) : Live :=
  forAll (fun i => fun l => l.updChan (64 * k + i) (fun x => if 12 ≤ x.func.toNat then { x with stored := 0x800, first := true } else x))
    (List.range 64) l

/-- ACTIVATION_CLUSTER_DONE: the paused cluster has its new store; a failed read-back is a machine check at the address that failed,
which is a free value (R178). -/
def activationDone (readbackOk : Bool) (l : Live) : Live := match l.micro.todo with
  | [] => l
  | k :: rest =>
    if (l.cluster k).run.isSome then l
    else
      let x := l.cluster k
      let dead := bitOf x.status.toNat 5 && !bitOf x.status.toNat 6
      let l := swapThreads k (loadStore (spareCopy l) k l)
      let l := (noteBit (0x3100 + k) 3 4 l).updCluster k (fun x => { x with paused := false, status := setBit x.status 4 })
      let l := if dead then resumeCluster k l else l
      let l := if readbackOk then l else
        let d := drawFree l
        machineCheck k (d.1.toNat % 0x800) 0 d.2
      if coreUp l then activationNext rest l else l

/-! ### Commands -/

def execRoutineStart (k : Fin 8) (s : State) : Out := ran (routineStart k.val) s
def execMicrowordExecute (k : Fin 8) (upset : Option (Fin 136)) (s : State) : Out := ran (microwordExecute k.val upset) s
def execAluPass (k : Fin 8) (wid : BitVec 2) (a b : Word) (s : State) : Out := ran (aluStep k.val 0x0 wid a b (fun _ _ => false)) s
def execAluAdd (k : Fin 8) (wid : BitVec 2) (a b : Word) (s : State) : Out := ran (aluStep k.val 0x1 wid a b (fun _ _ => false)) s
def execAluSub (k : Fin 8) (wid : BitVec 2) (a b : Word) (s : State) : Out := ran (aluStep k.val 0x2 wid a b (fun _ _ => false)) s
def execAluAnd (k : Fin 8) (wid : BitVec 2) (a b : Word) (s : State) : Out := ran (aluStep k.val 0x3 wid a b (fun _ _ => false)) s
def execAluOr (k : Fin 8) (wid : BitVec 2) (a b : Word) (s : State) : Out := ran (aluStep k.val 0x4 wid a b (fun _ _ => false)) s
def execAluXor (k : Fin 8) (wid : BitVec 2) (a b : Word) (s : State) : Out := ran (aluStep k.val 0x5 wid a b (fun _ _ => false)) s
def execAluShl (k : Fin 8) (wid : BitVec 2) (a b : Word) (s : State) : Out := ran (aluStep k.val 0x6 wid a b (fun _ _ => false)) s
def execAluShr (k : Fin 8) (wid : BitVec 2) (a b : Word) (s : State) : Out := ran (aluStep k.val 0x7 wid a b (fun _ _ => false)) s
def execAluSar (k : Fin 8) (wid : BitVec 2) (a b : Word) (s : State) : Out := ran (aluStep k.val 0x8 wid a b (fun _ _ => false)) s
def execAluMul (k : Fin 8) (wid : BitVec 2) (a b : Word) (s : State) : Out := ran (aluStep k.val 0x9 wid a b (fun _ _ => false)) s
def execAluDiv (k : Fin 8) (wid : BitVec 2) (a b : Word) (s : State) : Out := ran (aluStep k.val 0xA wid a b (fun _ _ => false)) s
def execAluMinu (k : Fin 8) (wid : BitVec 2) (a b : Word) (s : State) : Out := ran (aluStep k.val 0xB wid a b (fun _ _ => false)) s
def execAluMaxu (k : Fin 8) (wid : BitVec 2) (a b : Word) (s : State) : Out := ran (aluStep k.val 0xC wid a b (fun _ _ => false)) s
def execAluFfs (k : Fin 8) (wid : BitVec 2) (a b : Word) (s : State) : Out := ran (aluStep k.val 0xD wid a b (fun _ _ => false)) s
def execAluSel (k : Fin 8) (wid : BitVec 2) (a b : Word) (cond : BitVec 6) (cpol : Bool) (s : State) : Out :=
  ran (aluStep k.val 0xE wid a b (selCond k.val b cond cpol)) s
def execAluAndn (k : Fin 8) (wid : BitVec 2) (a b : Word) (s : State) : Out := ran (aluStep k.val 0xF wid a b (fun _ _ => false)) s
def execStateWordRead (k : Fin 8) (sw : BitVec 5) (s : State) : Out := ran (wordRead k.val sw.toNat) s
def execStateWordWrite (k : Fin 8) (sw : BitVec 5) (result : Word) (s : State) : Out := ran (wordWrite k.val sw.toNat result) s
def execTableReadStart (k : Fin 8) (result : Word) (s : State) : Out := ran (onRun k.val (fun _ => tableStart k.val result)) s
def execTableReadDone (k : Fin 8) (ecc : EccResult) (s : State) : Out :=
  ran (fun l => if engineUp l k.val then tableDone k.val ecc l else l) s
def execNextGo (k : Fin 8) (naddr : BitVec 12) (s : State) : Out := ran (onRun k.val (fun _ => goTo k.val naddr.toNat)) s
def execNextTwoWay (k : Fin 8) (naddr : BitVec 12) (c' : Bool) (s : State) : Out :=
  ran (onRun k.val (fun _ => goTo k.val (successor 1 naddr.toNat c' 0))) s
def execNextDispatch (k : Fin 8) (naddr : BitVec 12) (s : State) : Out :=
  ran (onRun k.val (fun r l => goTo k.val (successor 2 naddr.toNat false (l.chan (runChan k.val r)).func.toNat) l)) s
def execNextEnd (k : Fin 8) (naddr : BitVec 12) (s : State) : Out := ran (onRun k.val (fun _ => endRun k.val naddr.toNat)) s
def execMicroCommit (k : Fin 8) (s : State) : Out := ran (onRun k.val (fun _ => commitRun k.val)) s
def execMicrowordWait (k : Fin 8) (s : State) : Out := ran (microwordWait k.val) s
def execWaitRelease (k : Fin 8) (s : State) : Out := ran (waitRelease k.val) s
def execWaitTimeout (k : Fin 8) (s : State) : Out := ran (waitTimeout k.val) s
def execMatchaLoad (k : Fin 8) (result : Word) (fine : BitVec 6) (s : State) : Out :=
  ran (effect k.val (fun c => fxTimer c 0x1 result.toNat fine.toNat)) s
def execMatchbLoad (k : Fin 8) (result : Word) (fine : BitVec 6) (s : State) : Out :=
  ran (effect k.val (fun c => fxTimer c 0x2 result.toNat fine.toNat)) s
def execMatchaLoadFineLayout (k : Fin 8) (result : Word) (s : State) : Out :=
  ran (effect k.val (fun c => fxTimer c 0x3 result.toNat 0)) s
def execMatchbLoadFineLayout (k : Fin 8) (result : Word) (s : State) : Out :=
  ran (effect k.val (fun c => fxTimer c 0x4 result.toNat 0)) s
def execDisarmA (k : Fin 8) (s : State) : Out := ran (effect k.val (fun c => fxTimer c 0x5 0 0)) s
def execDisarmB (k : Fin 8) (s : State) : Out := ran (effect k.val (fun c => fxTimer c 0x6 0 0)) s
def execDisarmAAndB (k : Fin 8) (s : State) : Out := ran (effect k.val (fun c => fxTimer c 0x7 0 0)) s
def execArmA (k : Fin 8) (s : State) : Out := ran (effect k.val (fun c => fxTimer c 0x8 0 0)) s
def execArmB (k : Fin 8) (s : State) : Out := ran (effect k.val (fun c => fxTimer c 0x9 0 0)) s
def execFifoPop (k : Fin 8) (s : State) : Out := ran (effect k.val (fun c => fxTimer c 0xA 0 0)) s
def execCctlModeLoad (k : Fin 8) (result : Word) (s : State) : Out := ran (effect k.val (fun c => fxTimer c 0xB result.toNat 0)) s
def execPinActionSet (k : Fin 8) (fine : BitVec 6) (s : State) : Out :=
  ran (effect k.val (fun _ => fxPact 0x1 0 false fine.toNat)) s
def execPinActionClear (k : Fin 8) (fine : BitVec 6) (s : State) : Out :=
  ran (effect k.val (fun _ => fxPact 0x2 0 false fine.toNat)) s
def execPinActionToggle (k : Fin 8) (fine : BitVec 6) (s : State) : Out :=
  ran (effect k.val (fun _ => fxPact 0x3 0 false fine.toNat)) s
def execPinActionResult (k : Fin 8) (fine : BitVec 6) (result : Word) (s : State) : Out :=
  ran (effect k.val (fun _ => fxPact 0x4 result false fine.toNat)) s
def execPinActionCondition (k : Fin 8) (fine : BitVec 6) (c' : Bool) (s : State) : Out :=
  ran (effect k.val (fun _ => fxPact 0x5 0 c' fine.toNat)) s
def execFlagSet (k : Fin 8) (mask : Byte) (s : State) : Out := ran (effect k.val (fun _ => fxFlags mask 0)) s
def execFlagClear (k : Fin 8) (mask : Byte) (s : State) : Out := ran (effect k.val (fun _ => fxFlags 0 mask)) s
def execLinkAllTargets (k : Fin 8) (result : Word) (s : State) : Out := ran (effect k.val (fun c => fxLinkField c 1 result)) s
def execLinkOneTarget (k : Fin 8) (n : BitVec 3) (result : Word) (s : State) : Out :=
  ran (effect k.val (fun c => fxLinkField c (8 + n.toNat) result)) s
def execIrqRequest (k : Fin 8) (s : State) : Out := ran (effect k.val (fun _ => fxIrq)) s
def execDmaRequestRaise (k : Fin 8) (s : State) : Out := ran (effect k.val (fun _ => fxDreq)) s
def execEventPost (k : Fin 8) (s : State) : Out := ran (effect k.val (fun _ => fxPost)) s
def execLogWrite (k : Fin 8) (result : Word) (s : State) : Out := ran (effect k.val (fun _ => fxLog result)) s
def execRoutineAbandon (k : Fin 8) (s : State) : Out := ran (routineAbandon k.val) s
def execRunaway (k : Fin 8) (s : State) : Out := ran (runawayStep k.val) s
def execMcRecoveryDone (k : Fin 8) (mramOk readbackOk : Bool) (romReads : BitVec 3) (s : State) : Out :=
  ran (mcRecoveryDone k.val mramOk readbackOk romReads) s
def execScrubRead (k : Fin 8) (upset : Option (Fin 136)) (s : State) : Out := ran (scrubRead k.val upset) s
def execScrubRepairDone (k : Fin 8) (ok : Bool) (s : State) : Out := ran (scrubRepair k.val ok) s
def execLoadMeasure (s : State) : Out := ran (fun l => if schedUp l then forAll loadOne (List.range 8) l else l) s
def execMicrocodeImageWrite (conn : Conn) (data : List Byte) (s : State) : Out :=
  ran (onObject conn 0x5E31 1 (microImageWrite data)) s
def execMicrocodeActivate (conn : Conn) (s : State) : Out := ran (onObject conn 0x5E31 2 microActivate) s
def execActivationClusterDone (readbackOk : Bool) (s : State) : Out :=
  ran (fun l => if coreUp l then activationDone readbackOk l else l) s

end Sys2Proof.Machine
end

