-- ==== Sys2Proof/Machine/Time.lean ====
section
/-! DEFINITION. The commands of the time unit: PLL lock and reference, the stamp wrap, second boundaries and PPS_OUT, PPS capture and
discipline, holdover, the seconds epoch (R26–R58, R63). Instants of PPS edges are in 1/16 ps, of PPS_OUT in fine ticks. -/

namespace Sys2Proof.Machine

open Sys2Proof

/-- The time unit runs: AON is out of reset and TCLK runs (R27, R59). -/
def timeUp (l : Live) : Bool := l.time.pllLocked && domainUp .aon l

/-! ### PLL and reference (R26–R28, R31–R33) -/

/-- PLL_LOCK: the reference is present, TCLK starts, DTIME counts from 0, and REFSEL has been sampled (R26, R27). A source that reaches
CLK, other than the hold for the reference itself, keeps the PLL in reset. -/
def pllLock (l : Live) : Live :=
  let others := (bitsOf l.rst.asserted).any (fun s => s ≠ 7 && (domainsOf (reachOf s)).contains .clk)
  if l.time.pllLocked || others then l
  else releaseSource 7 { l with time := { l.time with pllLocked := true, freeRun := false, dtime := 0, refsel := l.time.refselPin } }

/-- REFERENCE_HOLD: the reference is absent or off frequency before the PLL starts; reset is held (R28, R466). -/
def referenceHold (l : Live) : Live :=
  if l.time.pllLocked then l
  else
    let l := assertSource 7 l
    noteBit 0x5E40 0x14 2 { l with rst := { l.rst with status := setBit l.rst.status 2 } }

/-- REF_LOST (R31–R33, R63). -/
def refLost (l : Live) : Live :=
  if !timeUp l || !l.time.status.getLsbD 10 then l
  else
    let t := l.time
    let l := timeFlags 0x300 { l with time := { t with refLossCnt := t.refLossCnt + 1, freeRun := true } }
    let l := { l with time := { l.time with status := clrBit l.time.status 10 } }
    let l := emcy 0x5000 0xA005 0 (disarm 5 l)
    journalEntry 0xA005 0x72 (0x5000 + l.net.errReg.toNat * 65536) 0x5000 l

/-- REFERENCE_RELOCK (R33). -/
def referenceRelock (l : Live) : Live :=
  if !timeUp l || !l.time.freeRun then l
  else { l with time := { l.time with status := setBit l.time.status 10, freeRun := false } }

/-- STAMP_WRAP (R38). -/
def stampWrap (l : Live) : Live :=
  if !timeUp l || l.stamp ≠ 0 || l.time.dtime = 0 then l
  else writeRecord 0xA000 0x10 (field l.now 63 48) (timeFlags 0x80 l)

/-! ### ATIME as one number (R40, R41, R43) -/

/-- ATIME in 2^-32 ticks. -/
def atimeFine (l : Live) : Nat := l.aticks * 2 ^ 32 + l.time.frac

/-- A second in 2^-32 ticks, and the size of ATIME. -/
def secondFine : Nat := second * 2 ^ 32

/-- ATIME set from 2^-32 ticks, modulo 2^35 seconds. -/
def setAtime (v : Int) (l : Live) : Live :=
  let n := (v % ((2 ^ 35 * secondFine : Nat) : Int)).toNat
  let ticks := n / 2 ^ 32
  { l with time := { l.time with seconds := BitVec.ofNat 35 (ticks / second), tick := ticks % second, frac := n % 2 ^ 32 } }

/-! ### Seconds epoch (R53–R56) -/

/-- The pending relabelling takes effect at a second boundary. -/
def epochFire (l : Live) : Live := match l.time.relabel with
  | none => l
  | some off =>
    let t := l.time
    let secs := BitVec.ofInt 35 ((t.seconds.toNat : Int) + off)
    let st := putBit (setBit t.status 11) 12 (decide (t.disc ≠ .locked))
    let l := atRelabel off { l with time := { t with seconds := secs, relabel := none, status := st } }
    writeRecord 0xA001 0x12 (field secs.toNat 31 0) l

/-- TIME_RECEIVED on the TIME bus (R53, R396, R400). -/
def timeReceived (days ms : Nat) (l : Live) : Live :=
  let on := l.flag 0x2000 0x0C && bitOf (commVal l 0x1012 0) 31
  if busActive l l.net.choice.timeBus && preOrOp l && on then
    let total := days * 86400000 + ms
    let k : Int := ((total * 400000 : Nat) - (l.time.tick : Int) + 200000000) / 400000000
    { l with time := { l.time with relabel := some (k - l.time.seconds.toNat) } }
  else l

/-- A value for the seconds-set object (R54). -/
def secondsSet (v : Nat) (l : Live) : Live × Nat :=
  if 2 ^ 35 ≤ v then (l, abRange)
  else ({ l with time := { l.time with relabel := some ((v : Int) - (l.time.seconds.toNat + 1)) } }, 0)

/-! ### PPS_OUT (R57, R58) -/

/-- The fine instant of the second boundary that is `ahead` 2^-32 ticks of ATIME from now, plus the PPS_OUT offset. -/
def ppsOutAt (ahead : Int) (l : Live) : Nat :=
  let per : Int := 2 ^ 32 + l.time.rate
  ((l.now * 64 : Nat) + divFree (l.cfgS 0x2000 9 * 128 * per + 5 * 64 * ahead) (5 * per).toNat).toNat

/-- The fine instant of the second boundary that this TCLK has reached, plus the PPS_OUT offset. -/
def ppsOutInstant (l : Live) : Nat := ppsOutAt (-((l.time.tick * 2 ^ 32 + l.time.frac : Nat) : Int)) l

/-- The same of the second boundary to come. -/
def ppsOutComing (l : Live) : Nat := ppsOutAt (((second - l.time.tick) * 2 ^ 32 : Nat) - (l.time.frac : Int)) l

/-- A fine instant lies in this TCLK or before it. -/
def fineReached (l : Live) (i : Nat) : Bool := decide (i < (l.now + 1) * 64)

/-- The rise is less than 0.5 s of DTIME after the last one (R58). -/
def ppsOutTooSoon (rise : Nat) (l : Live) : Bool := match l.time.ppsOutRise with
  | some r => decide (rise < r + 12800000000)
  | none => false

/-- PPS_OUT rises where it may, or skips the pulse (R57, R58). -/
def ppsOutPulse (rise : Nat) (l : Live) : Live :=
  let t := l.time
  if !ppsOutPermitted l then l
  else if ppsOutTooSoon rise l then { l with time := { t with skipCnt := t.skipCnt + 1 } }
  else { l with time := { t with ppsOut := true, ppsHiZ := false, ppsWarm := false, ppsOutRise := some rise,
                                 ppsOutEnd := rise + l.cfg 0x2000 8 * 25600 } }

/-- After a WARM reset PPS_OUT is driven again from the first boundary after the release on (R59). -/
def ppsOutResume (l : Live) : Live :=
  if l.time.ppsWarm && coreUp l then { l with time := { l.time with ppsHiZ := false, ppsWarm := false } } else l

/-- The pulse of the boundary just reached: placed before it by a negative offset, now, or after it by a positive one (R57). -/
def ppsOutBoundary (rise : Nat) (l : Live) : Live :=
  if l.time.ppsOutEarly then { l with time := { l.time with ppsOutEarly := false } }
  else if fineReached l rise then ppsOutPulse rise l
  else { l with time := { l.time with ppsOutDue := some rise } }

/-- ATIME_SECOND_BOUNDARY (R53, R57–R59). -/
def secondBoundary (l : Live) : Live :=
  if !timeUp l || !l.time.boundary then l
  else ppsOutBoundary (ppsOutInstant l) (ppsOutResume (epochFire { l with time := { l.time with boundary := false } }))

/-- A rise that a positive offset has put off falls into this TCLK (R57). -/
def ppsOutLate (l : Live) : Live := match l.time.ppsOutDue with
  | some rise => if fineReached l rise then ppsOutPulse rise { l with time := { l.time with ppsOutDue := none } } else l
  | none => l

/-- A rise that a negative offset puts before the boundary to come falls into this TCLK (R57). -/
def ppsOutAhead (l : Live) : Live :=
  if l.cfgS 0x2000 9 < 0 ∧ l.time.ppsOutEarly = false ∧ l.time.boundary = false ∧ fineReached l (ppsOutComing l) then
    ppsOutPulse (ppsOutComing l) { l with time := { l.time with ppsOutEarly := true } }
  else l

/-- What an offset makes of PPS_OUT in each TCLK (R57). -/
def ppsOutClock (l : Live) : Live := if timeUp l then ppsOutAhead (ppsOutLate l) else l

/-- PPS_OUT_WIDTH_END (R57). -/
def ppsOutWidthEnd (l : Live) : Live :=
  if l.time.ppsOut && decide (l.time.ppsOutEnd ≤ l.now * 64 + 63) then { l with time := { l.time with ppsOut := false } } else l

/-! ### PPS_IN capture and polarity (R44, R50) -/

/-- PPS_IN_EDGE: the active edge, with its position in the TCLK. -/
def ppsInEdge (fine : Nat) (l : Live) : Live :=
  if !timeUp l || l.time.pps.active then l
  else
    let p := { l.time.pps with active := true, edgeDtime := l.now, edgeFine := fine, edgeAtime := atimeFine l,
                               toProcess := true, longJudged := false }
    { l with time := { l.time with pps := p } }

/-- A pulse judged short: three in succession clear REVERSED_ACTIVE. -/
def judgeShort (l : Live) : Live :=
  let t := l.time
  let n := t.pps.shortRun + 1
  let p := { t.pps with shortRun := n, longRun := 0 }
  { l with time := { t with pps := p, status := if 3 ≤ n then clrBit t.status 14 else t.status } }

/-- The automatic inversion of the polarity (R50, R52): the level present now is no longer the active one. The counts of pulses start
again, which the spec states for a commit of the polarity only (log entry 107). -/
def invertPolarity (l : Live) : Live :=
  let t := l.time
  let p := { t.pps.dropPulse with longRun := 0, shortRun := 0, pairFirst := none }
  let l : Live := { l with time := { t with pps := p, status := putBit t.status 13 (!t.status.getLsbD 13) } }
  if l.time.disc = .off then l else setDisc .acquire l

/-- A pulse judged long: three in succession mean a reversed PPS. -/
def judgeLong (l : Live) : Live :=
  let t := l.time
  let n := t.pps.longRun + 1
  let l := { l with time := { t with pps := { t.pps with longRun := n, shortRun := 0, longJudged := true } } }
  if n < 3 then l
  else
    let l := timeFlags 0x10 { l with time := { l.time with status := setBit l.time.status 14 } }
    if l.flag 0x2000 4 then invertPolarity l else l

/-- PPS_IN_LEVEL_END (R44, R50). -/
def ppsLevelEnd (l : Live) : Live :=
  let t := l.time
  let dur := l.now - t.pps.edgeDtime
  if !timeUp l || !t.pps.active then l
  else
    let l := { l with time := { t with pps := { t.pps with active := false } } }
    if t.pps.longJudged then l
    else if dur < 400 then
      timeFlags 0x04 { l with time := { l.time with glitchCnt := t.glitchCnt + 1, pps := { l.time.pps with toProcess := false } } }
    else if dur ≤ 200000000 then judgeShort l
    else judgeLong l

/-- PPS_LONG_PULSE (R50). -/
def ppsLongPulse (l : Live) : Live :=
  let p := l.time.pps
  if timeUp l && p.active && !p.longJudged && decide (p.edgeDtime + 200000000 < l.now) then judgeLong l else l

/-! ### Discipline (R45–R52) -/

/-- One second, and ±20 µs, in 1/16 ps. -/
def secondPs16 : Int := 16000000000000
def windowPs16 : Int := 320000000

/-- The true edge of the last capture, in 1/16 ps of DTIME (R44). -/
def trueEdge (l : Live) : Int :=
  let p := l.time.pps
  (((p.edgeDtime * 64 + p.edgeFine) * 625 : Nat) : Int) - l.cfgS 0x2000 0x0A * 16000

/-- ATIME at the true edge against the nearest second, in 2^-32 ticks / 40,000 (R45). -/
def phaseRaw (l : Live) : Int :=
  let p := l.time.pps
  let off := trueEdge l - ((p.edgeDtime * 40000 : Nat) : Int)
  let a := (p.edgeAtime : Int) * 40000 + off * (2 ^ 32 + l.time.rate)
  let s : Int := ((secondFine * 40000 : Nat) : Int)
  let m := a % s
  if s ≤ 2 * m then m - s else m

/-- The phase error in ps. -/
def phasePs (m : Int) : Int := divFree (m * 2500) (2 ^ 32 * 40000)

/-- The rate measured over an interval of n seconds: what 1 s of true time is ahead of DTIME, in 2^-32 (R47, R48). -/
def measuredRate (interval n : Int) : Int := divFree ((n * secondPs16 - interval) * 2 ^ 32) interval.toNat

/-- Seconds since an edge, at least one, by the frequency estimate (R46). -/
def secondsSince (l : Live) (interval : Int) : Int :=
  let x := interval * (2 ^ 32 + l.time.freq)
  let s := secondPs16 * 2 ^ 32
  max 1 ((2 * x + s) / (2 * s))

/-- An edge lies within ±20 µs of n seconds after another, scaled by the frequency estimate (R46, R49). -/
def inWindow (l : Live) (interval n : Int) : Bool :=
  let k := 2 ^ 32 + l.time.freq
  let d := interval * k - n * secondPs16 * 2 ^ 32
  decide (-(windowPs16 * k) ≤ d ∧ d ≤ windowPs16 * k)

/-- ATIME steps by −e (R43): skipped keys are late, and a boundary that a forward step passes is reached (R53). -/
def stepAtime (m : Int) (l : Live) : Live :=
  let old := l.aticks
  let oldSec := l.time.seconds.toNat
  let l := setAtime ((atimeFine l : Int) - divFree m 40000) l
  let t := l.time
  let l := atStepped old (timeFlags 0x20 { l with time := { t with stepCnt := t.stepCnt + 1, ppsOutEarly := false } })
  if m < 0 ∧ oldSec ≠ l.time.seconds.toNat then epochFire l else l

/-- Steps or slews (R47, R48). -/
def correct (step : Bool) (m e : Int) (l : Live) : Live :=
  if step then stepAtime m (setRate l.time.freq l)
  else setRate (l.time.freq - divFree (e * 2 ^ 32) (1000000000000 * l.cfg 0x4000 0x20)) l

/-- |e| exceeds the step threshold (R47). -/
def beyondThreshold (l : Live) (e : Int) : Bool := decide (l.cfg 0x2000 6 * 1000 < e.natAbs)

/-- An edge has been accepted: counters, run of good edges, LOCKED, and the commits that wait for a PPS (R46, R52, R77, R435). -/
def edgeAccepted (edge e : Int) (stepped : Bool) (l : Live) : Live :=
  let t := l.time
  let good := !stepped && decide (e.natAbs ≤ 5000)
  let p : PpsState := { t.pps with lastAccepted := some edge, outRun := [], goodRun := if good then t.pps.goodRun + 1 else 0 }
  let l : Live := { l with time := { t with pps := p, accepted := t.accepted + 1 } }
  let l := if l.time.disc = .track && decide (4 ≤ p.goodRun) && !l.time.status.getLsbD 14 then setDisc .locked l else l
  if coreUp l then pendingOverlay (triggerKind 3 l) else l

/-- Acquisition from a pair of edges (R48). -/
def acquire (first edge m e : Int) (l : Live) : Live :=
  let l := { l with time := { l.time with freq := measuredRate (edge - first) 1 } }
  let step := beyondThreshold l e && l.cfg 0x2000 5 ≠ 0
  let l := setDisc .track (correct step m e l)
  edgeAccepted edge e step { l with time := { l.time with pps := { l.time.pps with pairFirst := none, goodRun := 0 } } }

/-- An accepted edge in TRACK, LOCKED or HOLDOVER (R47, R52). -/
def acceptEdge (last edge m e : Int) (l : Live) : Live :=
  let i := edge - last
  let f := l.time.freq
  let rate := measuredRate i (secondsSince l i)
  let l := { l with time := { l.time with freq := f + divFree (rate - f) (2 ^ l.cfg 0x4000 0x21) } }
  let step := beyondThreshold l e && l.cfg 0x2000 5 = 2
  let l := correct step m e l
  let l := if l.time.disc = .holdover || (l.time.disc = .locked && decide (5000 < e.natAbs)) then setDisc .track l else l
  edgeAccepted edge e step l

/-- An edge out of the window (R46, R49): the third consistent one re-acquires with the last two. -/
def rejectEdge (edge m e : Int) (l : Live) : Live :=
  let t := l.time
  let run := match t.pps.outRun with
    | x :: r => if inWindow l (edge - x) 1 then edge :: x :: r else [edge]
    | [] => [edge]
  let p := { t.pps with outRun := run.take 3 }
  let l := timeFlags 0x08 { l with time := { t with pps := p, rejectCnt := t.rejectCnt + 1 } }
  match run with
  | _ :: x :: _ :: _ => acquire x edge m e l
  | _ => l

/-- PPS_PROCESS: the edge whose pulse has lasted 400 TCLK is processed (R44–R49, R52). -/
def ppsProcess (l : Live) : Live :=
  let t := l.time
  if !timeUp l || !t.pps.toProcess || decide (l.now < t.pps.edgeDtime + 400) then l
  else
    let edge := trueEdge l
    let m := phaseRaw l
    let e := phasePs m
    let stamp := BitVec.ofNat 64 (t.pps.edgeDtime % 2 ^ 48 * 64 + t.pps.edgeFine)
    let l := { l with time := { t with phaseError := e, lastPps := stamp, pps := { t.pps with toProcess := false } } }
    match t.disc with
    | .off => l
    | .acquire =>
      let first := { l with time := { l.time with pps := { l.time.pps with pairFirst := some edge } } }
      (match t.pps.pairFirst with
       | some x => if (edge - x - secondPs16).natAbs ≤ 8000000000 then acquire x edge m e l else first
       | none => first)
    | _ =>
      match t.pps.lastAccepted with
      | some x => if inWindow l (edge - x) (secondsSince l (edge - x)) then acceptEdge x edge m e l else rejectEdge edge m e l
      | none => rejectEdge edge m e l

/-- HOLDOVER_TIMEOUT (R52). -/
def holdoverTimeout (l : Live) : Live :=
  let t := l.time
  match t.pps.lastAccepted with
  | some x =>
    if timeUp l && (t.disc = .track || t.disc = .locked) && decide (x + 600000000 * 40000 ≤ ((l.now * 40000 : Nat) : Int)) then
      setRate t.freq (setDisc .holdover l)
    else l
  | none => l

/-! ### Commands -/

def execPllLock (s : State) : Out := ran pllLock s
def execReferenceHold (s : State) : Out := ran referenceHold s
def execRefLost (s : State) : Out := ran refLost s
def execReferenceRelock (s : State) : Out := ran referenceRelock s
def execStampWrap (s : State) : Out := ran stampWrap s
def execAtimeSecondBoundary (s : State) : Out := ran secondBoundary s
def execPpsOutWidthEnd (s : State) : Out := ran ppsOutWidthEnd s
def execPpsInEdge (fine : BitVec 6) (s : State) : Out := ran (ppsInEdge fine.toNat) s
def execPpsInLevelEnd (s : State) : Out := ran ppsLevelEnd s
def execPpsLongPulse (s : State) : Out := ran ppsLongPulse s
def execPpsProcess (s : State) : Out := ran ppsProcess s
def execHoldoverTimeout (s : State) : Out := ran holdoverTimeout s
def execTimeReceived (days : BitVec 16) (ms : BitVec 28) (s : State) : Out := ran (timeReceived days.toNat ms.toNat) s
def execSecondsSet (conn : Conn) (value : BitVec 40) (s : State) : Out := ran (onObject conn 0x2000 0x0B (secondsSet value.toNat)) s

end Sys2Proof.Machine
end

