-- ==== Sys2Proof/Machine/Startup.lean ====
section
/-! DEFINITION. Release of a reset and start-up: the release of each domain, the reset record, the choice of the base copy, the start-up
commit, the self-test and PRE-OPERATIONAL (R71, R91, R153, R398, R418, R422, R427–R429, R443–R451, R454, R461). -/

namespace Sys2Proof.Machine

open Sys2Proof

/-! ### Pins and supplies (R443, R453, R483) -/

/-- POWER_ON: the power-on source and the brown-out sources are released. -/
def powerOn (l : Live) : Live := forAll releaseSource [0, 1, 2, 3] l

/-- BROWN_OUT of a rail. -/
def brownOut (rail : Nat) (l : Live) : Live := assertSource (1 + rail) l

/-- A reset pin: low asserts its source, high releases it. -/
def resetPin (src : Nat) (low : Bool) (l : Live) : Live := if low then assertSource src l else releaseSource src l

def resetN (low : Bool) (l : Live) : Live := resetPin 4 low { l with rst := { l.rst with resetLow := low } }
def warmN (low : Bool) (l : Live) : Live := resetPin 8 low { l with rst := { l.rst with warmLow := low } }

/-! ### The reset record at release (R449, R450) -/

/-- Adds an EMCY that PRE-OPERATIONAL sends. -/
def dueEmcy (code src payload : Nat) (l : Live) : Live :=
  { l with rst := { l.rst with dueEmcy := l.rst.dueEmcy ++ [(code, src, payload)] } }

/-- The generation advances once per reset, in the TCLK in which CORE is released. -/
def advanceReset (l : Live) : Live :=
  let r := l.rst
  if r.genDone then l
  else
    let st := if r.gen = 0xFFFF then setBit r.status 1 else r.status
    let w := if r.lastReach = 2 then r.warmCnt + 1 else r.warmCnt
    let l := if r.gen = 0xFFFF then noteBit 0x5E40 0x14 1 l else l
    { l with rst := { r with gen := r.gen + 1, genDone := true, status := st, warmCnt := w } }

/-- Payload of a reset record. -/
def resetPayload (l : Live) : Nat := l.rst.gen.toNat + l.rst.lastReach.toNat * 65536

/-- DTIME of the assertion of a source, 0 where DTIME did not survive. -/
def sourceDtime (l : Live) (src : Nat) : Nat := if l.rst.lastReach.toNat ≤ 1 then 0 else l.rst.srcAt.get 0 src

/-- The journal entry of a source of WARM reach or wider. -/
def journalSource (src : Nat) (l : Live) : Live :=
  if 2 < l.rst.lastReach.toNat then l
  else
    let put := journalAt (BitVec.ofNat 64 (sourceDtime l src)) (0xF000 + src) 0x70 (resetPayload l) 0
    if l.journal.queue.length < 64 then put l else emcy 0xFF14 0xF080 0 (put l)

/-- The record of one source. -/
def recordSource (src : Nat) (l : Live) : Live :=
  if l.rst.recorded.getLsbD src then l
  else
    let l := writeRecordAt (sourceDtime l src) (0xF000 + src) 0x70 (resetPayload l) l
    journalSource src { l with rst := { l.rst with recorded := setBit l.rst.recorded src } }

/-- The records of every source of the reset. -/
def recordSources (l : Live) : Live := forAll recordSource (bitsOf l.rst.sources) l

/-- UNCOMMANDED and the EMCYs of the sources: an uncommanded one, a brown-out, a reference hold (R450, R466). -/
def noteSources (l : Live) : Live :=
  let srcs := bitsOf l.rst.sources
  let pay := resetPayload l
  let l := match srcs.find? (fun s => !commanded s) with
    | some s => dueEmcy 0xFF10 (0xF000 + s) pay { l with rst := { l.rst with status := setBit l.rst.status 3 } }
    | none => l
  let l := forAll (fun s l => if 1 ≤ s ∧ s ≤ 3 then dueEmcy 0xFF11 (0xF000 + s) pay l else l) srcs l
  if srcs.contains 7 then dueEmcy 0xFF12 0xF007 pay l else l

/-! ### Steps 6 and 7 of the start-up (R447) -/

/-- A pending wipe zeroes MRAM but for the journal; a mark of an earlier start is a wipe resumed (R461). -/
def wipeMram (l : Live) : Live :=
  if !l.rst.wipePending then l
  else
    let l := if l.rst.wipeStarted then dueEmcy 0xFF15 0xF040 0
      (noteBit 0x5E40 0x14 5 { l with rst := { l.rst with status := setBit l.rst.status 5 } }) else l
    { l with mram := { journal := l.mram.journal }, rst := { l.rst with wipeStarted := true } }

/-- The device record gives the expert key and the node-IDs (R422, R447). -/
def readRecord (l : Live) : Live :=
  let x := storedSettings l
  let node := fun (b : Nat) (l : Live) =>
    l.updBus b (fun y => { y with nodeId := BitVec.ofNat 8 (nth 0xFF x.node b), lss := {} })
  forAll node [0, 1] { l with net := { l.net with key := BitVec.ofNat 32 x.key } }

/-- A journal slot holds a valid entry. -/
def entryValid (b : List Byte) : Bool := decide (b.length = 32) && fieldLE b 28 4 = (crc32c (b.take 28)).toNat

/-- The scan of the journal at a cold start: the newest sequence, the entries, those that fail their CRC (R463). -/
def scanJournal (l : Live) : Live :=
  let good := (l.mram.journal.filter (fun e => entryValid e.2)).map (fun e => fieldLE e.2 0 4)
  let newest := good.foldl (fun n s => if newer32 s n then s else n) (good.headD l.journal.newest.toNat)
  let st := if good.length < l.mram.journal.length then setBit l.journal.status 1 else l.journal.status
  let l := if good.length < l.mram.journal.length then noteBit 0x5E20 5 1 l else l
  { l with journal := { l.journal with newest := BitVec.ofNat 32 newest, valid := good.length, status := st } }

/-- The microcode copy that is loaded: of two accepted ones the newer, A if the generations are equal; 0xFF none (R153). -/
def pickMicro (l : Live) : Byte :=
  let a := microImageOk l.mram.microA
  let b := microImageOk l.mram.microB
  if b && (!a || newer16 (imgGen l.mram.microB) (imgGen l.mram.microA)) then 1 else if a then 0 else 0xFF

/-- The clusters that a missing image is reported for: those of the last mask read, or the first where none could be read (R153). -/
def missingClusters (l : Live) : List Nat :=
  let of := fun (b : List Byte) => (List.range 8).filter (fun k => bitOf (imgMask b) k)
  if 64 ≤ l.mram.microB.length then of l.mram.microB else if 64 ≤ l.mram.microA.length then of l.mram.microA else [0]

/-- The report of a missing image for one cluster. -/
def reportMissing (k : Nat) (l : Live) : Live :=
  let pay := 0xD * 2 ^ 28
  let l := l.updCluster k (fun x => { x with loadFault := true })
  dueEmcy 0x6000 (mcSource k) pay (journalEntry (mcSource k) 0x24 pay 0x6000 (writeRecord (mcSource k) 0x24 pay l))

/-- The control stores are loaded (R153). -/
def loadMicrocode (l : Live) : Live :=
  let c := pickMicro l
  let l := forAll (loadStore c) (List.range 8) l
  let g := if c = 0xFF then 0 else imgGen (microCopy l c)
  let l := { l with micro := { l.micro with activeCopy := c, activeGen := BitVec.ofNat 16 g } }
  if c = 0xFF then forAll reportMissing (missingClusters l) l else l

/-! ### The base copy (R424, R427) -/

/-- The value of a record in the form of its object. -/
def ImageRec.toVal (r : ImageRec) : Val := match objRow r.idx r.sub with
  | some o => if o.bits = 0 then .bytes r.value else .num (ofBytesLE r.value)
  | none => .bytes r.value

/-- Takes a record of a rank into the committed values; none where it has no raw form. A raw record prevails over a basic one of the
same value (R391). -/
def takeRecord (rank : Nat) (rs : List ImageRec) (u : Option Live) (r : ImageRec) : Option Live :=
  let k := key r.idx r.sub
  if deltaRank ⟨r.idx, r.sub, 0, 0⟩ ≠ rank then u
  else u.bind (fun u =>
    if storeKey k = k then some (u.setBase k r.toVal)
    else if rs.any (fun x => key x.idx x.sub = storeKey k) then some u
    else (toRaw u r.idx r.sub r.toVal.toNat).map (fun v => u.setBase (storeKey k) (.num v)))

/-- Takes every object record. -/
def takeObjects (rs : List ImageRec) (u : Live) : Option Live :=
  rs.foldl (takeRecord 2 rs) (rs.foldl (takeRecord 1 rs) (rs.foldl (takeRecord 0 rs) (some u)))

/-- A record passes the check of a write of its value, under the values of the whole copy. -/
def recordPasses (u : Live) (r : ImageRec) : Bool :=
  let k := key r.idx r.sub
  imageObject k && (match parseValue r.idx r.sub r.value with
    | .error _ => false
    | .ok v =>
      if isComm r.idx then commCheck u r.idx r.sub v.toNat = 0
      else if k = storeKey k then checkValue u k v = 0
      else checkValue u (storeKey k) (u.baseVal (storeKey k)) = 0)

/-- Takes the member records: admissible objects, each in one group (R75). -/
def takeMember (u : Option Live) (r : ImageRec) : Option Live :=
  u.bind (fun u => match memberKey (ofBytesLE r.value) with
    | none => none
    | some k =>
      let g := r.idx - 0x2C00
      if admissible k && ownerOf u k = 0 && decide ((u.group g).members.length < 512) then
        some (u.updGroup g (fun x => { x with members := x.members ++ [k] }))
      else none)

/-- The device with the configuration of a copy; none where a record fails. After a WARM reset the time configuration is kept. -/
def fromCopy (l : Live) (b : List Byte) : Option Live := match imageRecords b with
  | none => none
  | some all =>
    let rs := all.filter (fun r => r.kind = 0 && !(l.rst.lastReach = 2 && timeKey (key r.idx r.sub)))
    let base := l.setBase (key 0x2E00 2) (.num (imageOverlay b))
    match takeObjects rs base with
    | none => none
    | some u => if rs.all (recordPasses u) then (all.filter (fun r => r.kind = 1)).foldl takeMember (some u) else none

/-- The configuration of a start-up: the copy it comes from, the device that has it, and whether a copy was refused. -/
structure StartPlan where
  copy : Option Nat
  live : Live
  refused : Bool
deriving DecidableEq, Repr

/-- The valid copies, the newer first, A if the counts are equal (R427). -/
def validCopies (l : Live) : List Nat :=
  let a := imageValid l.mram.baseA
  let b := imageValid l.mram.baseB
  if a && b then (if newer32 (imageCount l.mram.baseB) (imageCount l.mram.baseA) then [1, 0] else [0, 1])
  else if a then [0] else if b then [1] else []

/-- Tries the copies in their order; without one the defaults apply. -/
def tryCopies (l : Live) : List Nat → Bool → StartPlan
  | [], refused => ⟨none, l, refused⟩
  | c :: r, refused => match fromCopy l (baseCopy l c) with
    | some u => ⟨some c, u, refused⟩
    | none => tryCopies l r true

/-- The plan of the start-up commit: over the defaults, and over the time configuration after a WARM reset (R91). -/
def startPlan (l : Live) : StartPlan :=
  let kept := l.conf.objs.filter (fun e => timeKey e.1)
  tryCopies { l with conf := { l.conf with objs := kept } } (validCopies l) false

/-! ### Release of CORE -/

/-- The self-test is enabled for this reach by the chosen copy (R454). -/
def selfTestDue (l : Live) : Bool :=
  let v := (startPlan l).live.cfg 0x2000 0x30
  v = 2 || (v = 1 && decide (l.rst.lastReach.toNat ≤ 1))

/-- CORE is released: steps 5 to 7 of the start-up. -/
def coreRelease (l : Live) : Live :=
  let l := noteSources (advanceReset l)
  let sup := (Config.supervisorStop l.freeIdx).map (fun t => l.now + t)
  let l := { l with freeIdx := l.freeIdx + 1, rst := { l.rst with wdLast := l.now, wdFirst := l.rst.sources.getLsbD 9, supEnd := sup } }
  let l := readRecord (wipeMram l)
  let l := if l.rst.lastReach.toNat ≤ 1 then scanJournal l else l
  let l := loadMicrocode (recordSources (if l.rst.lastReach = 2 then logStart 2 l else l))
  let t := selfTestDue l
  let l := { l with rst := { l.rst with selfTestDue := t }, log := { l.log with testHold := t } }
  postAborts 8 (discardRequests l)

/-! ### Release of COMM -/

/-- A COMM reset returns the communication objects to their stored values (R91, R404). -/
def restoreComm (l : Live) : Live :=
  let kept := l.conf.objs.filter (fun e => !isComm (e.1 / 256))
  let l' := { l with conf := { l.conf with objs := kept } }
  let rs := if l.conf.activeCopy = 0xFF then [] else (imageRecords (baseCopy l l.conf.activeCopy.toNat)).getD []
  forAll (fun r l => if r.kind = 0 && isComm r.idx then l.setBase (key r.idx r.sub) r.toVal else l) rs l'

/-- The bus objects in force (R400). -/
def busChoice (l : Live) : BusChoice :=
  { nmtCan1 := l.flag 0x2000 0x26, selfStart := l.flag 0x2000 0x27, tpdoBus := l.cfg 0x2000 0x28, rpdoBus := l.cfg 0x2000 0x29,
    syncBus := l.cfg 0x2000 0x2A, timeBus := l.cfg 0x2000 0x2B }

/-- A bus starts: its pins are driven, its node-ID, its rates and BUS_STATE (R400, R403, R409, R420; log entries 42, 58). -/
def startBus (b : Nat) (l : Live) : Live :=
  let x := l.bus b
  let node := x.lss.nodeId.getD x.nodeId
  let code := nth 0xFF (storedSettings l).code b
  let arb := if code ≤ 4 then lssRate code else l.cfg 0x2000 (0x20 + 2 * b)
  let st := if node = 0xFF then 3 else 0
  l.setBus b { x with txHiZ := false, stbyHiZ := false, nodeId := node, arbRate := arb, dataRate := l.cfg 0x2000 (0x21 + 2 * b), lss := {},
                      status := clrMask x.status 3 ||| BitVec.ofNat 16 st }

/-- COMM is released; the reset ends. -/
def commRelease (l : Live) : Live :=
  let l := if l.rst.lastReach = 3 then restoreComm l else l
  let l := forAll startBus [0, 1] { l with net := { l.net with choice := busChoice l } }
  let l := recordSources l
  { l with rst := { l.rst with sources := 0 } }

/-! ### DOMAIN_RELEASE (R445) -/

/-- Domains that a domain depends on. -/
def dependsOn : Domain → List Domain
  | .clk => []
  | .aon => [.clk]
  | .prot | .mem => [.clk, .aon]
  | .core => [.clk, .aon, .prot, .mem]
  | .comm => [.core]

/-- What else a domain waits for: PLL lock, the journal queue (R446), the flush of staging, the start-up commit (R447). -/
def releaseReady (d : Domain) (l : Live) : Bool := match d with
  | .clk => l.time.pllLocked
  | .aon => l.time.pllLocked && l.journal.queue.isEmpty
  | .prot | .mem => true
  | .core => !l.log.flushing
  | .comm => l.rst.committed

/-- A held domain may be released now. -/
def mayRelease (d : Domain) (l : Live) : Bool :=
  !domainUp d l && !sourceHolds l d && (dependsOn d).all (fun e => domainUp e l) && releaseReady d l

/-- MEM is released after a reset of COLD or TOTAL reach: LPDDR4X is zeroed, and "log start" is the first record admitted, with the
generation after the reset, once region 3 is tested (R368, R458). -/
def memRelease (l : Live) : Live :=
  let g := { l.rst with gen := if l.rst.genDone then l.rst.gen else l.rst.gen + 1 }
  let due := (logStart l.rst.lastReach.toNat { l with rst := g }).log.startDue
  { l with log := { l.log with zeroing := true, startDue := due, testHold := selfTestDue l } }

/-- What the release of a domain does. -/
def onRelease (d : Domain) (l : Live) : Live := match d with
  | .mem => memRelease l
  | .core => coreRelease l
  | .comm => commRelease l
  | _ => l

/-- DOMAIN_RELEASE. -/
def domainRelease (d : Domain) (l : Live) : Live :=
  if mayRelease d l then onRelease d { l with rst := { l.rst with held := l.rst.held.filter (fun e => e ≠ d) } } else l

/-! ### Self-test (R454) -/

/-- SELF_TEST: the result, SELFTEST_FAIL, the record; the log writer may admit (R368, R454). -/
def selfTestRun (failed : Nat) (l : Live) : Live :=
  if !(coreUp l && l.rst.selfTestDue) then l
  else
    let res := 0x80 + failed
    let pay := 3 * 2 ^ 24 + res
    let st := if failed % 8 = 0 then l.rst.status else setBit l.rst.status 4
    let l := { l with rst := { l.rst with selfTest := BitVec.ofNat 8 res, status := st, selfTestDue := false },
                      log := { l.log with testHold := false } }
    let l := writeRecord 0x0001 0x76 pay l
    if failed = 0 then l else dueEmcy 0xFF13 0x0001 pay l

/-! ### The start-up commit (R91, R427, R429) -/

/-- The start-up overlay, as part of the commit, or its refusal (R427). -/
def startOverlay (l : Live) : Live :=
  let s := l.cfg 0x2E00 2
  if s = 0 then l
  else
    let r := overlayReason s l
    if r.1 = 0 then
      overlayRecord s 0 4 0
        (noteBit 0x3E00 1 1
          { l with conf := { l.conf with ovl := r.2, active := s, lastDtime := l.time.dtime, status := setBit l.conf.status 1 } })
    else overlayRefused s 4 r.1 l

/-- Which copy is in force, and the configuration generation (R427, R429, R441). -/
def startConf (p : StartPlan) (l : Live) : Live :=
  let cold := decide (l.rst.lastReach.toNat ≤ 1)
  let c := l.conf
  let c := match p.copy with
    | some n =>
      let b := baseCopy l n
      { c with activeCopy := BitVec.ofNat 8 n, storeCount := BitVec.ofNat 32 (imageCount b),
               gen := if cold then BitVec.ofNat 16 (imageGen b) else c.gen }
    | none => { c with status := setBit c.status 2, gen := if cold then 0 else c.gen }
  let a := advanceGen { l with conf := if p.refused then { c with imageStatus := 3 } else c }
  if a.2 then noteBit 0x3E00 1 6 { a.1 with conf := { a.1.conf with status := setBit a.1.conf.status 6 } } else a.1

/-- The units take the configuration: clusters run, what the commit touches acts, shadows and programs load, autostarted DMA channels and
the stored event entries start, a calibration after a cold start (R153, R171, R204, R312, R342, R358). -/
def startUnits (old : Live) (l : Live) : Live :=
  let ks := (l.conf.objs.map (fun e => e.1) ++ l.conf.ovl.map (fun e => e.1)).filter
    (fun k => !(timeKey k && l.rst.lastReach = 2) && k / 256 / 256 ≠ 0x29)
  let run := fun (k : Nat) (l : Live) =>
    l.updCluster k (fun x => if x.state = 0 && l.flag (0x2100 + k) 1 then { x with state := 1 } else x)
  let l := commitHooks old ks (forAll run (List.range 8) l)
  let l := insertImage (dmaAutostart (forAll peRelease (List.range 16) (loadShadows l)))
  if l.rst.lastReach.toNat ≤ 1 && l.flag 0x2750 3 then calibrate l else l

/-- START_UP_COMMIT. -/
def startUpCommit (l : Live) : Live :=
  if !coreUp l || l.rst.committed || l.rst.selfTestDue then l
  else
    let p := startPlan l
    let u := startUnits l (startOverlay (startConf p p.live))
    { u with rst := { u.rst with committed := true, wipePending := false, wipeStarted := false } }

/-! ### PRE-OPERATIONAL (R398, R447, R460) -/

/-- The boot-up message of a bus with a valid node-ID. -/
def bootUp (b : Nat) (l : Live) : Live :=
  if busConfigured l b then (transmit b (heartbeatFrame l b 0) l).updBus b (fun x => { x with lastHb := l.now }) else l

/-- A life-cycle change is recorded, journaled and counted (R460). -/
def lifeReport (l : Live) : Live := match l.rst.lifeRecord with
  | none => l
  | some (new, old) =>
    let n := if l.rst.transitions = 0xFFFF then l.rst.transitions else l.rst.transitions + 1
    reportJournal 0xF040 0x74 (new.toNat + old.toNat * 256) { l with rst := { l.rst with lifeRecord := none, transitions := n } }

/-- The EMCYs that were due. -/
def sendDue (l : Live) : Live :=
  forAll (fun e l => emcy e.1 e.2.1 e.2.2 l) l.rst.dueEmcy { l with rst := { l.rst with dueEmcy := [] } }

/-- ENTER_PRE_OPERATIONAL. -/
def enterPreOp (l : Live) : Live :=
  if !(l.rst.held.isEmpty && l.rst.committed && l.net.nmt = 0) then l
  else
    let l := nmtGo nmtPre 0 0 { l with rst := { l.rst with starting := false } }
    let l := lifeReport (sendDue (forAll bootUp [0, 1] l))
    if l.net.choice.selfStart && mayOperate l then nmtGo nmtOp 0 0 l else l

/-! ### Commands -/

def execPowerOn (s : State) : Out := ran powerOn s
def execBrownOut (rail : Fin 3) (s : State) : Out := ran (brownOut rail.val) s
def execResetN (low : Bool) (s : State) : Out := ran (resetN low) s
def execWarmN (low : Bool) (s : State) : Out := ran (warmN low) s
def execDomainRelease (d : Domain) (s : State) : Out := ran (domainRelease d) s
def execSelfTest (failed : BitVec 4) (s : State) : Out := ran (selfTestRun failed.toNat) s

/-- The first snapshot follows the commit, and shows it (R71, R447; log entry 59). -/
def execStartUpCommit (s : State) : Out :=
  if coreUp s.live && !s.live.rst.committed && !s.live.rst.selfTestDue then ran wantSnapshot (beginTclk (s.apply startUpCommit))
  else ran startUpCommit s

def execEnterPreOperational (s : State) : Out := ran enterPreOp s

end Sys2Proof.Machine
end

