-- ==== Sys2Proof/Machine/Supervisor.lean ====
section
/-! DEFINITION. Watchdog, software warm reset, BLOCK reset commands and release, supply monitor, life-cycle and fault journal (R121, R176,
R252, R263, R296, R342, R358, R452, R453, R456, R457, R459–R465). -/

namespace Sys2Proof.Machine

open Sys2Proof

/-! ### Supervisor watchdog (R452) -/

/-- The time without service, and the time within which a third stage 1 becomes stage 2, in TCLK. -/
def watchdogTime : Nat := 8000000
def watchdogHour : Nat := 1440000000000

/-- The supervisor services the watchdog at least this often. -/
def watchdogService : Nat := 2000000

/-- The watchdog may have expired: the supervisor has stopped, and the timer has run out since the last service that it can have made,
or since the release of CORE. A service is not a command of the block (log entry 61). -/
def watchdogOut (l : Live) : Bool := coreUp l && awake l && (match l.rst.supEnd with
  | some t => decide (t + (watchdogTime - watchdogService) ≤ l.now ∧ l.rst.wdLast + watchdogTime ≤ l.now)
  | none => false)

/-- The timer may have run out before its first service after the release of a stage-1 reset. -/
def neverServed (l : Live) : Bool := l.rst.wdFirst && (match l.rst.supEnd with
  | some t => decide (t < l.rst.wdLast + watchdogService)
  | none => false)

/-- Instants of stage 1 within the last hour. -/
def stageOnes (l : Live) : List Nat := l.rst.wdStage1.filter (fun t => decide (l.now < t + watchdogHour))

/-- A stage 1 would be the third within the hour. -/
def thirdStage (l : Live) : Bool := decide (2 ≤ (stageOnes l).length)

/-- The device disarms, sets WDOG, and reports the stage. -/
def watchdogActs (stage : Nat) (l : Live) : Live :=
  let l := disarm 8 l
  reportJournal 0x0002 0x76 (stage * 2 ^ 24)
    (noteBit 0x5E40 0x14 0 { l with rst := { l.rst with status := setBit l.rst.status 0 } })

/-- WATCHDOG_STAGE_1. -/
def watchdogStage1 (l : Live) : Live :=
  if !watchdogOut l || thirdStage l then l
  else
    let l := watchdogActs 1 l
    pulseSource 9 { l with rst := { l.rst with wdStage1 := l.now :: stageOnes l } }

/-- WATCHDOG_STAGE_2. -/
def watchdogStage2 (l : Live) : Live :=
  if watchdogOut l && (neverServed l || thirdStage l) then pulseSource 5 (watchdogActs 2 l) else l

/-! ### Commands answered before they act (R460, R465) -/

/-- A store, an image write or a microcode activation is in progress. -/
def storeBusy (l : Live) : Bool := l.conf.storing.isSome || l.micro.todo ≠ []

/-- A value of 0x5E40:01: the source asserts once the command is answered. -/
def softwareWarm (v : Nat) (l : Live) : Live × Nat :=
  if v ≠ 0x6D726177 then (l, abRange)
  else if l.conf.storing.isSome then (l, abState)
  else ({ l with rst := { l.rst with sourceDue := some 11 } }, 0)

/-- A transition that R460 lists. -/
def transitionOk (old new : Nat) : Bool := (old = 1 && new = 2) || (old = 2 && new = 3) || (old = 3 && (new = 2 || new = 4))

/-- A value of 0x5E10:02. The cells are written, and the source asserts once the command is answered. -/
def lifeTransition (v : Nat) (l : Live) : Live × Nat :=
  let new := field v 7 0
  if field v 31 16 ≠ 0x6C63 ∨ field v 15 8 ≠ 0 ∨ transitionOk l.rst.life.toNat new = false then (l, abRange)
  else if armed l || l.net.nmt = nmtOp || storeBusy l then (l, abState)
  else
    let r := { l.rst with lifeRecord := some (BitVec.ofNat 8 new, l.rst.life), life := BitVec.ofNat 8 new }
    ({ l with rst := { r with wipePending := r.wipePending || new = 4, sourceDue := some 6 } }, 0)

/-- An answered command acts. -/
def carryOut (l : Live) : Live := match l.rst.sourceDue with
  | some src => pulseSource src { l with rst := { l.rst with sourceDue := none } }
  | none => l

/-! ### BLOCK reset (R456, R457) -/

/-- The prior committed configuration of a channel is reapplied; an enabled function starts (R121). -/
def restartChannel (c : Nat) (l : Live) : Live :=
  let l := l.updChan c (fun x => { x with func := BitVec.ofNat 4 (l.cfg (0x2200 + c) 1) })
  drivePins c (enableCommit c (modeCommit c (inputCommit c l)))

/-- The prior committed configuration of a cluster is reapplied. One that is unrecovered or has a ROM fault stays in machine check, its
T-pins at failsafe (R170, R171). -/
def restartCluster (k : Nat) (l : Live) : Live :=
  let on := l.flag (0x2100 + k) 1
  let l := l.updCluster k (fun x =>
    { x with state := if anyMask x.status 0x60 then 2 else if on then 1 else 0 })
  let l := forAll restartChannel ((List.range 64).map (fun i => 64 * k + i)) l
  if (l.cluster k).state = 2 then forAll (goFailsafe 3) (failsafeChans l k) l else l

/-- What a block does when its reset is released. -/
def blockStart (code : Nat) (l : Live) : Live :=
  if code < 8 then restartCluster code l
  else if code = 0x10 then loadShadows l
  else if code = 0x18 then l
  else if code < 0x28 then portStart (code - 0x20) l
  else if code < 0x2C then wheelStructural (code - 0x28) l
  else if code < 0x40 then peRelease (code - 0x30) l
  else if code = 0x40 then dmaAutostart l
  else l

/-- A block reset is released; a release of a block not held has no effect. -/
def releaseBlock (code : Nat) (l : Live) : Live :=
  if !blockHeld l code then l
  else
    let r := { l.rst with blocks := l.rst.blocks.filter (fun b => b ≠ code), pulses := l.rst.pulses.filter (fun p => p.1 ≠ code) }
    blockStart code { l with rst := r }

/-- A block reset of 400 TCLK (R456). -/
def pulseBlock (code : Nat) (l : Live) : Live :=
  if blockHeld l code then l
  else
    let l := assertBlock code l
    { l with rst := { l.rst with pulses := l.rst.pulses ++ [(code, l.now + 400)] } }

/-- A value of 0x5E40:02: the action in [15:14], the block code in [7:0]. The host port takes only a pulse, 400,000 TCLK later. -/
def blockObject (v : Nat) (l : Live) : Live × Nat :=
  let act := field v 15 14
  let code := field v 7 0
  if field v 13 8 ≠ 0 ∨ act = 0 ∨ blockSource code = none then (l, abRange)
  else if code = 0x48 then
    (if act = 3 then ({ l with rst := { l.rst with hostPulseAt := some (l.now + 400000) } }, 0) else (l, abState))
  else if act = 1 then (assertBlock code l, 0)
  else if act = 2 then (releaseBlock code l, 0)
  else (pulseBlock code l, 0)

/-- The host port's pulse that is due (R456). -/
def hostPulse (l : Live) : Live := match l.rst.hostPulseAt with
  | some t => if t ≤ l.now then pulseBlock 0x48 { l with rst := { l.rst with hostPulseAt := none } } else l
  | none => l

/-- BLOCK_RESET_PULSE_END. -/
def pulseEnd (code : Nat) (l : Live) : Live :=
  if l.rst.pulses.any (fun p => p.1 = code && decide (p.2 ≤ l.now)) then releaseBlock code l else l

/-! ### Supply and temperature monitor (R453) -/

/-- Range and hysteresis of a quantity: the rails in mV, the die temperature in 0.01 °C. -/
def monitorRange (q : Nat) : Int × Int × Int := match q with
  | 0 => (760, 840, 8)
  | 1 => (1710, 1890, 18)
  | 2 => (3135, 3465, 33)
  | _ => (-4000, if Config.extendedGrade then 12500 else 10500, 300)

/-- A quantity counts as outside: beyond its range, or not yet back inside by the hysteresis. -/
def monitorOutside (was : Bool) (q : Nat) (v : Int) : Bool :=
  let r := monitorRange q
  decide (v < r.1 ∨ r.2.1 < v) || (was && decide (v < r.1 + r.2.2 ∨ r.2.1 - r.2.2 < v))

/-- The EMCY of a quantity that has left its range, with its journal entry (log entry 60). -/
def monitorReport (code : Nat) (l : Live) : Live :=
  let l := emcy code 0x0003 0 l
  journalEntry 0x0003 0x72 (code + l.net.errReg.toNat * 65536) code l

/-- One sample of one quantity. -/
def monitorOne (q : Nat) (v : Int) (l : Live) : Live :=
  let was := l.rst.outRange.getLsbD q
  let beyond := decide (v < (monitorRange q).1 ∨ (monitorRange q).2.1 < v)
  let out := putBit l.rst.outRange q (monitorOutside was q v)
  let st := if beyond then setBit l.rst.status (if q < 3 then 6 else 7) else l.rst.status
  let st := putBit (putBit st 8 (anyMask out 7)) 9 (anyMask out 8)
  let l := if beyond then noteBit 0x5E40 0x14 (if q < 3 then 6 else 7) l else l
  let l := { l with rst := { l.rst with outRange := out, status := st } }
  if beyond && !was then monitorReport (if q < 3 then 0x3000 else 0x4000) l else l

/-- SUPPLY_SAMPLE. -/
def supplySample (core v18 vio temp : BitVec 16) (l : Live) : Live :=
  if !domainUp .aon l then l
  else
    let l := monitorOne 2 vio.toNat (monitorOne 1 v18.toNat (monitorOne 0 core.toNat l))
    let l := monitorOne 3 temp.toInt l
    { l with rst := { l.rst with dieTemp := temp } }

/-! ### Fault journal (R462–R464) -/

/-- An entry as it stands in MRAM. -/
def entryBytes (seq : Nat) (e : JournalEntry) : List Byte :=
  let b := bytesLE 4 seq ++ bytesLE 2 e.rgen.toNat ++ bytesLE 2 e.cgen.toNat ++ bytesLE 8 e.dtime.toNat ++ bytesLE 2 e.src.toNat
    ++ [e.kind, e.life] ++ bytesLE 4 e.payload.toNat ++ bytesLE 2 e.emcy.toNat ++ bytesLE 2 0
  b ++ bytesLE 4 (crc32c b).toNat

/-- The journal engine may write: 20,000 TCLK have passed since its last entry (R463). -/
def journalReady (l : Live) : Bool := match l.journal.wroteAt with
  | some t => !l.time.pllLocked || decide (t + 20000 ≤ l.now)
  | none => true

/-- JOURNAL_WRITE: the oldest entry of the queue is written at the slot of its sequence. -/
def journalWrite (l : Live) : Live := match l.journal.queue with
  | [] => l
  | e :: rest =>
    if !journalReady l then l
    else
      let j := l.journal
      let n := (j.newest.toNat + 1) % 2 ^ 32
      let slot := n % 4096
      let fresh := !entryValid (l.mram.journal.get [] slot)
      let j := { j with queue := rest, newest := BitVec.ofNat 32 n, valid := if fresh then j.valid + 1 else j.valid,
                        wroteAt := some l.now }
      { l with journal := j, mram := { l.mram with journal := l.mram.journal.put [] slot (entryBytes n e) } }

/-- The entries still held of a range of sequences (R464). -/
def journalRange (l : Live) (start count : Nat) : List (List Byte) :=
  (List.range count).filterMap (fun i =>
    let n := (start + i) % 2 ^ 32
    let b := l.mram.journal.get [] (n % 4096)
    if entryValid b && fieldLE b 0 4 = n then some b else none)

/-- A value of 0x5E20:01. -/
def journalRead (v : Nat) (l : Live) : Live × Nat :=
  let count := field v 47 32
  if field v 63 48 ≠ 0 ∨ count = 0 ∨ 256 < count then (l, abRange)
  else
    let es := journalRange l (field v 31 0) count
    let b := bytesLE 2 es.length ++ [0, 0] ++ bytesLE 4 l.journal.newest.toNat ++ es.flatten
    ({ l with journal := { l.journal with result := b } }, 0)

/-- A value of 0x5E20:07: accepted only in DEVELOP; the sequence continues (R463, R465). -/
def journalClear (v : Nat) (l : Live) : Live × Nat :=
  if v ≠ 0x6A726C63 then (l, abRange)
  else if l.rst.life ≠ 2 then (l, abState)
  else ({ l with journal := { l.journal with valid := 0 }, mram := { l.mram with journal := [] } }, 0)

/-! ### Commands -/

def execWatchdogStage1 (s : State) : Out := ran watchdogStage1 s
def execWatchdogStage2 (s : State) : Out := ran watchdogStage2 s

def execSoftwareWarmReset (conn : Conn) (signature : BitVec 32) (s : State) : Out :=
  ran (fun l => carryOut (onObject conn 0x5E40 1 (softwareWarm signature.toNat) l)) s

def execLifecycleTransition (conn : Conn) (value : BitVec 32) (s : State) : Out :=
  ran (fun l => carryOut (onObject conn 0x5E10 2 (lifeTransition value.toNat) l)) s

def execBlockResetAssert (conn : Conn) (code : Byte) (s : State) : Out :=
  ran (onObject conn 0x5E40 2 (blockObject (2 ^ 14 + code.toNat))) s

def execBlockResetRelease (conn : Conn) (code : Byte) (s : State) : Out :=
  ran (onObject conn 0x5E40 2 (blockObject (2 ^ 15 + code.toNat))) s

def execBlockResetPulse (conn : Conn) (code : Byte) (s : State) : Out :=
  ran (onObject conn 0x5E40 2 (blockObject (2 ^ 15 + 2 ^ 14 + code.toNat))) s

def execBlockResetPulseEnd (code : Byte) (s : State) : Out := ran (pulseEnd code.toNat) s

def execSupplySample (core v18 vio temp : BitVec 16) (s : State) : Out := ran (supplySample core v18 vio temp) s

def execJournalWrite (s : State) : Out := ran journalWrite s

def execJournalReadRequest (conn : Conn) (value : Word) (s : State) : Out :=
  ran (onObject conn 0x5E20 1 (journalRead value.toNat)) s

def execJournalClear (conn : Conn) (signature : BitVec 32) (s : State) : Out :=
  ran (onObject conn 0x5E20 7 (journalClear signature.toNat)) s

end Sys2Proof.Machine
end

