-- ==== Sys2Proof/Machine/Dictionary.lean ====
section
/-! DEFINITION. The object dictionary as one hub: what a write of an object does, what a read gives, SDO and USDO requests, the expert key
(R69, R73, R81, R84, R390–R396, R401, R404), and their commands. -/

namespace Sys2Proof.Machine

open Sys2Proof

/-! ### The expert key (R394, R395) -/

/-- 60 s and 10 minutes in TCLK. -/
def lockoutTime : Nat := 24000000000
def unlockTime : Nat := 240000000000

/-- A lockout of key writes runs on a connection. -/
def lockedOut (l : Live) (i : Nat) : Bool := match (l.connSt i).lockEnd with
  | some t => decide (l.now < t)
  | none => false

/-- The end of a lockout returns the count of wrong keys to 0. -/
def endLockout (i : Nat) (l : Live) : Live := match (l.connSt i).lockEnd with
  | some t => if t ≤ l.now then l.updConnSt i (fun c => { c with lockEnd := none, wrongKeys := 0 }) else l
  | none => l

/-- A write of 0x5FF0:01. -/
def expertKey (c : Conn) (v : Nat) (l : Live) : Live × Nat :=
  let i := connId c
  if lockedOut l i then (l, abKey)
  else
    let l := endLockout i l
    if v = l.net.key.toNat then (l.updConnSt i (fun x => { x with unlocked := true, wrongKeys := 0 }), 0)
    else
      let n := (l.connSt i).wrongKeys + 1
      (l.updConnSt i (fun x => { x with wrongKeys := n, lockEnd := if 3 ≤ n then some (l.now + lockoutTime) else x.lockEnd }), abKey)

/-- A write of 0x5FF0:02: the new key goes into the device record. -/
def newKey (c : Conn) (v : Nat) (l : Live) : Live × Nat :=
  if lockedOut l (connId c) then (l, abKey)
  else
    let l := { l with net := { l.net with key := BitVec.ofNat 32 v } }
    (storeSettings { storedSettings l with key := v } l, 0)

/-- Ten minutes without a request lock a connection. -/
def unlockTimeout (c : Conn) (l : Live) : Live :=
  let x := l.connSt (connId c)
  if x.unlocked && decide (x.lastReq + unlockTime ≤ l.now) then l.updConnSt (connId c) (fun x => { x with unlocked := false }) else l

/-! ### Writes of numbers that are commands -/

/-- 0x2400–0x25FF. -/
def pwmWrite (idx s v : Nat) : Option (Live → Live × Nat) :=
  let i := idx % 256
  if idx = 0x2418 then (if s = 2 then some (armObject v) else if s = 4 then some (done clearAll) else none)
  else if 0x2420 ≤ idx ∧ idx < 0x2430 ∧ s = 8 then some (done (clearTrip (i - 0x20)))
  else if 0x2500 ≤ idx ∧ s = 9 then some (indexCommand i (v = 1))
  else if 0x2500 ≤ idx ∧ s = 0x0A then some (done (presetPosition i (BitVec.ofNat 48 v)))
  else none

/-- 0x2700–0x27FF. -/
def analogWrite (idx s v : Nat) : Option (Live → Live × Nat) :=
  let i := idx % 256
  if i < 48 ∧ s = 8 then some (done (clearLimit i))
  else if 0x40 ≤ i ∧ i < 0x44 ∧ s = 3 then
    some (done (if v = 1 then fun l => seqStart (i - 0x40) (pclkAt (l.now + 1)) l else seqStop (i - 0x40)))
  else if i = 0x50 ∧ s = 2 then some (done calibrate)
  else none

/-- 0x2800–0x29FF. -/
def eventWrite (idx s v : Nat) : Option (Live → Live × Nat) :=
  let i := idx % 256
  if idx < 0x2810 ∧ s = 7 then some (done (flushQueue i))
  else if idx = 0x2810 ∧ s = 2 then some (eventCancel v)
  else if idx = 0x2811 ∧ s = 3 then some (eventReadRequest v)
  else if 0x2900 ≤ idx ∧ s = 0x0F then
    some (done (fun l => peSetFlags i (BitVec.ofNat 8 v) (peClearFlags i (BitVec.ofNat 8 (v / 256)) l)))
  else none

/-- 0x2A00–0x2AFF. -/
def dmaWrite (idx s v : Nat) : Option (Live → Live × Nat) :=
  let i := idx % 256
  if i < 0x20 ∧ s = 5 then
    some (if v = 1 then dmaStart i else done (if v = 2 then dmaDisable i else if v = 3 then dmaContinue i else dmaSoft i))
  else if i = 0x40 ∧ s = 5 then some (done (fun l => releaseTail (min v l.log.count) l))
  else none

/-- 0x2C00–0x2EFF. -/
def groupWrite (idx s v : Nat) : Option (Live → Live × Nat) :=
  let i := idx % 256
  if idx = 0x2C80 then (if s = 3 then some (snapRequest v) else none)
  else if idx < 0x2D00 then
    (if s = 3 then some (if v = 1 then groupArm i else done (if v = 2 then groupDisarm i else groupDiscard i))
     else if s = 4 then some (addMember i v) else if s = 5 then some (removeMember i v) else none)
  else if idx = 0x2E00 then
    (if s = 3 then some (overlayObject v) else if s = 5 then some (overlayCancel v) else if s = 0x20 then some (customerOffset v)
     else none)
  else none

/-- 0x5E00–0x5FFF. -/
def deviceWrite (c : Conn) (idx s v : Nat) : Option (Live → Live × Nat) := match idx, s with
  | 0x5E00, 1 => some (resync (connId c))
  | 0x5E10, 2 => some (lifeTransition v)
  | 0x5E20, 1 => some (journalRead v)
  | 0x5E20, 7 => some (journalClear v)
  | 0x5E30, 1 => some (done (fun l => { l with micro := { l.micro with winSel := BitVec.ofNat 32 v } }))
  | 0x5E31, 2 => some microActivate
  | 0x5E40, 1 => some (softwareWarm v)
  | 0x5E40, 2 => some (blockObject v)
  | 0x5FF0, 1 => some (expertKey c v)
  | 0x5FF0, 2 => some (newKey c v)
  | _, _ => none

/-- The rule of an object that is a command with a number, if it is one. -/
def numberCommand (c : Conn) (idx s v : Nat) : Option (Live → Live × Nat) := match idx / 256 with
  | 0x10 => if idx = 0x1010 then some (storeAll (connId c) v) else if idx = 0x1011 then some (restoreDefaults (connId c) v) else none
  | 0x20 => if s = 0x0B then some (secondsSet v) else if s = 0x10 then some (dozeCommand v) else none
  | 0x22 | 0x23 => if s = 0x0A then some (done (raiseReq (idx - 0x2200) 0x20)) else none
  | 0x24 | 0x25 => pwmWrite idx s v
  | 0x27 => analogWrite idx s v
  | 0x28 | 0x29 => eventWrite idx s v
  | 0x2A => dmaWrite idx s v
  | 0x2C | 0x2E => groupWrite idx s v
  | 0x5E | 0x5F => deviceWrite c idx s v
  | _ => none

/-- The rule of an object that is a command with bytes, if it is one. -/
def bytesCommand (c : Conn) (idx s : Nat) (data : List Byte) : Option (Live → Live × Nat) :=
  if idx = 0x2810 ∧ s = 1 then some (eventInsert (connId c) data)
  else if idx = 0x2811 ∧ s = 1 then some (eventImageWrite data)
  else if idx = 0x2A21 ∧ s = 1 then some (memoryLoad data)
  else if idx = 0x5E31 ∧ s = 1 then some (microImageWrite data)
  else if idx = 0x2E00 then
    (if s = 1 then some (baseImageWrite (connId c) data)
     else if 0x11 ≤ s ∧ s ≤ 0x1C then some (slotWrite (s - 0x10) data)
     else if s = 0x21 then some (customerWrite data) else none)
  else none

/-! ### One write (R73, R84, R393, R404) -/

/-- A status word with w1c bits. -/
def isStatus (idx : Nat) : Bool := decide (0x3000 ≤ idx ∧ idx < 0x4000) || idx = 0x5E20 || idx = 0x5E40

/-- What a write to an accessible object does, and its abort code, 0 for done. -/
def writeObject (c : Conn) (idx s : Nat) (data : List Byte) (l : Live) : Live × Nat := match bytesCommand c idx s data with
  | some f => f l
  | none => match numberCommand c idx s (ofBytesLE data) with
    | some f => (match parseValue idx s data with
      | .error a => (l, a)
      | .ok _ => f l)
    | none =>
      if isStatus idx then statusWrite idx s data l
      else if isComm idx then commWrite (connBus c) idx s data l
      else stageWrite idx s data l

/-- Objects whose accepted write is answered when what it starts has ended (R426, R428, R437). -/
def answeredLater (idx s : Nat) : Bool :=
  idx = 0x1010 || idx = 0x1011 || (idx = 0x2E00 && s = 1) || (idx = 0x5E00 && s = 1)

/-- A write request. -/
def objectWrite (c : Conn) (idx s : Nat) (data : List Byte) (l : Live) : Live :=
  if answeredLater idx s then onObjectLater c idx s (writeObject c idx s data) l
  else onObject c idx s (writeObject c idx s data) l

/-! ### DMA writes into the DMA unit's control space (R351) -/

/-- Objects of the DMA unit. -/
def isDmaObject (idx : Nat) : Bool := decide (0x2A00 ≤ idx ∧ idx ≤ 0x2A20) || decide (0x3A00 ≤ idx ∧ idx < 0x3A20)

/-- A posted write acts as the host's write for which it stands would, but that nobody is answered (log entry 34). -/
def dmaSpaceWrite (e : Nat × Word) (l : Live) : Live := match Config.dmaSpace e.1 e.2 with
  | some (idx, s, data) =>
    if dmaUp l && isDmaObject idx && (writeAbort .host idx s l).isNone then (writeObject .host idx s data l).1 else l
  | none => l

/-- The posted writes of the TCLK act, in their order. -/
def dmaSpaceWrites (l : Live) : Live := forAll dmaSpaceWrite l.dmaPosted { l with dmaPosted := [] }

/-! ### One read (R69, R81, R394) -/

/-- A pop object (R81). -/
def popObject (idx : Nat) (l : Live) : List Byte × Live :=
  if idx = 0x3A40 then drainObject [] l
  else
    let r := popFifo (idx - 0x3200) l
    (bytesLE 8 r.1.toNat, r.2)

/-- A value that is read from no bank: communication, configuration and device objects. -/
def readLive (c : Conn) (l : Live) (idx s : Nat) : Val :=
  if isComm idx then readComm c l idx s else if 0x5E00 ≤ idx then readDevice c l idx s else readConfig c l idx s

/-- The answer of a read, with what it pops; process objects come from the published bank, and without one there is no answer. -/
def readObject (c : Conn) (bank : Option Bank) (idx s : Nat) (l : Live) : Answer × Live :=
  match accessAbort c false idx s l with
  | some a => (.abort (BitVec.ofNat 32 a), l)
  | none =>
    if isPop idx s then
      let r := popObject idx l
      (.value r.1, r.2)
    else if isProcess idx s then
      (match bank with
        | some b => (.value (valBytes (key idx s) (readProcess b.frozen idx s)), l)
        | none => (.none, l))
    else (.value (valBytes (key idx s) (readLive c l idx s)), l)

/-- A read request. -/
def objectRead (c : Conn) (bank : Option Bank) (idx s : Nat) (l : Live) : Live :=
  if !served c l then l
  else
    let r := readObject c bank idx s (touch c l)
    answer (connId c) r.1 r.2

/-! ### SDO and USDO (R393, R401) -/

/-- Bytes that one frame of an answer carries: expedited transfer (log entry 65). -/
def expedited (c : Conn) (l : Live) : Nat := match c with
  | .can b _ => if isFd l b.val then 56 else 4
  | .host => 2032

/-- An answer longer than one frame leaves a segmented transfer in progress. -/
def openTransfer (c : Conn) (l : Live) : Live :=
  l.updConnSt (connId c) (fun x => { x with transfer := match x.answer with
    | .value d => decide (expedited c l < d.length)
    | _ => false })

/-- A request is aborted, and with it a transfer in progress. -/
def sdoAbort (c : Conn) (code : Nat) (l : Live) : Live :=
  if !served c l then l
  else answer (connId c) (.abort (BitVec.ofNat 32 code)) ((touch c l).updConnSt (connId c) (fun x => { x with transfer := false }))

/-- SDO_REQUEST. -/
def sdoRequest (bank : Option Bank) (c : Conn) (q : SdoReq) (l : Live) : Live := match q with
  | .read idx sub => openTransfer c (objectRead c bank idx.toNat sub.toNat l)
  | .write idx sub data => openTransfer c (objectWrite c idx.toNat sub.toNat data l)
  | .badToggle => sdoAbort c abToggle l
  | .unsupported => sdoAbort c abCommand l

/-- SDO_PROTOCOL_TIMEOUT: 1 s without the next segment. The host port has no such protocol. -/
def sdoTimeout (c : Conn) (l : Live) : Live := match c with
  | .host => l
  | .can _ _ =>
    if served c l && decide ((l.connSt (connId c)).lastReq + 400000000 ≤ l.now) then
      answer (connId c) (.abort (BitVec.ofNat 32 abTimeout)) (l.updConnSt (connId c) (fun x => { x with transfer := false }))
    else l

/-! ### Commands -/

/-- A write request as a command. -/
def writeCommand (c : Conn) (idx s : Nat) (data : List Byte) (st : State) : Out :=
  ran (fun l => carryOut (objectWrite c idx s data l)) st

def execConfigObjectWrite (conn : Conn) (idx : BitVec 16) (sub : BitVec 8) (data : List Byte) (s : State) : Out :=
  writeCommand conn idx.toNat sub.toNat data s

def execStatusW1cWrite (conn : Conn) (idx : BitVec 16) (sub : BitVec 8) (data : List Byte) (s : State) : Out :=
  writeCommand conn idx.toNat sub.toNat data s

def execCommObjectWrite (conn : Conn) (idx : BitVec 16) (sub : BitVec 8) (data : List Byte) (s : State) : Out :=
  writeCommand conn idx.toNat sub.toNat data s

def execProgramWrite (conn : Conn) (e : Fin 16) (data : List Byte) (s : State) : Out :=
  writeCommand conn (0x2900 + e.val) 0x0D data s

def execErrorListClear (conn : Conn) (value : Byte) (s : State) : Out := writeCommand conn 0x1003 0 [value] s

def execSdoRequest (conn : Conn) (req : SdoReq) (s : State) : Out :=
  ran (fun l => carryOut (sdoRequest s.published conn req l)) s

def execSdoProtocolTimeout (conn : Conn) (s : State) : Out := ran (sdoTimeout conn) s

def execExpertKey (conn : Conn) (key : BitVec 32) (s : State) : Out :=
  ran (onObject conn 0x5FF0 1 (expertKey conn key.toNat)) s

def execNewKey (conn : Conn) (key : BitVec 32) (s : State) : Out := ran (onObject conn 0x5FF0 2 (newKey conn key.toNat)) s
def execUnlockTimeout (conn : Conn) (s : State) : Out := ran (unlockTimeout conn) s
def execKeyLockoutEnd (conn : Conn) (s : State) : Out := ran (endLockout (connId conn)) s

end Sys2Proof.Machine
end

