-- ==== Sys2Proof/Machine/HostPort.lean ====
section
/-! DEFINITION. The xSPI host port: its windows, reads and writes of them, HPSTAT and HPCFG (R35, R82, R335, R364, R366, R377, R386,
R410–R413, R415), and the commands HOST_READ to HPCFG_WRITE. -/

namespace Sys2Proof.Machine

open Sys2Proof

/-! ### Windows (R412) -/

inductive HostWindow where
  | control | mailbox | pins | drain | bundle | lpddr
deriving DecidableEq, Repr

/-- First address and size of a window. -/
def HostWindow.base : HostWindow → Nat
  | .control => 0
  | .mailbox => 0x10000
  | .pins => 0x20000
  | .drain => 0x30000
  | .bundle => 0x40000
  | .lpddr => 0x10000000
def HostWindow.size : HostWindow → Nat
  | .pins => 0x100
  | .lpddr => 0x100000000
  | _ => 0x10000

/-- The window of an address. -/
def windowOf (a : Nat) : Option HostWindow :=
  [HostWindow.control, .mailbox, .pins, .drain, .bundle, .lpddr].find?
    (fun w => decide (w.base ≤ a ∧ a < w.base + w.size))

/-- Data over the fabric, which can come too late (R411). -/
def HostWindow.fabric : HostWindow → Bool
  | .drain | .bundle | .lpddr => true
  | _ => false

/-! ### Registers that are read (R82, R377, R412, R415) -/

/-- The interrupt registers, by the 4-byte word at an offset. -/
def irqWord (l : Live) (w : Nat) : Nat :=
  let half := fun (x : Word) => if w / 4 % 2 = 0 then x.toNat % 2 ^ 32 else x.toNat / 2 ^ 32
  if w < 0x140 then
    let n := (w - 0x100) / 16
    (if w % 16 = 0 then (vectorWord (settleGroups l) n).toNat else if w % 16 = 12 then (l.irq.lstat.get 0 n).toNat else 0)
  else if w < 0x148 then half (assertedWord l)
  else if w < 0x150 then half (activeWord (settleGroups l))
  else if 0x200 ≤ w ∧ w < 0x480 then
    let g := (w - 0x200) / 16
    (if w % 16 < 8 then half (groupLines l g) else if g < 8 then half (l.irq.latch.get 0 g) else 0)
  else 0

/-- The control view, by the 4-byte word at an offset. -/
def controlWord (l : Live) (w : Nat) : Nat := match w with
  | 0x00 => 0x48580512
  | 0x04 => l.rst.gen.toNat * 2 ^ 16 + l.rst.life.toNat * 2 ^ 8 + l.net.nmt.toNat
  | 0x10 => l.host.stat.toNat
  | 0x20 => l.host.cfg.toNat
  | 0x40 => l.now % 2 ^ 32
  | 0x44 => l.now / 2 ^ 32
  | 0x48 => l.atime.toNat % 2 ^ 32
  | 0x4C => l.atime.toNat / 2 ^ 32
  | _ => if 0x100 ≤ w then irqWord l w else 0

/-- The mailbox registers, by the 4-byte word at an offset. -/
def mailWord (l : Live) (w : Nat) : Nat :=
  let m := l.mail
  match w with
  | 0x00 => l.rst.gen.toNat * 2 ^ 16 + m.session.toNat
  | 0x04 => m.stat.toNat
  | 0x08 => m.reqProd.toNat
  | 0x0C => m.reqCons.toNat
  | 0x10 => m.rspProd.toNat
  | 0x14 => m.rspCons.toNat
  | _ => 0

/-- The byte of a 4-byte word that an offset names. -/
def byteOf (f : Nat → Nat) (a : Nat) : Byte := BitVec.ofNat 8 (f (a / 4 * 4) / 256 ^ (a % 4))

/-- A byte of the mailbox window. -/
def mailByte (l : Live) (a : Nat) : Byte :=
  if a < 0x1000 then byteOf (mailWord l) a
  else if a < 0x5000 then nth 0 (l.mail.reqSlots.get [] ((a - 0x1000) / 0x800)) ((a - 0x1000) % 0x800)
  else if 0x8000 ≤ a ∧ a < 0xC000 then nth 0 (l.mail.rspSlots.get [] ((a - 0x8000) / 0x800)) ((a - 0x8000) % 0x800)
  else 0

/-- Bytes from an offset by a function of the offset. -/
def bytesAt (f : Nat → Byte) (off n : Nat) : List Byte := (List.range n).map (fun i => f (off + i))

/-! ### Whole words of a span (R411) -/

/-- The span covers the 4-byte register at an offset whole. -/
def coversWord (off n r : Nat) : Bool := decide (off ≤ r ∧ r + 4 ≤ off + n)

/-- The registers of the window that a span covers whole, by their offsets, in address order. -/
def wordsIn (off n : Nat) : List Nat := ((List.range (n / 4 + 1)).map (fun i => (off / 4 + i) * 4)).filter (coversWord off n)

/-! ### Snapshot bundle (R413) -/

/-- The value of an entry of the bundle map, zero-extended. -/
def bundleEntry (f : Live) (entry : Nat) : List Byte := match memberKey entry with
  | some k => bytesLE 8 (readProcess f (k / 256) (k % 256)).toNat
  | none => bytesLE 8 0

/-- The bundle of a bank under the map in force. -/
def bundleBytes (l : Live) (held : Bool) (b : Bank) : List Byte :=
  let map := (l.val (key 0x2000 0x2C)).toBytes
  let es := (List.range (map.length / 4)).map (fun i => fieldLE map (4 * i) 4)
  bytesLE 4 b.seq.toNat ++ bytesLE 4 es.length ++ bytesLE 8 b.dtime.toNat ++ bytesLE 2 b.frozen.conf.gen.toNat
    ++ bytesLE 2 b.frozen.rst.gen.toNat ++ bytesLE 4 (b2n held) ++ bytesLE 8 0 ++ es.flatMap (bundleEntry b.frozen)

/-- The bank that the host reads: the held one, or the published one. -/
def State.hostBank (s : State) : Option Bank := match s.held with
  | some h => some h.1
  | none => s.published

/-! ### LPDDR4X window (R22, R23, R412) -/

/-- The fabric address of an offset in the window. -/
def lpddrAt (off : Nat) : Nat := lpddrBase + off

/-- An access of the host to LPDDR4X succeeds: fitted, out of reset and zeroed (R23, R458). -/
def lpddrOk (l : Live) (off n : Nat) : Bool := domainUp .mem l && !l.log.zeroing && inLpddr l (lpddrAt off) n

/-- n free bytes. -/
def freeBytes : Nat → Live → List Byte × Live
  | 0, l => ([], l)
  | n + 1, l =>
    let r := drawFree l
    let t := freeBytes n r.2
    (r.1.setWidth 8 :: t.1, t.2)

/-- A read of the window, with the errors that it finds (R24). The spec states no data for an error response: the bytes are free (log entry
66). -/
def lpddrRead (es : EccWords) (off n : Nat) (l : Live) : List Byte × Live :=
  if lpddrOk l off n then fetchBytes es (lpddrAt off) n l else freeBytes n l

/-- A flag of HPSTAT. -/
def hostFlag (i : Nat) (l : Live) : Live :=
  noteFlags (hostReg 0x10) (2 ^ i) { l with host := { l.host with stat := setBit l.host.stat i } }

/-- A write of the window: only in DEVELOP, and not into the ring of an enabled log (R364, R412). -/
def lpddrWrite (off : Nat) (data : List Byte) (l : Live) : Live :=
  let a := lpddrAt off
  if l.rst.life ≠ 2 || (l.logOn && inRing l a data.length) then hostFlag 2 l
  else if lpddrOk l off data.length then { l with mem := writeBytes l.mem a data } else l

/-! ### Reads (R411, R412) -/

/-- The n bytes that a window gives from an offset, of which `d` are delivered in time, with what the read pops. -/
def windowRead (bank : Option Bank) (held : Bool) (es : EccWords) (w : HostWindow) (off n d : Nat) (l : Live) :
    List Byte × Live := match w with
  | .control => (bytesAt (byteOf (controlWord l)) off n, l)
  | .mailbox => (bytesAt (mailByte l) off n, l)
  | .pins => peReadAt off n l
  | .drain => drainBytes es d l
  | .bundle => ((match bank with
    | some b => slice (bundleBytes l held b) off n
    | none => List.replicate n 0), l)
  | .lpddr => lpddrRead es off n l

/-- A transaction longer than 10 µs (R411). -/
def csLongNote (long : Bool) (l : Live) : Live :=
  if long then noteFlags (hostReg 0x10) 0x10 { l with host := { l.host with stat := bumpAt (setBit l.host.stat 4) 24 } } else l

/-- HOST_READ of len bytes; `late` is the first byte that the fabric does not supply in time, which reads 0xFF as all after it. -/
def hostRead (bank : Option Bank) (held : Bool) (addr len : Nat) (long : Bool) (late : Option Nat) (es : EccWords)
    (l : Live) : Live :=
  if !hostUp l then unserved len l
  else
    let l := csLongNote long (csFall l)
    match windowOf addr with
    | none => addrErr { l with host := { l.host with lastRead := List.replicate len 0 } }
    | some w =>
      let off := addr - w.base
      let n := min len (w.size - off)
      let d := if w.fabric then min n (late.getD n) else n
      let r := windowRead bank held es w off n d l
      let got := padTo len (r.1.take d ++ List.replicate (n - d) 0xFF)
      let l := { r.2 with host := { r.2.host with lastRead := got } }
      let l := if d < n then hostFlag 3 l else l
      if n < len then addrErr l else l

/-! ### Writes (R378, R410–R412, R415) -/

/-- The 8-byte and 4-byte registers of the control view that a write acts on, with what it does. -/
def controlWrite (r v : Nat) (l : Live) : Live :=
  let w := clearable l (hostReg r) v
  if r = 0x10 then { l with host := { l.host with stat := clrMask l.host.stat (BitVec.ofNat 32 (w % 32)) } }
  else if r = 0x20 then { l with host := { l.host with cfgNext := some (BitVec.ofNat 8 (v % 16)) } }
  else if 0x100 ≤ r ∧ r < 0x140 then
    let n := (r - 0x100) / 16
    (if r % 16 = 4 then irqClaim n (v % 64) l
     else if r % 16 = 8 then irqComplete n (v % 64) l
     else if r % 16 = 12 then
      { l with irq := { l.irq with lstat := l.irq.lstat.put 0 n (clrMask (l.irq.lstat.get 0 n) (BitVec.ofNat 32 (w % 4))) } }
     else l)
  else l

/-- The latch registers of 8 bytes that a span covers whole: their groups. -/
def latchesIn (off n : Nat) : List Nat :=
  (List.range 40).filter (fun g => decide (off ≤ 0x208 + 16 * g ∧ 0x208 + 16 * g + 8 ≤ off + n))

/-- The 4-byte word of a write at an offset. -/
def dataWord (off : Nat) (data : List Byte) (r : Nat) : Nat := fieldLE data (r - off) 4

/-- A write to the control view. -/
def controlRegion (off : Nat) (data : List Byte) (l : Live) : Live :=
  let l := forAll (fun r l => controlWrite r (dataWord off data r) l) (wordsIn off data.length) l
  forAll (fun g l => latchClear g (BitVec.ofNat 64 (fieldLE data (0x208 + 16 * g - off) 8)) l) (latchesIn off data.length) l

/-- A write to a mailbox register. -/
def mailRegister (r v : Nat) (l : Live) : Live := match r with
  | 0x00 => sessionWrite (BitVec.ofNat 16 v) l
  | 0x04 => updMail (fun m => { m with stat := clrMask m.stat (BitVec.ofNat 32 (clearable l (hostReg 0x10004) v % 16)) }) l
  | 0x08 => reqProdWrite (BitVec.ofNat 8 v) l
  | 0x14 => rspConsWrite (BitVec.ofNat 8 v) l
  | _ => l

/-- The part of a write that falls into request slot s. -/
def slotBytesWrite (off : Nat) (data : List Byte) (s : Nat) (l : Live) : Live :=
  let base := 0x1000 + 0x800 * s
  let lo := max off base
  let hi := min (off + data.length) (base + 0x800)
  if hi ≤ lo then l
  else
    let old := l.mail.reqSlots.get [] s
    let part := (data.drop (lo - off)).take (hi - lo)
    let new := slice old 0 (lo - base) ++ part ++ old.drop (hi - base)
    updMail (fun m => { m with reqSlots := m.reqSlots.put [] s new }) l

/-- A write to the mailbox window: messages first stand in their slots, registers act in address order. -/
def mailRegion (off : Nat) (data : List Byte) (l : Live) : Live :=
  let l := forAll (slotBytesWrite off data) (List.range 8) l
  forAll (fun r l => mailRegister r (dataWord off data r) l) ((wordsIn off data.length).filter (fun r => r < 0x18)) l

/-- A write to a window. -/
def windowWrite (w : HostWindow) (off : Nat) (data : List Byte) (l : Live) : Live := match w with
  | .control => controlRegion off data l
  | .mailbox => mailRegion off data l
  | .pins => peWriteAt off data l
  | .drain | .bundle => l
  | .lpddr => lpddrWrite off data l

/-- HOST_WRITE. -/
def hostWrite (addr : Nat) (data : List Byte) (long : Bool) (l : Live) : Live :=
  if !hostUp l then l
  else
    let l := csLongNote long (csFall l)
    match windowOf addr with
    | none => addrErr l
    | some w =>
      let off := addr - w.base
      let n := min data.length (w.size - off)
      let l := windowWrite w off (data.take n) l
      if n < data.length then addrErr l else l

/-- HPCFG_WRITE: in force from the next falling edge of chip select (R410). -/
def hpcfgWrite (v : Nat) (l : Live) : Live := controlWrite 0x20 v l

/-! ### Commands -/

def execHostRead (addr : BitVec 40) (bytes : HostBytes) (csLong : Bool) (late : Option Nat) (s : State) : Out :=
  ran (hostRead s.hostBank s.held.isSome addr.toNat bytes.len csLong late bytes.ecc) s

def execHostWrite (addr : BitVec 40) (data : List Byte) (csLong : Bool) (s : State) : Out :=
  ran (hostWrite addr.toNat data csLong) s

/-- An opcode that is no read and no write ends the transaction unserved (R410). -/
def execHostInvalidOpcode (_opcode : Byte) (s : State) : Out := hostAct (hostFlag 1) s

def execHpcfgWrite (value : BitVec 32) (s : State) : Out := hostAct (hpcfgWrite value.toNat) s

end Sys2Proof.Machine
end

