-- ==== Sys2Proof/Machine/MailCommands.lean ====
section
/-! DEFINITION. What the device does with the request at the front of the mailbox ring: reads and writes of objects in segments, NMT, resync,
invalid messages (R397, R416, R417, R437), and the completion of what a request waits for. -/

namespace Sys2Proof.Machine

open Sys2Proof

/-- Data bytes of one message. -/
def messageRoom : Nat := 2032

/-- The object of a request, as one number. -/
def reqKey (b : List Byte) : Key := key (reqIndex b) (reqSub b)

/-- A request of an opcode stands at the front and may be taken. -/
def frontIs (op : Nat) (l : Live) : Bool := mayTake l && reqValid (frontRequest l) && reqOp (frontRequest l) = op

/-! ### Reads (R417) -/

/-- Answers the part of the read buffer from an offset; the last flag marks the end of the object. -/
def answerRead (req : List Byte) (l : Live) : Live :=
  let off := reqOffset req
  let part := (l.mail.readBuf.drop off).take messageRoom
  let last := decide (l.mail.readBuf.length ≤ off + part.length)
  let l := updMail (fun m => { m with readAt := some off }) l
  answerTaken (reqFlags req % 2 + (if last then 2 else 0)) 0 part l

/-- A later segment: the same object, an offset beyond the one read last and within the copy. -/
def segmentFits (req : List Byte) (m : MailUnit) : Bool :=
  m.readKey = reqKey req && decide (reqOffset req ≤ m.readBuf.length) && (match m.readAt with
    | some a => decide (a < reqOffset req)
    | none => false)

/-- A read: the first flag copies the whole object, a later one continues the copy. -/
def mailRead (bank : Option Bank) (l : Live) : Live :=
  let req := frontRequest l
  let l := takeRequest l
  if reqFlags req % 2 = 1 then
    if reqOffset req ≠ 0 then abortTaken abLength l
    else
      let l := objectRead .host bank (reqIndex req) (reqSub req) l
      match (l.connSt 256).answer with
      | .value d => answerRead req (updMail (fun m => { m with readKey := reqKey req, readBuf := d, readAt := none }) l)
      | _ => mailSettle l
  else
    let l := touch .host l
    if segmentFits req l.mail then answerRead req l else abortTaken abLength l

/-! ### Writes (R417) -/

/-- Bytes that a write may assemble. -/
def assemblyRoom : Nat := 278528

/-- A segment that ends a partial write: it is dropped and aborted. -/
def dropWrite (code : Nat) (l : Live) : Live := abortTaken code (updMail (fun m => { m with writing := false, writeBuf := [] }) l)

/-- A write segment: contiguous from the first flag on; the object is written on the last. -/
def mailWrite (l : Live) : Live :=
  let req := frontRequest l
  let l := touch .host (takeRequest l)
  let m := l.mail
  let first := reqFlags req % 2 = 1
  let have_ := if first then [] else m.writeBuf
  if messageRoom < reqLen req || (!first && !(m.writing && m.writeKey = reqKey req)) || reqOffset req ≠ have_.length then
    dropWrite abLength l
  else if assemblyRoom < have_.length + reqLen req then dropWrite abMemory l
  else
    let all := have_ ++ reqData req
    if reqFlags req / 2 = 1 then
      let l := updMail (fun m => { m with writing := false, writeBuf := [] }) l
      carryOut (mailSettle (objectWrite .host (reqIndex req) (reqSub req) all l))
    else
      answerTaken (reqFlags req) 0 [] (updMail (fun m => { m with writing := true, writeKey := reqKey req, writeBuf := all }) l)

/-! ### NMT and resync (R397, R416, R437) -/

/-- An NMT command of the mailbox; it is answered before a reset that it asserts. -/
def mailNmt (l : Live) : Live :=
  let req := frontRequest l
  let cs := fieldLE req 16 1
  let l := touch .host (takeRequest l)
  if reqLen req ≠ 1 then abortTaken abLength l
  else if [1, 2, 0x80, 0x81, 0x82].contains cs then
    let l := answerTaken (reqFlags req) 0 [] l
    match cs with
    | 1 => nmtStart .mailbox l
    | 2 => nmtStopCommand .mailbox l
    | 0x80 => nmtPreOp .mailbox l
    | 0x81 => nmtResetNode .mailbox l
    | _ => nmtResetComm .mailbox l
  else abortTaken abRange l

/-- A resync request is answered when the summary is ready. -/
def mailResync (l : Live) : Live := (resync 256 (touch .host (takeRequest l))).1

/-- A request with an unknown opcode or with reserved bytes that are not 0. -/
def mailInvalid (l : Live) : Live := abortTaken abCommand (touch .host (takeRequest l))

/-! ### Commands -/

def execMailboxRead (s : State) : Out := ran (fun l => if frontIs 1 l then mailRead s.published l else l) s
def execMailboxWrite (s : State) : Out := ran (fun l => if frontIs 2 l then mailWrite l else l) s
def execMailboxNmt (s : State) : Out := ran (fun l => if frontIs 3 l then mailNmt l else l) s
def execMailboxResync (s : State) : Out := ran (fun l => if frontIs 4 l then mailResync l else l) s

def execMailboxInvalidOpcode (s : State) : Out :=
  ran (fun l => if mayTake l && !reqValid (frontRequest l) then mailInvalid l else l) s

/-- SUMMARY_READY: the writes and the mailbox request that wait are answered (R437). -/
def execSummaryReady (s : State) : Out := ran (fun l => mailSettle (summaryComplete l)) s

/-- STORE_COMPLETE: the copy is written and read back, and the command is answered (R426). -/
def execStoreComplete (readbackOk : Bool) (s : State) : Out := ran (fun l => mailSettle (storeComplete readbackOk l)) s

end Sys2Proof.Machine
end

