-- ==== Sys2Proof/Machine/Dispatch.lean ====
section
/-! DEFINITION. One arm per command of the table (block form: the effect on everything but the queue). -/

namespace Sys2Proof.Machine

open Sys2Proof

def exec (i : Instr) (s : State) : Host.Outcome State Fault Refusal :=
  match i with
  | .pllLock => Sys2Proof.Machine.execPllLock s
  | .referenceHold => Sys2Proof.Machine.execReferenceHold s
  | .refLost => Sys2Proof.Machine.execRefLost s
  | .referenceRelock => Sys2Proof.Machine.execReferenceRelock s
  | .stampWrap => Sys2Proof.Machine.execStampWrap s
  | .atimeSecondBoundary => Sys2Proof.Machine.execAtimeSecondBoundary s
  | .ppsOutWidthEnd => Sys2Proof.Machine.execPpsOutWidthEnd s
  | .ppsInEdge fine => Sys2Proof.Machine.execPpsInEdge fine s
  | .ppsInLevelEnd => Sys2Proof.Machine.execPpsInLevelEnd s
  | .ppsLongPulse => Sys2Proof.Machine.execPpsLongPulse s
  | .ppsProcess => Sys2Proof.Machine.execPpsProcess s
  | .holdoverTimeout => Sys2Proof.Machine.execHoldoverTimeout s
  | .timeReceived days ms => Sys2Proof.Machine.execTimeReceived days ms s
  | .secondsSet conn value => Sys2Proof.Machine.execSecondsSet conn value s
  | .snapshotTake conn => Sys2Proof.Machine.execSnapshotTake conn s
  | .snapshotHold conn => Sys2Proof.Machine.execSnapshotHold conn s
  | .snapshotRelease conn => Sys2Proof.Machine.execSnapshotRelease conn s
  | .periodicSnapshot => Sys2Proof.Machine.execPeriodicSnapshot s
  | .snapshotCopyDone => Sys2Proof.Machine.execSnapshotCopyDone s
  | .holdExpired => Sys2Proof.Machine.execHoldExpired s
  | .configObjectWrite conn idx sub data => Sys2Proof.Machine.execConfigObjectWrite conn idx sub data s
  | .statusW1cWrite conn idx sub data => Sys2Proof.Machine.execStatusW1cWrite conn idx sub data s
  | .groupArm conn g => Sys2Proof.Machine.execGroupArm conn g s
  | .groupDisarm conn g => Sys2Proof.Machine.execGroupDisarm conn g s
  | .groupDiscard conn g => Sys2Proof.Machine.execGroupDiscard conn g s
  | .addMember conn g entry => Sys2Proof.Machine.execAddMember conn g entry s
  | .removeMember conn g entry => Sys2Proof.Machine.execRemoveMember conn g entry s
  | .matchFire c => Sys2Proof.Machine.execMatchFire c s
  | .inputEdge c stamp rising => Sys2Proof.Machine.execInputEdge c stamp rising s
  | .captureFifoPop conn c => Sys2Proof.Machine.execCaptureFifoPop conn c s
  | .hostCommand conn c value => Sys2Proof.Machine.execHostCommand conn c value s
  | .linkRequest target lnkd => Sys2Proof.Machine.execLinkRequest target lnkd s
  | .tpinReadback n level => Sys2Proof.Machine.execTpinReadback n level s
  | .tpinShortClear conn n => Sys2Proof.Machine.execTpinShortClear conn n s
  | .routineStart k => Sys2Proof.Machine.execRoutineStart k s
  | .microwordExecute k upset => Sys2Proof.Machine.execMicrowordExecute k upset s
  | .aluPass k wid a b => Sys2Proof.Machine.execAluPass k wid a b s
  | .aluAdd k wid a b => Sys2Proof.Machine.execAluAdd k wid a b s
  | .aluSub k wid a b => Sys2Proof.Machine.execAluSub k wid a b s
  | .aluAnd k wid a b => Sys2Proof.Machine.execAluAnd k wid a b s
  | .aluOr k wid a b => Sys2Proof.Machine.execAluOr k wid a b s
  | .aluXor k wid a b => Sys2Proof.Machine.execAluXor k wid a b s
  | .aluShl k wid a b => Sys2Proof.Machine.execAluShl k wid a b s
  | .aluShr k wid a b => Sys2Proof.Machine.execAluShr k wid a b s
  | .aluSar k wid a b => Sys2Proof.Machine.execAluSar k wid a b s
  | .aluMul k wid a b => Sys2Proof.Machine.execAluMul k wid a b s
  | .aluDiv k wid a b => Sys2Proof.Machine.execAluDiv k wid a b s
  | .aluMinu k wid a b => Sys2Proof.Machine.execAluMinu k wid a b s
  | .aluMaxu k wid a b => Sys2Proof.Machine.execAluMaxu k wid a b s
  | .aluFfs k wid a b => Sys2Proof.Machine.execAluFfs k wid a b s
  | .aluSel k wid a b cond cpol => Sys2Proof.Machine.execAluSel k wid a b cond cpol s
  | .aluAndn k wid a b => Sys2Proof.Machine.execAluAndn k wid a b s
  | .stateWordRead k sw => Sys2Proof.Machine.execStateWordRead k sw s
  | .stateWordWrite k sw result => Sys2Proof.Machine.execStateWordWrite k sw result s
  | .tableReadStart k result => Sys2Proof.Machine.execTableReadStart k result s
  | .tableReadDone k ecc => Sys2Proof.Machine.execTableReadDone k ecc s
  | .nextGo k naddr => Sys2Proof.Machine.execNextGo k naddr s
  | .nextTwoWay k naddr c' => Sys2Proof.Machine.execNextTwoWay k naddr c' s
  | .nextDispatch k naddr => Sys2Proof.Machine.execNextDispatch k naddr s
  | .nextEnd k naddr => Sys2Proof.Machine.execNextEnd k naddr s
  | .microCommit k => Sys2Proof.Machine.execMicroCommit k s
  | .microwordWait k => Sys2Proof.Machine.execMicrowordWait k s
  | .waitRelease k => Sys2Proof.Machine.execWaitRelease k s
  | .waitTimeout k => Sys2Proof.Machine.execWaitTimeout k s
  | .matchaLoad k result fine => Sys2Proof.Machine.execMatchaLoad k result fine s
  | .matchbLoad k result fine => Sys2Proof.Machine.execMatchbLoad k result fine s
  | .matchaLoadFineLayout k result => Sys2Proof.Machine.execMatchaLoadFineLayout k result s
  | .matchbLoadFineLayout k result => Sys2Proof.Machine.execMatchbLoadFineLayout k result s
  | .disarmA k => Sys2Proof.Machine.execDisarmA k s
  | .disarmB k => Sys2Proof.Machine.execDisarmB k s
  | .disarmAAndB k => Sys2Proof.Machine.execDisarmAAndB k s
  | .armA k => Sys2Proof.Machine.execArmA k s
  | .armB k => Sys2Proof.Machine.execArmB k s
  | .fifoPop k => Sys2Proof.Machine.execFifoPop k s
  | .cctlModeLoad k result => Sys2Proof.Machine.execCctlModeLoad k result s
  | .pinActionSet k fine => Sys2Proof.Machine.execPinActionSet k fine s
  | .pinActionClear k fine => Sys2Proof.Machine.execPinActionClear k fine s
  | .pinActionToggle k fine => Sys2Proof.Machine.execPinActionToggle k fine s
  | .pinActionResult k fine result => Sys2Proof.Machine.execPinActionResult k fine result s
  | .pinActionCondition k fine c' => Sys2Proof.Machine.execPinActionCondition k fine c' s
  | .flagSet k mask => Sys2Proof.Machine.execFlagSet k mask s
  | .flagClear k mask => Sys2Proof.Machine.execFlagClear k mask s
  | .linkAllTargets k result => Sys2Proof.Machine.execLinkAllTargets k result s
  | .linkOneTarget k n result => Sys2Proof.Machine.execLinkOneTarget k n result s
  | .irqRequest k => Sys2Proof.Machine.execIrqRequest k s
  | .dmaRequestRaise k => Sys2Proof.Machine.execDmaRequestRaise k s
  | .eventPost k => Sys2Proof.Machine.execEventPost k s
  | .logWrite k result => Sys2Proof.Machine.execLogWrite k result s
  | .routineAbandon k => Sys2Proof.Machine.execRoutineAbandon k s
  | .runaway k => Sys2Proof.Machine.execRunaway k s
  | .mcRecoveryDone k mramOk readbackOk romReads => Sys2Proof.Machine.execMcRecoveryDone k mramOk readbackOk romReads s
  | .scrubRead k upset => Sys2Proof.Machine.execScrubRead k upset s
  | .scrubRepairDone k ok => Sys2Proof.Machine.execScrubRepairDone k ok s
  | .loadMeasure => Sys2Proof.Machine.execLoadMeasure s
  | .microcodeImageWrite conn data => Sys2Proof.Machine.execMicrocodeImageWrite conn data s
  | .microcodeActivate conn => Sys2Proof.Machine.execMicrocodeActivate conn s
  | .activationClusterDone readbackOk => Sys2Proof.Machine.execActivationClusterDone readbackOk s
  | .eventInsert conn data => Sys2Proof.Machine.execEventInsert conn data s
  | .eventCancel conn value => Sys2Proof.Machine.execEventCancel conn value s
  | .insertWalkDone => Sys2Proof.Machine.execInsertWalkDone s
  | .queueFlush conn q => Sys2Proof.Machine.execQueueFlush conn q s
  | .eventPrearm => Sys2Proof.Machine.execEventPrearm s
  | .eventFire e => Sys2Proof.Machine.execEventFire e s
  | .eventPinLand e => Sys2Proof.Machine.execEventPinLand e s
  | .kickChannel q c => Sys2Proof.Machine.execKickChannel q c s
  | .eventPinSet q n fine => Sys2Proof.Machine.execEventPinSet q n fine s
  | .eventPinClear q n fine => Sys2Proof.Machine.execEventPinClear q n fine s
  | .eventPinToggle q n fine => Sys2Proof.Machine.execEventPinToggle q n fine s
  | .commitTrigger q g => Sys2Proof.Machine.execCommitTrigger q g s
  | .startSequence q sq => Sys2Proof.Machine.execStartSequence q sq s
  | .ssiFrameRequest q n => Sys2Proof.Machine.execSsiFrameRequest q n s
  | .applyOverlay q slot => Sys2Proof.Machine.execApplyOverlay q slot s
  | .dmaRequest q c => Sys2Proof.Machine.execDmaRequest q c s
  | .pinEngineFlags q e setMask clrMask => Sys2Proof.Machine.execPinEngineFlags q e setMask clrMask s
  | .logMark q arg => Sys2Proof.Machine.execLogMark q arg s
  | .eventSnapshot q => Sys2Proof.Machine.execEventSnapshot q s
  | .eventReadRequest conn value => Sys2Proof.Machine.execEventReadRequest conn value s
  | .eventListingDone => Sys2Proof.Machine.execEventListingDone s
  | .eventImageWrite conn data => Sys2Proof.Machine.execEventImageWrite conn data s
  | .toothEdge w edge => Sys2Proof.Machine.execToothEdge w edge s
  | .virtualTooth w => Sys2Proof.Machine.execVirtualTooth w s
  | .toothTimeoutLost w => Sys2Proof.Machine.execToothTimeoutLost w s
  | .gapLate w => Sys2Proof.Machine.execGapLate w s
  | .trackerStall w => Sys2Proof.Machine.execTrackerStall w s
  | .laneHold w => Sys2Proof.Machine.execLaneHold w s
  | .catchupEnd w => Sys2Proof.Machine.execCatchupEnd w s
  | .camMissing w => Sys2Proof.Machine.execCamMissing w s
  | .quadratureTransition n stamp a b => Sys2Proof.Machine.execQuadratureTransition n stamp a b s
  | .indexEdge n edge => Sys2Proof.Machine.execIndexEdge n edge s
  | .indexArm conn n => Sys2Proof.Machine.execIndexArm conn n s
  | .indexDisarm conn n => Sys2Proof.Machine.execIndexDisarm conn n s
  | .presetPosition conn n value => Sys2Proof.Machine.execPresetPosition conn n value s
  | .hallChange n stamp lines => Sys2Proof.Machine.execHallChange n stamp lines s
  | .ssiPeriodicRequest n => Sys2Proof.Machine.execSsiPeriodicRequest n s
  | .ssiFrameStart n level => Sys2Proof.Machine.execSsiFrameStart n level s
  | .ssiStartBit n level => Sys2Proof.Machine.execSsiStartBit n level s
  | .ssiStartTimeout n => Sys2Proof.Machine.execSsiStartTimeout n s
  | .ssiFrameEvaluate n raw => Sys2Proof.Machine.execSsiFrameEvaluate n raw s
  | .ssiRecoveryEnd n => Sys2Proof.Machine.execSsiRecoveryEnd n s
  | .observerUpdate n => Sys2Proof.Machine.execObserverUpdate n s
  | .standstill n => Sys2Proof.Machine.execStandstill n s
  | .probeEdge n edge => Sys2Proof.Machine.execProbeEdge n edge s
  | .feedbackOutputReadback n isDe level => Sys2Proof.Machine.execFeedbackOutputReadback n isDe level s
  | .startingToRunning n => Sys2Proof.Machine.execStartingToRunning n s
  | .pwmBoundary u => Sys2Proof.Machine.execPwmBoundary u s
  | .pwmMidReload u => Sys2Proof.Machine.execPwmMidReload u s
  | .pwmOutputEdge u edge => Sys2Proof.Machine.execPwmOutputEdge u edge s
  | .streamBeatWrite u beat => Sys2Proof.Machine.execStreamBeatWrite u beat s
  | .dlineCalibration u isL taps => Sys2Proof.Machine.execDlineCalibration u isL taps s
  | .pairStart u => Sys2Proof.Machine.execPairStart u s
  | .tripDecision k stamp active => Sys2Proof.Machine.execTripDecision k stamp active s
  | .blankLimit k => Sys2Proof.Machine.execBlankLimit k s
  | .tripClear conn k => Sys2Proof.Machine.execTripClear conn k s
  | .clearAllTrips conn => Sys2Proof.Machine.execClearAllTrips conn s
  | .armCommand conn => Sys2Proof.Machine.execArmCommand conn s
  | .disarmCommand conn => Sys2Proof.Machine.execDisarmCommand conn s
  | .armStart => Sys2Proof.Machine.execArmStart s
  | .armToggle => Sys2Proof.Machine.execArmToggle s
  | .pwmReadback out level => Sys2Proof.Machine.execPwmReadback out level s
  | .sequenceStart conn sq => Sys2Proof.Machine.execSequenceStart conn sq s
  | .sequenceStop conn sq => Sys2Proof.Machine.execSequenceStop conn sq s
  | .stepStart sq => Sys2Proof.Machine.execStepStart sq s
  | .stepResult sq r0 r1 r2 r3 => Sys2Proof.Machine.execStepResult sq r0 r1 r2 r3 s
  | .adcFifoRead k => Sys2Proof.Machine.execAdcFifoRead k s
  | .calibrate conn => Sys2Proof.Machine.execCalibrate conn s
  | .calibrationDone r0 r1 r2 r3 dieTemp => Sys2Proof.Machine.execCalibrationDone r0 r1 r2 r3 dieTemp s
  | .limitTripClear conn a => Sys2Proof.Machine.execLimitTripClear conn a s
  | .nop e => Sys2Proof.Machine.execNop e s
  | .delay e => Sys2Proof.Machine.execDelay e s
  | .delayEnd e => Sys2Proof.Machine.execDelayEnd e s
  | .wait e pins => Sys2Proof.Machine.execWait e pins s
  | .peWaitRelease e pins => Sys2Proof.Machine.execPeWaitRelease e pins s
  | .peWaitTimeout e pins => Sys2Proof.Machine.execPeWaitTimeout e pins s
  | .drive e => Sys2Proof.Machine.execDrive e s
  | .emit e pins => Sys2Proof.Machine.execEmit e pins s
  | .sample e pins => Sys2Proof.Machine.execSample e pins s
  | .fetch e => Sys2Proof.Machine.execFetch e s
  | .deposit e => Sys2Proof.Machine.execDeposit e s
  | .branch e pins => Sys2Proof.Machine.execBranch e pins s
  | .setlc e => Sys2Proof.Machine.execSetlc e s
  | .loop e => Sys2Proof.Machine.execLoop e s
  | .signal e => Sys2Proof.Machine.execSignal e s
  | .txdWrite e word => Sys2Proof.Machine.execTxdWrite e word s
  | .rxdRead e => Sys2Proof.Machine.execRxdRead e s
  | .peFlagSet e mask => Sys2Proof.Machine.execPeFlagSet e mask s
  | .peFlagClear e mask => Sys2Proof.Machine.execPeFlagClear e mask s
  | .flush e => Sys2Proof.Machine.execFlush e s
  | .forceSwap e => Sys2Proof.Machine.execForceSwap e s
  | .programWrite conn e data => Sys2Proof.Machine.execProgramWrite conn e data s
  | .bankSwap e => Sys2Proof.Machine.execBankSwap e s
  | .peReadback e j level => Sys2Proof.Machine.execPeReadback e j level s
  | .dmaRequestTake c => Sys2Proof.Machine.execDmaRequestTake c s
  | .dmaBurstDone read => Sys2Proof.Machine.execDmaBurstDone read s
  | .fenceReadDone read => Sys2Proof.Machine.execFenceReadDone read s
  | .descriptorFetchDone read => Sys2Proof.Machine.execDescriptorFetchDone read s
  | .dmaBusError c dir beat => Sys2Proof.Machine.execDmaBusError c dir beat s
  | .dmaStart conn c => Sys2Proof.Machine.execDmaStart conn c s
  | .dmaDisable conn c => Sys2Proof.Machine.execDmaDisable conn c s
  | .dmaContinue conn c => Sys2Proof.Machine.execDmaContinue conn c s
  | .dmaSoftwareRequest conn c => Sys2Proof.Machine.execDmaSoftwareRequest conn c s
  | .memoryLoad conn data => Sys2Proof.Machine.execMemoryLoad conn data s
  | .logAdmit unit => Sys2Proof.Machine.execLogAdmit unit s
  | .logStagingMove => Sys2Proof.Machine.execLogStagingMove s
  | .logLossRecord => Sys2Proof.Machine.execLogLossRecord s
  | .logDrainRead addr bytes => Sys2Proof.Machine.execLogDrainRead addr bytes s
  | .logDrainObjectRead read => Sys2Proof.Machine.execLogDrainObjectRead read s
  | .releaseRecords conn n => Sys2Proof.Machine.execReleaseRecords conn n s
  | .stagingFlushDone => Sys2Proof.Machine.execStagingFlushDone s
  | .patrolScrub region offset ecc => Sys2Proof.Machine.execPatrolScrub region offset ecc s
  | .lpddrZeroingDone => Sys2Proof.Machine.execLpddrZeroingDone s
  | .irqClaim n g => Sys2Proof.Machine.execIrqClaim n g s
  | .irqComplete n g => Sys2Proof.Machine.execIrqComplete n g s
  | .holdOffEnd g => Sys2Proof.Machine.execHoldOffEnd g s
  | .claimTimeout g => Sys2Proof.Machine.execClaimTimeout g s
  | .latchClear g mask => Sys2Proof.Machine.execLatchClear g mask s
  | .dozeCommand conn => Sys2Proof.Machine.execDozeCommand conn s
  | .dozeEnter => Sys2Proof.Machine.execDozeEnter s
  | .wakeLatch kind => Sys2Proof.Machine.execWakeLatch kind s
  | .wakeComplete => Sys2Proof.Machine.execWakeComplete s
  | .sdoRequest conn req => Sys2Proof.Machine.execSdoRequest conn req s
  | .sdoProtocolTimeout conn => Sys2Proof.Machine.execSdoProtocolTimeout conn s
  | .expertKey conn key => Sys2Proof.Machine.execExpertKey conn key s
  | .newKey conn key => Sys2Proof.Machine.execNewKey conn key s
  | .unlockTimeout conn => Sys2Proof.Machine.execUnlockTimeout conn s
  | .keyLockoutEnd conn => Sys2Proof.Machine.execKeyLockoutEnd conn s
  | .nmtStart src => Sys2Proof.Machine.execNmtStart src s
  | .nmtStop src => Sys2Proof.Machine.execNmtStop src s
  | .nmtEnterPreOperational src => Sys2Proof.Machine.execNmtEnterPreOperational src s
  | .nmtResetNode src => Sys2Proof.Machine.execNmtResetNode src s
  | .nmtResetCommunication src => Sys2Proof.Machine.execNmtResetCommunication src s
  | .syncReceived bus counter => Sys2Proof.Machine.execSyncReceived bus counter s
  | .syncLost bus => Sys2Proof.Machine.execSyncLost bus s
  | .tpdoEventTimer p => Sys2Proof.Machine.execTpdoEventTimer p s
  | .synchronousWindowEnd unsent => Sys2Proof.Machine.execSynchronousWindowEnd unsent s
  | .rpdoReceived bus p data => Sys2Proof.Machine.execRpdoReceived bus p data s
  | .rpdoDeadline p => Sys2Proof.Machine.execRpdoDeadline p s
  | .emcyInhibitEnd bus => Sys2Proof.Machine.execEmcyInhibitEnd bus s
  | .heartbeatProduce bus => Sys2Proof.Machine.execHeartbeatProduce bus s
  | .heartbeatReceived bus node nodeState => Sys2Proof.Machine.execHeartbeatReceived bus node nodeState s
  | .hbTimeout bus k => Sys2Proof.Machine.execHbTimeout bus k s
  | .errorPassive bus => Sys2Proof.Machine.execErrorPassive bus s
  | .busOff bus => Sys2Proof.Machine.execBusOff bus s
  | .busOffRecovery bus => Sys2Proof.Machine.execBusOffRecovery bus s
  | .rxOverrun bus => Sys2Proof.Machine.execRxOverrun bus s
  | .lssSwitchStateGlobal bus mode => Sys2Proof.Machine.execLssSwitchStateGlobal bus mode s
  | .lssSwitchStateSelective bus addr => Sys2Proof.Machine.execLssSwitchStateSelective bus addr s
  | .lssConfigureNodeId bus id => Sys2Proof.Machine.execLssConfigureNodeId bus id s
  | .lssConfigureBitTiming bus table entry => Sys2Proof.Machine.execLssConfigureBitTiming bus table entry s
  | .lssActivateBitTiming bus delayMs => Sys2Proof.Machine.execLssActivateBitTiming bus delayMs s
  | .lssStoreConfiguration bus => Sys2Proof.Machine.execLssStoreConfiguration bus s
  | .lssInquireIdentity bus which => Sys2Proof.Machine.execLssInquireIdentity bus which s
  | .lssInquireNodeId bus => Sys2Proof.Machine.execLssInquireNodeId bus s
  | .lssIdentifyRemoteSlave bus lo hi => Sys2Proof.Machine.execLssIdentifyRemoteSlave bus lo hi s
  | .lssIdentifyNonConfiguredSlave bus => Sys2Proof.Machine.execLssIdentifyNonConfiguredSlave bus s
  | .lssFastscan bus idNumber bitCheck lssSub lssNext => Sys2Proof.Machine.execLssFastscan bus idNumber bitCheck lssSub lssNext s
  | .commObjectWrite conn idx sub data => Sys2Proof.Machine.execCommObjectWrite conn idx sub data s
  | .errorListClear conn value => Sys2Proof.Machine.execErrorListClear conn value s
  | .storeAll conn signature => Sys2Proof.Machine.execStoreAll conn signature s
  | .restoreDefaults conn signature => Sys2Proof.Machine.execRestoreDefaults conn signature s
  | .storeComplete readbackOk => Sys2Proof.Machine.execStoreComplete readbackOk s
  | .hostRead addr bytes csLong late => Sys2Proof.Machine.execHostRead addr bytes csLong late s
  | .hostWrite addr data csLong => Sys2Proof.Machine.execHostWrite addr data csLong s
  | .hostInvalidOpcode opcode => Sys2Proof.Machine.execHostInvalidOpcode opcode s
  | .hpcfgWrite value => Sys2Proof.Machine.execHpcfgWrite value s
  | .sessionOpen generation => Sys2Proof.Machine.execSessionOpen generation s
  | .sessionClose => Sys2Proof.Machine.execSessionClose s
  | .reqProdWrite value => Sys2Proof.Machine.execReqProdWrite value s
  | .rspConsWrite value => Sys2Proof.Machine.execRspConsWrite value s
  | .mailboxRead => Sys2Proof.Machine.execMailboxRead s
  | .mailboxWrite => Sys2Proof.Machine.execMailboxWrite s
  | .mailboxNmt => Sys2Proof.Machine.execMailboxNmt s
  | .mailboxResync => Sys2Proof.Machine.execMailboxResync s
  | .mailboxInvalidOpcode => Sys2Proof.Machine.execMailboxInvalidOpcode s
  | .baseImageWrite conn data => Sys2Proof.Machine.execBaseImageWrite conn data s
  | .overlaySlotWrite conn slot data => Sys2Proof.Machine.execOverlaySlotWrite conn slot data s
  | .applyOverlayImmediate conn slot => Sys2Proof.Machine.execApplyOverlayImmediate conn slot s
  | .applyOverlayNextPps conn slot => Sys2Proof.Machine.execApplyOverlayNextPps conn slot s
  | .overlayCancel conn value => Sys2Proof.Machine.execOverlayCancel conn value s
  | .customerDataWrite conn data => Sys2Proof.Machine.execCustomerDataWrite conn data s
  | .resync conn => Sys2Proof.Machine.execResync conn s
  | .summaryReady => Sys2Proof.Machine.execSummaryReady s
  | .powerOn => Sys2Proof.Machine.execPowerOn s
  | .brownOut rail => Sys2Proof.Machine.execBrownOut rail s
  | .resetN low => Sys2Proof.Machine.execResetN low s
  | .warmN low => Sys2Proof.Machine.execWarmN low s
  | .domainRelease d => Sys2Proof.Machine.execDomainRelease d s
  | .startUpCommit => Sys2Proof.Machine.execStartUpCommit s
  | .selfTest failed => Sys2Proof.Machine.execSelfTest failed s
  | .enterPreOperational => Sys2Proof.Machine.execEnterPreOperational s
  | .watchdogStage1 => Sys2Proof.Machine.execWatchdogStage1 s
  | .watchdogStage2 => Sys2Proof.Machine.execWatchdogStage2 s
  | .softwareWarmReset conn signature => Sys2Proof.Machine.execSoftwareWarmReset conn signature s
  | .blockResetAssert conn code => Sys2Proof.Machine.execBlockResetAssert conn code s
  | .blockResetRelease conn code => Sys2Proof.Machine.execBlockResetRelease conn code s
  | .blockResetPulse conn code => Sys2Proof.Machine.execBlockResetPulse conn code s
  | .blockResetPulseEnd code => Sys2Proof.Machine.execBlockResetPulseEnd code s
  | .supplySample core v18 vio temp => Sys2Proof.Machine.execSupplySample core v18 vio temp s
  | .lifecycleTransition conn value => Sys2Proof.Machine.execLifecycleTransition conn value s
  | .journalWrite => Sys2Proof.Machine.execJournalWrite s
  | .journalReadRequest conn value => Sys2Proof.Machine.execJournalReadRequest conn value s
  | .journalClear conn signature => Sys2Proof.Machine.execJournalClear conn signature s
  | .errorActive bus => Sys2Proof.Machine.execErrorActive bus s
  | .tpdoInhibitEnd p => Sys2Proof.Machine.execTpdoInhibitEnd p s

end Sys2Proof.Machine
end

