-- ==== Sys2Proof/Machine/Tick.lean ====
section
/-! DEFINITION. The end of a TCLK: what the clock alone does, with no command (log entry 1). The table gives it no row; it is what the
step does on an empty queue. -/

namespace Sys2Proof.Machine

open Sys2Proof

/-- ATIME advances by 1 + r × 2^-32 ticks; a new second awaits its effects in the TCLK that reaches it (R41, R53, R57). -/
def advanceAtime (l : Live) : Live :=
  let old := l.time.seconds
  let l := setAtime ((atimeFine l : Int) + 2 ^ 32 + l.time.rate) l
  if l.time.seconds = old then l else { l with time := { l.time with boundary := true } }

/-- DTIME counts every TCLK (R34), and no flag has been set in the new one (R84). -/
def advanceDtime (l : Live) : Live := { l with time := { l.time with dtime := l.time.dtime + 1 }, flagsNow := [] }

/-- The clocks of the next TCLK: DTIME while TCLK runs, ATIME while the time unit is out of reset, the lanes of the wheel trackers
(R34, R41, R218). -/
def advance (l : Live) : Live :=
  let l := advanceDtime l
  let l := if domainUp .aon l then advanceAtime l else l
  forAll laneTick (List.range 4) l

/-- What the closing TCLK settles: DMA writes into the DMA unit's control space, DIV words in their fourth ECLK, the links of changes of OUT, the settings of passes that have started,
the blanking masks, the ticks of the pin engines, and every interrupt group follows its lines (R106, R124, R284, R306, R326, R351, R379). -/
def closeTclk (l : Live) : Live :=
  let l := forAll trackMask (List.range 16) (forAll passBegin (List.range 4) (sendOutLinks (forAll divEnd (List.range 8)
    (forAll peClock (List.range 16) (dmaSpaceWrites l)))))
  if coreUp l then settleGroups l else l

/-- What falls due at a count of DTIME without a command: a rise of PPS_OUT off its boundary, the host port's reset pulse and the trip
overlay (R57, R435, R456). -/
def openTclk (l : Live) : Live := tripOverlay (hostPulse (ppsOutClock l))

/-- One TCLK ends and the next begins. Before the PLL locks there is no TCLK and nothing moves (R27). A deferred snapshot freezes
the values the new TCLK starts with (R64, R67). -/
def tick (s : State) : State :=
  if s.live.time.pllLocked then (takeDeferred (beginTclk (s.apply (fun l => advance (closeTclk l))))).apply openTclk else s

end Sys2Proof.Machine
end

