-- ==== Sys2Proof/Safety.lean ====
section
/-! DEFINITION. The terms in which the statements speak of a run: a command that completes, a request that reaches an object, what a
command leaves alone, and the coherence of the snapshot banks. -/

namespace Sys2Proof.Machine

open Sys2Proof

/-- The command answers a next state, of which `P` holds. -/
def Completes (c : Instr) (s : State) (P : State → Prop) : Prop := ∃ t, exec c s = .next t ∧ P t

/-- A request of a connection is served, and neither access, level, NMT state nor life-cycle state aborts its write of an object
(R390, R392, R394, R396, R459): the object's own rule decides. -/
def Reaches (conn : Conn) (idx sub : Nat) (s : State) : Prop :=
  served conn s.live = true ∧ writeAbort conn idx sub (touch conn s.live) = none

/-- The connection's last request is answered as done. -/
def AnsweredDone (conn : Conn) (t : State) : Prop := (t.live.connSt (connId conn)).answer = .done

/-- Every byte of the fabric memory reads as before. -/
def SameMemory (s t : State) : Prop := ∀ a, readByte t.live.mem a = readByte s.live.mem a

/-- The bus was given a frame, after those it already had. -/
def Sends (b : Nat) (f : Frame) (s t : State) : Prop := ∃ r, (t.live.bus b).tx = (s.live.bus b).tx ++ f :: r

/-- An answer of the LSS slave: COB-ID 0x7E4, 8 bytes, padded with zeros (R409; log entry 44). -/
def lssFrame (data : List Byte) : Frame := { cobId := 0x7E4, data := data ++ List.replicate (8 - data.length) 0 }

/-- The device without a pending overlay application, as an application that a command brings checks it (R433, R435). -/
def noPending (l : Live) : Live := { l with conf := { l.conf with pending := none } }

/-- A microword that writes nothing but its routine's registers and does not end the routine: no state word, match, pin, flag, link,
request, post, record or table address, no commit (R125, R127). -/
def PlainWord (w : Microword) : Prop :=
  mwSwr w = false ∧ mwTact w = 0 ∧ mwPact w = 0 ∧ mwFset w = 0 ∧ mwFclr w = 0 ∧ mwLink w = 0 ∧ mwBit w 83 = false ∧
    mwBit w 84 = false ∧ mwBit w 85 = false ∧ mwBit w 86 = false ∧ mwCommit w = false ∧ mwNsel w ≠ 3 ∧ mwDsel w ≠ 5

/-- A routine has committed, or each of its staged lists has room for one entry more (R142, R144). -/
def StagingRoom (r : Routine) : Prop :=
  r.committed = true ∨ (r.staged.sw.length < 8 ∧ r.staged.pins.length < 4 ∧ r.staged.pops < 4 ∧ r.staged.links.length < 2 ∧
    r.staged.posts.length < 2 ∧ r.staged.logs.length < 4)

/-- The ALU output of a word of a routine on its operands, under c′ (R125, R135, R138, R141). -/
def wordAlu (s : State) (k : Nat) (r : Routine) (w : Microword) (c' : Bool) : AluOut :=
  let c := runChan k r
  let q := { r with swRead := if mwSrd w then seenWord s.live c r (mwSaddr w) else 0, stall := none }
  alu (mwAop w) (mwWid w) (operand s.live k c q w (mwAsel w)) (operand s.live k c q w (mwBsel w)) c'

/-- A word of a routine has executed under c′: a DIV word is under way for its four ECLK, a word with END has ended the run at its NADDR, any
other has given its result, taken its ECLK and gone on at its successor (R124, R125, R129, R143). -/
def WordDone (s t : State) (k : Nat) (r : Routine) (w : Microword) (c' : Bool) : Prop :=
  let c := runChan k r
  (t.live.cluster k).busy = (s.live.cluster k).busy + wordTime w ∧ SameMemory s t ∧
  (mwAop w = 0xA → ∃ q, (t.live.cluster k).run = some q ∧ q.div.isSome = true ∧ q.stall = none ∧ q.used = r.used + 4 ∧ q.addr = r.addr) ∧
  (mwAop w ≠ 0xA → mwNsel w ≠ 3 → ∃ q, (t.live.cluster k).run = some q ∧ q.div = none ∧ q.stall = none ∧ q.slot = r.slot ∧
    q.addr = BitVec.ofNat 12 (successor (mwNsel w) (mwNaddr w).toNat c' (s.live.chan c).func.toNat) ∧
    q.used = r.used + wordTime w ∧ q.lastAddr = r.addr ∧ q.committed = (r.committed || mwCommit w) ∧
    q.result = (wordAlu s k r w c').result ∧ q.z = (wordAlu s k r w c').z ∧ q.n = (wordAlu s k r w c').n) ∧
  (mwAop w ≠ 0xA → mwNsel w = 3 → (t.live.cluster k).run = none ∧
    ((s.live.chan c).startDue = none → (t.live.chan c).stored = mwNaddr w))

/-- A WAIT word of a routine stalls for one ECLK more (R134). -/
def WordStalls (s : State) (k : Nat) (r : Routine) (w : Microword) (t : State) : Prop :=
  (t.live.cluster k).run = some { r with stall := some (waitEclk r), word := w, used := r.used + 1 } ∧
    (t.live.cluster k).busy = (s.live.cluster k).busy + 1 ∧ t.live.channels = s.live.channels ∧ SameMemory s t

/-! ### What a command may report beside its own effect -/

/-- Nothing of the network unit but its buses and its error list and register differs. -/
def NetReports (n m : NetUnit) : Prop :=
  m = { n with buses := m.buses, errors := m.errors, sticky := m.sticky, errReg := m.errReg }

/-- Nothing of the log but the records waiting, the losses and the status differs. -/
def LogReports (n m : LogUnit) : Prop :=
  m = { n with waiting := m.waiting, lost := m.lost, lossCnt := m.lossCnt, status := m.status, episode := m.episode,
               nextLoss := m.nextLoss, counts := m.counts }

/-- Nothing of the journal but its queue, its status and its loss counter differs. -/
def JournalReports (n m : JournalUnit) : Prop := m = { n with queue := m.queue, status := m.status, lossCnt := m.lossCnt }

/-- The bus sends or queues frames, or drops an EMCY; the rest of it stays. -/
def BusReports (x y : Bus) : Prop :=
  y = { x with tx := y.tx, emcyQueue := y.emcyQueue, emcyInhibit := y.emcyInhibit, status := y.status, emcyDropCnt := y.emcyDropCnt } ∧
    ∀ i, i ≠ 6 → y.status.getLsbD i = x.status.getLsbD i

/-- What a report may do to the reporting units. -/
structure PartReports (l m : Live) : Prop where
  net : NetReports l.net m.net
  log : LogReports l.log m.log
  logStatus : ∀ i, i ≠ 0 → m.log.status.getLsbD i = l.log.status.getLsbD i
  journal : JournalReports l.journal m.journal
  bus : ∀ b, BusReports (l.bus b) (m.bus b)

/-- No snapshot request, no hold of the banks and no wipe of them waits to be served: so it is between any two commands (R64, R65, R70). -/
def State.Settled (s : State) : Prop := s.live.snap.want = false ∧ s.live.snap.hold = none ∧ s.live.snap.wipe = false

/-- Where `m` is the device before with the parts a command changes as they are after it: every other part, every byte of memory, the banks
and the queue are as before, but for the records, journal entries and EMCYs that the command reports, and the notes of which flags the TCLK has set. -/
def FrameOf (m : Live) (s t : State) : Prop :=
  t.live = { m with log := t.live.log, net := t.live.net, journal := t.live.journal, snap := t.live.snap,
                    flagsNow := t.live.flagsNow } ∧ PartReports m t.live ∧
    (s.Settled → t.live.snap = m.snap ∧ t.published = s.published ∧ t.filling = s.filling ∧ t.held = s.held) ∧ t.start = s.start ∧
    t.pending = s.pending

/-- Whenever the command answers a next state, the device leaves all but the parts of `m` alone; `m` takes the device before and after. -/
def ChangesOnly (m : Live → Live → Live) (c : Instr) : Prop := ∀ s t, exec c s = .next t → FrameOf (m s.live t.live) s t

/-- Whenever the command answers a next state, an accessor of the live device gives the same for every index but one. -/
def KeepsOthers {α : Type} (read : Live → Nat → α) (i : Nat) (c : Instr) : Prop :=
  ∀ s t, exec c s = .next t → ∀ j, j ≠ i → read t.live j = read s.live j

/-- Whenever the command answers a next state, the connections of other senders are as before. -/
def KeepsOtherConns (conn : Conn) (c : Instr) : Prop := KeepsOthers Live.connSt (connId conn) c

/-- A bank shows its own number and freeze instant in the frozen values (R66, R68). -/
def Bank.Coherent (b : Bank) : Prop := b.frozen.snap.seq = b.seq ∧ b.frozen.snap.dtime = b.dtime

/-- Every bank of the device is coherent. -/
def State.BanksCoherent (s : State) : Prop :=
  (∀ b, s.published = some b → b.Coherent) ∧ (∀ b, s.filling = some b → b.Coherent) ∧
    (∀ b t, s.held = some (b, t) → b.Coherent)

end Sys2Proof.Machine
end

