-- ==== Sys2Proof/Certificates/Slice0/Obligations.lean ====
section
/-! DEFINITION. The statements about the model, one per family of commands, about the whole machine, and frames. Every clause of a
completion statement gives, for hypotheses on the state and the operands alone, the next state that the command answers. -/

open Sys2Proof Sys2Proof.Machine

/-! ### Clocks and time (02) -/

/-- The PLL locks, the reference is held, lost and found again, STAMP48 wraps: what each writes into the time unit and the reset unit.
A second boundary labels the second anew and starts PPS_OUT; the pulse ends after its width. -/
def Obligations.ClockEventsComplete : Prop :=
  (∀ s, s.live.time.pllLocked = false → (∀ k, k < 7 → s.live.rst.asserted.getLsbD k = false) →
    Completes .pllLock s fun t =>
      t.live.time = { s.live.time with pllLocked := true, freeRun := false, dtime := 0, refsel := s.live.time.refselPin } ∧
      t.live.rst.asserted = clrBit s.live.rst.asserted 7 ∧ t.live.rst.held = s.live.rst.held ∧ SameMemory s t) ∧
  (∀ s, s.live.time.pllLocked = false →
    Completes .referenceHold s fun t => t.live.rst.status.getLsbD 2 = true ∧ t.live.rst.asserted.getLsbD 7 = true) ∧
  (∀ s, timeUp s.live = true → s.live.time.status.getLsbD 10 = true →
    Completes .refLost s fun t =>
      t.live.time = { s.live.time with status := clrBit (setBit (setBit s.live.time.status 8) 9) 10, freeRun := true,
                                       refLossCnt := s.live.time.refLossCnt + 1 } ∧
      t.live.pwm.arm = .disarmed ∧ SameMemory s t) ∧
  (∀ s, timeUp s.live = true → s.live.time.freeRun = true →
    Completes .referenceRelock s fun t =>
      t.live.time = { s.live.time with status := setBit s.live.time.status 10, freeRun := false } ∧
      t.live.rst = s.live.rst ∧ t.live.pwm = s.live.pwm ∧ SameMemory s t) ∧
  (∀ s, timeUp s.live = true → s.live.stamp = 0 → s.live.time.dtime ≠ 0 →
    Completes .stampWrap s fun t =>
      t.live.time = { s.live.time with status := setBit s.live.time.status 7 } ∧ t.live.rst = s.live.rst ∧ SameMemory s t) ∧
  (∀ s, timeUp s.live = true → s.live.time.boundary = true → s.live.time.relabel = none → ppsOutPermitted s.live = true →
    s.live.time.ppsOutRise = none → s.live.time.ppsOutEarly = false → ppsOutInstant s.live < (s.live.now + 1) * 64 →
    Completes .atimeSecondBoundary s fun t =>
      t.live.time = { s.live.time with boundary := false, ppsOut := true, ppsHiZ := false, ppsWarm := false,
                                       ppsOutRise := some (ppsOutInstant s.live),
                                       ppsOutEnd := ppsOutInstant s.live + s.live.cfg 0x2000 8 * 25600 } ∧ SameMemory s t) ∧
  (∀ s, timeUp s.live = true → s.live.time.boundary = true → s.live.time.relabel = none → s.live.time.ppsOutEarly = false →
    s.live.time.ppsWarm = false → (s.live.now + 1) * 64 ≤ ppsOutInstant s.live →
    Completes .atimeSecondBoundary s fun t =>
      t.live.time = { s.live.time with boundary := false, ppsOutDue := some (ppsOutInstant s.live) } ∧ SameMemory s t) ∧
  (∀ s off, timeUp s.live = true → s.live.time.boundary = true → s.live.time.relabel = some off →
    Completes .atimeSecondBoundary s fun t =>
      t.live.time.seconds = BitVec.ofInt 35 ((s.live.time.seconds.toNat : Int) + off) ∧ t.live.time.tick = s.live.time.tick ∧
      t.live.time.frac = s.live.time.frac ∧ t.live.time.rate = s.live.time.rate ∧ t.live.time.dtime = s.live.time.dtime ∧
      t.live.time.relabel = none ∧ t.live.time.status.getLsbD 11 = true ∧ SameMemory s t) ∧
  (∀ s, s.live.time.ppsOut = true → s.live.time.ppsOutEnd ≤ s.live.now * 64 + 63 →
    Completes .ppsOutWidthEnd s fun t => t.live.time = { s.live.time with ppsOut := false } ∧ SameMemory s t)

/-- PPS_IN: the edge is captured with DTIME, its fine part and ATIME; its pulse is judged by its length; an edge whose pulse has lasted
400 TCLK is processed: phase error and stamp are published, and in ACQUIRE the first edge of a pair is kept (R44, R45, R48, R50).
Without an accepted edge for 1.5 s the device leaves TRACK and LOCKED for HOLDOVER, with the frequency estimate as rate (R52); a TIME
message leaves an offset for the next second boundary (R53). -/
def Obligations.DisciplineComplete : Prop :=
  (∀ s fine, timeUp s.live = true → s.live.time.pps.active = false →
    Completes (.ppsInEdge fine) s fun t =>
      t.live.time = { s.live.time with pps := { s.live.time.pps with active := true, edgeDtime := s.live.now, edgeFine := fine.toNat,
                                                                     edgeAtime := atimeFine s.live, toProcess := true,
                                                                     longJudged := false } } ∧ SameMemory s t) ∧
  (∀ s, timeUp s.live = true → s.live.time.pps.active = true → s.live.time.pps.longJudged = false →
    s.live.now - s.live.time.pps.edgeDtime < 400 →
    Completes .ppsInLevelEnd s fun t =>
      t.live.time = { s.live.time with status := setBit s.live.time.status 2, glitchCnt := s.live.time.glitchCnt + 1,
                                       pps := { s.live.time.pps with active := false, toProcess := false } } ∧ SameMemory s t) ∧
  (∀ s, timeUp s.live = true → s.live.time.pps.active = true → s.live.time.pps.longJudged = false →
    s.live.time.pps.edgeDtime + 200000000 < s.live.now → s.live.time.pps.longRun < 2 →
    Completes .ppsLongPulse s fun t =>
      t.live.time = { s.live.time with pps := { s.live.time.pps with longRun := s.live.time.pps.longRun + 1, shortRun := 0,
                                                                     longJudged := true } } ∧ SameMemory s t) ∧
  (∀ s, timeUp s.live = true → s.live.time.pps.toProcess = true → s.live.time.pps.edgeDtime + 400 ≤ s.live.now →
    s.live.time.disc = .acquire → s.live.time.pps.pairFirst = none →
    Completes .ppsProcess s fun t =>
      t.live.time = { s.live.time with
        phaseError := phasePs (phaseRaw s.live),
        lastPps := BitVec.ofNat 64 (s.live.time.pps.edgeDtime % 2 ^ 48 * 64 + s.live.time.pps.edgeFine),
        pps := { s.live.time.pps with toProcess := false, pairFirst := some (trueEdge s.live) } } ∧ SameMemory s t) ∧
  (∀ s x, timeUp s.live = true → s.live.time.pps.lastAccepted = some x → (s.live.time.disc = .track ∨ s.live.time.disc = .locked) →
    x + 600000000 * 40000 ≤ ((s.live.now * 40000 : Nat) : Int) →
    Completes .holdoverTimeout s fun t =>
      t.live.time.disc = .holdover ∧ t.live.time.rate = clampInt (-2147483) 2147483 s.live.time.freq ∧
      t.live.time.status.getLsbD 1 = true ∧ t.live.time.holdoverSince = some s.live.now ∧ SameMemory s t) ∧
  (∀ s days ms, busActive s.live s.live.net.choice.timeBus = true → preOrOp s.live = true → s.live.flag 0x2000 0x0C = true →
    bitOf (commVal s.live 0x1012 0) 31 = true →
    Completes (.timeReceived days ms) s fun t =>
      t.live.time.relabel = some ((((days.toNat * 86400000 + ms.toNat) * 400000 : Nat) - (s.live.time.tick : Int) + 200000000)
        / 400000000 - s.live.time.seconds.toNat) ∧
      t.live.time.seconds = s.live.time.seconds ∧ t.live.time.tick = s.live.time.tick ∧ SameMemory s t)

/-- A value below 2^35 written to the seconds-set object leaves the offset value − (s + 1); the second boundary reached next takes it,
so that without a step in between the value becomes the seconds count, with EPOCH_SET, and tick, fraction, rate and DTIME as they were;
a value of 2^35 or more is aborted with 0x0609_0030 and changes nothing of the time unit (R54). -/
def Obligations.SecondsSetObject : Prop :=
  (∀ s conn value, Reaches conn 0x2000 0x0B s →
    (value.toNat < 2 ^ 35 → Completes (.secondsSet conn value) s fun t =>
      t.live.time = { s.live.time with relabel := some ((value.toNat : Int) - (s.live.time.seconds.toNat + 1)) } ∧
      AnsweredDone conn t ∧ SameMemory s t) ∧
    (2 ^ 35 ≤ value.toNat → Completes (.secondsSet conn value) s fun t =>
      t.live.time = s.live.time ∧ (t.live.connSt (connId conn)).answer = .abort 0x06090030 ∧ SameMemory s t)) ∧
  (∀ s (value old : Nat), timeUp s.live = true → s.live.time.boundary = true → value < 2 ^ 35 →
    s.live.time.relabel = some ((value : Int) - (old + 1)) → s.live.time.seconds.toNat = old + 1 →
    Completes .atimeSecondBoundary s fun t =>
      t.live.time.seconds.toNat = value ∧ t.live.time.tick = s.live.time.tick ∧ t.live.time.frac = s.live.time.frac ∧
      t.live.time.rate = s.live.time.rate ∧ t.live.time.dtime = s.live.time.dtime ∧ t.live.time.status.getLsbD 11 = true)

/-- An epoch set that takes effect while the discipline state is not LOCKED sets EPOCH_PROVISIONAL; one that takes effect while LOCKED
clears it (R56). -/
def Obligations.EpochProvisional : Prop :=
  ∀ s off, timeUp s.live = true → s.live.time.boundary = true → s.live.time.relabel = some off →
    Completes .atimeSecondBoundary s fun t =>
      (s.live.time.disc ≠ .locked → t.live.time.status.getLsbD 12 = true) ∧
      (s.live.time.disc = .locked → t.live.time.status.getLsbD 12 = false)

/-! ### Snapshots, groups and object writes (03) -/

/-- A snapshot freezes the values the TCLK started with into the bank being filled; the copy's end publishes it; a hold keeps the
published bank and its release or its 400,000 TCLK end it (R64, R66–R68, R70). The commands of a commit group: arm, disarm, discard,
and its members (R76, R493). -/
def Obligations.SnapshotsAndGroupsComplete : Prop :=
  (∀ s conn, Reaches conn 0x2C80 3 s → s.live.snap.copying = false → s.live.snap.waiting = false →
    Completes (.snapshotTake conn) s fun t =>
      t.filling = some ⟨nextSeq s.live.snap, s.live.time.dtime,
        { s.start with snap := { s.start.snap with seq := nextSeq s.live.snap, dtime := s.live.time.dtime } }⟩ ∧
      t.live.snap.copying = true ∧ t.live.snap.seq = nextSeq s.live.snap ∧ AnsweredDone conn t ∧ SameMemory s t) ∧
  (∀ s conn b, Reaches conn 0x2C80 3 s → s.published = some b → s.live.snap.wipe = false →
    Completes (.snapshotHold conn) s fun t =>
      t.held = some (b, s.live.now) ∧ t.live.snap.status.getLsbD 3 = true ∧ AnsweredDone conn t ∧ SameMemory s t) ∧
  (∀ s conn, Reaches conn 0x2C80 3 s →
    Completes (.snapshotRelease conn) s fun t =>
      t.held = none ∧ t.live.snap.status.getLsbD 3 = false ∧ AnsweredDone conn t ∧ SameMemory s t) ∧
  (∀ s, coreUp s.live = true → s.live.cfg 0x2C80 1 ≠ 0 → s.live.snap.nextPeriodic ≤ s.live.now → s.live.snap.copying = false →
    s.live.snap.waiting = false →
    Completes .periodicSnapshot s fun t =>
      t.filling = some ⟨nextSeq s.live.snap, s.live.time.dtime,
        { s.start with snap := { s.start.snap with seq := nextSeq s.live.snap, dtime := s.live.time.dtime } }⟩ ∧
      t.live.snap.nextPeriodic = s.live.snap.nextPeriodic + s.live.cfg 0x2C80 1 * 400 ∧ SameMemory s t) ∧
  (∀ s b, s.filling = some b → s.live.snap.copying = true →
    Completes .snapshotCopyDone s fun t => t.published = some b ∧ t.filling = none) ∧
  (∀ s b h, s.held = some (b, h) → h + 400000 ≤ s.live.now →
    Completes .holdExpired s fun t =>
      t.held = none ∧ t.live.snap.status.getLsbD 1 = true ∧ t.live.snap.status.getLsbD 3 = false ∧ SameMemory s t) ∧
  (∀ s conn (g : Fin 64), Reaches conn (0x2C00 + g.val) 3 s → (s.live.group g).state = .staging → s.live.cfg (0x2C00 + g.val) 1 ≠ 0 →
    Completes (.groupArm conn g) s fun t =>
      t.live.groups = s.live.groups.put {} g { s.live.group g with state := .armed } ∧ t.live.conf = s.live.conf ∧
      AnsweredDone conn t ∧ SameMemory s t) ∧
  (∀ s conn (g : Fin 64), Reaches conn (0x2C00 + g.val) 3 s → (s.live.group g).state = .armed →
    Completes (.groupDisarm conn g) s fun t =>
      t.live.groups = s.live.groups.put {} g { s.live.group g with state := .staging, armedBy := none } ∧
      t.live.conf = s.live.conf ∧ AnsweredDone conn t ∧ SameMemory s t) ∧
  (∀ s conn (g : Fin 64), Reaches conn (0x2C00 + g.val) 3 s → (s.live.group g).state ≠ .idle →
    Completes (.groupDiscard conn g) s fun t =>
      t.live.groups = s.live.groups.put {} g { s.live.group g with state := .idle, staged := {}, armedBy := none } ∧
      t.live.conf = s.live.conf ∧ AnsweredDone conn t ∧ SameMemory s t) ∧
  (∀ s conn (g : Fin 64) (entry : BitVec 32) k, Reaches conn (0x2C00 + g.val) 4 s → memberKey entry.toNat = some k → g.val ≠ 0 →
    admissible k = true → membershipLocked s.live g k = false → ownerOf s.live k = 0 → (s.live.group g).members.length < 512 →
    Completes (.addMember conn g entry) s fun t =>
      (t.live.group g).members = (s.live.group g).members ++ [k] ∧ t.live.conf = s.live.conf ∧ AnsweredDone conn t ∧ SameMemory s t) ∧
  (∀ s conn (g : Fin 64) (entry : BitVec 32) k, Reaches conn (0x2C00 + g.val) 5 s → memberKey entry.toNat = some k → g.val ≠ 0 →
    membershipLocked s.live g k = false → ownerOf s.live k = g.val →
    Completes (.removeMember conn g entry) s fun t =>
      (t.live.group g).members = (s.live.group g).members.filter (fun m => storeKey m ≠ storeKey k) ∧
      t.live.conf = s.live.conf ∧ AnsweredDone conn t ∧ SameMemory s t)

/-- A write of a configuration object stages its value in the group that owns the object and changes no value in force (R73, R76); a
program is such an object. A 1 written to a w1c bit of a status word clears it, unless hardware has set that flag in the same TCLK; every
other bit stays (R84). -/
def Obligations.ObjectWritesComplete : Prop :=
  (∀ s conn (idx : BitVec 16) (sub : BitVec 8) data v r, Reaches conn idx.toNat sub.toNat s → s.live.rst.sourceDue = none →
    bytesCommand conn idx.toNat sub.toNat data = none → numberCommand conn idx.toNat sub.toNat (ofBytesLE data) = none →
    isStatus idx.toNat = false → isComm idx.toNat = false → answeredLater idx.toNat sub.toNat = false →
    parseValue idx.toNat sub.toNat data = .ok v → admitValue (touch conn s.live) idx.toNat sub.toNat v = .ok r →
    covered s.live (key idx.toNat sub.toNat) = false → groupArmed s.live (ownerOf s.live (key idx.toNat sub.toNat)) = false →
    Completes (.configObjectWrite conn idx sub data) s fun t =>
      let g := ownerOf s.live (key idx.toNat sub.toNat)
      (t.live.group g).staged.objs = putStaged (storeKey (key idx.toNat sub.toNat)) r (s.live.group g).staged.objs ∧
      ((s.live.group g).state = .idle → (t.live.group g).state = .staging) ∧
      t.live.conf = s.live.conf ∧ AnsweredDone conn t ∧ SameMemory s t) ∧
  (∀ s conn (e : Fin 16) (data : List Byte) r, Reaches conn (0x2900 + e.val) 0x0D s → s.live.rst.sourceDue = none → data.length = 144 →
    admitValue (touch conn s.live) (0x2900 + e.val) 0x0D (.bytes data) = .ok r →
    covered s.live (key (0x2900 + e.val) 0x0D) = false → groupArmed s.live (ownerOf s.live (key (0x2900 + e.val) 0x0D)) = false →
    Completes (.programWrite conn e data) s fun t =>
      let g := ownerOf s.live (key (0x2900 + e.val) 0x0D)
      (t.live.group g).staged.objs = putStaged (key (0x2900 + e.val) 0x0D) r (s.live.group g).staged.objs ∧
      t.live.conf = s.live.conf ∧ t.live.engines = s.live.engines ∧ AnsweredDone conn t ∧ SameMemory s t) ∧
  (∀ s conn (data : List Byte), s.live.rst.sourceDue = none →
    (Reaches conn 0x3000 4 s → data.length = 2 → Completes (.statusW1cWrite conn 0x3000 4 data) s fun t =>
      t.live.time = { s.live.time with
        status := clrMask s.live.time.status (BitVec.ofNat 16 (clearable s.live (key 0x3000 4) (ofBytesLE data) &&& 0x3FF)) } ∧
      AnsweredDone conn t ∧ SameMemory s t) ∧
    (∀ c : Fin 512, Reaches conn (0x3200 + c.val) 1 s → data.length = 2 →
      Completes (.statusW1cWrite conn (BitVec.ofNat 16 (0x3200 + c.val)) 1 data) s fun t =>
        t.live.chan c = { s.live.chan c with
          cstat := clrMask (s.live.chan c).cstat
            (BitVec.ofNat 16 (clearable s.live (key (0x3200 + c.val) 1) (ofBytesLE data) &&& 0x7F)) } ∧
        AnsweredDone conn t ∧ SameMemory s t) ∧
    (∀ k : Fin 8, Reaches conn (0x3100 + k.val) 3 s → data.length = 1 →
      Completes (.statusW1cWrite conn (BitVec.ofNat 16 (0x3100 + k.val)) 3 data) s fun t =>
        t.live.cluster k = { s.live.cluster k with
          status := clrMask (s.live.cluster k).status
            (BitVec.ofNat 8 (clearable s.live (key (0x3100 + k.val) 3) (ofBytesLE data) &&& 0x1F)) } ∧ AnsweredDone conn t ∧
        SameMemory s t) ∧
    (∀ c : Fin 32, Reaches conn (0x3A00 + c.val) 2 s → data.length = 1 →
      Completes (.statusW1cWrite conn (BitVec.ofNat 16 (0x3A00 + c.val)) 2 data) s fun t =>
        t.live.dc c = { s.live.dc c with
          status := clrMask (s.live.dc c).status
            (BitVec.ofNat 8 (clearable s.live (key (0x3A00 + c.val) 2) (ofBytesLE data) &&& 0x1F)) } ∧
        AnsweredDone conn t ∧ SameMemory s t) ∧
    (Reaches conn 0x5E40 0x14 s → data.length = 2 → Completes (.statusW1cWrite conn 0x5E40 0x14 data) s fun t =>
      t.live.rst = { s.live.rst with
        status := clrMask s.live.rst.status (BitVec.ofNat 16 (clearable s.live (key 0x5E40 0x14) (ofBytesLE data) &&& 0xE7)) } ∧
      AnsweredDone conn t ∧ SameMemory s t))

/-- An immediate arm commits the group, where no rule refuses the commit: every staged value becomes the base value, the generation
advances, the group is IDLE and empty
(R74, R76). -/
def Obligations.ImmediateCommit : Prop :=
  ∀ s conn (g : Fin 64), Reaches conn (0x2C00 + g.val) 3 s → (s.live.group g).state = .staging → s.live.cfg (0x2C00 + g.val) 1 = 0 →
    commitBreaks (touch conn s.live) g = false →
    Completes (.groupArm conn g) s fun t =>
      t.live.conf.objs = (s.live.group g).staged.objs.foldl (fun m e => SMap.put none m e.1 (some e.2)) s.live.conf.objs ∧
      t.live.conf.gen = s.live.conf.gen + 1 ∧ (t.live.group g).state = .idle ∧ (t.live.group g).staged = {} ∧
      (t.live.group g).lastDtime = s.live.time.dtime ∧ (t.live.group g).genAt = s.live.conf.gen + 1 ∧ AnsweredDone conn t

/-! ### Channels (04) -/

/-- The matches of a channel that fire are disarmed, set their flags and requests, and do their pin actions; a late one is counted; one
that does not fire stays (R97–R100). -/
def Obligations.MatchFires : Prop :=
  (∀ s (c : Fin 512), clusterUp s.live (c.val / 64) = true →
    let x := s.live.chan c
    let a := x.ma.fires s.live
    let b := x.mb.fires s.live
    let late := (a && (x.ma.atStart s.live.now).late) || (b && (x.mb.atStart s.live.now).late)
    Completes (.matchFire c) s fun t =>
      let y := t.live.chan c
      y.ma = (if a then x.ma.fired s.live else x.ma) ∧ y.mb = (if b then x.mb.fired s.live else x.mb) ∧
      (a = true → y.cstat.getLsbD 0 = true ∧ y.req.getLsbD 0 = true) ∧
      (b = true → y.cstat.getLsbD 1 = true ∧ y.req.getLsbD 1 = true) ∧
      (late = true → y.cstat.getLsbD 5 = true) ∧
      (a = true → b = false → late = true → y.lateCnt = x.lateCnt + 1) ∧
      (a = false → b = false → t.live.channels = s.live.channels ∧ t.live.tpins = s.live.tpins) ∧
      y.capa = x.capa ∧ y.capb = x.capb ∧ y.ecnt = x.ecnt ∧ y.mode = x.mode ∧ SameMemory s t) ∧
  (∀ s (c : Fin 512), clusterUp s.live (c.val / 64) = true → (s.live.chan c).ma.fires s.live = true →
    (s.live.chan c).mb.fires s.live = false →
    ((s.live.chan c).mode.maact = 0 → ((s.live.chan c).ma.atStart s.live.now).late = false →
      Completes (.matchFire c) s fun t =>
        t.live.chan c = { s.live.chan c with
          ma := (s.live.chan c).ma.fired s.live, cstat := setBit (s.live.chan c).cstat 0, req := (s.live.chan c).req ||| 1,
          fresh := (s.live.chan c).fresh ||| 1,
          thread := if (s.live.chan c).thread = .idle then .ready else (s.live.chan c).thread } ∧
        (∀ d, d ≠ c.val → t.live.chan d = s.live.chan d) ∧ t.live.tpins = s.live.tpins ∧ SameMemory s t) ∧
    ((s.live.chan c).mode.maact = 1 → (s.live.chan c).outTclk ≠ s.live.now →
      Completes (.matchFire c) s fun t => (t.live.chan c).out = true ∧ (t.live.chan c).req.getLsbD 0 = true ∧ SameMemory s t))

/-- An accepted input edge of a selected kind loads CAPA and counts; the other channel commands (R81, R102–R106, R110). The third
consecutive readback mismatch of a T-pin sets SHORT, puts the pin into high impedance and disarms the device (R110, R293). -/
def Obligations.ChannelCommandsComplete : Prop :=
  (∀ s (c : Fin 512) stamp rising, clusterUp s.live (c.val / 64) = true → s.live.cfg (0x2200 + c.val) 4 < 192 →
    (s.live.chan c).input = !rising → edgeSel (s.live.chan c).mode.caedge rising = true →
    Completes (.inputEdge c stamp rising) s fun t =>
      (t.live.chan c).capa = stamp ∧ (t.live.chan c).input = rising ∧ (t.live.chan c).ecnt = (s.live.chan c).ecnt + 1 ∧
      (t.live.chan c).req.getLsbD 2 = true ∧ (t.live.chan c).cstat.getLsbD 2 = true ∧
      (t.live.tpin (s.live.cfg (0x2200 + c.val) 4)).level = (rising != s.live.flag (0x2200 + c.val) 6) ∧ SameMemory s t) ∧
  (∀ s conn (c : Fin 512) e r, served conn s.live = true → (s.live.chan c).fifo = e :: r →
    Completes (.captureFifoPop conn c) s fun t =>
      t.live.chan c = { s.live.chan c with fifo := r, fifoLast := e } ∧
      (t.live.connSt (connId conn)).answer = .value (bytesLE 8 (setBit e 63).toNat) ∧ SameMemory s t) ∧
  (∀ s conn (c : Fin 512) value, Reaches conn (0x2200 + c.val) 0x0A s →
    Completes (.hostCommand conn c value) s fun t =>
      t.live.chan c = { s.live.chan c with
        req := (s.live.chan c).req ||| 0x20, fresh := (s.live.chan c).fresh ||| 0x20,
        thread := if (s.live.chan c).thread = .idle then .ready else (s.live.chan c).thread } ∧
      AnsweredDone conn t ∧ SameMemory s t) ∧
  (∀ s (c : Fin 512) data, clusterUp s.live (c.val / 64) = true →
    Completes (.linkRequest c data) s fun t =>
      (t.live.chan c).lnkd = data ∧ (t.live.chan c).req = (s.live.chan c).req ||| 0x10 ∧
      (t.live.chan c).linkCnt = (if (s.live.chan c).req.getLsbD 4 && !(s.live.chan c).linkSampled then (s.live.chan c).linkCnt + 1
        else (s.live.chan c).linkCnt) ∧ SameMemory s t) ∧
  (∀ s (n : Fin 192) level, (s.live.tpin n).checkDue = true → s.live.now = (s.live.tpin n).edgeAt + 8 →
    (s.live.tpin n).driven = some level →
    Completes (.tpinReadback n level) s fun t =>
      t.live.tpin n = { s.live.tpin n with mismatches := 0, checkDue := false, level := level } ∧ t.live.pwm = s.live.pwm ∧
      SameMemory s t) ∧
  (∀ s conn (n : Fin 192), Reaches conn (0x3D00 + n.val) 1 s → clearable s.live (key (0x3D00 + n.val) 1) 2 ≠ 0 →
    Completes (.tpinShortClear conn n) s fun t =>
      (t.live.tpin n).status = clrBit (clrBit (s.live.tpin n).status 1) 2 ∧ AnsweredDone conn t ∧ SameMemory s t) ∧
  (∀ s (n : Fin 192) level, (s.live.tpin n).checkDue = true → s.live.now = (s.live.tpin n).edgeAt + 8 →
    (s.live.tpin n).driven = some (!level) → 2 ≤ (s.live.tpin n).mismatches →
    Completes (.tpinReadback n level) s fun t =>
      (t.live.tpin n).status = setBit (setBit (s.live.tpin n).status 1) 2 ∧
      (t.live.tpin n).shortCnt = (s.live.tpin n).shortCnt + 1 ∧ (t.live.tpin n).driven = none ∧
      t.live.pwm.arm = .disarmed ∧ SameMemory s t)

/-! ### Microengines (05, 06) -/

/-- Every ALU operation cuts its operands to the width, forms its result at the width, and sets Z and N; only ADD and SUB set C, only
SUB sets AH, only DIV writes DIV0 (R137, R138). -/
def Obligations.AluResults : Prop :=
  ∀ s (k : Fin 8) r (wid : BitVec 2) (a b : Word), running s.live k = some r →
    let w := widBits wid.toNat
    let x := a.toNat % 2 ^ w
    let y := b.toNat % 2 ^ w
    let out := fun (v : Nat) (z c ah div0 : Bool) (t : State) =>
      (t.live.cluster k).run = some { r with result := BitVec.ofNat 64 (v % 2 ^ w), z := z, n := (v % 2 ^ w).testBit (w - 1), c := c,
                                             ah := ah, div0 := div0 } ∧
      t.live.channels = s.live.channels ∧ SameMemory s t
    let plain := fun (v : Nat) => out v (decide (v % 2 ^ w = 0)) false false r.div0
    Completes (.aluPass k wid a b) s (plain x) ∧
    Completes (.aluAdd k wid a b) s
      (out (x + y) (decide ((x + y) % 2 ^ w = 0)) (decide (2 ^ w ≤ x + y)) false r.div0) ∧
    Completes (.aluSub k wid a b) s
      (out (x + 2 ^ w - y) (decide ((x + 2 ^ w - y) % 2 ^ w = 0)) (decide (x < y)) (aheadAt w x y) r.div0) ∧
    Completes (.aluAnd k wid a b) s (plain (x &&& y)) ∧
    Completes (.aluOr k wid a b) s (plain (x ||| y)) ∧
    Completes (.aluXor k wid a b) s (plain (x ^^^ y)) ∧
    Completes (.aluShl k wid a b) s (plain (if y % 64 < w then x * 2 ^ (y % 64) else 0)) ∧
    Completes (.aluShr k wid a b) s (plain (if y % 64 < w then x / 2 ^ (y % 64) else 0)) ∧
    Completes (.aluSar k wid a b) s (plain (ofSigned w (toSigned w x / ((2 ^ min (y % 64) w : Nat) : Int)))) ∧
    Completes (.aluMul k wid a b) s (plain (x % 2 ^ 32 * (y % 2 ^ 32))) ∧
    (y % 2 ^ 32 ≠ 0 →
      Completes (.aluDiv k wid a b) s (out (x / (y % 2 ^ 32)) (decide (x / (y % 2 ^ 32) % 2 ^ w = 0)) false false false)) ∧
    (y % 2 ^ 32 = 0 →
      Completes (.aluDiv k wid a b) s (out (2 ^ w - 1) (decide ((2 ^ w - 1) % 2 ^ w = 0)) false false true)) ∧
    Completes (.aluMinu k wid a b) s (plain (min x y)) ∧
    Completes (.aluMaxu k wid a b) s (plain (max x y)) ∧
    Completes (.aluFfs k wid a b) s
      (out (((List.range w).find? (fun i => x.testBit i)).getD 0) (decide (x = 0)) false false r.div0) ∧
    (∀ cond cpol, Completes (.aluSel k wid a b cond cpol) s
      (plain (if selCond k b cond cpol r s.live then x else y))) ∧
    Completes (.aluAndn k wid a b) s (plain (x &&& (2 ^ w - 1 - y)))

/-- Before its commit a routine's effects are staged: no channel and no byte of memory changes (R142, R144, R146–R150). -/
def Obligations.EffectsAreStaged : Prop :=
  ∀ s (k : Fin 8) r, running s.live k = some r → r.committed = false →
    let c := runChan k r
    let fx := r.staged
    let holds := fun (f : StagedFx) (t : State) =>
      (t.live.cluster k).run = some { r with staged := f } ∧ t.live.channels = s.live.channels ∧ t.live.tpins = s.live.tpins ∧
      t.live.irq = s.live.irq ∧ t.live.events = s.live.events ∧ SameMemory s t
    (∀ v fine, Completes (.matchaLoad k v fine) s (holds { fx with ma := some (.load (BitVec.ofNat 48 v.toNat) fine) })) ∧
    (∀ v fine, Completes (.matchbLoad k v fine) s (holds { fx with mb := some (.load (BitVec.ofNat 48 v.toNat) fine) })) ∧
    (∀ v, Completes (.matchaLoadFineLayout k v) s
      (holds { fx with ma := some (.load (BitVec.ofNat 48 v.toNat) (BitVec.ofNat 6 (field v.toNat 53 48))) })) ∧
    (∀ v, Completes (.matchbLoadFineLayout k v) s
      (holds { fx with mb := some (.load (BitVec.ofNat 48 v.toNat) (BitVec.ofNat 6 (field v.toNat 53 48))) })) ∧
    Completes (.disarmA k) s (holds { fx with ma := some (offChange fx.ma) }) ∧
    Completes (.disarmB k) s (holds { fx with mb := some (offChange fx.mb) }) ∧
    Completes (.disarmAAndB k) s (holds { fx with ma := some (offChange fx.ma), mb := some (offChange fx.mb) }) ∧
    Completes (.armA k) s (holds { fx with ma := some (onChange fx.ma) }) ∧
    Completes (.armB k) s (holds { fx with mb := some (onChange fx.mb) }) ∧
    (fx.pops < (s.live.chan c).fifo.length → fx.pops < 4 → Completes (.fifoPop k) s (holds { fx with pops := fx.pops + 1 })) ∧
    (∀ v, Completes (.cctlModeLoad k v) s (holds { fx with mode := some (modeOf v.toNat) })) ∧
    (fx.pins.length < 4 → ∀ fine : BitVec 6,
      Completes (.pinActionSet k fine) s (holds { fx with pins := fx.pins ++ [(.set, fine.toNat)] }) ∧
      Completes (.pinActionClear k fine) s (holds { fx with pins := fx.pins ++ [(.clear, fine.toNat)] }) ∧
      Completes (.pinActionToggle k fine) s (holds { fx with pins := fx.pins ++ [(.toggle, fine.toNat)] }) ∧
      (∀ v : Word, Completes (.pinActionResult k fine v) s
        (holds { fx with pins := fx.pins ++ [(if v.getLsbD 0 then .set else .clear, fine.toNat)] })) ∧
      (∀ b : Bool, Completes (.pinActionCondition k fine b) s
        (holds { fx with pins := fx.pins ++ [(if b then .set else .clear, fine.toNat)] }))) ∧
    (∀ m, Completes (.flagSet k m) s (holds { fx with fset := fx.fset ||| m, fclr := clrMask fx.fclr m })) ∧
    (∀ m, Completes (.flagClear k m) s (holds { fx with fset := clrMask fx.fset m, fclr := fx.fclr ||| m })) ∧
    (fx.links.length < 2 → ∀ v : Word,
      let data := BitVec.ofNat 64 (field v.toNat 63 63 * 2 ^ 63 + c * 2 ^ 54 + field v.toNat 53 0)
      Completes (.linkAllTargets k v) s (holds { fx with links := fx.links ++ [(none, data)] }) ∧
      (∀ n, Completes (.linkOneTarget k n v) s (holds { fx with links := fx.links ++ [(some n.toNat, data)] }))) ∧
    Completes (.irqRequest k) s (holds { fx with irq := true }) ∧
    Completes (.dmaRequestRaise k) s (holds { fx with dreq := true }) ∧
    (fx.posts.length < 2 → Completes (.eventPost k) s (holds { fx with posts := fx.posts ++ [(nth 0 r.x 6, nth 0 r.x 7)] })) ∧
    (fx.logs.length < 4 → ∀ v, Completes (.logWrite k v) s (holds { fx with logs := fx.logs ++ [v.setWidth 32] })) ∧
    (∀ (i : BitVec 5) (v : Word), (16 ≤ i.toNat ∨ isResult s.live c i.toNat = true) →
      (fx.sw.filter (fun e => e.1 ≠ i.toNat)).length < 8 →
      Completes (.stateWordWrite k i v) s (holds { fx with sw := fx.sw.filter (fun e => e.1 ≠ i.toNat) ++ [(i.toNat, v)] }))

/-- A routine starts with the state its channel has, reads, goes on, commits and ends (R129, R130, R136, R140–R143, R156). -/
def Obligations.RoutineFlow : Prop :=
  (∀ s (k : Fin 8) slot, engineUp s.live k = true → (s.live.cluster k).state = 1 → (s.live.cluster k).paused = false →
    (s.live.cluster k).run = none → pickThread s.live k = some slot →
    Completes (.routineStart k) s fun t =>
      let y := s.live.chan (64 * k.val + slot)
      (∃ r, (t.live.cluster k).run = some r ∧ r.slot = slot ∧ r.addr = y.stored ∧ r.req = y.req ∧ r.lnkd = y.lnkd ∧
        r.capa = y.capa ∧ r.capb = y.capb ∧ r.x = List.replicate 8 0 ∧ r.committed = false ∧ r.used = 0 ∧ r.staged = {} ∧
        r.budget = s.live.cfg (0x4100 + k.val) 0x20) ∧
      t.live.chan (64 * k.val + slot) = { y with thread := .running, fresh := 0, mcRestart := false,
                                                         linkSampled := y.linkSampled || y.req.getLsbD 4 } ∧
      SameMemory s t) ∧
  (∀ s (k : Fin 8) r, running s.live k = some r →
    let c := runChan k r
    let goes := fun (addr : Nat) (t : State) =>
      (t.live.cluster k).run = some { r with addr := BitVec.ofNat 12 addr } ∧ t.live.channels = s.live.channels ∧ SameMemory s t
    (∀ i : BitVec 5, Completes (.stateWordRead k i) s fun t =>
      (t.live.cluster k).run = some { r with swRead := seenWord s.live c r i.toNat } ∧ t.live.channels = s.live.channels) ∧
    (∀ v : Word, Completes (.tableReadStart k v) s fun t =>
      (t.live.cluster k).tpend = some (field v.toNat 31 0) ∧ (t.live.cluster k).tready = false ∧ (t.live.cluster k).terr = false ∧
      t.live.channels = s.live.channels) ∧
    (∀ naddr : BitVec 12, Completes (.nextGo k naddr) s (goes naddr.toNat)) ∧
    (∀ (naddr : BitVec 12) b, Completes (.nextTwoWay k naddr b) s (goes (naddr.toNat / 2 * 2 + b2n b))) ∧
    (∀ naddr : BitVec 12, Completes (.nextDispatch k naddr) s
      (goes (naddr.toNat / 16 * 16 + (s.live.chan c).func.toNat % 16))) ∧
    (r.committed = true → (s.live.chan c).en = true → s.live.flag (0x2100 + k.val) 1 = true → (s.live.chan c).startDue = none → ∀ naddr : BitVec 12,
      Completes (.nextEnd k naddr) s fun t =>
        (t.live.cluster k).run = none ∧ (t.live.chan c).stored = naddr ∧
        (t.live.chan c).thread = (if (s.live.chan c).req = 0 then .idle else .ready) ∧ (t.live.chan c).abandons = 0 ∧
        SameMemory s t) ∧
    (r.committed = false → Completes (.microCommit k) s fun t =>
      (t.live.cluster k).run = some { r with committed := true, staged := {} } ∧
      (t.live.chan c).sw = r.staged.sw.foldl (fun m e => m.put 0 e.1 e.2) (s.live.chan c).sw ∧
      (t.live.chan c).fl = clrMask ((s.live.chan c).fl ||| r.staged.fset) r.staged.fclr ∧ SameMemory s t)) ∧
  (∀ s (k : Fin 8) off, engineUp s.live k = true → (s.live.cluster k).tlost = [] → (s.live.cluster k).tpend = some off →
    off % 8 = 0 → off < tableSize →
    Completes (.tableReadDone k .clean) s fun t =>
      (t.live.cluster k).tdata = BitVec.ofNat 64 (ofBytesLE (readBytes s.live.mem (tableBase + off) 8)) ∧
      (t.live.cluster k).tready = true ∧ (t.live.cluster k).terr = false ∧ (t.live.cluster k).tpend = none ∧
      t.live.channels = s.live.channels ∧ SameMemory s t)

/-- The next microword executes, with its result, its time and its successor; a DIV word takes its operands and its time; a
word with END ends the run; a ROM function runs to its END (R124, R125, R129, R131, R143). A WAIT word stalls, is released by its
condition or ends by its timeout (R134); a fetched word that fails its check is a machine check (R123, R128, R168). -/
def Obligations.MicrowordsComplete : Prop :=
  (∀ s (k : Fin 8) r, running s.live k = some r → r.div = none →
    let w := if r.stall.isSome then r.word else (microFetch s.live k r.addr.toNat).1
    (r.stall = none → fetchCheck s.live k r.addr.toNat false = none ∧ romFunctionAt r.addr.toNat = none) →
    r.used + wordTime w ≤ r.budget →
    ((r.stall = none → mwWait w = false) → (r.stall.isSome = true → waitCond s.live k r w = true ∨ waitLast r w = true) →
      (mwAop w ≠ 0xA → StagingRoom r) →
      Completes (.microwordExecute k none) s fun t => ∃ b, WordDone s t k r w b) ∧
    (r.stall = none → mwWait w = true → waitCond s.live k r w = true ∨ waitLast r w = true → (mwAop w ≠ 0xA → StagingRoom r) →
      Completes (.microwordExecute k none) s fun t => WordDone s t k r w (waitCond s.live k r w)) ∧
    ((r.stall.isSome = true ∨ mwWait w = true) → waitCond s.live k r w = false → waitLast r w = false →
      Completes (.microwordExecute k none) s (WordStalls s k r w))) ∧
  (∀ s (k : Fin 8) r f, running s.live k = some r → r.div = none → r.stall = none → romFunctionAt r.addr.toNat = some f →
    fetchCheck s.live k r.addr.toNat false = none → r.used < r.budget → r.used + romPath f ≤ r.budget →
    (r.committed = true ∨ mergeFits r.staged (romStages k f r s.live).1 = true) →
    Completes (.microwordExecute k none) s fun t =>
      (t.live.cluster k).run = none ∧ (t.live.cluster k).busy = (s.live.cluster k).busy + romPath f ∧
      ((s.live.chan (runChan k r)).startDue = none →
        (t.live.chan (runChan k r)).stored = BitVec.ofNat 12 (romEntry f) ∧ (t.live.chan (runChan k r)).romFn = some f) ∧
      SameMemory s t) ∧
  (∀ s (k : Fin 8) r, running s.live k = some r → r.div = none → r.stall = none → 0xC00 ≤ r.addr.toNat → r.used < r.budget →
    (∀ t', s.live.micro.lastMcAt = some t' → t' + 400000000 ≤ s.live.now) →
    Completes (.microwordExecute k none) s fun t =>
      (t.live.cluster k).run = none ∧ (t.live.cluster k).state = 2 ∧ (t.live.cluster k).status.getLsbD 2 = true ∧
      (t.live.cluster k).recovery = some ⟨r.addr, 2⟩ ∧ (t.live.chan (runChan k r)).thread = .halted ∧ SameMemory s t) ∧
  (∀ s (k : Fin 8) r w, waitWord s.live k = some (r, w) → waitCond s.live k r w = false → waitLast r w = false →
    Completes (.microwordWait k) s (WordStalls s k r w)) ∧
  (∀ s (k : Fin 8) addr cause, badWait s.live k = some (addr, cause) →
    (∀ t', s.live.micro.lastMcAt = some t' → t' + 400000000 ≤ s.live.now) →
    Completes (.microwordWait k) s fun t =>
      (t.live.cluster k).run = none ∧ (t.live.cluster k).state = 2 ∧ (t.live.cluster k).status.getLsbD 2 = true ∧
      (t.live.cluster k).recovery = some ⟨BitVec.ofNat 12 addr, cause⟩ ∧ SameMemory s t) ∧
  (∀ s (k : Fin 8) r w, waitWord s.live k = some (r, w) → r.stall.isSome = true → r.used + wordTime w ≤ r.budget →
    (mwAop w ≠ 0xA → StagingRoom r) →
    (waitCond s.live k r w = true → Completes (.waitRelease k) s fun t => WordDone s t k r w true) ∧
    (waitCond s.live k r w = false → waitLast r w = true → Completes (.waitTimeout k) s fun t => WordDone s t k r w false))

/-- An abandoned routine leaves no trace but the READY thread that will restart; a routine over its budget ends in RUNAWAY, with its
T-pins in failsafe and the device disarmed (R158–R161). Machine-check recovery, the scrubber, the load figure, and images with their
activation (R167, R170–R172, R176–R178). -/
def Obligations.EngineUpkeepComplete : Prop :=
  (∀ s (k : Fin 8) r, running s.live k = some r → hiLane s.live (runChan k r) = false → r.committed = false → r.protect = false →
    r.div = none → (s.live.cluster k).paused = false → r.slot < 64 →
    (firstReady s.live k true (s.live.cluster k).lastHi).isSome = true →
    Completes (.routineAbandon k) s fun t =>
      (t.live.cluster k).run = none ∧ (t.live.cluster k).kept = some (runChan k r % 64) ∧
      (t.live.cluster k).abandonCnt = (s.live.cluster k).abandonCnt + 1 ∧
      t.live.chan (runChan k r) = { s.live.chan (runChan k r) with
        thread := .ready, restart := true,
        abandons := if (s.live.chan (runChan k r)).abandons < 255 then (s.live.chan (runChan k r)).abandons + 1 else 255 } ∧
      (∀ d, d ≠ runChan k r → t.live.chan d = s.live.chan d) ∧ t.live.tpins = s.live.tpins ∧ t.live.irq = s.live.irq ∧
      SameMemory s t) ∧
  (∀ s (k : Fin 8) r, running s.live k = some r → r.div = none → overBudget s.live k r = true →
    Completes (.runaway k) s fun t =>
      (t.live.cluster k).run = none ∧ (t.live.cluster k).status = setBit (s.live.cluster k).status 0 ∧
      (t.live.cluster k).runawayCnt = (s.live.cluster k).runawayCnt + 1 ∧ (t.live.chan (runChan k r)).thread = .runaway ∧
      (t.live.chan (runChan k r)).cstat.getLsbD 7 = true ∧ (t.live.chan (runChan k r)).sw = (s.live.chan (runChan k r)).sw ∧
      t.live.pwm.arm = .disarmed ∧ SameMemory s t) ∧
  (∀ s (k : Fin 8) addr rom, (s.live.cluster k).recovery = some ⟨addr, 0⟩ → engineUp s.live k = true →
    bitOf (s.live.cluster k).status.toNat 5 = false → s.live.cfg (0x4100 + k.val) 0x21 ≠ 1 →
    Completes (.mcRecoveryDone k true true rom) s fun t =>
      (t.live.cluster k).recovery = none ∧ (t.live.cluster k).state = (if s.live.flag (0x2100 + k.val) 1 then 1 else 0) ∧
      SameMemory s t) ∧
  (∀ s (k : Fin 8), engineUp s.live k = true → (s.live.cluster k).scrubPos < 0x800 →
    parityHolds (storeWordAt s.live k (s.live.cluster k).scrubPos) = true →
    Completes (.scrubRead k none) s fun t =>
      t.live.cluster k = { s.live.cluster k with scrubPos := ((s.live.cluster k).scrubPos + 1) % 3072 } ∧
      t.live.channels = s.live.channels ∧ SameMemory s t) ∧
  (∀ s (k : Fin 8) a r, engineUp s.live k = true → (s.live.cluster k).poisoned = a :: r →
    Completes (.scrubRepairDone k true) s fun t =>
      (t.live.cluster k).poisoned = r ∧ t.live.channels = s.live.channels ∧ SameMemory s t) ∧
  (∀ s, schedUp s.live = true →
    Completes .loadMeasure s fun t => ∀ k : Fin 8,
      (t.live.cluster k).busy = 0 ∧
      ((divFree (((s.live.cluster k).busy * 65536 : Nat) : Int) 2000000).toNat < 65536 →
        (t.live.cluster k).load = BitVec.ofNat 16 (divFree (((s.live.cluster k).busy * 65536 : Nat) : Int) 2000000).toNat) ∧
      SameMemory s t) ∧
  (∀ s conn data, Reaches conn 0x5E31 1 s → (s.live.net.nmt = nmtPre ∨ s.live.net.nmt = nmtOp) → s.live.micro.todo = [] →
    data.length ≤ 278528 →
    Completes (.microcodeImageWrite conn data) s fun t =>
      (if s.live.micro.activeCopy = 0 then t.live.mram.microB else t.live.mram.microA) = data ∧
      t.live.micro.accepted = microImageOk data ∧ t.live.clusters = s.live.clusters ∧ AnsweredDone conn t ∧ SameMemory s t) ∧
  (∀ s conn (k : Nat) ks, Reaches conn 0x5E31 2 s → s.live.micro.todo = [] → activateReason s.live = 0 →
    (List.range 8).filter (fun k => bitOf (imgMask (microCopy s.live (spareCopy s.live))) k) = k :: ks →
    Completes (.microcodeActivate conn) s fun t =>
      t.live.micro.todo = k :: ks ∧ t.live.micro.status = 4 ∧ (t.live.cluster k).paused = true ∧ AnsweredDone conn t ∧
      SameMemory s t) ∧
  (∀ s k rest, coreUp s.live = true → s.live.micro.todo = k :: rest → (s.live.cluster k).run = none →
    Completes (.activationClusterDone true) s fun t =>
      t.live.micro.todo = rest ∧ (t.live.cluster k).status.getLsbD 4 = true ∧ SameMemory s t)

/-! ### Event table (07) -/

/-- An insert takes a free entry and walks to its queue; a cancel is staged; the walk's end puts the entry into its queue, dormant for
its group or live (R182, R191, R192, R194). A read request copies a queue or an entry, and its end publishes the result; the stored
image is checked and kept (R204, R208). -/
def Obligations.InsertsAndReadsComplete : Prop :=
  (∀ s conn (data : List Byte) e, Reaches conn 0x2810 1 s → data.length = 17 → fieldLE data 0 1 < 64 →
    groupArmed s.live (fieldLE data 0 1) = false → insertReason s.live (fieldLE data 1 16) = 0 →
    (allocEntry s.live).1 = some e →
    Completes (.eventInsert conn data) s fun t =>
      t.live.entry e = { entryOf (fieldLE data 1 16) with phase := .walking (some (fieldLE data 0 1)) false } ∧
      t.live.events.fifo = (if fifoFull s.live then s.live.events.fifo else s.live.events.fifo ++ [e]) ∧
      t.live.events.waiting = (if fifoFull s.live then s.live.events.waiting ++ [e] else s.live.events.waiting) ∧ (t.live.connSt (connId conn)).lastAlloc = BitVec.ofNat 16 e ∧
      AnsweredDone conn t ∧ SameMemory s t) ∧
  (∀ s conn (value : BitVec 32), Reaches conn 0x2810 2 s → field value.toNat 23 12 = 0 → field value.toNat 31 24 < 64 →
    groupArmed s.live (field value.toNat 31 24) = false → (s.live.entry (field value.toNat 11 0)).phase ≠ .free →
    Completes (.eventCancel conn value) s fun t =>
      let g := field value.toNat 31 24
      (t.live.group g).staged.cancels = (s.live.group g).staged.cancels ++ [field value.toNat 11 0] ∧
      t.live.events.entries = s.live.events.entries ∧ AnsweredDone conn t ∧ SameMemory s t) ∧
  (∀ s e rest g b, schedUp s.live = true → s.live.events.fifo = e :: rest → (s.live.entry e).phase = .walking g b →
    listed s.live (s.live.entry e).queue = false → s.live.events.walkFrom + 2 * walkTime s.live e ≤ s.live.now →
    Completes .insertWalkDone s fun t =>
      (s.live.events.waiting = [] → t.live.events.fifo = rest) ∧ e ∈ (t.live.queue (s.live.entry e).queue).order ∧
      (t.live.entry e).phase = (match g with
        | some g => .dormant g
        | none => .live) ∧ SameMemory s t) ∧
  (∀ s conn (value : BitVec 16), Reaches conn 0x2811 3 s → value.toNat < 0x1010 → s.live.events.listing = none →
    Completes (.eventReadRequest conn value) s fun t =>
      t.live.events.listing.isSome = true ∧ t.live.events.poolStatus = setBit s.live.events.poolStatus 2 ∧
      t.live.events.entries = s.live.events.entries ∧ AnsweredDone conn t ∧ SameMemory s t) ∧
  (∀ s q r, s.live.events.listing = some (q, r) →
    Completes .eventListingDone s fun t =>
      t.live.events.listing = none ∧ t.live.events.listResult = r ∧
      t.live.events.poolStatus = clrBit s.live.events.poolStatus 2 ∧ SameMemory s t) ∧
  (∀ s conn data, Reaches conn 0x2811 1 s → eventImageOk s.live data = true →
    Completes (.eventImageWrite conn data) s fun t =>
      t.live.mram = { s.live.mram with eventImage := data } ∧ t.live.events = { s.live.events with imageStatus := 1 } ∧
      AnsweredDone conn t ∧ SameMemory s t)

/-- A flush frees every live entry of its queue, and every post and reinsertion bound for it that waits or walks; one that a read is copying
leaves at the end of the copy. Every other entry stays, and FLUSHED is set (R186, R208). -/
def Obligations.FlushFreesQueue : Prop :=
  ∀ s conn (q : Fin 16), Reaches conn (0x2800 + q.val) 7 s →
    Completes (.queueFlush conn q) s fun t =>
      (t.live.queue q).status = setBit (s.live.queue q).status 6 ∧
      (∀ e, (s.live.entry e).queue = q.val → ((s.live.entry e).phase = .live ∨ ∃ b, (s.live.entry e).phase = .walking none b) →
        (t.live.entry e).phase = (if listed s.live q then .leaving else .free) ∧ (t.live.entry e).armed = none ∧
        e ∉ t.live.events.fifo ∧ e ∉ t.live.events.waiting) ∧
      (∀ e, (s.live.entry e).queue = q.val → (s.live.entry e).phase ≠ .live → (∀ b, (s.live.entry e).phase ≠ .walking none b) →
        t.live.entry e = s.live.entry e) ∧
      (∀ e, (s.live.entry e).queue ≠ q.val → t.live.entry e = s.live.entry e) ∧ AnsweredDone conn t ∧ SameMemory s t

/-- The scheduler pre-arms the earliest eligible entry, lands its pin action and fires it in its slot: the action is done, the queue
counts it, and an entry without repetition is freed (R185, R195, R196, R202). -/
def Obligations.SchedulerCompletes : Prop :=
  (∀ s e d, schedUp s.live = true → s.live.events.prearmAt ≠ some (s.live.now / 2) → armedEntries s.live < 32 →
    earliest s.live (List.range 16) = some (e, d) →
    Completes .eventPrearm s fun t =>
      t.live.entry e = { s.live.entry e with armed := some (if d.late then s.live.now else d.at_), fine := d.fine, late := d.late } ∧
      t.live.events.prearmAt = some (s.live.now / 2) ∧ t.live.channels = s.live.channels ∧ SameMemory s t) ∧
  (∀ s (e : BitVec 12) due, schedUp s.live = true → s.live.events.slotAt ≠ some (s.live.now / 2) →
    slotWinner s.live = some (e.toNat, due) → s.live.now = due → (s.live.entry e.toNat).late = false →
    (s.live.entry e.toNat).per = 0 → (s.live.entry e.toNat).phase = .live → boundaryCommitDue s.live = false →
    listed s.live (s.live.entry e.toNat).queue = false →
    ((s.live.entry e.toNat).act = 0 →
      Completes (.eventFire e) s fun t =>
        t.live.entry e.toNat = {} ∧
        (t.live.queue (s.live.entry e.toNat).queue).fired = (s.live.queue (s.live.entry e.toNat).queue).fired + 1 ∧
        t.live.events.slotAt = some (s.live.now / 2) ∧ t.live.channels = s.live.channels ∧ SameMemory s t) ∧
    ((s.live.entry e.toNat).act = 1 → blockHeld s.live ((s.live.entry e.toNat).tgt / 64) = false →
      Completes (.eventFire e) s fun t =>
        t.live.entry e.toNat = {} ∧
        (t.live.chan (s.live.entry e.toNat).tgt).req = (s.live.chan (s.live.entry e.toNat).tgt).req ||| 0x40 ∧
        (t.live.queue (s.live.entry e.toNat).queue).fired = (s.live.queue (s.live.entry e.toNat).queue).fired + 1 ∧
        SameMemory s t)) ∧
  (∀ s (e : BitVec 12) a, schedUp s.live = true → pinActOf (s.live.entry e.toNat) = some a →
    readyAt s.live e.toNat = some s.live.now → (s.live.entry e.toNat).late = false → (s.live.entry e.toNat).landed = false →
    driverOf s.live (s.live.entry e.toNat).tgt = 0xFFFE → commitFirst s.live = false →
    Completes (.eventPinLand e) s fun t =>
      (t.live.tpin (s.live.entry e.toNat).tgt).latch = applyAct a (s.live.tpin (s.live.entry e.toNat).tgt).latch ∧
      t.live.entry e.toNat = { s.live.entry e.toNat with landed := true } ∧ t.live.channels = s.live.channels ∧ SameMemory s t)

/-- The actions of event entries on their targets (R184, R185). -/
def Obligations.EventActionsComplete : Prop :=
  ∀ s (q : Fin 16), schedUp s.live = true →
    (∀ c : Fin 512, blockHeld s.live (c.val / 64) = false → Completes (.kickChannel q c) s fun t =>
      (t.live.chan c).req = (s.live.chan c).req ||| 0x40 ∧ t.live.events = s.live.events ∧ SameMemory s t) ∧
    (∀ (n : Fin 192) (fine : BitVec 6), driverOf s.live n = 0xFFFE →
      Completes (.eventPinSet q n fine) s (fun t => (t.live.tpin n).latch = true ∧ t.live.channels = s.live.channels ∧ SameMemory s t) ∧
      Completes (.eventPinClear q n fine) s (fun t => (t.live.tpin n).latch = false ∧ t.live.channels = s.live.channels ∧
        SameMemory s t) ∧
      Completes (.eventPinToggle q n fine) s (fun t => (t.live.tpin n).latch = !(s.live.tpin n).latch ∧
        t.live.channels = s.live.channels ∧ SameMemory s t)) ∧
    (∀ (n : Fin 192) (fine : BitVec 6), driverOf s.live n < 512 → blockHeld s.live (driverOf s.live n / 64) = false →
      (s.live.chan (driverOf s.live n)).outTclk ≠ s.live.now →
      Completes (.eventPinSet q n fine) s (fun t => (t.live.chan (driverOf s.live n)).out = true ∧ SameMemory s t) ∧
      Completes (.eventPinClear q n fine) s (fun t => (t.live.chan (driverOf s.live n)).out = false ∧ SameMemory s t) ∧
      Completes (.eventPinToggle q n fine) s
        (fun t => (t.live.chan (driverOf s.live n)).out = !(s.live.chan (driverOf s.live n)).out ∧ SameMemory s t)) ∧
    (∀ g : Fin 64, groupArmed s.live g = true → s.live.cfg (0x2C00 + g.val) 1 = 1 → memberHeld s.live g = false →
      commitBreaks s.live g = false → Completes (.commitTrigger q g) s fun t =>
        (t.live.group g).state = .idle ∧ (t.live.group g).staged = {} ∧ t.live.conf.gen = s.live.conf.gen + 1) ∧
    (∀ n : Fin 4, blockHeld s.live 0x18 = false → analogUp s.live = true → analogOn s.live = true → calibrating s.live = false →
      (s.live.seq n).run = none → Completes (.startSequence q n) s fun t =>
        (∃ p, (t.live.seq n).run = some p ∧ p.step = 0 ∧ p.startedAt = none) ∧ (t.live.seq n).notBefore = pclkAt s.live.now ∧
        SameMemory s t) ∧
    (∀ n : Fin 8, ssiMode s.live n = true → blockHeld s.live (0x20 + n.val) = false → Completes (.ssiFrameRequest q n) s fun t =>
      t.live.port n = (ssiRequest n s.live).port n ∧ t.live.events = s.live.events ∧ SameMemory s t) ∧
    (∀ slot : Fin 13, (slot.val = 0 ∨ slotUsed s.live slot = true) → (overlayReason slot s.live).1 = 0 →
      Completes (.applyOverlay q slot) s fun t =>
        t.live.conf.active = slot.val ∧ t.live.conf.ovl = (overlayReason slot s.live).2) ∧
    (∀ c : Fin 32, (s.live.dc c).state = .running → blockHeld s.live 0x40 = false → Completes (.dmaRequest q c) s fun t =>
      t.live.dc c = (dmaSoft c s.live).dc c ∧ t.live.events = s.live.events ∧ SameMemory s t) ∧
    (∀ c : Fin 32, (s.live.dc c).state ≠ .running → Completes (.dmaRequest q c) s fun t =>
      t.live.dc c = s.live.dc c ∧ (t.live.queue q).status = setBit (s.live.queue q).status 4 ∧
      (t.live.queue q).faultCnt = (s.live.queue q).faultCnt + 1 ∧ SameMemory s t) ∧
    (∀ (e : Fin 16) m n, unitUp (0x30 + e.val) s.live = true → Completes (.pinEngineFlags q e m n) s fun t =>
      (t.live.pe e).flags = clearedFlags s.live (s.live.pe e) n ||| m ∧ t.live.events = s.live.events ∧ SameMemory s t) ∧
    (∀ arg : BitVec 32, s.live.logOn = true → (s.live.log.waiting.get [] (576 + q.val)).length < 16 →
      Completes (.logMark q arg) s fun t =>
        t.live.log.waiting.get [] (576 + q.val) = s.live.log.waiting.get [] (576 + q.val)
          ++ [⟨BitVec.ofNat 16 (0x9000 + 0x40 * q.val), 0x33, arg, s.live.time.dtime⟩] ∧ SameMemory s t) ∧
    (s.live.snap.copying = false → s.live.snap.waiting = false → Completes (.eventSnapshot q) s fun t =>
      t.filling = some ⟨nextSeq s.live.snap, s.live.time.dtime,
        { s.start with snap := { s.start.snap with seq := nextSeq s.live.snap, dtime := s.live.time.dtime } }⟩)

/-! ### Wheel trackers (08) -/

/-- Accepted edges move a tracker from STOPPED through SEEKING and PRE-SYNC to SYNC and then set the base of each tooth; an edge below
the noise limit is counted and otherwise ignored (R211–R217). -/
def Obligations.ToothEdgesComplete : Prop :=
  ∀ s (w : Fin 4) stamp rising, takesEdge s.live w rising stamp = true →
    let x := s.live.wheel w
    let e := s.live.widen stamp
    let d := e - x.lastEdge.getD 0
    let k := wheelM s.live w + 1
    (x.lastEdge = none → x.state = .stopped → Completes (.toothEdge w ⟨rising, stamp⟩) s fun t =>
      (t.live.wheel w).state = .seeking ∧ (t.live.wheel w).lastEdge = some e ∧ (t.live.wheel w).edges = 1 ∧
      (t.live.wheel w).lane = x.lane ∧ SameMemory s t) ∧
    (x.lastEdge.isSome = true → x.refNum = 0 → 2048 ≤ d → Completes (.toothEdge w ⟨rising, stamp⟩) s fun t =>
      (t.live.wheel w).refNum = d ∧ (t.live.wheel w).refDiv = 1 ∧ (t.live.wheel w).state = x.state ∧
      (t.live.wheel w).lastEdge = some e ∧ (t.live.wheel w).edges = min 2 (x.edges + 1) ∧ SameMemory s t) ∧
    (x.lastEdge.isSome = true → x.refNum ≠ 0 → ratioBelow x d 1 (ratioLimit s.live w 0x20) = true →
      Completes (.toothEdge w ⟨rising, stamp⟩) s fun t =>
        (t.live.wheel w).noiseCnt = x.noiseCnt + 1 ∧ (t.live.wheel w).status = setBit x.status 2 ∧
        (t.live.wheel w).state = x.state ∧ (t.live.wheel w).lastEdge = x.lastEdge ∧ (t.live.wheel w).hist = x.hist ∧
        (t.live.wheel w).lane = x.lane ∧ t.live.events = s.live.events ∧ SameMemory s t) ∧
    (x.lastEdge.isSome = true → x.refNum ≠ 0 → ratioBelow x d 1 (ratioLimit s.live w 0x20) = false → x.state = .seeking →
      2048 ≤ d → gapCandidate s.live w d = true → Completes (.toothEdge w ⟨rising, stamp⟩) s fun t =>
        (t.live.wheel w).state = .preSync ∧ (t.live.wheel w).lane = 0 ∧ (t.live.wheel w).tooth = 0 ∧
        (t.live.wheel w).base = 0 ∧ (t.live.wheel w).baseAt = e * 65536 ∧ (t.live.wheel w).refNum = d ∧
        (t.live.wheel w).refDiv = k ∧ SameMemory s t) ∧
    (x.lastEdge.isSome = true → x.refNum ≠ 0 → ratioBelow x d 1 (ratioLimit s.live w 0x20) = false → x.state = .preSync →
      x.refEdge = none → closesGap s.live w = true → ratioBelow x d k (ratioLimit s.live w 0x21) = false →
      ratioAbove x d k (ratioLimit s.live w 0x22) = false → 2048 * k ≤ d → Completes (.toothEdge w ⟨rising, stamp⟩) s fun t =>
        (t.live.wheel w).state = .sync ∧ (t.live.wheel w).status.getLsbD 0 = true ∧ (t.live.wheel w).tooth = 0 ∧
        (t.live.wheel w).baseAt = e * 65536 ∧ (t.live.wheel w).lastEdge = some e ∧ SameMemory s t) ∧
    (x.lastEdge.isSome = true → x.refNum ≠ 0 → ratioBelow x d 1 (ratioLimit s.live w 0x20) = false → x.state.runs = true →
      x.refEdge = none → x.virt = false → closesGap s.live w = false → ratioBelow x d 1 (ratioLimit s.live w 0x23) = true →
      2048 ≤ d → Completes (.toothEdge w ⟨rising, stamp⟩) s fun t =>
        (t.live.wheel w).state = x.state ∧ (t.live.wheel w).tooth = x.tooth + 1 ∧
        (t.live.wheel w).base = (x.base + x.span) % x.cyc ∧ (t.live.wheel w).baseAt = e * 65536 ∧
        (t.live.wheel w).span = toothSpan s.live w (x.tooth + 1) ∧ (t.live.wheel w).refNum = d ∧
        (t.live.wheel w).refDiv = 1 ∧ (t.live.wheel w).run = x.run + 1 ∧ (t.live.wheel w).lastEdge = some e ∧ SameMemory s t)

/-- What a tracker does at its deadlines: a virtual tooth, the loss of synchronism, the stop, the hold of the lane, the end of a
catch-up and a missing reference edge (R213, R215, R218–R220, R225). -/
def Obligations.TrackerDeadlinesComplete : Prop :=
  ∀ s (w : Fin 4), wheelUp s.live w = true →
    let x := s.live.wheel w
    (x.state.synced = true → x.virt = false → x.refEdge = none → closesGap s.live w = false →
      intervalReached s.live w 1 x.held.missLow = true → Completes (.virtualTooth w) s fun t =>
        (t.live.wheel w).missedCnt = x.missedCnt + 1 ∧ (t.live.wheel w).virt = true ∧
        (t.live.wheel w).tooth = (x.tooth + 1) % (wheelN s.live w - wheelM s.live w) ∧
        (t.live.wheel w).baseAt = x.lastEdge.getD 0 * 65536 + x.period ∧ (t.live.wheel w).state = x.state ∧
        (t.live.wheel w).status.getLsbD 3 = true ∧ SameMemory s t) ∧
    (x.state.synced = true → closesGap s.live w = false → intervalReached s.live w 1 x.held.missHigh = true →
      Completes (.toothTimeoutLost w) s fun t =>
        (t.live.wheel w).state = .lost ∧ (t.live.wheel w).lossCnt = x.lossCnt + 1 ∧ (t.live.wheel w).lastLoss = 3 ∧
        (t.live.wheel w).lane = x.lane ∧ SameMemory s t) ∧
    (x.state.runs = true → closesGap s.live w = true →
      intervalReached s.live w (wheelM s.live w + 1) x.held.gapHigh = true → Completes (.gapLate w) s fun t =>
        (t.live.wheel w).state = (if x.state = .preSync then .seeking else .lost) ∧
        (t.live.wheel w).lossCnt = (if x.state = .preSync then x.lossCnt else x.lossCnt + 1) ∧
        (t.live.wheel w).lane = x.lane ∧ SameMemory s t) ∧
    (∀ e, x.state ≠ .stopped → x.lastEdge = some e → e + x.held.stall * 400 ≤ s.live.now →
      Completes (.trackerStall w) s fun t =>
        (t.live.wheel w).state = .stopped ∧ (t.live.wheel w).refNum = 0 ∧ (t.live.wheel w).lastEdge = none ∧
        (t.live.wheel w).hist = [] ∧ (t.live.wheel w).lane = x.lane ∧
        (t.live.wheel w).status.getLsbD 8 = (x.status.getLsbD 8 || decide (x.state ≠ .seeking)) ∧ SameMemory s t) ∧
    (x.state.runs = true → x.rel = (x.span : Int) - 1 → (x.span : Int) - 1 ≤ x.ticks s.live.now →
      Completes (.laneHold w) s fun t =>
        (t.live.wheel w).status.getLsbD 9 = true ∧ (t.live.wheel w).lane = x.lane ∧ (t.live.wheel w).state = x.state ∧
        SameMemory s t) ∧
    (x.catching = true → x.goal s.live.now ≤ x.rel → Completes (.catchupEnd w) s fun t =>
      (t.live.wheel w).catching = false ∧ (t.live.wheel w).status.getLsbD 10 = false ∧ (t.live.wheel w).lane = x.lane ∧
      SameMemory s t) ∧
    (x.state = .cycleSync → x.cyc + x.held.cam + x.camDue ≤ x.sinceRef → Completes (.camMissing w) s fun t =>
      t.live.wheel w = { x with status := setBit x.status 6, camCnt := x.camCnt + 1, camDue := x.camDue + x.cyc } ∧
      t.live.events = s.live.events ∧ SameMemory s t)

/-! ### Feedback ports (09) -/

/-- Counts, index, presets, Hall steps, probes, the observer and the output readback of a feedback port (R233–R241, R252–R262). -/
def Obligations.FeedbackPortsComplete : Prop :=
  ∀ s (n : Fin 8),
    let p := s.live.port n
    let m := fbMode s.live n
    let inv := fun (d : Int) => if s.live.flag (0x2500 + n.val) 2 then -d else d
    (∀ stamp a b d, portOn s.live n = true → (m = 1 ∨ m = 3) → settled s.live (s.live.cfg (0x2500 + n.val) 3) stamp = true → d ≠ 0 →
      quadCount (p.lines.getLsbD 0) (p.lines.getLsbD 1) a b = some d → Completes (.quadratureTransition n stamp a b) s fun t =>
        (t.live.port n).pos = addPos p.pos (inv d) ∧ (t.live.port n).lines = putBit (putBit p.lines 0 a) 1 b ∧
        (t.live.port n).posDtime = BitVec.ofNat 64 (s.live.widen stamp) ∧ (t.live.port n).illegalCnt = p.illegalCnt ∧
        SameMemory s t) ∧
    (∀ stamp a b, portOn s.live n = true → (m = 1 ∨ m = 3) → settled s.live (s.live.cfg (0x2500 + n.val) 3) stamp = true →
      quadCount (p.lines.getLsbD 0) (p.lines.getLsbD 1) a b = none → Completes (.quadratureTransition n stamp a b) s fun t =>
        (t.live.port n).pos = p.pos ∧ (t.live.port n).illegalCnt = p.illegalCnt + 1 ∧
        (t.live.port n).status.getLsbD 18 = true ∧ (t.live.port n).lines = putBit (putBit p.lines 0 a) 1 b ∧ SameMemory s t) ∧
    (∀ stamp rising, portOn s.live n = true → (m = 1 ∨ m = 5) → settled s.live (s.live.cfg (0x2500 + n.val) 3) stamp = true →
      rising = decide (s.live.cfg (0x2500 + n.val) 6 = 0) →
      (s.live.cfg (0x2500 + n.val) 7 = 0 ∨
        s.live.cfg (0x2500 + n.val) 7 = b2n (p.lines.getLsbD 0) * 2 + b2n (p.lines.getLsbD 1) + 1) →
      let mode := s.live.cfg (0x2500 + n.val) 5
      Completes (.indexEdge n ⟨rising, stamp⟩) s fun t =>
        (t.live.port n).pos = (if mode = 1 ∨ mode = 2 ∧ p.status.getLsbD 17 = true then
          BitVec.ofNat 48 (s.live.cfg (0x2500 + n.val) 8) else p.pos) ∧
        (mode = 2 → (t.live.port n).status.getLsbD 17 = false) ∧
        (t.live.port n).idxPos = p.pos ∧ (t.live.port n).idxDtime = BitVec.ofNat 64 (s.live.widen stamp) ∧
        (t.live.port n).idxSeen = true ∧ (t.live.port n).pLast = (t.live.port n).pos ∧ SameMemory s t) ∧
    (∀ conn, Reaches conn (0x2500 + n.val) 9 s → (m = 1 ∨ m = 5) → portUp s.live n = true →
      Completes (.indexArm conn n) s (fun t =>
        t.live.port n = { p with status := putBit p.status 17 true } ∧ AnsweredDone conn t ∧ SameMemory s t) ∧
      Completes (.indexDisarm conn n) s (fun t =>
        t.live.port n = { p with status := putBit p.status 17 false } ∧ AnsweredDone conn t ∧ SameMemory s t)) ∧
    (∀ conn v, Reaches conn (0x2500 + n.val) 0x0A s → portUp s.live n = true → Completes (.presetPosition conn n v) s fun t =>
      (t.live.port n).pos = v ∧ (t.live.port n).extreme = v ∧ (t.live.port n).dir = p.dir ∧ (t.live.port n).state = p.state ∧
      ((m = 1 ∨ 3 ≤ m ∧ m ≤ 5) → (t.live.port n).status.getLsbD 18 = false) ∧ AnsweredDone conn t ∧ SameMemory s t) ∧
    (∀ stamp lines, portOn s.live n = true → m = 4 → settled s.live (s.live.cfg (0x2500 + n.val) 3) stamp = true → p.state = .running →
      hallSector p.lines ≠ 0xFF → hallSector lines ≠ 0xFF →
      (hallSector lines + 6 - hallSector p.lines) % 6 = 1 → Completes (.hallChange n stamp lines) s fun t =>
        (t.live.port n).pos = addPos p.pos (inv 1) ∧ (t.live.port n).lines = lines ∧ SameMemory s t) ∧
    (∀ stamp lines, portUp s.live n = true → m = 4 → settled s.live (s.live.cfg (0x2500 + n.val) 3) stamp = true → p.state = .starting →
      Completes (.hallChange n stamp lines) s fun t => t.live.port n = { p with lines := lines } ∧ SameMemory s t) ∧
    (∀ stamp lines, portOn s.live n = true → m = 4 → settled s.live (s.live.cfg (0x2500 + n.val) 3) stamp = true → p.state ≠ .starting →
      p.lines ≠ lines → hallSector lines = 0xFF →
      Completes (.hallChange n stamp lines) s fun t =>
        (t.live.port n).state = .lost ∧ (t.live.port n).pos = p.pos ∧ (t.live.port n).lines = lines ∧
        (t.live.port n).lineCnt = p.lineCnt + 1 ∧ SameMemory s t) ∧
    (∀ stamp rising, portOn s.live n = true → probeSel s.live n rising = true →
      settled s.live (s.live.cfg (0x2500 + n.val) 0x10) stamp = true → Completes (.probeEdge n ⟨rising, stamp⟩) s fun t =>
      (t.live.port n).probeCount = positionThen p (s.live.widen stamp) ∧ (t.live.port n).probeValid = true ∧
      (t.live.port n).probeDtime = BitVec.ofNat 64 (s.live.widen stamp) ∧ (t.live.port n).probeTag = p.probeTag + 1 ∧
      (t.live.port n).probeCnt = p.probeCnt + 1 ∧ (t.live.port n).capReq = true ∧ (t.live.port n).pos = p.pos ∧ SameMemory s t) ∧
    (portOn s.live n = true → s.live.now % 160 = 0 → Completes (.observerUpdate n) s fun t =>
      (t.live.port n).obsAt = s.live.now ∧
      (p.obs = .running → (t.live.port n).pHat = (obsStep s.live n p).pHat ∧ (t.live.port n).vHat = (obsStep s.live n p).vHat) ∧
      (p.obs ≠ .running → (t.live.port n).pHat = p.pHat ∧ (t.live.port n).vHat = p.vHat) ∧ SameMemory s t) ∧
    (portOn s.live n = true → s.live.now % 160 = 0 → p.moveAt + standTime s.live n < s.live.now → p.obs ≠ .standstill →
      p.obs ≠ .held → Completes (.standstill n) s fun t =>
        t.live.port n = { p with obs := .standstill, vHat := 0, aHat := 0, pHat := obsPos p.pos,
                                 status := setBit (setBit p.status 19) 21 } ∧ SameMemory s t) ∧
    (∀ level, p.ckReleased = false → 8 ≤ s.live.now → ckEdge s.live n (s.live.now - 8) = some level →
      Completes (.feedbackOutputReadback n false level) s (fun t =>
        t.live.port n = { p with ckRun := 0 } ∧ t.live.pwm = s.live.pwm ∧ SameMemory s t) ∧
      (2 ≤ p.ckRun → Completes (.feedbackOutputReadback n false (!level)) s fun t =>
        (t.live.port n).ckReleased = true ∧ (t.live.port n).status.getLsbD 16 = true ∧ t.live.pwm.arm = .disarmed ∧
        SameMemory s t)) ∧
    (portOn s.live n = true → p.state = .starting → (m = 1 ∨ m = 4 ∧ hallSector p.lines ≠ 0xFF) → p.moveAt < s.live.now →
      Completes (.startingToRunning n) s fun t => t.live.port n = { p with state := .running } ∧ SameMemory s t) ∧
    (portOn s.live n = true → p.state = .starting → m = 4 → hallSector p.lines = 0xFF → p.moveAt < s.live.now →
      Completes (.startingToRunning n) s fun t => (t.live.port n).state = .lost ∧ (t.live.port n).lineCnt = p.lineCnt + 1 ∧ SameMemory s t)

/-- The SSI master: a request starts a frame 4 TCLK later, the start bit gives the line delay, the frame is evaluated into the raw
result and the position, and the recovery time follows (R242–R248). -/
def Obligations.SsiFramesComplete : Prop :=
  ∀ s (n : Fin 8), portOn s.live n = true →
    let p := s.live.port n
    let is := fun (q : Port) (t : State) => t.live.port n = q ∧ SameMemory s t
    (ssiMode s.live n = true → s.live.cfg (0x2500 + n.val) 0x17 ≠ 0 → p.nextReq ≤ s.live.now → p.ssi = .idle →
      p.reqAt ≠ some s.live.now → Completes (.ssiPeriodicRequest n) s (is { p with
        nextReq := p.nextReq + s.live.cfg (0x2500 + n.val) 0x17 * 400, reqAt := some s.live.now, ssi := .starting (s.live.now + 4),
        held := none, frame := ssiNow s.live n, frameAt := some (s.live.now + 4), ckRise := none })) ∧
    (∀ tL level, p.ssi = .starting tL → Completes (.ssiFrameStart n level) s
      (is { p with ssi := .waiting tL (level != p.frame.invert) })) ∧
    (∀ tL level, p.ssi = .waiting tL true → p.ckReleased = false → level = p.frame.invert →
      tL ≤ s.live.now → s.live.now ≤ tL + 800 → Completes (.ssiStartBit n level) s
        (is { p with ssi := .sampling tL (s.live.now - tL), delay := BitVec.ofNat 16 (s.live.now - tL) })) ∧
    (∀ tL, p.ssi = .waiting tL true → tL + 800 ≤ s.live.now → Completes (.ssiStartTimeout n) s fun t =>
      (t.live.port n).ssi = .recovery (s.live.now + ssiRec s.live n) ∧ (t.live.port n).ckRise = some s.live.now ∧
      (t.live.port n).frameCnt = p.frameCnt + 1 ∧ (t.live.port n).status.getLsbD 6 = true ∧ (t.live.port n).pos = p.pos ∧
      SameMemory s t) ∧
    (∀ tL d raw, p.ssi = .sampling tL d → tL + ssiL s.live n * 2 * ssiHalf s.live n + d + 2 ≤ s.live.now →
      let bits := (if p.frame.invert then 2 ^ 48 - 1 - raw.toNat else raw.toNat) % 2 ^ ssiL s.live n
      Completes (.ssiFrameEvaluate n raw) s (fun t =>
        (t.live.port n).rawFrame = BitVec.ofNat 48 bits ∧ (t.live.port n).rawTag = p.rawTag + 1 ∧
        (t.live.port n).ssi =
          .recovery (tL + ssiL s.live n * 2 * ssiHalf s.live n + ssiHalf s.live n + ssiRec s.live n) ∧ SameMemory s t) ∧
      (fbMode s.live n = 2 → p.state = .starting → ssiC s.live n = 0 → ssiF s.live n = 0 →
        s.live.flag (0x2500 + n.val) 0x16 = false → Completes (.ssiFrameEvaluate n raw) s fun t =>
          (t.live.port n).pos = BitVec.ofNat 48 bits ∧ (t.live.port n).state = .running ∧ (t.live.port n).rawValid = true ∧
          (t.live.port n).status.getLsbD 18 = false ∧ SameMemory s t)) ∧
    (∀ till, p.ssi = .recovery till → till ≤ s.live.now → Completes (.ssiRecoveryEnd n) s
      (is (if p.held.isSome then
          { p with ssi := .starting (s.live.now + 4), held := none, frame := ssiNow s.live n, frameAt := some (s.live.now + 4), ckRise := none }
        else { p with ssi := .idle })))

/-! ### PWM and trips (10) -/

/-- The waveform of a pair: reload at a boundary and at mid-period, REF edges with dead time, turn-on, start, stream beats and
delay-line calibration (R268–R281). -/
def Obligations.WaveformComplete : Prop :=
  ∀ s (u : Fin 24),
    let p := s.live.pair u
    let dead := p.eff.dead.toNat
    (∀ b, p.nextB = some b → p.state = .running → b / 64 = s.live.now → p.stopDue = false →
      (∀ g, g < 64 → ¬(s.live.cfg (0x2C00 + g) 1 = 4 ∧ s.live.cfg (0x2C00 + g) 2 = u.val)) →
      Completes (.pwmBoundary u) s fun t =>
        (t.live.pair u).eff = (p.settleDeferred false).shadow ∧ (t.live.pair u).boundary = BitVec.ofNat 64 (b % 2 ^ 54) ∧
        (t.live.pair u).lastB = some b ∧ (t.live.pair u).state = .running ∧
        (t.live.pair u).nextB = some (b + periodLen s.live u (t.live.pair u)) ∧ (t.live.pair u).midDone = false ∧ SameMemory s t) ∧
    (∀ b, p.nextB = some b → p.state = .running → b / 64 = s.live.now → p.stopDue = true → Completes (.pwmBoundary u) s fun t =>
      (t.live.pair u).state = .idle ∧ (t.live.pair u).nextB = none ∧ (t.live.pair u).actH = false ∧
      (t.live.pair u).actL = false ∧ (t.live.pair u).h.driven = none ∧ (t.live.pair u).l.driven = none ∧
      (t.live.pair u).boundary = p.boundary ∧ SameMemory s t) ∧
    (∀ b, p.lastB = some b → p.state = .running → 16 ≤ u.val → s.live.cfg (0x2400 + u.val) 0x0E = 1 → p.midDone = false →
      midOf s.live u p b / 64 = s.live.now → Completes (.pwmMidReload u) s fun t =>
        (t.live.pair u).eff = { p.eff with duty := (p.settleDeferred true).shadow.duty, dead := (p.settleDeferred true).shadow.dead } ∧
        (t.live.pair u).midDone = true ∧ (t.live.pair u).lastB = some b ∧ SameMemory s t) ∧
    (∀ i r, p.refEdges = (i, true) :: r → i / 64 = s.live.now → p.state = .running → Completes (.pwmOutputEdge u .refRise) s fun t =>
      (t.live.pair u).refHigh = true ∧ (t.live.pair u).actL = false ∧ (t.live.pair u).onL = none ∧
      (t.live.pair u).onH = some (i + dead) ∧ (t.live.pair u).refEdges = r ∧
      (p.l.released = false → (t.live.pair u).l.driven = some (!activeLevel s.live u true)) ∧ SameMemory s t) ∧
    (∀ i r, p.refEdges = (i, false) :: r → i / 64 = s.live.now → p.state = .running → Completes (.pwmOutputEdge u .refFall) s fun t =>
      (t.live.pair u).refHigh = false ∧ (t.live.pair u).actH = false ∧ (t.live.pair u).onH = none ∧
      (t.live.pair u).onL = (if complementary s.live u then some (i + dead) else p.onL) ∧ (t.live.pair u).refEdges = r ∧
      (p.h.released = false → (t.live.pair u).h.driven = some (!activeLevel s.live u false)) ∧ SameMemory s t) ∧
    (∀ i, p.onH = some i → i / 64 = s.live.now → p.state ≠ .idle → Completes (.pwmOutputEdge u .turnOnH) s fun t =>
      (t.live.pair u).actH = true ∧ (t.live.pair u).onH = none ∧
      (p.h.released = false → (t.live.pair u).h.driven = some (activeLevel s.live u false)) ∧ SameMemory s t) ∧
    (∀ i, p.onL = some i → i / 64 = s.live.now → p.state ≠ .idle → Completes (.pwmOutputEdge u .turnOnL) s fun t =>
      (t.live.pair u).actL = true ∧ (t.live.pair u).onL = none ∧
      (p.l.released = false → (t.live.pair u).l.driven = some (activeLevel s.live u true)) ∧ SameMemory s t) ∧
    (∀ beat, unitUp 0x10 s.live = true → streaming s.live u = true → beat.toNat < 2 ^ 22 → reloadDue s.live u = false →
      p.reloadAt ≠ some s.live.now → Completes (.streamBeatWrite u beat) s fun t =>
        t.live.pair u = { p with
          deferred := p.deferred.filter (fun w => w.what ≠ 1),
          shadow := { p.shadow with duty := BitVec.ofNat 32 (if u.val < 16 then beat.toNat else beat.toNat / 64 * 64) },
          request := false } ∧ SameMemory s t) ∧
    (∀ beat, unitUp 0x10 s.live = true → streaming s.live u = true → 2 ^ 22 ≤ beat.toNat → Completes (.streamBeatWrite u beat) s
      fun t => t.live.pair u = { p with status := setBit p.status 7 } ∧ SameMemory s t) ∧
    (∀ isL taps, unitUp 0x10 s.live = true → domainUp .prot s.live = true → u.val < 16 →
      let d := if isL then p.dlL else p.dlH
      let after := fun (t : State) => if isL then (t.live.pair u).dlL else (t.live.pair u).dlH
      d.calDue s.live.now = true →
      (d.bad taps.toNat = false → Completes (.dlineCalibration u isL taps) s fun t =>
        (if isL then (t.live.pair u).tapsL = taps ∧ (t.live.pair u).calL = true ∧ (t.live.pair u).faultL = false
          else (t.live.pair u).tapsH = taps ∧ (t.live.pair u).calH = true ∧ (t.live.pair u).faultH = false) ∧
        after t = { d with prev := some taps, calAt := some s.live.now, due := true } ∧ SameMemory s t) ∧
      (d.bad taps.toNat = true → Completes (.dlineCalibration u isL taps) s fun t =>
        (t.live.pair u).tapsL = p.tapsL ∧ (t.live.pair u).tapsH = p.tapsH ∧
        after t = { d with prev := some taps, calAt := some s.live.now } ∧
        (t.live.pair u).status.getLsbD 12 = true ∧ SameMemory s t)) ∧
    (p.startAt = some s.live.now → s.live.pwm.arm = .armed → s.live.flag (0x2400 + u.val) 1 = true → p.state ≠ .running →
      unitUp 0x10 s.live = true → Completes (.pairStart u) s fun t =>
        (t.live.pair u).state = .running ∧ (t.live.pair u).startAt = none ∧ (t.live.pair u).actH = false ∧
        (t.live.pair u).actL = false ∧
        (t.live.pair u).nextB = some (s.live.now * 64 + unitsOf u (s.live.cfg (0x4400 + u.val) 0x23) * unitLen s.live u) ∧
        SameMemory s t)

/-- A trip input latches, trips the pairs of its mask and disarms; clears, arming, disarming, the ARM lines and the readback of an
output (R283–R294). -/
def Obligations.TripAndArmComplete : Prop :=
  (∀ s (i : Fin 16) stamp, domainUp .prot s.live = true → s.live.flag (0x2420 + i.val) 1 = true → maskOn s.live i = false →
    tripSampled s.live i stamp = true →
    Completes (.tripDecision i stamp true) s fun t =>
      t.live.trip i = { s.live.trip i with
        level := true, status := (s.live.trip i).status ||| 0x09, cnt := (s.live.trip i).cnt + 1,
        dtime := BitVec.ofNat 64 (s.live.widen stamp) } ∧
      (∀ u, u < 24 → bitOf (s.live.cfg (0x2420 + i.val) 7) u = true → (s.live.pair u).state = .running →
        (t.live.pair u).state = .tripped) ∧
      t.live.pwm.arm = .disarmed ∧ SameMemory s t) ∧
  (∀ s (i : Fin 16) stamp, domainUp .prot s.live = true → tripSampled s.live i stamp = true → Completes (.tripDecision i stamp false) s fun t =>
    t.live.trip i = { s.live.trip i with level := false } ∧ t.live.pairs = s.live.pairs ∧ t.live.pwm = s.live.pwm ∧ SameMemory s t) ∧
  (∀ s (i : Fin 16) since, maskOn s.live i = true → (s.live.trip i).maskFrom = some since →
    since + s.live.cfg (0x2420 + i.val) 6 ≤ s.live.now → Completes (.blankLimit i) s fun t =>
      t.live.trip i = { s.live.trip i with status := setBit (s.live.trip i).status 2, lifted := true } ∧ SameMemory s t) ∧
  (∀ s conn (i : Fin 16), Reaches conn (0x2420 + i.val) 8 s →
    let refused := s.live.flag (0x2420 + i.val) 1 && (s.live.trip i).level
    Completes (.tripClear conn i) s fun t =>
      t.live.trip i = (if refused then { s.live.trip i with status := setBit (s.live.trip i).status 1,
                                                            refusedCnt := (s.live.trip i).refusedCnt + 1 }
        else { s.live.trip i with status := clrBit (s.live.trip i).status 3 }) ∧ AnsweredDone conn t ∧ SameMemory s t) ∧
  (∀ s conn, Reaches conn 0x2418 4 s → Completes (.clearAllTrips conn) s fun t =>
    (∀ i, i < 16 → (s.live.flag (0x2420 + i) 1 && (s.live.trip i).level) = false →
      (t.live.trip i).status.getLsbD 3 = false) ∧
    (∀ a, a < 48 → (s.live.anIn a).since = true → (s.live.anIn a).inside = true → (t.live.anIn a).status.getLsbD 4 = false) ∧
    AnsweredDone conn t ∧ SameMemory s t) ∧
  (∀ s conn, Reaches conn 0x2418 2 s → s.live.pwm.arm = .disarmed →
    (refusalReason s.live = 0 → Completes (.armCommand conn) s fun t =>
      t.live.pwm = { s.live.pwm with arm := .accepted, acceptedAt := s.live.now } ∧ AnsweredDone conn t ∧ SameMemory s t) ∧
    (refusalReason s.live ≠ 0 → Completes (.armCommand conn) s fun t =>
      t.live.pwm.arm = .disarmed ∧ t.live.pwm.refuseCnt = s.live.pwm.refuseCnt + 1 ∧
      field t.live.pwm.status.toNat 11 8 = refusalReason s.live ∧ SameMemory s t)) ∧
  (∀ s conn, Reaches conn 0x2418 2 s → (s.live.pwm.arm = .armed ∨ s.live.pwm.arm = .accepted ∧ refusalReason s.live = 0) →
    Completes (.armCommand conn) s fun t => t.live.pwm = s.live.pwm ∧ AnsweredDone conn t ∧ SameMemory s t) ∧
  (∀ s conn, Reaches conn 0x2418 2 s → s.live.pwm.arm ≠ .armed → Completes (.disarmCommand conn) s fun t =>
    t.live.pwm = s.live.pwm ∧ t.live.pairs = s.live.pairs ∧ AnsweredDone conn t ∧ SameMemory s t) ∧
  (∀ s conn, Reaches conn 0x2418 2 s → s.live.pwm.arm = .armed → Completes (.disarmCommand conn) s fun t =>
    t.live.pwm.arm = .disarmed ∧ t.live.pwm.disarmCnt = s.live.pwm.disarmCnt + 1 ∧
    t.live.pwm.disarmDtime = s.live.time.dtime ∧ field t.live.pwm.status.toNat 15 12 = 1 ∧
    (∀ u, u < 24 → (s.live.pair u).state = .running → (t.live.pair u).state = .tripped) ∧ AnsweredDone conn t ∧ SameMemory s t) ∧
  (∀ s, s.live.pwm.arm = .accepted → s.live.pwm.acceptedAt < s.live.now → s.live.now % 8000 = 0 →
    Completes .armStart s fun t =>
      t.live.pwm.arm = .armed ∧ t.live.pwm.armDtime = s.live.time.dtime ∧ t.live.pwm.arm0.driven = some true ∧
      t.live.pwm.arm1.driven = some false ∧ (∀ u, u < 24 → s.live.flag (0x2400 + u) 1 = true →
        (t.live.pair u).startAt = some (s.live.now + s.live.cfg 0x2418 3 * 400)) ∧ SameMemory s t) ∧
  (∀ s, s.live.pwm.arm = .armed → s.live.pwm.armDtime.toNat < s.live.now →
    (s.live.now - s.live.pwm.armDtime.toNat) % 4000 = 0 → s.live.pwm.arm0.released = false → s.live.pwm.arm1.released = false →
    Completes .armToggle s fun t =>
      let up := (s.live.now - s.live.pwm.armDtime.toNat) / 4000 % 2 = 0
      t.live.pwm.arm0.driven = some (decide up) ∧ t.live.pwm.arm1.driven = some (!decide up) ∧ t.live.pwm.arm = .armed ∧
      t.live.pairs = s.live.pairs ∧ SameMemory s t) ∧
  (∀ s (u : Fin 24) level, (s.live.pair u).h.checkDue = true → s.live.now = (s.live.pair u).h.edgeAt + 8 →
    ((s.live.pair u).h.driven = some level → Completes (.pwmReadback (.pairH u) level) s fun t =>
      t.live.pair u = { s.live.pair u with h := { (s.live.pair u).h with checkDue := false, run := 0 } } ∧ t.live.pwm = s.live.pwm ∧
      SameMemory s t) ∧
    ((s.live.pair u).h.driven = some (!level) → 2 ≤ (s.live.pair u).h.run → Completes (.pwmReadback (.pairH u) level) s fun t =>
      (t.live.pair u).h.released = true ∧ (t.live.pair u).status.getLsbD 5 = true ∧
      (t.live.pair u).shortCnt = (s.live.pair u).shortCnt + 1 ∧ t.live.pwm.arm = .disarmed ∧ SameMemory s t)) ∧
  (∀ s (u : Fin 24) level, (s.live.pair u).l.checkDue = true → s.live.now = (s.live.pair u).l.edgeAt + 8 →
    (s.live.pair u).l.driven = some (!level) → 2 ≤ (s.live.pair u).l.run → Completes (.pwmReadback (.pairL u) level) s fun t =>
      (t.live.pair u).l.released = true ∧ (t.live.pair u).status.getLsbD 6 = true ∧
      (t.live.pair u).shortCnt = (s.live.pair u).shortCnt + 1 ∧ t.live.pwm.arm = .disarmed ∧ SameMemory s t) ∧
  (∀ s (j : Fin 2) level, (if j = 0 then s.live.pwm.arm0 else s.live.pwm.arm1).checkDue = true →
    s.live.now = (if j = 0 then s.live.pwm.arm0 else s.live.pwm.arm1).edgeAt + 8 →
    (if j = 0 then s.live.pwm.arm0 else s.live.pwm.arm1).driven = some (!level) →
    2 ≤ (if j = 0 then s.live.pwm.arm0 else s.live.pwm.arm1).run → Completes (.pwmReadback (.arm j) level) s fun t =>
      t.live.pwm.status.getLsbD (3 + j.val) = true ∧ t.live.pwm.arm = .disarmed ∧ SameMemory s t)

/-! ### Analogue conversion (11) -/

/-- A sequence starts at the first PCLK edge after its command, and converts step by step (R19, R303–R310). A beat of the read port
takes the two oldest results; a calibration stops the passes, and its end clears UNCAL; a limit trip clears where the last result lies
within the limits (R311–R313, R318). -/
def Obligations.ConversionComplete : Prop :=
  (∀ s conn (n : Fin 4), Reaches conn (0x2740 + n.val) 3 s → analogUp s.live = true → analogOn s.live = true →
    calibrating s.live = false → (s.live.seq n).run = none →
    Completes (.sequenceStart conn n) s fun t =>
      (∃ p, (t.live.seq n).run = some p ∧ p.step = 0 ∧ p.startedAt = none ∧ p.words.length = s.live.cfg (0x2740 + n.val) 2) ∧
      (t.live.seq n).notBefore = pclkAt (s.live.now + 1) ∧ (t.live.seq n).dropCnt = (s.live.seq n).dropCnt ∧
      AnsweredDone conn t ∧ SameMemory s t) ∧
  (∀ s (n : Fin 4) p w, (s.live.seq n).run = some p → stepWaits s.live n = some w → analogUp s.live = true → s.live.now % 4 = 0 →
    convsFree s.live w = true → lowerFirst s.live n w = false →
    Completes (.stepStart n) s fun t =>
      (t.live.seq n).run = some { passNow s.live n p with startedAt := some s.live.now } ∧
      (∀ k ∈ stepConvs w, (t.live.conv k).busy = some n.val) ∧ (t.live.seq n).status = (s.live.seq n).status ∧ SameMemory s t) ∧
  (∀ s (n : Fin 4) p start r0 r1 r2 r3, (s.live.seq n).run = some p → p.startedAt = some start → analogUp s.live = true →
    start + (stepAcq p.word + 16) * 4 ≤ s.live.now → p.step + 1 < p.words.length → (s.live.seq n).stopDue = false →
    Completes (.stepResult n r0 r1 r2 r3) s fun t =>
      (t.live.seq n).run = some { p with step := p.step + 1, startedAt := none, delayed := false } ∧
      (∀ k ∈ stepConvs p.word, (t.live.conv k).busy = none) ∧ SameMemory s t) ∧
  (∀ s (k : Fin 4) a b r, analogUp s.live = true → (s.live.conv k).fifo = a :: b :: r →
    Completes (.adcFifoRead k) s fun t =>
      t.live.conv k = { s.live.conv k with fifo := r } ∧ t.live.analog.inputs = s.live.analog.inputs ∧ SameMemory s t) ∧
  (∀ s conn, Reaches conn 0x2750 2 s → calibrating s.live = false → analogUp s.live = true →
    Completes (.calibrate conn) s fun t =>
      t.live.analog.status = setBit s.live.analog.status 2 ∧ t.live.analog.calStart = s.live.now ∧
      (∀ n : Fin 4, (s.live.seq n).run.isSome = true → (t.live.seq n).stopDue = true) ∧ AnsweredDone conn t ∧ SameMemory s t) ∧
  (∀ s r0 r1 r2 r3 temp, calibrating s.live = true → s.live.analog.calStart + 5120000 ≤ s.live.now →
    ([r0, r1, r2, r3].any calBad) = false →
    Completes (.calibrationDone r0 r1 r2 r3 temp) s fun t =>
      t.live.analog.status = clrBit (clrBit (setBit s.live.analog.status 1) 3) 2 ∧ t.live.analog.calTemp = temp ∧
      (∀ k : Fin 4, (t.live.conv k).status = clrBit (s.live.conv k).status 2 ∧ (t.live.conv k).factors = [r0, r1, r2, r3].getD k {}) ∧
      SameMemory s t) ∧
  (∀ s conn (a : Fin 48), Reaches conn (0x2700 + a.val) 8 s → bitOf (s.live.anIn a).status.toNat 4 = true →
    (s.live.anIn a).since = true → (s.live.anIn a).inside = true →
    Completes (.limitTripClear conn a) s fun t =>
      t.live.anIn a = { s.live.anIn a with status := clrBit (s.live.anIn a).status 4 } ∧ AnsweredDone conn t ∧ SameMemory s t)

/-- A step's result stands in its register with VALID, its flags, the next TAG and the code as its converter's factors correct it (R302, R309;
the correction by factors other than unit gain and zero offset is the model's free value, log entry 113). -/
def Obligations.ResultRegister : Prop :=
  ∀ s (n : Fin 4) p start r0 r1 r2 r3, (s.live.seq n).run = some p → p.startedAt = some start → analogUp s.live = true →
    start + (stepAcq p.word + 16) * 4 ≤ s.live.now → stepConvs p.word = [0] →
    Completes (.stepResult n r0 r1 r2 r3) s fun t =>
      let reg := resultReg t.live n p.step 0
      reg.getLsbD 31 = true ∧ field reg.toNat 15 0 = ((s.live.conv 0).corrected (selPair (stepSel p.word 0)) r0.code).toNat ∧
      ((s.live.conv 0).factors = {} → field reg.toNat 15 0 = r0.code.toNat) ∧
      field reg.toNat 23 16 = (field (resultReg s.live n p.step 0).toNat 23 16 + 1) % 256 ∧
      (reg.getLsbD 27 = bitOf (s.live.conv 0).status.toNat 2)

/-- The stop command marks a running pass, which ends when its current step completes and, in continuous mode, is not repeated; a stop
of an idle sequence has no effect (R308). -/
def Obligations.StopEndsPass : Prop :=
  (∀ s conn (n : Fin 4) p, Reaches conn (0x2740 + n.val) 3 s → (s.live.seq n).run = some p →
    Completes (.sequenceStop conn n) s fun t =>
      t.live.seq n = { s.live.seq n with stopDue := true, resume := false } ∧ AnsweredDone conn t ∧ SameMemory s t) ∧
  (∀ s (n : Fin 4) p start r0 r1 r2 r3, (s.live.seq n).run = some p → p.startedAt = some start → analogUp s.live = true →
    start + (stepAcq p.word + 16) * 4 ≤ s.live.now → (s.live.seq n).stopDue = true →
    Completes (.stepResult n r0 r1 r2 r3) s fun t => (t.live.seq n).run = none ∧ (t.live.seq n).stopDue = false) ∧
  (∀ s conn (n : Fin 4), Reaches conn (0x2740 + n.val) 3 s → (s.live.seq n).run = none →
    Completes (.sequenceStop conn n) s fun t =>
      (∀ m, t.live.seq m = s.live.seq m) ∧ t.live.analog.inputs = s.live.analog.inputs ∧ t.live.analog.convs = s.live.analog.convs ∧
      t.live.analog.status = s.live.analog.status ∧ AnsweredDone conn t ∧ SameMemory s t)

/-! ### Pin engines (12) -/

/-- Every instruction of a pin engine does in its tick what its word says, and the engine goes on at the next address, at its target,
or stalls (R330–R333). -/
def Obligations.PinInstructionsComplete : Prop :=
  ∀ s (e : Fin 16) (pins : Byte),
    let now := s.live.pe e
    let i := now.instr
    let x := now.ticked (peDivider s.live e)
    let is := fun (f : PinEngine) (t : State) => t.live.pe e = f ∧ t.live.channels = s.live.channels ∧ SameMemory s t
    (peReady s.live e 0x0 = true → Completes (.nop e) s (is (peNext x 1))) ∧
    (peReady s.live e 0x1 = true → Completes (.delay e) s (is { x with delay := some (field i 9 0 + 1) })) ∧
    (∀ n, peUp s.live e = true → now.state = .running → now.delay = some n → now.reaches (n - 1) = true →
      Completes (.delayEnd e) s (is (peNext { if n = 1 then now else x with delay := none } 1))) ∧
    (peReady s.live e 0x2 = true → waitHolds now pins = false → Completes (.wait e pins) s (is { x with state := .waiting })) ∧
    (peReady s.live e 0x2 = true → waitHolds now pins = true → (field i 19 18 ≠ 1 ∨ bitOf i 17 = false) →
      Completes (.wait e pins) s (is (peNext x 1))) ∧
    (peReady s.live e 0x2 = true → waitHolds now pins = true → field i 19 18 = 1 → bitOf i 17 = true → now.flagSets = none →
      Completes (.wait e pins) s
        (is (peNext { x with flags := clrMask now.flags (BitVec.ofNat 8 (2 ^ field i 16 14)) } 1))) ∧
    (peUp s.live e = true → now.state = .waiting → now.releasable = true → waitHolds now pins = true →
      (peOp i = 0x2 → (field i 19 18 ≠ 1 ∨ bitOf i 17 = false) →
        Completes (.peWaitRelease e pins) s (is (peNext { x with state := .running } 1))) ∧
      (∀ w v r, peOp i = 0x6 → now.seen.tx = w :: v → now.seen.flushed = false → now.tx = w :: r →
        Completes (.peWaitRelease e pins) s (is (peNext { x with state := .running, sr := w, tx := r, count := 0 } 1))) ∧
      (peOp i = 0x7 →
        Completes (.peWaitRelease e pins) s (is (peNext { x with state := .running, rx := now.rx ++ [now.sr], sr := 0, count := 0 } 1)))) ∧
    (peUp s.live e = true → now.state = .waiting → now.reaches (2 ^ (peTo i + 1) - 1) = true →
      (now.releasable && waitHolds now pins) = false →
      (s.live.flag (0x2900 + e.val) 0x0E = false → Completes (.peWaitTimeout e pins) s
        (is { x with state := .running, waitCnt := x.waitCnt + 1, addr := (x.addr + 2) % 48 })) ∧
      (s.live.flag (0x2900 + e.val) 0x0E = true → Completes (.peWaitTimeout e pins) s
        (is { x with state := .running, waitCnt := x.waitCnt + 1, addr := (x.addr + 2) % 48, stat := setBit x.stat 4 }))) ∧
    (peReady s.live e 0x3 = true → Completes (.drive e) s fun t =>
      let m := BitVec.ofNat 8 (field i 15 8)
      let v := BitVec.ofNat 8 (field i 7 0) &&& m
      (if bitOf i 16 then (t.live.pe e).dirs = clrMask x.dirs m ||| v ∧ (t.live.pe e).levels = x.levels
        else (t.live.pe e).levels = clrMask x.levels m ||| v ∧ (t.live.pe e).dirs = x.dirs) ∧
      (t.live.pe e).addr = (x.addr + 1) % 48 ∧ (t.live.pe e).sr = x.sr ∧ SameMemory s t) ∧
    (peReady s.live e 0x4 = true → Completes (.emit e pins) s fun t =>
      let js := maskPins (peSend s.live e)
      let ins := if bitOf i 16 then takeBits (peTake s.live e) pins else js.map (fun _ => false)
      let r := srMove (peLsb s.live e) ins x.sr
      (t.live.pe e).sr = r.2 ∧ (t.live.pe e).levels = emitLevels js r.1 x.levels ∧
      (t.live.pe e).count = min 32 (x.count + ins.length) ∧ (t.live.pe e).addr = (x.addr + 1) % 48 ∧ SameMemory s t) ∧
    (peReady s.live e 0x5 = true → Completes (.sample e pins) s
      (is (peNext { x with sr := (srMove (peLsb s.live e) (takeBits (peTake s.live e) pins) x.sr).2,
                           count := min 32 (x.count + (takeBits (peTake s.live e) pins).length) } 1))) ∧
    (∀ w v r, peReady s.live e 0x6 = true → now.seen.tx = w :: v → now.seen.flushed = false → now.tx = w :: r →
      Completes (.fetch e) s (is (peNext { x with sr := w, tx := r, count := 0 } 1))) ∧
    (peReady s.live e 0x6 = true → now.seen.tx = [] → bitOf i 16 = true → Completes (.fetch e) s (is { x with state := .waiting })) ∧
    (peReady s.live e 0x6 = true → now.seen.tx = [] → bitOf i 16 = false → Completes (.fetch e) s fun t =>
      (t.live.pe e).sr = 0 ∧ (t.live.pe e).underCnt = x.underCnt + 1 ∧ (t.live.pe e).stat = setBit x.stat 1 ∧
      (t.live.pe e).addr = (x.addr + 1) % 48 ∧ (t.live.pe e).tx = x.tx ∧ SameMemory s t) ∧
    (peReady s.live e 0x7 = true → now.seen.rx < 8 →
      Completes (.deposit e) s (is (peNext { x with rx := x.rx ++ [x.sr], sr := 0, count := 0 } 1))) ∧
    (peReady s.live e 0x7 = true → 8 ≤ now.seen.rx → bitOf i 16 = false → Completes (.deposit e) s fun t =>
      (t.live.pe e).sr = 0 ∧ (t.live.pe e).rxCnt = x.rxCnt + 1 ∧ (t.live.pe e).stat = setBit x.stat 3 ∧
      (t.live.pe e).addr = (x.addr + 1) % 48 ∧ (t.live.pe e).rx = x.rx ∧ SameMemory s t) ∧
    (peReady s.live e 0x8 = true → Completes (.branch e pins) s
      (is (if branchHolds s.live e now pins then { x with addr := field i 5 0 } else peNext x 1))) ∧
    (peReady s.live e 0x9 = true → Completes (.setlc e) s (is (peNext { x with lc := BitVec.ofNat 10 (field i 9 0) } 1))) ∧
    (peReady s.live e 0xA = true → Completes (.loop e) s
      (is (if x.lc = 0 then peNext x 1 else { x with lc := x.lc - 1, addr := field i 5 0 }))) ∧
    (peReady s.live e 0xB = true → Completes (.signal e) s (is { x with addr := (x.addr + 1) % 48, stat := setBit x.stat 0 }))

/-- Queues, flags, flush, swaps and readback of a pin engine (R335, R336, R338, R339, R341). -/
def Obligations.PinEngineCommandsComplete : Prop :=
  ∀ s (e : Fin 16), unitUp (0x30 + e.val) s.live = true →
    let x := s.live.pe e
    (∀ w, x.tx.length < 8 → Completes (.txdWrite e w) s fun t => t.live.pe e = { x with tx := x.tx ++ [w] } ∧ SameMemory s t) ∧
    (∀ w r, x.rx = w :: r → Completes (.rxdRead e) s fun t =>
      t.live.pe e = { x with rx := r, lastRx := w, rxv := true } ∧ t.live.host.lastRead = bytesLE 4 w.toNat ∧ SameMemory s t) ∧
    (x.rx = [] → Completes (.rxdRead e) s fun t =>
      t.live.pe e = { x with rxv := false } ∧ t.live.host.lastRead = bytesLE 4 x.lastRx.toNat ∧ SameMemory s t) ∧
    (∀ m, Completes (.peFlagSet e m) s fun t => (t.live.pe e).flags = x.flags ||| m ∧ SameMemory s t) ∧
    (∀ m, x.flagSets = none → Completes (.peFlagClear e m) s fun t =>
      t.live.pe e = { x with flags := clrMask x.flags m } ∧ SameMemory s t) ∧
    Completes (.flush e) s (fun t => t.live.pe e = { x with tx := [], rx := [], seen := { x.seen with flushed := true } } ∧ SameMemory s t) ∧
    (x.swapPending = true → Completes (.forceSwap e) s fun t =>
      (t.live.pe e).active = !x.active ∧ (t.live.pe e).swapPending = false ∧ (t.live.pe e).addr = 0 ∧ (t.live.pe e).sr = 0 ∧
      (t.live.pe e).count = 0 ∧ (t.live.pe e).lost = BitVec.ofNat 8 x.count ∧ (t.live.pe e).swapCnt = x.swapCnt + 1 ∧
      (t.live.pe e).tx = x.tx ∧ (t.live.pe e).lc = x.lc ∧ (t.live.pe e).levels = x.levels ∧ SameMemory s t) ∧
    (peUp s.live e = true → swapDue s.live e = true → Completes (.bankSwap e) s fun t =>
      t.live.pe e = { x with active := !x.active, swapPending := false, addr := 0, swapCnt := x.swapCnt + 1, stat := setBit x.stat 6 } ∧
      SameMemory s t) ∧
    (∀ (j : Fin 8) level,
      let p := peBase s.live e + j.val
      let r := x.pins.get {} p
      r.checkDue = true → s.live.now = r.edgeAt + 8 →
      (r.driven = some level → Completes (.peReadback e j level) s fun t =>
        t.live.pe e = { x with pins := x.pins.put {} p { r with checkDue := false, run := 0 } } ∧ SameMemory s t) ∧
      (r.driven = some (!level) → 2 ≤ r.run → Completes (.peReadback e j level) s fun t =>
        (t.live.pe e).stat = setBit x.stat 7 ∧ (t.live.pe e).shorts = setBit x.shorts p ∧ (t.live.pe e).shortCnt = x.shortCnt + 1 ∧
        ((t.live.pe e).pins.get {} p).driven = none ∧ SameMemory s t))

/-! ### DMA, memory and log (13) -/

/-- A DMA channel takes a request, moves a burst, fences, chains, halts and obeys its commands (R346–R358). -/
def Obligations.DmaChannelsComplete : Prop :=
  ∀ s (c : Fin 32),
    let x := s.live.dc c
    (dmaReady s.live c = true → burstsInFlight s.live < 16 → outranked s.live c = false → Completes (.dmaRequestTake c) s fun t =>
      t.live.dc c = { x with burst := some (min (8 * descBeats x.desc) x.remaining.toNat), soft := false } ∧ SameMemory s t) ∧
    (∀ ecc, awake s.live = true → x.burst = some 8 → descOp x.desc = 1 → inTables x.dst 8 = true → 8 < x.remaining.toNat →
      Completes (.dmaBurstDone ⟨c, ecc⟩) s fun t =>
        readBytes t.live.mem x.dst 8 = bytesLE 8 (descField x.desc 63 0) ∧
        (∀ a, a < x.dst ∨ x.dst + 8 ≤ a → readByte t.live.mem a = readByte s.live.mem a) ∧
        t.live.dc c = { beatMoved x with burst := none, endAt := some s.live.now }) ∧
    (∀ ecc, awake s.live = true → x.burst = some 8 → descOp x.desc = 0 → inTables x.src 8 = true →
      (doubleAt ecc x.src = false → inTables x.dst 8 = true → x.remaining = 8 → descFence x.desc = false → descChain x.desc = false →
        Completes (.dmaBurstDone ⟨c, ecc⟩) s fun t =>
          readBytes t.live.mem x.dst 8 = readBytes s.live.mem x.src 8 ∧
          (∀ a, a < x.dst ∨ x.dst + 8 ≤ a → readByte t.live.mem a = readByte s.live.mem a) ∧
          (t.live.dc c).state = .stopped ∧ (t.live.dc c).remaining = 0 ∧ (t.live.dc c).descCnt = x.descCnt + 1 ∧
          (t.live.dc c).burst = none) ∧
      (doubleAt ecc x.src = true → Completes (.dmaBurstDone ⟨c, ecc⟩) s fun t =>
        (t.live.dc c).state = .halted ∧ (t.live.dc c).failAddr = BitVec.ofNat 40 x.src ∧ (t.live.dc c).busCnt = x.busCnt + 1 ∧
        (t.live.dc c).remaining = x.remaining ∧ (t.live.dc c).burst = none ∧ SameMemory s t)) ∧
    (∀ n ecc, awake s.live = true → x.burst = some n → Completes (.dmaBurstDone ⟨c, ecc⟩) s fun t =>
      (t.live.dc c).burst = none ∧
      ∀ a, a < x.dst ∨ x.dst + n ≤ a → readByte t.live.mem a = readByte s.live.mem a) ∧
    (∀ ecc, awake s.live = true → x.fencing = true → doubleAt ecc (fenceAddr x) = false → Completes (.fenceReadDone ⟨c, ecc⟩) s fun t =>
      (t.live.dc c).fencing = false ∧ (t.live.dc c).descCnt = x.descCnt + 1 ∧
      (if descChain x.desc then (t.live.dc c).fetching = true ∧ (t.live.dc c).state = x.state
        else (t.live.dc c).state = .stopped) ∧ SameMemory s t) ∧
    (∀ ecc, awake s.live = true → x.fetching = true →
      let a := descNext x.desc
      let d := readBytes s.live.mem a 32
      mayFetch s.live a = true → inTables a 32 = true →
      (descOk s.live d = true → (∀ i, i < 4 → doubleAt ecc (a + 8 * i) = false) → Completes (.descriptorFetchDone ⟨c, ecc⟩) s fun t =>
        t.live.dc c = loadDesc d a x ∧ SameMemory s t) ∧
      ((descOk s.live d = false ∨ ∃ i, i < 4 ∧ doubleAt ecc (a + 8 * i) = true) → Completes (.descriptorFetchDone ⟨c, ecc⟩) s fun t =>
        (t.live.dc c).state = .halted ∧ (t.live.dc c).busCnt = x.busCnt + 1 ∧ (t.live.dc c).fetching = false ∧ SameMemory s t)) ∧
    (∀ beat second, awake s.live = true → x.fetching = true → Completes (.dmaBusError c 2 ⟨beat, second⟩) s fun t =>
      (t.live.dc c).state = .halted ∧ (t.live.dc c).failAddr = BitVec.ofNat 40 (descNext x.desc) ∧
      (t.live.dc c).busCnt = x.busCnt + 1 ∧ (t.live.dc c).fetching = false ∧ SameMemory s t) ∧
    (∀ n, awake s.live = true → x.burst = some n → 8 ≤ n →
      (descOp x.desc ≠ 2 → Completes (.dmaBusError c 1 ⟨0, false⟩) s fun t =>
        (t.live.dc c).state = .halted ∧ (t.live.dc c).failAddr = BitVec.ofNat 40 x.dst ∧
        (t.live.dc c).busCnt = x.busCnt + 1 ∧ (t.live.dc c).burst = none ∧ (t.live.dc c).remaining = x.remaining ∧ SameMemory s t) ∧
      (descOp x.desc = 2 → ∀ second, Completes (.dmaBusError c 0 ⟨0, second⟩) s fun t =>
        (t.live.dc c).state = .halted ∧ (t.live.dc c).failAddr = BitVec.ofNat 40 (if second then x.dst else x.src) ∧
        (t.live.dc c).busCnt = x.busCnt + 1 ∧ (t.live.dc c).burst = none ∧ (t.live.dc c).remaining = x.remaining ∧ SameMemory s t)) ∧
    (∀ conn, Reaches conn (0x2A00 + c.val) 5 s →
      (x.state ≠ .running → dmaUp s.live = true → Completes (.dmaStart conn c) s fun t =>
        t.live.dc c = { loadDesc (firstDesc s.live c) 0 x with state := .running, descCnt := 0, endAt := none } ∧
        AnsweredDone conn t ∧ SameMemory s t) ∧
      (x.burst = none → Completes (.dmaDisable conn c) s fun t =>
        (t.live.dc c).state = .disabled ∧ (t.live.dc c).fetching = false ∧ (t.live.dc c).fencing = false ∧
        (t.live.dc c).soft = false ∧ (t.live.dc c).status = x.status ∧ AnsweredDone conn t ∧ SameMemory s t) ∧
      (∀ n, x.burst = some n → Completes (.dmaDisable conn c) s fun t =>
        (t.live.dc c).state = .disabled ∧ (t.live.dc c).status.getLsbD 4 = true ∧ (t.live.dc c).burst = none ∧
        AnsweredDone conn t ∧ ∀ a, a < x.dst ∨ x.dst + n ≤ a → readByte t.live.mem a = readByte s.live.mem a) ∧
      (x.state = .halted → Completes (.dmaContinue conn c) s fun t =>
        t.live.dc c = { x with state := .running, fetching := x.dir = 2, fencing := x.dir = 3, endAt := none } ∧
        AnsweredDone conn t ∧ SameMemory s t) ∧
      (dmaUp s.live = true → Completes (.dmaSoftwareRequest conn c) s fun t =>
        t.live.dc c = (if x.soft then { x with status := setBit x.status 3, dropCnt := x.dropCnt + 1 } else { x with soft := true }) ∧
        AnsweredDone conn t ∧ SameMemory s t))

/-- A memory load stores its bytes at the address its first eight bytes give, and nothing else; the patrol scrubber counts a corrected
error and reports a double-bit error (R24, R359). The log writer: admission in sequence, the ring in LPDDR4X, draining, release, loss
records, the end of a flush and of zeroing (R362–R368, R458). -/
def Obligations.MemoryAndLogComplete : Prop :=
  (∀ s conn data, Reaches conn 0x2A21 1 s →
    let n := data.length - 8
    let a := fieldLE data 0 8
    8 ≤ data.length → n % 8 = 0 → n ≤ 65536 → a % 8 = 0 → (inTables a n || inLpddr s.live a n) = true →
    (s.live.logOn && inRing s.live a n) = false → (inLpddr s.live a n = true → lpddrOpen s.live = true) →
    Completes (.memoryLoad conn data) s fun t =>
      readBytes t.live.mem a n = data.drop 8 ∧ (∀ b, b < a ∨ a + n ≤ b → readByte t.live.mem b = readByte s.live.mem b) ∧
      AnsweredDone conn t) ∧
  (∀ s (r : Fin 9) offset, domainUp .mem s.live = true → awake s.live = true → offset.toNat < regionWords s.live r →
    Completes (.patrolScrub r offset .single) s (fun t =>
      t.live.rst = { s.live.rst with corrected := s.live.rst.corrected.put 0 r (satTo 16 (s.live.rst.corrected.get 0 r + 1)) } ∧
      SameMemory s t) ∧
    Completes (.patrolScrub r offset .double) s (fun t => t.live.rst = { s.live.rst with memError := true } ∧ SameMemory s t)) ∧
  (∀ s u r rest, admitting s.live = true → s.live.log.startDue = none → nextUnit s.live.log = some u.toNat → s.live.log.waiting.get [] u.toNat = r :: rest →
    ordinaryUsed s.live.log < ordinaryPlaces → s.live.log.episode = none → Completes (.logAdmit u) s fun t =>
      t.live.log.staging = s.live.log.staging ++ [(s.live.log.nextSeq, r, s.live.now, false)] ∧
      t.live.log.nextSeq = s.live.log.nextSeq + 1 ∧ SameMemory s t) ∧
  (∀ s seq r w b, ringReady s.live = true → s.live.log.staging = [(seq, r, w, b)] → w + 400 ≤ s.live.now →
    ringRecords s.live ≠ 0 → ringFull s.live = false → Completes .logStagingMove s fun t =>
      readBytes t.live.mem (ringBase s.live + 16 * s.live.log.head) 16 = recordBytes seq r ∧
      (∀ a, a < ringBase s.live + 16 * s.live.log.head ∨ ringBase s.live + 16 * s.live.log.head + 16 ≤ a →
        readByte t.live.mem a = readByte s.live.mem a) ∧
      t.live.log.head = (s.live.log.head + 1) % ringRecords s.live ∧ t.live.log.count = s.live.log.count + 1 ∧
      t.live.log.staging = []) ∧
  (∀ s at0 n, admitting s.live = true → s.live.log.startDue = none → s.live.log.episode = some at0 → s.live.log.nextLoss ≤ s.live.now →
    s.live.log.counts = { source := 0, staging := n, ring := 0 } → n ≠ 0 → ordinaryUsed s.live.log < ordinaryPlaces →
    Completes .logLossRecord s fun t =>
      t.live.log.staging = s.live.log.staging ++
        [(s.live.log.nextSeq, ⟨0x8F81, 0x69, BitVec.ofNat 32 (2 * 2 ^ 28 + satTo 28 n), s.live.time.dtime⟩, s.live.now, false)] ∧
      SameMemory s t) ∧
  (∀ s (addr : BitVec 16) ecc, hostUp s.live = true → addr.toNat + 16 ≤ 0x10000 → s.live.log.count ≠ 0 →
    Completes (.logDrainRead addr ⟨16, ecc⟩) s fun t =>
      ((∀ e ∈ ecc, e.2 = false) →
        t.live.host.lastRead = readBytes s.live.mem (ringBase s.live + 16 * s.live.log.tail) 16) ∧
      t.live.log.count = s.live.log.count - 1 ∧ t.live.log.tail = (s.live.log.tail + 1) % ringRecords s.live ∧ SameMemory s t) ∧
  (∀ s conn ecc, served conn s.live = true →
    (s.live.log.count = 1 → Completes (.logDrainObjectRead ⟨conn, ecc⟩) s fun t =>
      ((∀ e ∈ ecc, e.2 = false) →
        (t.live.connSt (connId conn)).answer = .value (readBytes s.live.mem (ringBase s.live + 16 * s.live.log.tail) 16)) ∧
      t.live.log.count = 0 ∧ SameMemory s t) ∧
    (s.live.log.count = 0 → Completes (.logDrainObjectRead ⟨conn, ecc⟩) s fun t =>
      (t.live.connSt (connId conn)).answer = .value (List.replicate 16 0) ∧ t.live.log.count = 0 ∧ SameMemory s t)) ∧
  (∀ s conn n, Reaches conn 0x2A40 5 s → Completes (.releaseRecords conn n) s fun t =>
    t.live.log.count = s.live.log.count - min n.toNat s.live.log.count ∧ t.live.log.head = s.live.log.head ∧
    AnsweredDone conn t ∧ SameMemory s t) ∧
  (∀ s, s.live.log.flushing = true → Completes .stagingFlushDone s fun t =>
    t.live.log.staging = [] ∧ t.live.log.flushing = false ∧ t.live.log.nextSeq = s.live.log.nextSeq ∧
    (s.live.log.head < ringRecords s.live → ∀ a, a < ringBase s.live ∨ ringBase s.live + 16 * ringRecords s.live ≤ a →
      readByte t.live.mem a = readByte s.live.mem a)) ∧
  (∀ s, s.live.log.zeroing = true → Completes .lpddrZeroingDone s fun t =>
    t.live.log.zeroing = false ∧ t.live.log.status.getLsbD 4 = true ∧ SameMemory s t)

/-! ### Interrupts and doze (14) -/

/-- Claims, completions, hold-off, claim timeout and latches of the interrupt groups, after every group has followed its lines in the
TCLK of a host write (R372, R375–R379). Doze: accepted where nothing refuses it, entered, left over a wake latch (R381–R384). -/
def Obligations.InterruptsAndDozeComplete : Prop :=
  (∀ s (n : Fin 4) (g : BitVec 6), hostUp s.live = true →
    let l := settleGroups (csFall s.live)
    (vectorGroup l n = some g.toNat → Completes (.irqClaim n g) s fun t =>
      t.live.irqGroup g.toNat = { l.irqGroup g.toNat with state := .activePending, claimAt := s.live.now } ∧
      (∀ h, h ≠ g.toNat → t.live.irqGroup h = l.irqGroup h) ∧ t.live.irq.lstat = s.live.irq.lstat ∧ SameMemory s t) ∧
    (vectorGroup l n ≠ some g.toNat → Completes (.irqClaim n g) s fun t =>
      (t.live.irq.lstat.get 0 n).getLsbD 0 = true ∧ (∀ h, t.live.irqGroup h = l.irqGroup h) ∧ SameMemory s t) ∧
    (g.toNat < 40 → irqTarget l g.toNat = n.val → (l.irqGroup g.toNat).claimed = true → Completes (.irqComplete n g) s fun t =>
      t.live.irqGroup g.toNat = (if irqHoldOff s.live g.toNat = 0 then
          (if (l.irqGroup g.toNat).state = .activePending then (l.irqGroup g.toNat).pend
            else { l.irqGroup g.toNat with state := .idle })
        else { l.irqGroup g.toNat with state := .held, holdEnd := s.live.now + irqHoldOff s.live g.toNat }) ∧
      t.live.irq.lstat = s.live.irq.lstat ∧ SameMemory s t)) ∧
  (∀ s (g : Fin 40), (s.live.irqGroup g).state = .held → (s.live.irqGroup g).holdEnd ≤ s.live.now →
    Completes (.holdOffEnd g) s fun t =>
      t.live.irqGroup g = (if irqAsserted s.live g then (s.live.irqGroup g).pend else { s.live.irqGroup g with state := .idle }) ∧
      (∀ h, h ≠ g.val → t.live.irqGroup h = s.live.irqGroup h) ∧ SameMemory s t) ∧
  (∀ s (g : Fin 40), (s.live.irqGroup g).state = .activePending → irqAsserted s.live g = true → irqTimeout s.live g ≠ 0 →
    (s.live.irqGroup g).claimAt + irqTimeout s.live g ≤ s.live.now → irqHoldOff s.live g = 0 → Completes (.claimTimeout g) s fun t =>
      t.live.irqGroup g = { (s.live.irqGroup g).pend with status := setBit (s.live.irqGroup g).status 0 } ∧ SameMemory s t) ∧
  (∀ s (g : Fin 40) mask, hostUp s.live = true → Completes (.latchClear g mask) s fun t =>
    t.live.irq.latch.get 0 g = (if g.val < 8 then
        clrMask (s.live.irq.latch.get 0 g) (BitVec.ofNat 64 (clearable s.live (hostReg (0x208 + 16 * g.val)) mask.toNat))
        else s.live.irq.latch.get 0 g) ∧
    t.live.irq.groups = s.live.irq.groups ∧ SameMemory s t) ∧
  (∀ s conn, Reaches conn 0x2000 0x10 s → dozeRefused s.live = false → Completes (.dozeCommand conn) s fun t =>
    t.live.doze = { s.live.doze with requested := true, latches := 0, tpinLatched := none } ∧ AnsweredDone conn t ∧ SameMemory s t) ∧
  (∀ s, coreUp s.live = true → s.live.doze.requested = true → Completes .dozeEnter s fun t =>
    t.live.doze = { s.live.doze with requested := false, asleep := true } ∧ SameMemory s t) ∧
  (∀ s kind, coreUp s.live = true → wakeEnabled kind s.live = true →
    (s.live.doze.asleep = true → s.live.doze.waking = false → Completes (.wakeLatch kind) s fun t =>
      t.live.doze.waking = true ∧ t.live.doze.wakeAt = s.live.now ∧ t.live.doze.asleep = true ∧
      t.live.doze.latches = setBit s.live.doze.latches (wakeBit kind) ∧ SameMemory s t) ∧
    (s.live.doze.asleep = false → s.live.doze.requested = true → Completes (.wakeLatch kind) s fun t =>
      t.live.doze.requested = false ∧ t.live.doze.cause.getLsbD 7 = true ∧ SameMemory s t)) ∧
  (∀ s, s.live.doze.asleep = true → s.live.doze.waking = true → Completes .wakeComplete s fun t =>
    t.live.doze.asleep = false ∧ t.live.doze.waking = false ∧ t.live.doze.dtime = s.live.time.dtime ∧
    t.live.doze.cause = s.live.doze.cause ||| s.live.doze.latches ∧ SameMemory s t)

/-! ### Object dictionary and network (15) -/

/-- Reads of the dictionary, the transfer timeout and the expert key (R69, R393–R395, R401). -/
def Obligations.DictionaryComplete : Prop :=
  (∀ s conn (idx : BitVec 16) (sub : BitVec 8) bank, served conn s.live = true → s.live.rst.sourceDue = none →
    accessAbort conn false idx.toNat sub.toNat (touch conn s.live) = none → isPop idx.toNat sub.toNat = false →
    isProcess idx.toNat sub.toNat = true → s.published = some bank → Completes (.sdoRequest conn (.read idx sub)) s fun t =>
      (t.live.connSt (connId conn)).answer =
        .value (valBytes (key idx.toNat sub.toNat) (readProcess bank.frozen idx.toNat sub.toNat)) ∧
      (t.live.connSt (connId conn)).lastReq = s.live.now ∧ t.live.conf = s.live.conf ∧ SameMemory s t) ∧
  (∀ s conn (idx : BitVec 16) (sub : BitVec 8), served conn s.live = true → s.live.rst.sourceDue = none →
    accessAbort conn false idx.toNat sub.toNat (touch conn s.live) = none → isPop idx.toNat sub.toNat = false →
    isProcess idx.toNat sub.toNat = false → Completes (.sdoRequest conn (.read idx sub)) s fun t =>
      (t.live.connSt (connId conn)).answer =
        .value (valBytes (key idx.toNat sub.toNat) (readLive conn (touch conn s.live) idx.toNat sub.toNat)) ∧
      t.live.conf = s.live.conf ∧ SameMemory s t) ∧
  (∀ s bus client, served (.can bus client) s.live = true →
    (s.live.connSt (connId (.can bus client))).lastReq + 400000000 ≤ s.live.now →
    Completes (.sdoProtocolTimeout (.can bus client)) s fun t =>
      (t.live.connSt (connId (.can bus client))).answer = .abort 0x05040000 ∧
      (t.live.connSt (connId (.can bus client))).transfer = false ∧ SameMemory s t) ∧
  (∀ s conn k, Reaches conn 0x5FF0 1 s → (s.live.connSt (connId conn)).lockEnd = none →
    (k = s.live.net.key → Completes (.expertKey conn k) s fun t =>
      (t.live.connSt (connId conn)).unlocked = true ∧ (t.live.connSt (connId conn)).wrongKeys = 0 ∧ AnsweredDone conn t ∧
      SameMemory s t) ∧
    (k ≠ s.live.net.key → Completes (.expertKey conn k) s fun t =>
      (t.live.connSt (connId conn)).wrongKeys = (s.live.connSt (connId conn)).wrongKeys + 1 ∧
      (t.live.connSt (connId conn)).unlocked = (s.live.connSt (connId conn)).unlocked ∧
      (t.live.connSt (connId conn)).lockEnd =
        (if 3 ≤ (s.live.connSt (connId conn)).wrongKeys + 1 then some (s.live.now + lockoutTime) else none) ∧
      (t.live.connSt (connId conn)).answer = .abort 0x08000020 ∧ SameMemory s t)) ∧
  (∀ s conn k, Reaches conn 0x5FF0 2 s → (s.live.connSt (connId conn)).lockEnd = none → Completes (.newKey conn k) s fun t =>
    t.live.net.key = k ∧ (storedSettings t.live).key = k.toNat ∧ AnsweredDone conn t ∧ SameMemory s t) ∧
  (∀ s conn, (s.live.connSt (connId conn)).unlocked = true →
    (s.live.connSt (connId conn)).lastReq + unlockTime ≤ s.live.now → Completes (.unlockTimeout conn) s fun t =>
      t.live.connSt (connId conn) = { s.live.connSt (connId conn) with unlocked := false } ∧ SameMemory s t) ∧
  (∀ s conn e, (s.live.connSt (connId conn)).lockEnd = some e → e ≤ s.live.now → Completes (.keyLockoutEnd conn) s fun t =>
    t.live.connSt (connId conn) = { s.live.connSt (connId conn) with lockEnd := none, wrongKeys := 0 } ∧ SameMemory s t)

/-- NMT: Start, Stop, Enter pre-operational, Reset node and Reset communication (R396–R399, R442). -/
def Obligations.NmtComplete : Prop :=
  ∀ s src, nmtHeard src s.live = true →
    (mayOperate s.live = true → s.live.net.nmt ≠ nmtOp → Completes (.nmtStart src) s fun t =>
      t.live.net.nmt = nmtOp ∧ t.live.net.opAt = s.live.now ∧ t.live.pwm = s.live.pwm ∧ SameMemory s t) ∧
    (s.live.net.nmt ≠ nmtStop → Completes (.nmtStop src) s fun t =>
      t.live.net.nmt = nmtStop ∧ (s.live.net.nmt = nmtOp → t.live.pwm.arm = .disarmed) ∧
      (∀ i, i < 256 → (t.live.connSt i).transfer = false) ∧ SameMemory s t) ∧
    (s.live.net.nmt ≠ nmtPre → Completes (.nmtEnterPreOperational src) s fun t =>
      t.live.net.nmt = nmtPre ∧ (s.live.net.nmt = nmtOp → t.live.pwm.arm = .disarmed) ∧ t.live.net.conns = s.live.net.conns ∧
      SameMemory s t) ∧
    (s.live.rst.asserted.getLsbD 10 = false → Completes (.nmtResetNode src) s fun t =>
      t.live.net.nmt = 0 ∧ t.live.rst.starting = true ∧ t.live.rst.sticky.getLsbD 10 = true ∧
      domainUp .prot t.live = false ∧ domainUp .core t.live = false ∧ domainUp .comm t.live = false ∧
      t.live.pwm.arm = .disarmed ∧ t.published = none ∧ t.held = none ∧ t.live.time.dtime = s.live.time.dtime) ∧
    (s.live.rst.asserted.getLsbD 13 = false → Completes (.nmtResetCommunication src) s fun t =>
      t.live.net.nmt = 0 ∧ domainUp .comm t.live = false ∧ t.live.rst.sticky.getLsbD 13 = true ∧
      domainUp .core t.live = domainUp .core s.live ∧ t.live.conf = s.live.conf ∧ t.live.channels = s.live.channels ∧
      SameMemory s t)

/-- SYNC, TPDOs and RPDOs (R65, R404–R406). A frame of more than 64 data bytes, which no bus can carry, is the one command that is not
well formed (R404). -/
def Obligations.PdoServicesComplete : Prop :=
  (∀ s (b : Fin 2) counter, busActive s.live b = true → preOrOp s.live = true → s.live.net.choice.syncBus = b.val →
    (∀ g, g < 64 → s.live.cfg (0x2C00 + g) 1 ≠ 2) → Completes (.syncReceived b counter) s fun t =>
      t.live.net.lastSync = some s.live.now ∧
      t.live.net.window = (if commVal s.live 0x1007 0 = 0 then none else some (s.live.now + commVal s.live 0x1007 0 * 400)) ∧
      (s.live.flag 0x2C80 2 = true → s.live.snap.copying = false → s.live.snap.waiting = false →
        t.filling.isSome = true ∧ t.live.snap.seq = nextSeq s.live.snap) ∧ SameMemory s t) ∧
  (∀ s (b : Fin 2) at0, s.live.net.lastSync = some at0 → commVal s.live 0x1006 0 ≠ 0 → busActive s.live b = true →
    preOrOp s.live = true → s.live.net.choice.syncBus = b.val → at0 + commVal s.live 0x1006 0 * 600 ≤ s.live.now →
    Completes (.syncLost b) s fun t =>
      t.live.net.lastSync = none ∧ (t.live.bus b).status.getLsbD 11 = true ∧ t.live.net.nmt = s.live.net.nmt ∧ SameMemory s t) ∧
  (∀ s bank (p : Fin 16), s.published = some bank → tpdoOpen s.live bank p = true →
    let d := tpdoData s.live bank.frozen p
    let f : Frame := { cobId := BitVec.ofNat 32 (pdoCob s.live 0x1800 p % 2 ^ 30), data := d, tpdo := some p.val }
    (254 ≤ pdoType s.live 0x1800 p → commVal s.live (0x1800 + p.val) 5 ≠ 0 →
      (s.live.tpdo p).timerFrom + commVal s.live (0x1800 + p.val) 5 * 400000 ≤ s.live.now → inhibitOver s.live p = true →
      Completes (.tpdoEventTimer p) s fun t =>
        Sends (tpdoBusOf s.live p) f s t ∧ (t.live.tpdo p).last = d ∧ (t.live.tpdo p).lastAt = some s.live.now ∧
        (t.live.tpdo p).timerFrom = s.live.now ∧ SameMemory s t) ∧
    ((s.live.tpdo p).due = true → inhibitOver s.live p = true → Completes (.tpdoInhibitEnd p) s fun t =>
      Sends (tpdoBusOf s.live p) f s t ∧ (t.live.tpdo p).due = false ∧ (t.live.tpdo p).last = d ∧ SameMemory s t)) ∧
  (∀ s unsent w, s.live.net.window = some w → w ≤ s.live.now → Completes (.synchronousWindowEnd unsent) s fun t =>
    t.live.net.window = none ∧ (∀ p, p < 16 → (t.live.tpdo p).queued = false ∧ (t.live.tpdo p).wantSync = false ∧
      ((s.live.tpdo p).queued = true → unsent.getLsbD p = true →
        (t.live.bus (tpdoBusOf s.live p)).status.getLsbD 8 = true)) ∧ SameMemory s t) ∧
  (∀ s (b : Fin 2) (p : Fin 16) data, supervisorUp s.live = true → operational s.live = true → busActive s.live b = true →
    rpdoBusOf s.live p = b.val → pdoValid s.live 0x1400 p = true → data.length ≤ 64 →
    let es := pdoEntries s.live 0x1600 p
    let l1 := s.live.setRpdo p { lastAt := some s.live.now }
    (es ≠ [] → data.length < pdoLength es → Completes (.rpdoReceived b p data) s fun t =>
      (t.live.rpdo p).lastAt = some s.live.now ∧ (t.live.bus b).status.getLsbD 9 = true ∧
      (t.live.bus b).rpdoFaultCnt = (s.live.bus b).rpdoFaultCnt + 1 ∧ t.live.groups = s.live.groups ∧ SameMemory s t) ∧
    (∀ g l2, es ≠ [] → pdoLength es ≤ data.length → data.length ≤ frameLength s.live b (pdoLength es) →
      rpdoGroup l1 es = some g → rpdoFits l1 g p = true → stageAll (rpdoValues es data) (groupDisarm g l1) = some l2 →
      (l2.group g).state = .staging → pdoType s.live 0x1400 p ≤ 240 → Completes (.rpdoReceived b p data) s fun t =>
        t.live.group g = { l2.group g with state := .armed, armedBy := some p.val } ∧
        (t.live.rpdo p).lastAt = some s.live.now ∧ t.live.conf = s.live.conf ∧ SameMemory s t)) ∧
  (∀ s (p : Fin 16) at0, (s.live.rpdo p).lastAt = some at0 → commVal s.live (0x1400 + p.val) 5 ≠ 0 → operational s.live = true →
    busActive s.live (rpdoBusOf s.live p) = true → at0 + commVal s.live (0x1400 + p.val) 5 * 400000 ≤ s.live.now →
    Completes (.rpdoDeadline p) s fun t =>
      (t.live.rpdo p).lastAt = none ∧ (t.live.bus (rpdoBusOf s.live p)).status.getLsbD 10 = true ∧
      (t.live.bus (rpdoBusOf s.live p)).rpdoFaultCnt = (s.live.bus (rpdoBusOf s.live p)).rpdoFaultCnt + 1 ∧ SameMemory s t) ∧
  (∀ s (b : Fin 2) (p : Fin 16) data, 64 < data.length →
    exec (.rpdoReceived b p data) s = .fault (.illFormed "RPDO_RECEIVED"))

/-- Heartbeats, EMCY inhibition and the conditions of a bus (R401, R402, R408, R420). -/
def Obligations.BusConditionsComplete : Prop :=
  ∀ s (b : Fin 2),
    let x := s.live.bus b
    (∀ f r, x.emcyQueue = f :: r → busActive s.live b = true → preOrOp s.live = true → x.emcyInhibit ≤ s.live.now →
      Completes (.emcyInhibitEnd b) s fun t => Sends b f s t ∧ (∃ q, (t.live.bus b).emcyQueue = r ++ q) ∧ SameMemory s t) ∧
    (busActive s.live b = true → commVal s.live 0x1017 0 ≠ 0 → x.lastHb + commVal s.live 0x1017 0 * 400000 ≤ s.live.now →
      Completes (.heartbeatProduce b) s fun t =>
        Sends b (heartbeatFrame s.live b s.live.net.nmt) s t ∧ (t.live.bus b).lastHb = s.live.now ∧ SameMemory s t) ∧
    (∀ node st (i : Fin 4), busActive s.live b = true → field (consumerOf s.live b i) 23 16 = node.toNat →
      field (consumerOf s.live b i) 15 0 ≠ 0 → Completes (.heartbeatReceived b node st) s fun t =>
        (t.live.bus b).consumers.get {} i = { armed := true, last := s.live.now } ∧ t.live.net.nmt = s.live.net.nmt ∧
        SameMemory s t) ∧
    (∀ i : Fin 4, busActive s.live b = true → (x.consumers.get {} i).armed = true → field (consumerOf s.live b i) 15 0 ≠ 0 →
      (x.consumers.get {} i).last + field (consumerOf s.live b i) 15 0 * 400000 ≤ s.live.now → Completes (.hbTimeout b i) s fun t =>
        (t.live.bus b).consumers.get {} i = {} ∧ (t.live.bus b).status.getLsbD 7 = true ∧
        (t.live.bus b).hbTimeoutCnt = x.hbTimeoutCnt + 1 ∧
        t.live.net.nmt = (match commVal s.live 0x1029 1 with | 0 => nmtPre | 2 => nmtStop | _ => s.live.net.nmt) ∧ SameMemory s t) ∧
    (busActive s.live b = true → busState s.live b = 0 → Completes (.errorPassive b) s fun t =>
      busState t.live b = 1 ∧ (t.live.bus b).status.getLsbD 4 = true ∧ SameMemory s t) ∧
    (busActive s.live b = true → busState s.live b = 1 → Completes (.errorActive b) s fun t =>
      busState t.live b = 0 ∧ SameMemory s t) ∧
    (busActive s.live b = true → Completes (.busOff b) s fun t =>
      busState t.live b = 2 ∧ (t.live.bus b).status.getLsbD 5 = true ∧ SameMemory s t) ∧
    (netUp s.live = true → busState s.live b = 2 → Completes (.busOffRecovery b) s fun t =>
      busState t.live b = 0 ∧ t.live.net.nmt = s.live.net.nmt ∧ SameMemory s t) ∧
    (busActive s.live b = true → Completes (.rxOverrun b) s fun t =>
      (t.live.bus b).status.getLsbD 3 = true ∧ busState t.live b = busState s.live b ∧ SameMemory s t)

/-- The LSS slave of a bus (R409). The forms of the answers are the model's, taken from CiA 305 (log entry 44). -/
def Obligations.LssComplete : Prop :=
  ∀ s (b : Fin 2), lssUp s.live b = true →
    let x := (s.live.bus b).lss
    let conf := x.configuration
    let becomes := fun (y : LssState) (t : State) => (t.live.bus b).lss = y ∧ SameMemory s t
    (∀ mode : Byte, mode.toNat < 2 →
      Completes (.lssSwitchStateGlobal b mode) s (becomes { x with configuration := mode = 1 })) ∧
    (∀ a : LssAddress, conf = false → a.vendor = identityPart 0 → a.product = identityPart 1 → a.revision = identityPart 2 →
      a.serial = identityPart 3 → Completes (.lssSwitchStateSelective b a) s fun t =>
        becomes { x with configuration := true } t ∧ Sends b (lssFrame [68]) s t) ∧
    (∀ id : Byte, conf = true → (1 ≤ id.toNat ∧ id.toNat ≤ 127 ∨ id = 0xFF) → Completes (.lssConfigureNodeId b id) s fun t =>
      becomes { x with nodeId := some id } t ∧ Sends b (lssFrame [17, 0, 0]) s t ∧ (t.live.bus b).nodeId = (s.live.bus b).nodeId) ∧
    (∀ entry : Byte, conf = true → entry.toNat ≤ 4 → Completes (.lssConfigureBitTiming b 0 entry) s fun t =>
      becomes { x with bitCode := some entry } t ∧ Sends b (lssFrame [19, 0, 0]) s t ∧
      (t.live.bus b).arbRate = (s.live.bus b).arbRate) ∧
    (∀ delay c, conf = true → x.bitCode = some c → Completes (.lssActivateBitTiming b delay) s fun t =>
      becomes x t ∧ (t.live.bus b).arbRate = lssRate c.toNat) ∧
    (conf = true → Completes (.lssStoreConfiguration b) s fun t =>
      becomes x t ∧ Sends b (lssFrame [23, 0, 0]) s t ∧ (storedSettings t.live).key = (storedSettings s.live).key ∧
      (storedSettings t.live).node = (storedSettings s.live).node.set b.val (x.nodeId.getD (s.live.bus b).nodeId).toNat) ∧
    (∀ which : Fin 4, conf = true → Completes (.lssInquireIdentity b which) s fun t =>
      becomes x t ∧ Sends b (lssFrame (BitVec.ofNat 8 (90 + which.val) :: bytesLE 4 (identityPart which).toNat)) s t) ∧
    (conf = true → Completes (.lssInquireNodeId b) s fun t => becomes x t ∧ Sends b (lssFrame [94, (s.live.bus b).nodeId]) s t) ∧
    (∀ lo hi : LssAddress, lo.vendor = identityPart 0 → lo.product = identityPart 1 →
      lo.revision.toNat ≤ (identityPart 2).toNat → (identityPart 2).toNat ≤ hi.revision.toNat →
      lo.serial.toNat ≤ (identityPart 3).toNat → (identityPart 3).toNat ≤ hi.serial.toNat →
      Completes (.lssIdentifyRemoteSlave b lo hi) s fun t => becomes x t ∧ Sends b (lssFrame [79]) s t) ∧
    (unconfigured s.live b = true → Completes (.lssIdentifyNonConfiguredSlave b) s fun t =>
      becomes x t ∧ Sends b (lssFrame [80]) s t) ∧
    (unconfigured s.live b = true → conf = false →
      (∀ id sub next, Completes (.lssFastscan b id 0x80 sub next) s fun t =>
        becomes { x with scanPart := 0 } t ∧ Sends b (lssFrame [79]) s t) ∧
      (∀ (id : BitVec 32) (bit sub next : Byte), sub.toNat = x.scanPart → sub.toNat < 4 → bit.toNat < 32 →
        id >>> bit.toNat = identityPart sub.toNat >>> bit.toNat → Completes (.lssFastscan b id bit sub next) s fun t =>
          becomes { x with scanPart := next.toNat, configuration := bit = 0 && decide (next.toNat < sub.toNat) } t ∧
          Sends b (lssFrame [79]) s t))

/-- Communication objects act when their write is accepted (R404, R407). -/
def Obligations.CommObjectsComplete : Prop :=
  ∀ s conn, s.live.rst.sourceDue = none →
    (∀ data : List Byte, Reaches conn 0x1017 0 s → data.length = 2 → Completes (.commObjectWrite conn 0x1017 0 data) s fun t =>
      commVal t.live 0x1017 0 = ofBytesLE data ∧ (t.live.bus 0).lastHb = s.live.now ∧ (t.live.bus 1).lastHb = s.live.now ∧
      AnsweredDone conn t ∧ SameMemory s t) ∧
    (∀ data : List Byte, Reaches conn 0x1006 0 s → data.length = 4 → Completes (.commObjectWrite conn 0x1006 0 data) s fun t =>
      commVal t.live 0x1006 0 = ofBytesLE data ∧ t.live.net.lastSync = some s.live.now ∧ AnsweredDone conn t ∧ SameMemory s t) ∧
    (Reaches conn 0x1003 0 s → Completes (.errorListClear conn 0) s fun t =>
      t.live.net.errors = [] ∧ t.live.net.sticky = 0 ∧ t.live.conf = s.live.conf ∧ AnsweredDone conn t ∧ SameMemory s t)

/-- The host port: reads and writes of its windows, an invalid opcode, HPCFG (R410–R412). -/
def Obligations.HostPortComplete : Prop :=
  ∀ s, hostUp s.live = true →
    (∀ (addr : BitVec 40) len ecc, addr.toNat + len ≤ 0x10000 → Completes (.hostRead addr ⟨len, ecc⟩ false none) s fun t =>
      t.live.host.lastRead = bytesAt (byteOf (controlWord (csFall s.live))) addr.toNat len ∧ t.live.irq = s.live.irq ∧ SameMemory s t) ∧
    (∀ (addr : BitVec 40) len ecc, 0x10000000 ≤ addr.toNat → addr.toNat + len ≤ 0x110000000 → (∀ e ∈ ecc, e.2 = false) →
      lpddrOk s.live (addr.toNat - 0x10000000) len = true → Completes (.hostRead addr ⟨len, ecc⟩ false none) s fun t =>
        t.live.host.lastRead = readBytes s.live.mem (lpddrBase + (addr.toNat - 0x10000000)) len ∧ SameMemory s t) ∧
    (∀ (addr : BitVec 40) (data : List Byte), 0x10000000 ≤ addr.toNat → addr.toNat < 0x110000000 →
      addr.toNat + data.length ≤ 0x110000000 →
      let a := lpddrBase + (addr.toNat - 0x10000000)
      (s.live.rst.life = 2 → (s.live.logOn && inRing s.live a data.length) = false →
        lpddrOk s.live (addr.toNat - 0x10000000) data.length = true → Completes (.hostWrite addr data false) s fun t =>
          readBytes t.live.mem a data.length = data ∧
          (∀ b, b < a ∨ a + data.length ≤ b → readByte t.live.mem b = readByte s.live.mem b) ∧ t.live.host.stat = s.live.host.stat) ∧
      (s.live.rst.life ≠ 2 → Completes (.hostWrite addr data false) s fun t =>
        t.live.host.stat.getLsbD 2 = true ∧ SameMemory s t)) ∧
    (∀ op, Completes (.hostInvalidOpcode op) s fun t => t.live.host.stat = setBit s.live.host.stat 1 ∧ SameMemory s t) ∧
    (∀ v : BitVec 32, Completes (.hpcfgWrite v) s fun t =>
      t.live.host.cfgNext = some (BitVec.ofNat 8 (v.toNat % 16)) ∧ t.live.host.cfg = (csFall s.live).host.cfg ∧ SameMemory s t)

/-- The mailbox: the session, the rings, and the request at the front (R414–R417). -/
def Obligations.MailboxComplete : Prop :=
  ∀ s,
    let m := s.live.mail
    let req := frontRequest s.live
    (hostUp s.live = true →
      (∀ g, g ≠ 0 → g ≠ m.session → Completes (.sessionOpen g) s fun t =>
        t.live.mail.session = g ∧ (m.session ≠ 0 → t.live.mail.stat.getLsbD 3 = true) ∧ (t.live.connSt 256).unlocked = false ∧
        t.live.mail.writing = false ∧ SameMemory s t) ∧
      Completes .sessionClose s (fun t => t.live.mail.session = 0 ∧ t.live.mail.reqProd = m.reqProd ∧ SameMemory s t) ∧
      (∀ v : Byte, modDist 8 v.toNat m.reqCons.toNat ≤ 8 → Completes (.reqProdWrite v) s fun t =>
        t.live.mail = { m with reqProd := v } ∧ SameMemory s t) ∧
      (∀ v : Byte, 8 < modDist 8 v.toNat m.reqCons.toNat → Completes (.reqProdWrite v) s fun t =>
        t.live.mail.reqProd = m.reqProd ∧ t.live.mail.stat.getLsbD 2 = true ∧ SameMemory s t) ∧
      (∀ v : Byte, m.aborts = [] → Completes (.rspConsWrite v) s fun t => t.live.mail = { m with rspCons := v } ∧ SameMemory s t)) ∧
    (∀ d, frontIs 1 s.live = true → reqFlags req % 2 = 1 → reqOffset req = 0 →
      ((objectRead .host s.published (reqIndex req) (reqSub req) (takeRequest s.live)).connSt 256).answer = .value d →
      d.length ≤ messageRoom → Completes .mailboxRead s fun t =>
        t.live.mail.reqCons = m.reqCons + 1 ∧ t.live.mail.rspProd = m.rspProd + 1 ∧ t.live.mail.taken = none ∧
        t.live.mail.stat.getLsbD 0 = true ∧
        t.live.mail.rspSlots.get [] (m.rspProd.toNat % 8) = response s.live req 3 0 d ∧ SameMemory s t) ∧
    (frontIs 2 s.live = true → reqFlags req = 1 → reqOffset req = 0 → reqLen req ≤ messageRoom → Completes .mailboxWrite s fun t =>
      t.live.mail.reqCons = m.reqCons + 1 ∧ t.live.mail.rspProd = m.rspProd + 1 ∧ t.live.mail.writing = true ∧
      t.live.mail.writeKey = reqKey req ∧ t.live.mail.writeBuf = reqData req ∧
      t.live.mail.rspSlots.get [] (m.rspProd.toNat % 8) = response s.live req 1 0 [] ∧ SameMemory s t) ∧
    (frontIs 3 s.live = true → netUp s.live = true → reqLen req = 1 → fieldLE req 16 1 = 1 →
      mayOperate s.live = true → s.live.net.nmt ≠ nmtOp →
      Completes .mailboxNmt s fun t =>
        t.live.net.nmt = nmtOp ∧ t.live.mail.rspProd = m.rspProd + 1 ∧ t.live.mail.taken = none ∧ SameMemory s t) ∧
    (frontIs 4 s.live = true → s.live.conf.resyncStatus ≠ 1 → s.live.snap.copying = false → s.live.snap.waiting = false →
      Completes .mailboxResync s fun t =>
        t.live.conf.resyncStatus = 1 ∧ t.live.conf.resyncConns = s.live.conf.resyncConns ++ [256] ∧
        t.live.mail.taken = some (slice req 0 16) ∧ t.filling.isSome = true ∧ SameMemory s t) ∧
    (mayTake s.live = true → reqValid req = false → Completes .mailboxInvalidOpcode s fun t =>
      t.live.mail.reqCons = m.reqCons + 1 ∧ t.live.mail.rspProd = m.rspProd + 1 ∧ t.live.mail.taken = none ∧
      t.live.net.nmt = s.live.net.nmt ∧ t.live.conf = s.live.conf ∧ SameMemory s t)

/-! ### Configurations (16) -/

/-- Storing, restoring and writing the base image; a store's end makes the copy written the active one (R426–R428). -/
def Obligations.StoresComplete : Prop :=
  (∀ s conn, Reaches conn 0x1010 1 s → s.live.conf.storing = none → Completes (.storeAll conn 0x65766173) s fun t =>
    t.live.conf = { s.live.conf with storing := some (.save (connId conn), saveImage s.live) } ∧
    (t.live.connSt (connId conn)).answer = .none ∧ t.live.mram = s.live.mram ∧ SameMemory s t) ∧
  (∀ s conn, Reaches conn 0x1011 1 s → s.live.conf.storing = none → Completes (.restoreDefaults conn 0x64616F6C) s fun t =>
    t.live.conf = { s.live.conf with storing := some (.restore (connId conn), defaultsImage s.live) } ∧
    (t.live.connSt (connId conn)).answer = .none ∧ t.live.mram = s.live.mram ∧ SameMemory s t) ∧
  (∀ s conn (data : List Byte), Reaches conn 0x2E00 1 s → s.live.conf.storing = none → data.length ≤ 258048 →
    (imageValid data = true → Completes (.baseImageWrite conn data) s fun t =>
      t.live.conf = 
        { s.live.conf with imageStatus := 1, storing := some (.image (connId conn), withCount ((s.live.conf.storeCount.toNat + 1) % 2 ^ 32) data) } ∧
      t.live.mram = s.live.mram ∧ SameMemory s t) ∧
    (imageValid data = false → Completes (.baseImageWrite conn data) s fun t =>
      t.live.conf = { s.live.conf with imageStatus := 3 } ∧ (t.live.connSt (connId conn)).answer = .abort 0x06090030 ∧
      t.live.mram = s.live.mram ∧ SameMemory s t)) ∧
  (∀ s k b, s.live.conf.storing = some (k, b) →
    Completes (.storeComplete true) s (fun t =>
      baseCopy t.live (inactiveCopy s.live) = b ∧ baseCopy t.live (1 - inactiveCopy s.live) = baseCopy s.live (1 - inactiveCopy s.live) ∧
      t.live.conf.activeCopy = BitVec.ofNat 8 (inactiveCopy s.live) ∧ t.live.conf.storing = none ∧
      (t.live.connSt k.conn).answer = .done ∧ SameMemory s t) ∧
    Completes (.storeComplete false) s (fun t =>
      t.live.conf.activeCopy = s.live.conf.activeCopy ∧ t.live.conf.storeCount = s.live.conf.storeCount ∧
      baseCopy t.live (1 - inactiveCopy s.live) = baseCopy s.live (1 - inactiveCopy s.live) ∧
      t.live.conf.status.getLsbD 3 = true ∧ t.live.conf.storing = none ∧ SameMemory s t))

/-- Overlay slots and their application, the customer area, the resync summary (R431–R440). -/
def Obligations.OverlaysAndResyncComplete : Prop :=
  (∀ s conn (i : Fin 12) data, Reaches conn 0x2E00 (0x11 + i.val) s → s.live.conf.active ≠ i.val + 1 →
    s.live.conf.pending ≠ some (i.val + 1) → slotImageOk (i.val + 1) data = true → Completes (.overlaySlotWrite conn i data) s fun t =>
      t.live.mram.overlays.get [] (i.val + 1) = data ∧
      (∀ j, j ≠ i.val + 1 → t.live.mram.overlays.get [] j = s.live.mram.overlays.get [] j) ∧
      t.live.conf = s.live.conf ∧ AnsweredDone conn t ∧ SameMemory s t) ∧
  (∀ s conn (slot : BitVec 4), Reaches conn 0x2E00 3 s → slot.toNat ≤ 12 → (slot ≠ 0 → slotUsed s.live slot.toNat = true) →
    ((overlayReason slot.toNat (noPending (touch conn s.live))).1 ≠ 0 →
      Completes (.applyOverlayImmediate conn slot) s fun t =>
        t.live.conf =
          { s.live.conf with pending := none, status := setBit s.live.conf.status 0, refusedCnt := s.live.conf.refusedCnt + 1 } ∧ AnsweredDone conn t ∧ SameMemory s t) ∧
    ((overlayReason slot.toNat (noPending (touch conn s.live))).1 = 0 →
      Completes (.applyOverlayImmediate conn slot) s fun t =>
        t.live.conf.active = slot.toNat ∧ t.live.conf.lastDtime = s.live.time.dtime ∧ t.live.conf.gen = s.live.conf.gen + 1 ∧
        t.live.conf.ovl = (overlayReason slot.toNat (noPending (touch conn s.live))).2 ∧
        t.live.conf.pending = none ∧ AnsweredDone conn t) ∧
    Completes (.applyOverlayNextPps conn slot) s (fun t =>
      t.live.conf = { s.live.conf with pending := some slot.toNat } ∧ AnsweredDone conn t ∧ SameMemory s t)) ∧
  (∀ s conn, Reaches conn 0x2E00 5 s → Completes (.overlayCancel conn 1) s fun t =>
    t.live.conf = { s.live.conf with pending := none } ∧ AnsweredDone conn t ∧ SameMemory s t) ∧
  (∀ s conn (data : List Byte), Reaches conn 0x2E00 0x21 s → data.length ≤ 65536 →
    s.live.conf.custOffset + data.length ≤ customerSize → Completes (.customerDataWrite conn data) s fun t =>
      readBytes t.live.mram.customer s.live.conf.custOffset data.length = data ∧
      (∀ a, a < s.live.conf.custOffset ∨ s.live.conf.custOffset + data.length ≤ a →
        readByte t.live.mram.customer a = readByte s.live.mram.customer a) ∧ AnsweredDone conn t ∧ SameMemory s t) ∧
  (∀ s conn, Reaches conn 0x5E00 1 s → s.live.conf.resyncStatus ≠ 1 → s.live.snap.copying = false → s.live.snap.waiting = false →
    Completes (.resync conn) s fun t =>
      t.live.conf.resyncStatus = 1 ∧ t.live.conf.resyncSeq = nextSeq s.live.snap ∧
      t.live.conf.resyncConns = s.live.conf.resyncConns ++ [connId conn] ∧ t.filling.isSome = true ∧
      t.live.snap.seq = nextSeq s.live.snap ∧ SameMemory s t) ∧
  (∀ s, supervisorUp s.live = true → s.live.conf.resyncStatus = 1 → s.live.conf.summaryNext ≠ [] → Completes .summaryReady s fun t =>
    t.live.conf.resyncStatus = 2 ∧ t.live.conf.summary = s.live.conf.summaryNext ∧ t.live.conf.resyncConns = [] ∧
    (∀ i ∈ s.live.conf.resyncConns, (t.live.connSt i).answer = .done) ∧ SameMemory s t)

/-- The summary of a snapshot is 512 bytes long and ends with the CRC-32C of the bytes before (R438). -/
def Obligations.SummaryForm : Prop :=
  ∀ b : Bank, (summaryOf b).length = 512 ∧ fieldLE (summaryOf b) 508 4 = (crc32c ((summaryOf b).take 508)).toNat

/-! ### Reset, start-up and life-cycle (17) -/

/-- The pins, the supplies and the release of the domains in their order (R443–R446, R483). -/
def Obligations.ResetAndReleaseComplete : Prop :=
  (∀ s, Completes .powerOn s fun t =>
    (∀ i, i < 4 → t.live.rst.asserted.getLsbD i = false) ∧ (∀ i, 4 ≤ i → t.live.rst.asserted.getLsbD i = s.live.rst.asserted.getLsbD i) ∧
    t.live.rst.held = s.live.rst.held ∧ SameMemory s t) ∧
  (∀ s (rail : Fin 3), s.live.rst.asserted.getLsbD (1 + rail.val) = false → Completes (.brownOut rail) s fun t =>
    t.live.rst.asserted.getLsbD (1 + rail.val) = true ∧ t.live.rst.held = allDomains ∧ t.live.time.dtime = 0 ∧
    t.live.time.pllLocked = false ∧ t.live.mram = s.live.mram ∧ t.live.net.nmt = 0 ∧ t.live.pwm.arm = .disarmed ∧
    t.live.rst.life = s.live.rst.life ∧ t.published = none ∧ ∀ a, readByte t.live.mem a = 0) ∧
  (∀ s, s.live.rst.asserted.getLsbD 4 = false → Completes (.resetN true) s fun t =>
    t.live.rst.resetLow = true ∧ t.live.rst.asserted.getLsbD 4 = true ∧ t.live.rst.held = allDomains ∧ t.live.time.dtime = 0 ∧
    t.live.mram = s.live.mram ∧ t.live.rst.life = s.live.rst.life ∧ ∀ a, readByte t.live.mem a = 0) ∧
  (∀ s, Completes (.resetN false) s fun t =>
    t.live.rst = { s.live.rst with resetLow := false, asserted := clrBit s.live.rst.asserted 4 } ∧ SameMemory s t) ∧
  (∀ s, s.live.rst.asserted.getLsbD 8 = false → coreUp s.live = true → Completes (.warmN true) s fun t =>
    t.live.rst.warmLow = true ∧ t.live.rst.asserted.getLsbD 8 = true ∧ coreUp t.live = false ∧ domainUp .prot t.live = false ∧
    domainUp .comm t.live = false ∧ domainUp .clk t.live = domainUp .clk s.live ∧ domainUp .mem t.live = domainUp .mem s.live ∧
    t.live.time.dtime = s.live.time.dtime ∧ t.live.net.nmt = 0 ∧ t.live.pwm.arm = .disarmed) ∧
  (∀ s, Completes (.warmN false) s fun t =>
    t.live.rst = { s.live.rst with warmLow := false, asserted := clrBit s.live.rst.asserted 8 } ∧ SameMemory s t) ∧
  (∀ s d, mayRelease d s.live = true → Completes (.domainRelease d) s fun t =>
    domainUp d t.live = true ∧ (∀ e, e ≠ d → domainUp e t.live = domainUp e s.live) ∧
    (d = .mem → t.live.log.zeroing = true) ∧ (d = .core → s.live.rst.genDone = false → t.live.rst.gen = s.live.rst.gen + 1) ∧
    (d = .comm → t.live.rst.sources = 0) ∧ SameMemory s t)

/-- The steps of the start-up after the release of CORE: the self-test, the commit with the first snapshot, PRE-OPERATIONAL with the
boot-up messages (R71, R398, R447, R454). -/
def Obligations.StartUpComplete : Prop :=
  (∀ s failed, coreUp s.live = true → s.live.rst.selfTestDue = true → Completes (.selfTest failed) s fun t =>
    t.live.rst.selfTest = BitVec.ofNat 8 (0x80 + failed.toNat) ∧ t.live.rst.selfTestDue = false ∧
    t.live.rst.status.getLsbD 4 = (s.live.rst.status.getLsbD 4 || decide (failed.toNat % 8 ≠ 0)) ∧ t.live.log.testHold = false ∧
    SameMemory s t) ∧
  (∀ s, coreUp s.live = true → s.live.rst.committed = false → s.live.rst.selfTestDue = false →
    s.live.snap.copying = false → s.live.snap.waiting = false → Completes .startUpCommit s fun t =>
      t.live.rst.committed = true ∧ t.live.rst.wipePending = false ∧ t.live.rst.wipeStarted = false ∧
      t.live.snap.taken = true ∧ t.filling.isSome = true) ∧
  (∀ s, s.live.rst.held = [] → s.live.rst.committed = true → s.live.net.nmt = 0 → s.live.net.choice.selfStart = false →
    Completes .enterPreOperational s fun t =>
      t.live.net.nmt = nmtPre ∧ t.live.rst.starting = false ∧ t.live.rst.dueEmcy = [] ∧ t.live.rst.lifeRecord = none ∧
      (∀ b : Fin 2, busConfigured s.live b = true → Sends b (heartbeatFrame s.live b 0) s t) ∧ SameMemory s t)

/-- The watchdog, software warm reset, block resets, the supply monitor and the life-cycle; a supervisor that has stopped serves no
request (R15, R452, R453, R456, R460, R465). -/
def Obligations.SupervisorCompletes : Prop :=
  (∀ s, watchdogOut s.live = true → thirdStage s.live = false → s.live.rst.asserted.getLsbD 9 = false →
    Completes .watchdogStage1 s fun t =>
      t.live.rst.wdStage1 = s.live.now :: stageOnes s.live ∧ t.live.rst.status.getLsbD 0 = true ∧ coreUp t.live = false ∧
      t.live.rst.sticky.getLsbD 9 = true ∧ t.live.pwm.arm = .disarmed ∧ t.live.time.dtime = s.live.time.dtime) ∧
  (∀ s, watchdogOut s.live = true → thirdStage s.live = true → s.live.rst.asserted.getLsbD 5 = false →
    Completes .watchdogStage2 s fun t =>
      t.live.rst.held = allDomains ∧ t.live.rst.sticky.getLsbD 5 = true ∧ t.live.time.dtime = 0 ∧ t.live.pwm.arm = .disarmed ∧
      t.live.mram = s.live.mram) ∧
  (∀ s conn req, supervisorUp s.live = false → Completes (.sdoRequest conn req) s fun t =>
    t.live.conf = s.live.conf ∧ t.live.groups = s.live.groups ∧ t.live.connSt (connId conn) = s.live.connSt (connId conn) ∧
    SameMemory s t) ∧
  (∀ s conn, Reaches conn 0x5E40 1 s → s.live.conf.storing = none → coreUp s.live = true → s.live.rst.asserted.getLsbD 11 = false →
    Completes (.softwareWarmReset conn 0x6D726177) s fun t =>
      coreUp t.live = false ∧ t.live.rst.sticky.getLsbD 11 = true ∧ t.live.rst.sourceDue = none ∧
      t.live.time.dtime = s.live.time.dtime ∧ t.live.mram = s.live.mram ∧ AnsweredDone conn t) ∧
  (∀ s conn (code : Byte), Reaches conn 0x5E40 2 s → (blockSource code.toNat).isSome = true → code ≠ 0x48 →
    (coreUp s.live = true → blockHeld s.live code.toNat = false →
      Completes (.blockResetAssert conn code) s (fun t =>
        blockHeld t.live code.toNat = true ∧ t.live.rst.blockCnt = s.live.rst.blockCnt + 1 ∧
        t.live.rst.lastBlock = BitVec.ofNat 16 code.toNat ∧ t.live.conf.objs = s.live.conf.objs ∧ AnsweredDone conn t) ∧
      Completes (.blockResetPulse conn code) s (fun t =>
        blockHeld t.live code.toNat = true ∧ t.live.rst.pulses = s.live.rst.pulses ++ [(code.toNat, s.live.now + 400)] ∧
        AnsweredDone conn t)) ∧
    (blockHeld s.live code.toNat = true → Completes (.blockResetRelease conn code) s fun t =>
      blockHeld t.live code.toNat = false ∧ AnsweredDone conn t)) ∧
  (∀ s (code : Byte) u, blockHeld s.live code.toNat = true → (code.toNat, u) ∈ s.live.rst.pulses → u ≤ s.live.now →
    Completes (.blockResetPulseEnd code) s fun t => blockHeld t.live code.toNat = false) ∧
  (∀ s core v18 vio temp, domainUp .aon s.live = true → Completes (.supplySample core v18 vio temp) s fun t =>
    t.live.rst.dieTemp = temp ∧ t.live.rst.outRange.getLsbD 0 = monitorOutside (s.live.rst.outRange.getLsbD 0) 0 core.toNat ∧
    t.live.rst.outRange.getLsbD 1 = monitorOutside (s.live.rst.outRange.getLsbD 1) 1 v18.toNat ∧
    t.live.rst.outRange.getLsbD 2 = monitorOutside (s.live.rst.outRange.getLsbD 2) 2 vio.toNat ∧
    t.live.rst.outRange.getLsbD 3 = monitorOutside (s.live.rst.outRange.getLsbD 3) 3 temp.toInt ∧ SameMemory s t) ∧
  (∀ s conn (new : Byte), Reaches conn 0x5E10 2 s → transitionOk s.live.rst.life.toNat new.toNat = true →
    s.live.pwm.arm ≠ .armed → s.live.net.nmt ≠ nmtOp → storeBusy s.live = false → coreUp s.live = true →
    s.live.rst.asserted.getLsbD 6 = false →
    Completes (.lifecycleTransition conn (BitVec.ofNat 32 (0x6C630000 + new.toNat))) s fun t =>
      t.live.rst.life = new ∧ t.live.rst.lifeRecord = some (new, s.live.rst.life) ∧ t.live.rst.sticky.getLsbD 6 = true ∧
      (new = 4 → t.live.rst.wipePending = true) ∧ coreUp t.live = false ∧ t.live.rst.sourceDue = none ∧ AnsweredDone conn t)

/-- The fault journal: the oldest entry of the queue is written at the slot of its sequence; a range is read; a clear empties it
(R462–R465). -/
def Obligations.JournalComplete : Prop :=
  (∀ s e rest, s.live.journal.queue = e :: rest → journalReady s.live = true → Completes .journalWrite s fun t =>
    let n := (s.live.journal.newest.toNat + 1) % 2 ^ 32
    t.live.journal.newest = BitVec.ofNat 32 n ∧ t.live.mram.journal.get [] (n % 4096) = entryBytes n e ∧
    (∀ k, k ≠ n % 4096 → t.live.mram.journal.get [] k = s.live.mram.journal.get [] k) ∧ SameMemory s t) ∧
  (∀ s conn v, Reaches conn 0x5E20 1 s → field v.toNat 63 48 = 0 → 1 ≤ field v.toNat 47 32 → field v.toNat 47 32 ≤ 256 →
    Completes (.journalReadRequest conn v) s fun t =>
      t.live.journal.result = bytesLE 2 (journalRange s.live (field v.toNat 31 0) (field v.toNat 47 32)).length ++ [0, 0] ++
        bytesLE 4 s.live.journal.newest.toNat ++ (journalRange s.live (field v.toNat 31 0) (field v.toNat 47 32)).flatten ∧
      t.live.mram = s.live.mram ∧ AnsweredDone conn t ∧ SameMemory s t) ∧
  (∀ s conn, Reaches conn 0x5E20 7 s → s.live.rst.life = 2 → Completes (.journalClear conn 0x6A726C63) s fun t =>
    t.live.mram = { s.live.mram with journal := [] } ∧ t.live.journal.newest = s.live.journal.newest ∧ t.live.journal.valid = 0 ∧
    AnsweredDone conn t ∧ SameMemory s t)

/-- The release of CORE advances the 16-bit reset generation once per reset: the first source of a reset opens it, a further source
changes neither it nor the mark that it has been advanced, and COMM and BLOCK resets leave it unchanged (R449). -/
def Obligations.GenerationAdvances : Prop :=
  (∀ s, mayRelease .core s.live = true →
    (s.live.rst.genDone = false → Completes (.domainRelease .core) s fun t =>
      t.live.rst.gen = s.live.rst.gen + 1 ∧ t.live.rst.genDone = true) ∧
    (s.live.rst.genDone = true → Completes (.domainRelease .core) s fun t =>
      t.live.rst.gen = s.live.rst.gen ∧ t.live.rst.genDone = true)) ∧
  (∀ s, s.live.rst.asserted.getLsbD 8 = false →
    Completes (.warmN true) s fun t =>
      t.live.rst.gen = s.live.rst.gen ∧ (s.live.rst.sources = 0 → t.live.rst.genDone = false) ∧
      (s.live.rst.sources ≠ 0 → t.live.rst.genDone = s.live.rst.genDone)) ∧
  (∀ s, s.live.rst.asserted.getLsbD 4 = false →
    Completes (.resetN true) s fun t =>
      t.live.rst.gen = s.live.rst.gen ∧ (s.live.rst.sources = 0 → t.live.rst.genDone = false) ∧
      (s.live.rst.sources ≠ 0 → t.live.rst.genDone = s.live.rst.genDone)) ∧
  (∀ src l, src < 16 → l.rst.asserted.getLsbD src = false →
    (assertSource src l).rst.gen = l.rst.gen ∧ (l.rst.sources = 0 → (assertSource src l).rst.genDone = false) ∧
    (l.rst.sources ≠ 0 → (assertSource src l).rst.genDone = l.rst.genDone)) ∧
  (∀ s t src, exec (.nmtResetCommunication src) s = .next t → t.live.rst.gen = s.live.rst.gen) ∧
  (∀ s t conn code c, c ∈ [.blockResetAssert conn code, .blockResetRelease conn code, .blockResetPulse conn code, .blockResetPulseEnd code] →
    exec c s = .next t → t.live.rst.gen = s.live.rst.gen)

/-! ### The whole machine -/

/-- A step takes the command at the front of the queue and runs it with the queue's rest. -/
def Obligations.StepRunsFrontCommand : Prop :=
  ∀ (c : Instr) (s : State), step { s with pending := c :: s.pending } = exec c s

/-- On an empty queue, which the model takes for the end of a TCLK (its own choice, log entry 1), DTIME has advanced by exactly one and
ATIME by 1 + r × 2^-32 ticks (R34, R41), where neither the host port's reset pulse nor the trip overlay falls due; memory stays where
DMA has posted no write into its own control space; without PLL lock there is no TCLK and nothing moves (R27). -/
def Obligations.EmptyQueueEndsTclk : Prop :=
  ∀ s : State, s.pending = [] →
    (s.live.time.pllLocked = false → step s = .next s) ∧
    (s.live.time.pllLocked = true → s.live.rst.hostPulseAt = none → s.live.conf.tripDue = none →
      ∃ t, step s = .next t ∧ t.live.time.dtime = s.live.time.dtime + 1 ∧ t.live.time.rate = s.live.time.rate ∧
        (domainUp .aon s.live = true → 0 ≤ (atimeFine s.live : Int) + 2 ^ 32 + s.live.time.rate →
          (atimeFine s.live : Int) + 2 ^ 32 + s.live.time.rate < 2 ^ 35 * 400000000 * 2 ^ 32 →
          (atimeFine t.live : Int) = (atimeFine s.live : Int) + 2 ^ 32 + s.live.time.rate) ∧
        (s.live.dmaPosted = [] → SameMemory s t) ∧ t.pending = [])

/-- No command touches the queue. -/
def Obligations.QueueUntouched : Prop :=
 ∀ c s t, exec c s = .next t → t.pending = s.pending

/-- Every bank carries the number and the freeze instant of its own snapshot, and every request of a TCLK is served within it: what
every step keeps (R64–R68, R70). -/
def Obligations.BanksStayCoherent : Prop :=
  ∀ s t, s.BanksCoherent → s.Settled → step s = .next t → t.BanksCoherent ∧ t.Settled

/-- After reset: every domain held, INITIALISING, disarmed, TCLK not started and DTIME at 0, no snapshot, no command waiting, memory in
its canonical form, and the invariant of the banks (R27, R71, R291, R396, R445). -/
def Obligations.ResetHolds : Prop :=
  State.reset.pending = [] ∧ State.reset.live.rst.held = allDomains ∧ State.reset.live.net.nmt = 0 ∧
    State.reset.live.pwm.arm = .disarmed ∧ State.reset.live.time.pllLocked = false ∧ State.reset.live.time.dtime = 0 ∧
    State.reset.published = none ∧ State.reset.filling = none ∧ State.reset.held = none ∧ State.reset.live.conf.active = 0 ∧
    (∀ g, (State.reset.live.group g).state = .idle) ∧ (∀ u, (State.reset.live.pair u).state ≠ .running) ∧
    Memory.wf State.reset.live.mem = true ∧ State.reset.BanksCoherent ∧ State.reset.Settled

/-- Every command that writes the fabric memory keeps its canonical form. -/
def Obligations.MemoryStaysCanonical : Prop :=
  ∀ (c : Instr) (s t : State),
    (c ∈ [.logStagingMove, .stagingFlushDone] ∨ (∃ conn data, c = .memoryLoad conn data) ∨
      (∃ a data cs, c = .hostWrite a data cs) ∨ (∃ (k : Fin 32) (ecc : EccWords), c = .dmaBurstDone ⟨k, ecc⟩) ∨
      (∃ low, c = .resetN low ∨ c = .warmN low) ∨
      (∃ rail, c = .brownOut rail)) →
    Memory.wf s.live.mem = true → exec c s = .next t → Memory.wf t.live.mem = true

/-! ### Frames: what a command leaves alone, whenever it answers a next state -/

/-- Time and channels: the time unit is written without DTIME and the PLL's lock (R34); a match or a request acts on its own channel
and its T-pins; an input edge may also gate the counts of other channels. -/
def Obligations.TimeAndChannelFrames : Prop :=
  (∀ c ∈ [Instr.referenceRelock, .stampWrap, .ppsOutWidthEnd, .ppsInLevelEnd, .ppsLongPulse],
    ChangesOnly (fun l u => { l with time := { u.time with dtime := l.time.dtime, pllLocked := l.time.pllLocked } }) c) ∧
  (∀ fine days ms, ∀ c ∈ [Instr.ppsInEdge fine, .timeReceived days ms],
    ChangesOnly (fun l u => { l with time := { u.time with dtime := l.time.dtime, pllLocked := l.time.pllLocked } }) c) ∧
  (∀ c ∈ [Instr.atimeSecondBoundary, .holdoverTimeout],
    ChangesOnly (fun l u => { l with time := { u.time with dtime := l.time.dtime }, events := u.events }) c) ∧
  (∀ (n : Fin 512), ChangesOnly (fun l u => { l with channels := u.channels, tpins := u.tpins }) (.matchFire n) ∧
    KeepsOthers Live.chan n (.matchFire n)) ∧
  (∀ (n : Fin 512) stamp rising, ChangesOnly (fun l u => { l with channels := u.channels, tpins := u.tpins }) (.inputEdge n stamp rising)) ∧
  (∀ (n : Fin 512) lnkd, ChangesOnly (fun l u => { l with channels := u.channels }) (.linkRequest n lnkd) ∧
    KeepsOthers Live.chan n (.linkRequest n lnkd)) ∧
  (∀ conn (n : Fin 512) v, ∀ c ∈ [Instr.captureFifoPop conn n, .hostCommand conn n v],
    ChangesOnly (fun l u => { l with channels := u.channels, net := { l.net with conns := u.net.conns } }) c ∧
    KeepsOthers Live.chan n c ∧ KeepsOtherConns conn c) ∧
  (∀ (n : Fin 192) level, ChangesOnly (fun l u => { l with tpins := u.tpins, pairs := u.pairs, pwm := u.pwm }) (.tpinReadback n level) ∧
    KeepsOthers Live.tpin n (.tpinReadback n level))

/-- The microengines: an ALU operation, a table read or a choice of the successor changes its own cluster alone; a staged effect, a
state word or a WAIT (that raises no machine check) reaches no further than clusters, channels, T-pins, events, requests and, through a
trap, the pairs. -/
def Obligations.EngineFrames : Prop :=
  (∀ (k : Fin 8) wid a b cond cpol naddr c' sw r,
    ∀ c ∈ [Instr.aluPass k wid a b, .aluAdd k wid a b, .aluSub k wid a b, .aluAnd k wid a b, .aluOr k wid a b, .aluXor k wid a b,
        .aluShl k wid a b, .aluShr k wid a b, .aluSar k wid a b, .aluMul k wid a b, .aluDiv k wid a b, .aluMinu k wid a b,
        .aluMaxu k wid a b, .aluFfs k wid a b, .aluSel k wid a b cond cpol, .aluAndn k wid a b, .nextGo k naddr,
        .nextTwoWay k naddr c', .nextDispatch k naddr, .stateWordRead k sw, .tableReadStart k r],
      ChangesOnly (fun l u => { l with clusters := u.clusters }) c ∧ KeepsOthers Live.cluster k c) ∧
  (∀ (k : Fin 8) r fine c' mask n sw naddr,
    ∀ c ∈ [Instr.matchaLoad k r fine, .matchbLoad k r fine, .matchaLoadFineLayout k r, .matchbLoadFineLayout k r, .disarmA k, .disarmB k,
        .disarmAAndB k, .armA k, .armB k, .fifoPop k, .cctlModeLoad k r, .pinActionSet k fine, .pinActionClear k fine,
        .pinActionToggle k fine, .pinActionResult k fine r, .pinActionCondition k fine c', .flagSet k mask, .flagClear k mask,
        .linkAllTargets k r, .linkOneTarget k n r, .irqRequest k, .dmaRequestRaise k, .eventPost k, .logWrite k r, .stateWordWrite k sw r,
        .waitRelease k, .waitTimeout k, .microCommit k, .nextEnd k naddr],
      ChangesOnly (fun l u => { l with clusters := u.clusters, channels := u.channels, tpins := u.tpins, events := u.events, irq := u.irq,
                                       pairs := u.pairs, pwm := u.pwm, freeIdx := u.freeIdx }) c ∧ KeepsOthers Live.cluster k c) ∧
  (∀ (k : Fin 8) s t, badWait s.live k = none → exec (.microwordWait k) s = .next t →
    FrameOf { s.live with clusters := t.live.clusters, channels := t.live.channels, tpins := t.live.tpins, events := t.live.events,
                          irq := t.live.irq, pairs := t.live.pairs, pwm := t.live.pwm, freeIdx := t.live.freeIdx } s t ∧
      ∀ j, j ≠ k.val → t.live.cluster j = s.live.cluster j) ∧
  (∀ (k : Fin 8), ∀ c ∈ [Instr.routineStart k, .routineAbandon k],
    ChangesOnly (fun l u => { l with clusters := u.clusters, channels := u.channels }) c ∧ KeepsOthers Live.cluster k c) ∧
  (∀ (k : Fin 8) a b rom ok, ∀ c ∈ [Instr.mcRecoveryDone k a b rom, .scrubRepairDone k ok],
    ChangesOnly (fun l u => { l with clusters := u.clusters }) c ∧ KeepsOthers Live.cluster k c)

/-- Events and wheels: the scheduler's own work changes the event table alone; a tooth or a deadline of a tracker changes its own wheel
and the entries that wait on it; a tooth also the wheels whose partner it is. -/
def Obligations.EventAndWheelFrames : Prop :=
  (∀ c ∈ [Instr.insertWalkDone, .eventPrearm, .eventListingDone], ChangesOnly (fun l u => { l with events := u.events }) c) ∧
  (∀ conn (q : Fin 16) v, ∀ c ∈ [Instr.queueFlush conn q, .eventReadRequest conn v],
    ChangesOnly (fun l u => { l with events := u.events, net := { l.net with conns := u.net.conns } }) c ∧ KeepsOtherConns conn c) ∧
  (∀ conn v (g : Fin 64), ∀ c ∈ [Instr.eventCancel conn v, .groupDiscard conn g],
    ChangesOnly (fun l u => { l with events := u.events, groups := u.groups, net := { l.net with conns := u.net.conns } }) c ∧
    KeepsOtherConns conn c) ∧
  (∀ (q : Fin 16) (n : Fin 192) (x : Fin 512) fine, ∀ c ∈ [Instr.eventPinSet q n fine, .eventPinClear q n fine, .eventPinToggle q n fine,
      .kickChannel q x],
    ChangesOnly (fun l u => { l with events := u.events, channels := u.channels, tpins := u.tpins }) c) ∧
  (∀ w : Fin 4, ∀ c ∈ [Instr.virtualTooth w, .toothTimeoutLost w, .gapLate w, .trackerStall w, .laneHold w, .catchupEnd w],
    ChangesOnly (fun l u => { l with wheels := u.wheels, events := u.events }) c ∧ KeepsOthers Live.wheel w c) ∧
  (∀ (w : Fin 4) rising stamp,
    ChangesOnly (fun l u => { l with wheels := u.wheels, events := u.events }) (.toothEdge w ⟨rising, stamp⟩) ∧
    ∀ s t, exec (.toothEdge w ⟨rising, stamp⟩) s = .next t → ∀ j, j ≠ w.val → (4 ≤ j ∨ s.live.cfg 0x2610 (j + 1) ≠ w.val) →
      t.live.wheel j = s.live.wheel j) ∧
  (∀ w : Fin 4, ChangesOnly (fun l u => { l with wheels := u.wheels }) (.camMissing w) ∧ KeepsOthers Live.wheel w (.camMissing w))

/-- Feedback ports, pairs, converters and pin engines: each command acts on its own unit; a movement of a port is counted by the ports
whose reference it is. -/
def Obligations.PeripheralFrames : Prop :=
  (∀ (n : Fin 8) rising stamp a b lines raw level,
    (∀ c ∈ [Instr.quadratureTransition n stamp a b, .hallChange n stamp lines, .ssiFrameEvaluate n raw],
      ChangesOnly (fun l u => { l with ports := u.ports, events := u.events }) c ∧
      ∀ s t, exec c s = .next t → ∀ j, j ≠ n.val →
        t.live.port j = { s.live.port j with refMoved := (t.live.port j).refMoved } ∧
        ((8 ≤ j ∨ s.live.cfg (0x2500 + j) 0x1B ≠ n.val) → t.live.port j = s.live.port j)) ∧
    ∀ c ∈ [Instr.indexEdge n ⟨rising, stamp⟩, .ssiPeriodicRequest n, .ssiFrameStart n level, .ssiStartBit n level, .ssiStartTimeout n,
        .ssiRecoveryEnd n, .observerUpdate n, .standstill n, .probeEdge n ⟨rising, stamp⟩, .startingToRunning n],
      ChangesOnly (fun l u => { l with ports := u.ports, events := u.events }) c ∧ KeepsOthers Live.port n c) ∧
  (∀ (u : Fin 24) edge beat isL taps, ∀ c ∈ [Instr.pwmMidReload u, .pwmOutputEdge u edge, .streamBeatWrite u beat,
      .dlineCalibration u isL taps, .pairStart u],
    ChangesOnly (fun l u => { l with pairs := u.pairs }) c ∧ KeepsOthers Live.pair u c) ∧
  (∀ i : Fin 16, ChangesOnly (fun l u => { l with trips := u.trips }) (.blankLimit i) ∧ KeepsOthers Live.trip i (.blankLimit i)) ∧
  ChangesOnly (fun l u => { l with pwm := u.pwm }) .armToggle ∧
  (∀ (k : Fin 4) r0 r1 r2 r3 temp, ∀ c ∈ [Instr.adcFifoRead k, .calibrationDone r0 r1 r2 r3 temp],
    ChangesOnly (fun l u => { l with analog := u.analog }) c) ∧
  (∀ n : Fin 4, ChangesOnly (fun l u => { l with analog := u.analog, irq := u.irq }) (.stepStart n) ∧
    KeepsOthers Live.seq n (.stepStart n)) ∧
  (∀ (e : Fin 16) pins mask word (j : Fin 8) level,
    ∀ c ∈ [Instr.nop e, .delay e, .delayEnd e, .wait e pins, .peWaitRelease e pins, .peWaitTimeout e pins, .drive e, .emit e pins,
        .sample e pins, .fetch e, .deposit e, .branch e pins, .setlc e, .loop e, .signal e, .txdWrite e word, .peFlagSet e mask,
        .peFlagClear e mask, .flush e, .forceSwap e, .bankSwap e, .peReadback e j level],
      ChangesOnly (fun l u => { l with engines := u.engines }) c ∧ KeepsOthers Live.pe e c)

/-- DMA, log, interrupts and doze: each command acts on its own unit; a memory load writes the load address's bytes and no others. -/
def Obligations.DataPathFrames : Prop :=
  (∀ (k : Fin 32) ecc, ∀ c ∈ [Instr.fenceReadDone ⟨k, ecc⟩, .descriptorFetchDone ⟨k, ecc⟩],
    ChangesOnly (fun l u => { l with dma := u.dma, rst := u.rst }) c ∧ KeepsOthers Live.dc k c) ∧
  (∀ conn (k : Fin 32), ∀ c ∈ [Instr.dmaStart conn k, .dmaContinue conn k, .dmaSoftwareRequest conn k],
    ChangesOnly (fun l u => { l with dma := u.dma, net := { l.net with conns := u.net.conns } }) c ∧ KeepsOthers Live.dc k c) ∧
  (∀ unit, ∀ c ∈ [Instr.logAdmit unit, .logLossRecord, .lpddrZeroingDone], ChangesOnly (fun l u => { l with log := u.log }) c) ∧
  (∀ conn n, ChangesOnly (fun l u => { l with log := u.log, net := { l.net with conns := u.net.conns } }) (.releaseRecords conn n)) ∧
  (∀ conn data, ChangesOnly (fun l u => { l with mem := u.mem, net := { l.net with conns := u.net.conns } }) (.memoryLoad conn data)) ∧
  (∀ (r : Fin 9) off ecc, ChangesOnly (fun l u => { l with rst := u.rst }) (.patrolScrub r off ecc)) ∧
  (∀ g : Fin 40, ∀ c ∈ [Instr.holdOffEnd g, .claimTimeout g],
    ChangesOnly (fun l u => { l with irq := u.irq }) c ∧ KeepsOthers Live.irqGroup g c) ∧
  (∀ (n : Fin 4) g (h : Fin 40) mask, ∀ c ∈ [Instr.irqClaim n g, .irqComplete n g, .latchClear h mask],
    ChangesOnly (fun l u => { l with irq := u.irq, host := u.host }) c) ∧
  (∀ kind, ∀ c ∈ [Instr.dozeEnter, .wakeLatch kind, .wakeComplete], ChangesOnly (fun l u => { l with doze := u.doze }) c)

/-- Network and configuration: a bus's own events change that bus alone; the LSS slave, the timers and the keys change the network
unit; a store changes the configuration unit until it completes. -/
def Obligations.NetworkFrames : Prop :=
  (∀ (b : Fin 2) id x y bits (addr : LssAddress) (which : Fin 4),
    ∀ c ∈ [Instr.busOff b, .errorPassive b, .errorActive b, .emcyInhibitEnd b, .heartbeatProduce b, .busOffRecovery b, .rxOverrun b,
        .lssSwitchStateGlobal b id, .lssSwitchStateSelective b addr, .lssConfigureNodeId b id, .lssConfigureBitTiming b x y,
        .lssInquireIdentity b which, .lssInquireNodeId b, .lssFastscan b bits x y id],
      ChangesOnly (fun l u => { l with net := u.net }) c ∧
      ∀ s t, exec c s = .next t → t.live.net.nmt = s.live.net.nmt ∧ t.live.net.conns = s.live.net.conns) ∧
  (∀ (p : Fin 16) unsent conn key, ∀ c ∈ [Instr.tpdoEventTimer p, .tpdoInhibitEnd p, .synchronousWindowEnd unsent, .rpdoDeadline p,
      .sdoProtocolTimeout conn, .unlockTimeout conn, .keyLockoutEnd conn, .expertKey conn key],
    ChangesOnly (fun l u => { l with net := u.net }) c ∧ ∀ s t, exec c s = .next t → t.live.net.nmt = s.live.net.nmt) ∧
  (∀ src, ∀ c ∈ [Instr.nmtStart src, .nmtStop src, .nmtEnterPreOperational src],
    ChangesOnly (fun l u => { l with net := u.net, pairs := u.pairs, pwm := u.pwm }) c) ∧
  (∀ conn (g : Fin 64) entry, ∀ c ∈ [Instr.groupDisarm conn g, .addMember conn g entry, .removeMember conn g entry],
    ChangesOnly (fun l u => { l with groups := u.groups, net := { l.net with conns := u.net.conns } }) c ∧ KeepsOtherConns conn c) ∧
  (∀ conn (g : Fin 64), KeepsOthers Live.group g (.groupDisarm conn g)) ∧
  (∀ conn sig v data, ∀ c ∈ [Instr.storeAll conn sig, .restoreDefaults conn sig, .overlayCancel conn v, .baseImageWrite conn data],
    ChangesOnly (fun l u => { l with conf := u.conf, net := { l.net with conns := u.net.conns } }) c ∧ KeepsOtherConns conn c) ∧
  (∀ conn (slot : Fin 12) data, ∀ c ∈ [Instr.overlaySlotWrite conn slot data, .customerDataWrite conn data],
    ChangesOnly (fun l u => { l with mram := u.mram, net := { l.net with conns := u.net.conns } }) c ∧ KeepsOtherConns conn c) ∧
  (∀ a b c' d, ∀ c ∈ [Instr.powerOn, .supplySample a b c' d], ChangesOnly (fun l u => { l with rst := u.rst }) c) ∧
  ChangesOnly (fun l u => { l with mram := u.mram, journal := u.journal }) .journalWrite
end

