-- ==== Sys2Proof/Laws/Reports.lean ====
section
/-! SUPPORT. What records, EMCYs, journal entries and reports can change: the log, the network unit, the journal, and nothing
else. One law per operation says all it can do; the law `…_keeps` beside it serves the simplifier. -/

namespace Sys2Proof.Machine

open Sys2Proof

/-- Nothing but the log, the network unit, the journal and the notes of flags set in the TCLK differs. -/
def OnlyReports (l m : Live) : Prop := m = { l with log := m.log, net := m.net, journal := m.journal, flagsNow := m.flagsNow }

theorem OnlyReports.refl (l : Live) : OnlyReports l l := rfl

theorem OnlyReports.trans {a b c : Live} (h : OnlyReports a b) (k : OnlyReports b c) : OnlyReports a c := by
  unfold OnlyReports at *
  rw [k, h]

theorem lose_only (cause n : Nat) (l : Live) : lose cause n l = { l with
      log := (lose cause n l).log, flagsNow := (lose cause n l).flagsNow } := by
  unfold lose
  split
  · rfl
  · dsimp only
    split <;> rfl

theorem writeRecordAt_only (dt src kind payload : Nat) (l : Live) :
    writeRecordAt dt src kind payload l = { l with
      log := (writeRecordAt dt src kind payload l).log, flagsNow := (writeRecordAt dt src kind payload l).flagsNow } := by
  unfold writeRecordAt
  split
  · rfl
  · dsimp only
    split
    · rfl
    · exact lose_only _ _ _

theorem writeRecord_only (src kind payload : Nat) (l : Live) :
    writeRecord src kind payload l = { l with
      log := (writeRecord src kind payload l).log, flagsNow := (writeRecord src kind payload l).flagsNow } :=
  writeRecordAt_only _ _ _ _ _

theorem journalAt_only (dt : Word) (src kind payload code : Nat) (l : Live) :
    journalAt dt src kind payload code l = { l with
      journal := (journalAt dt src kind payload code l).journal, flagsNow := (journalAt dt src kind payload code l).flagsNow } := by
  unfold journalAt
  dsimp only
  split <;> rfl

theorem journal_only (src kind payload code : Nat) (l : Live) :
    journal src kind payload code l = { l with
      journal := (journal src kind payload code l).journal, flagsNow := (journal src kind payload code l).flagsNow } :=
  journalAt_only _ _ _ _ _ _

theorem emcyOnBus_only (data : List Byte) (b : Nat) (l : Live) :
    emcyOnBus data b l = { l with
      net := (emcyOnBus data b l).net, flagsNow := (emcyOnBus data b l).flagsNow } := by
  unfold emcyOnBus
  split
  · dsimp only
    split
    · rfl
    · split <;> rfl
  · rfl

theorem emcyBuses_only (data : List Byte) (l : Live) :
    forAll (emcyOnBus data) [0, 1] l = { l with
      net := (forAll (emcyOnBus data) [0, 1] l).net, flagsNow := (forAll (emcyOnBus data) [0, 1] l).flagsNow } := by
  show emcyOnBus data 1 (emcyOnBus data 0 l) = { l with
      net := (emcyOnBus data 1 (emcyOnBus data 0 l)).net, flagsNow := (emcyOnBus data 1 (emcyOnBus data 0 l)).flagsNow }
  rw [emcyOnBus_only data 1, emcyOnBus_only data 0]

/-- An EMCY changes the log and the network unit only. -/
theorem emcy_only (code src payload : Nat) (l : Live) :
    emcy code src payload l = { l with
      log := (emcy code src payload l).log, net := (emcy code src payload l).net,
      flagsNow := (emcy code src payload l).flagsNow } := by
  unfold emcy
  dsimp only
  rw [emcyBuses_only, writeRecord_only]
  split <;> rfl

/-- So does the return of the error register to 0. -/
theorem errSettle_only (l : Live) : errSettle l = { l with
      log := (errSettle l).log, net := (errSettle l).net, flagsNow := (errSettle l).flagsNow } := by
  unfold errSettle
  dsimp only
  split
  · rw [emcyBuses_only, writeRecord_only]
  · rfl

theorem journalEntry_only (src kind payload code : Nat) (l : Live) : OnlyReports l (journalEntry src kind payload code l) := by
  unfold OnlyReports journalEntry
  split
  · rw [journal_only]
  · rw [emcy_only, journal_only]

theorem emcy_reports (code src payload : Nat) (l : Live) : OnlyReports l (emcy code src payload l) := by
  unfold OnlyReports
  rw [emcy_only]

theorem writeRecord_reports (src kind payload : Nat) (l : Live) : OnlyReports l (writeRecord src kind payload l) := by
  unfold OnlyReports
  rw [writeRecord_only]

theorem errSettle_reports (l : Live) : OnlyReports l (errSettle l) := by
  unfold OnlyReports
  rw [errSettle_only]

theorem reportFault_only (src kind payload code : Nat) (l : Live) : OnlyReports l (reportFault src kind payload code l) :=
  ((writeRecord_reports _ _ _ _).trans (emcy_reports _ _ _ _)).trans (journalEntry_only _ _ _ _ _)

theorem reportJournal_only (src kind payload : Nat) (l : Live) : OnlyReports l (reportJournal src kind payload l) :=
  (writeRecord_reports _ _ _ _).trans (journalEntry_only _ _ _ _ _)

theorem lossReport_only (before : Byte) (l : Live) : OnlyReports l (lossReport before l) := by
  unfold lossReport
  split
  · exact OnlyReports.refl l
  · exact (emcy_reports _ _ _ _).trans (journalEntry_only _ _ _ _ _)

theorem OnlyReports.keeps {l m : Live} (h : OnlyReports l m) :
    m.time = l.time ∧ m.snap = l.snap ∧ m.conf = l.conf ∧ m.groups = l.groups ∧ m.channels = l.channels ∧
    m.tpins = l.tpins ∧ m.clusters = l.clusters ∧ m.micro = l.micro ∧ m.events = l.events ∧ m.wheels = l.wheels ∧
    m.ports = l.ports ∧ m.pairs = l.pairs ∧ m.pwm = l.pwm ∧ m.trips = l.trips ∧ m.analog = l.analog ∧
    m.engines = l.engines ∧ m.dma = l.dma ∧ m.dmaLast = l.dmaLast ∧
    m.dmaPosted = l.dmaPosted ∧ m.irq = l.irq ∧ m.doze = l.doze ∧ m.host = l.host ∧ m.mail = l.mail ∧
    m.mram = l.mram ∧ m.rst = l.rst ∧ m.mem = l.mem ∧ m.freeIdx = l.freeIdx := by
  rw [h]
  exact ⟨rfl, rfl, rfl, rfl, rfl, rfl, rfl, rfl, rfl, rfl, rfl, rfl, rfl, rfl, rfl, rfl, rfl, rfl, rfl, rfl, rfl, rfl, rfl, rfl, rfl, rfl, rfl⟩

@[simp] theorem writeRecord_keeps (src kind payload : Nat) (l : Live) :
    (writeRecord src kind payload l).time = l.time ∧ (writeRecord src kind payload l).snap = l.snap ∧
    (writeRecord src kind payload l).conf = l.conf ∧ (writeRecord src kind payload l).groups = l.groups ∧
    (writeRecord src kind payload l).channels = l.channels ∧ (writeRecord src kind payload l).tpins = l.tpins ∧
    (writeRecord src kind payload l).clusters = l.clusters ∧ (writeRecord src kind payload l).micro = l.micro ∧
    (writeRecord src kind payload l).events = l.events ∧ (writeRecord src kind payload l).wheels = l.wheels ∧
    (writeRecord src kind payload l).ports = l.ports ∧ (writeRecord src kind payload l).pairs = l.pairs ∧
    (writeRecord src kind payload l).pwm = l.pwm ∧ (writeRecord src kind payload l).trips = l.trips ∧
    (writeRecord src kind payload l).analog = l.analog ∧ (writeRecord src kind payload l).engines = l.engines ∧
    (writeRecord src kind payload l).dma = l.dma ∧ (writeRecord src kind payload l).dmaLast = l.dmaLast ∧
    (writeRecord src kind payload l).dmaPosted = l.dmaPosted ∧ (writeRecord src kind payload l).irq = l.irq ∧
    (writeRecord src kind payload l).doze = l.doze ∧ (writeRecord src kind payload l).host = l.host ∧
    (writeRecord src kind payload l).mail = l.mail ∧ (writeRecord src kind payload l).mram = l.mram ∧
    (writeRecord src kind payload l).rst = l.rst ∧ (writeRecord src kind payload l).mem = l.mem ∧
    (writeRecord src kind payload l).freeIdx = l.freeIdx :=
  (writeRecord_reports src kind payload l).keeps

@[simp] theorem emcy_keeps (code src payload : Nat) (l : Live) :
    (emcy code src payload l).time = l.time ∧ (emcy code src payload l).snap = l.snap ∧
    (emcy code src payload l).conf = l.conf ∧ (emcy code src payload l).groups = l.groups ∧
    (emcy code src payload l).channels = l.channels ∧ (emcy code src payload l).tpins = l.tpins ∧
    (emcy code src payload l).clusters = l.clusters ∧ (emcy code src payload l).micro = l.micro ∧
    (emcy code src payload l).events = l.events ∧ (emcy code src payload l).wheels = l.wheels ∧
    (emcy code src payload l).ports = l.ports ∧ (emcy code src payload l).pairs = l.pairs ∧
    (emcy code src payload l).pwm = l.pwm ∧ (emcy code src payload l).trips = l.trips ∧
    (emcy code src payload l).analog = l.analog ∧ (emcy code src payload l).engines = l.engines ∧
    (emcy code src payload l).dma = l.dma ∧ (emcy code src payload l).dmaLast = l.dmaLast ∧
    (emcy code src payload l).dmaPosted = l.dmaPosted ∧ (emcy code src payload l).irq = l.irq ∧
    (emcy code src payload l).doze = l.doze ∧ (emcy code src payload l).host = l.host ∧
    (emcy code src payload l).mail = l.mail ∧ (emcy code src payload l).mram = l.mram ∧
    (emcy code src payload l).rst = l.rst ∧ (emcy code src payload l).mem = l.mem ∧
    (emcy code src payload l).freeIdx = l.freeIdx :=
  (emcy_reports code src payload l).keeps

@[simp] theorem journalEntry_keeps (src kind payload code : Nat) (l : Live) :
    (journalEntry src kind payload code l).time = l.time ∧ (journalEntry src kind payload code l).snap = l.snap ∧
    (journalEntry src kind payload code l).conf = l.conf ∧ (journalEntry src kind payload code l).groups = l.groups ∧
    (journalEntry src kind payload code l).channels = l.channels ∧
    (journalEntry src kind payload code l).tpins = l.tpins ∧
    (journalEntry src kind payload code l).clusters = l.clusters ∧
    (journalEntry src kind payload code l).micro = l.micro ∧
    (journalEntry src kind payload code l).events = l.events ∧
    (journalEntry src kind payload code l).wheels = l.wheels ∧
    (journalEntry src kind payload code l).ports = l.ports ∧ (journalEntry src kind payload code l).pairs = l.pairs ∧
    (journalEntry src kind payload code l).pwm = l.pwm ∧ (journalEntry src kind payload code l).trips = l.trips ∧
    (journalEntry src kind payload code l).analog = l.analog ∧
    (journalEntry src kind payload code l).engines = l.engines ∧ (journalEntry src kind payload code l).dma = l.dma ∧ (journalEntry src kind payload code l).dmaLast = l.dmaLast ∧
    (journalEntry src kind payload code l).dmaPosted = l.dmaPosted ∧
    (journalEntry src kind payload code l).irq = l.irq ∧ (journalEntry src kind payload code l).doze = l.doze ∧
    (journalEntry src kind payload code l).host = l.host ∧ (journalEntry src kind payload code l).mail = l.mail ∧
    (journalEntry src kind payload code l).mram = l.mram ∧ (journalEntry src kind payload code l).rst = l.rst ∧
    (journalEntry src kind payload code l).mem = l.mem ∧ (journalEntry src kind payload code l).freeIdx = l.freeIdx :=
  (journalEntry_only src kind payload code l).keeps

@[simp] theorem reportFault_keeps (src kind payload code : Nat) (l : Live) :
    (reportFault src kind payload code l).time = l.time ∧ (reportFault src kind payload code l).snap = l.snap ∧
    (reportFault src kind payload code l).conf = l.conf ∧ (reportFault src kind payload code l).groups = l.groups ∧
    (reportFault src kind payload code l).channels = l.channels ∧
    (reportFault src kind payload code l).tpins = l.tpins ∧
    (reportFault src kind payload code l).clusters = l.clusters ∧
    (reportFault src kind payload code l).micro = l.micro ∧ (reportFault src kind payload code l).events = l.events ∧
    (reportFault src kind payload code l).wheels = l.wheels ∧ (reportFault src kind payload code l).ports = l.ports ∧
    (reportFault src kind payload code l).pairs = l.pairs ∧ (reportFault src kind payload code l).pwm = l.pwm ∧
    (reportFault src kind payload code l).trips = l.trips ∧ (reportFault src kind payload code l).analog = l.analog ∧
    (reportFault src kind payload code l).engines = l.engines ∧ (reportFault src kind payload code l).dma = l.dma ∧ (reportFault src kind payload code l).dmaLast = l.dmaLast ∧
    (reportFault src kind payload code l).dmaPosted = l.dmaPosted ∧
    (reportFault src kind payload code l).irq = l.irq ∧ (reportFault src kind payload code l).doze = l.doze ∧
    (reportFault src kind payload code l).host = l.host ∧ (reportFault src kind payload code l).mail = l.mail ∧
    (reportFault src kind payload code l).mram = l.mram ∧ (reportFault src kind payload code l).rst = l.rst ∧
    (reportFault src kind payload code l).mem = l.mem ∧ (reportFault src kind payload code l).freeIdx = l.freeIdx :=
  (reportFault_only src kind payload code l).keeps

@[simp] theorem reportJournal_keeps (src kind payload : Nat) (l : Live) :
    (reportJournal src kind payload l).time = l.time ∧ (reportJournal src kind payload l).snap = l.snap ∧
    (reportJournal src kind payload l).conf = l.conf ∧ (reportJournal src kind payload l).groups = l.groups ∧
    (reportJournal src kind payload l).channels = l.channels ∧ (reportJournal src kind payload l).tpins = l.tpins ∧
    (reportJournal src kind payload l).clusters = l.clusters ∧ (reportJournal src kind payload l).micro = l.micro ∧
    (reportJournal src kind payload l).events = l.events ∧ (reportJournal src kind payload l).wheels = l.wheels ∧
    (reportJournal src kind payload l).ports = l.ports ∧ (reportJournal src kind payload l).pairs = l.pairs ∧
    (reportJournal src kind payload l).pwm = l.pwm ∧ (reportJournal src kind payload l).trips = l.trips ∧
    (reportJournal src kind payload l).analog = l.analog ∧ (reportJournal src kind payload l).engines = l.engines ∧
    (reportJournal src kind payload l).dma = l.dma ∧ (reportJournal src kind payload l).dmaLast = l.dmaLast ∧
    (reportJournal src kind payload l).dmaPosted = l.dmaPosted ∧ (reportJournal src kind payload l).irq = l.irq ∧
    (reportJournal src kind payload l).doze = l.doze ∧ (reportJournal src kind payload l).host = l.host ∧
    (reportJournal src kind payload l).mail = l.mail ∧ (reportJournal src kind payload l).mram = l.mram ∧
    (reportJournal src kind payload l).rst = l.rst ∧ (reportJournal src kind payload l).mem = l.mem ∧
    (reportJournal src kind payload l).freeIdx = l.freeIdx :=
  (reportJournal_only src kind payload l).keeps

@[simp] theorem writeRecord_net_journal (src kind payload : Nat) (l : Live) :
    (writeRecord src kind payload l).net = l.net ∧ (writeRecord src kind payload l).journal = l.journal := by
  rw [writeRecord_only]
  exact ⟨rfl, rfl⟩

@[simp] theorem emcy_journal (code src payload : Nat) (l : Live) : (emcy code src payload l).journal = l.journal := by
  rw [emcy_only]

end Sys2Proof.Machine
end

