-- ==== Sys2Proof/Laws/Maps.lean ====
section
/-! SUPPORT. Laws of sparse maps: a read after a write, and the canonical form under every write. -/

namespace Sys2Proof.Machine

variable {α : Type}

@[simp] theorem SMap.get_nil (d : α) (k : Nat) : SMap.get d ([] : SMap α) k = d := rfl

theorem SMap.get_erase_same (d : α) (m : SMap α) (k : Nat) : SMap.get d (m.erase k) k = d := by
  induction m with
  | nil => rfl
  | cons e r ih =>
    obtain ⟨a, v⟩ := e
    unfold SMap.erase
    split
    · exact ih
    · rename_i h
      unfold SMap.get
      rw [if_neg (fun c => h c.symm)]
      exact ih

theorem SMap.get_erase_ne (d : α) (m : SMap α) {k j : Nat} (h : j ≠ k) :
    SMap.get d (m.erase k) j = SMap.get d m j := by
  induction m with
  | nil => rfl
  | cons e r ih =>
    obtain ⟨a, v⟩ := e
    unfold SMap.erase
    split
    · rename_i c
      rw [ih]
      conv_rhs => unfold SMap.get
      rw [if_neg (by omega)]
    · unfold SMap.get
      rw [ih]

theorem SMap.get_insert_same (d : α) (m : SMap α) (k : Nat) (v : α) : SMap.get d (m.insert k v) k = v := by
  induction m with
  | nil => simp [SMap.insert, SMap.get]
  | cons e r ih =>
    obtain ⟨a, w⟩ := e
    unfold SMap.insert
    split
    · simp [SMap.get]
    · split
      · simp [SMap.get]
      · rename_i h
        unfold SMap.get
        rw [if_neg h]
        exact ih

theorem SMap.get_insert_ne (d : α) (m : SMap α) {k j : Nat} (v : α) (h : j ≠ k) :
    SMap.get d (m.insert k v) j = SMap.get d m j := by
  induction m with
  | nil => simp [SMap.insert, SMap.get, h]
  | cons e r ih =>
    obtain ⟨a, w⟩ := e
    unfold SMap.insert
    split
    · conv_lhs => unfold SMap.get
      rw [if_neg h]
    · split
      · rename_i c
        subst c
        unfold SMap.get
        rw [if_neg h, if_neg h]
      · unfold SMap.get
        rw [ih]

variable [DecidableEq α]

@[simp] theorem SMap.get_put_same (d : α) (m : SMap α) (k : Nat) (v : α) : SMap.get d (SMap.put d m k v) k = v := by
  unfold SMap.put
  split
  · rename_i h
    rw [h]
    exact SMap.get_erase_same d m k
  · exact SMap.get_insert_same d m k v

theorem SMap.get_put_ne (d : α) (m : SMap α) {k j : Nat} (v : α) (h : j ≠ k) :
    SMap.get d (SMap.put d m k v) j = SMap.get d m j := by
  unfold SMap.put
  split
  · exact SMap.get_erase_ne d m h
  · exact SMap.get_insert_ne d m v h

theorem SMap.get_put (d : α) (m : SMap α) (k j : Nat) (v : α) :
    SMap.get d (SMap.put d m k v) j = if j = k then v else SMap.get d m j := by
  split
  · rename_i h
    rw [h, SMap.get_put_same]
  · rename_i h
    exact SMap.get_put_ne d m v h

omit [DecidableEq α] in
theorem SMap.risingFrom_mono {lo lo' : Nat} (h : lo' ≤ lo) (m : SMap α) (w : SMap.risingFrom lo m = true) :
    SMap.risingFrom lo' m = true := by
  cases m with
  | nil => rfl
  | cons e r =>
    obtain ⟨a, v⟩ := e
    simp only [SMap.risingFrom, Bool.and_eq_true, decide_eq_true_eq] at w ⊢
    exact ⟨by omega, w.2⟩

omit [DecidableEq α] in
theorem SMap.risingFrom_filter (p : Nat × α → Bool) (m : SMap α) :
    ∀ lo, SMap.risingFrom lo m = true → SMap.risingFrom lo (m.filter p) = true := by
  induction m with
  | nil => exact fun _ _ => rfl
  | cons e r ih =>
    obtain ⟨a, v⟩ := e
    intro lo w
    simp only [SMap.risingFrom, Bool.and_eq_true, decide_eq_true_eq] at w
    rw [List.filter_cons]
    split
    · simp only [SMap.risingFrom, Bool.and_eq_true, decide_eq_true_eq]
      exact ⟨w.1, ih _ w.2⟩
    · exact ih lo (SMap.risingFrom_mono (by omega) r w.2)

omit [DecidableEq α] in
theorem SMap.erase_eq_filter (m : SMap α) (k : Nat) : m.erase k = m.filter (fun e => decide (e.1 ≠ k)) := by
  induction m with
  | nil => rfl
  | cons e r ih =>
    obtain ⟨a, v⟩ := e
    unfold SMap.erase
    split <;> simp_all

omit [DecidableEq α] in
theorem SMap.risingFrom_insert (m : SMap α) (k : Nat) (v : α) :
    ∀ lo, lo ≤ k → SMap.risingFrom lo m = true → SMap.risingFrom lo (m.insert k v) = true := by
  induction m with
  | nil =>
    intro lo h _
    simpa [SMap.insert, SMap.risingFrom] using h
  | cons e r ih =>
    obtain ⟨a, w⟩ := e
    intro lo h x
    simp only [SMap.risingFrom, Bool.and_eq_true, decide_eq_true_eq] at x
    unfold SMap.insert
    split
    · simp only [SMap.risingFrom, Bool.and_eq_true, decide_eq_true_eq]
      exact ⟨h, by omega, x.2⟩
    · split
      · rename_i c
        subst c
        simp only [SMap.risingFrom, Bool.and_eq_true, decide_eq_true_eq]
        exact x
      · simp only [SMap.risingFrom, Bool.and_eq_true, decide_eq_true_eq]
        exact ⟨x.1, ih _ (by omega) x.2⟩

omit [DecidableEq α] in
theorem SMap.mem_insert (m : SMap α) (k : Nat) (v : α) (e : Nat × α) (h : e ∈ m.insert k v) : e = (k, v) ∨ e ∈ m := by
  induction m with
  | nil => simpa [SMap.insert] using h
  | cons x r ih =>
    obtain ⟨a, w⟩ := x
    unfold SMap.insert at h
    split at h
    · simpa using h
    · split at h
      · rcases List.mem_cons.mp h with c | c
        · exact .inl c
        · exact .inr (List.mem_cons_of_mem _ c)
      · rcases List.mem_cons.mp h with c | c
        · exact .inr (by rw [c]; exact List.mem_cons_self)
        · rcases ih c with d | d
          · exact .inl d
          · exact .inr (List.mem_cons_of_mem _ d)

theorem SMap.wf_filter (d : α) (p : Nat × α → Bool) (m : SMap α) (w : SMap.wf d m = true) :
    SMap.wf d (m.filter p) = true := by
  simp only [SMap.wf, Bool.and_eq_true, List.all_eq_true] at w ⊢
  exact ⟨SMap.risingFrom_filter p m 0 w.1, fun e h => w.2 e (List.mem_of_mem_filter h)⟩

/-- Every write keeps the canonical form. -/
theorem SMap.wf_put (d : α) (m : SMap α) (k : Nat) (v : α) (w : SMap.wf d m = true) : SMap.wf d (SMap.put d m k v) = true := by
  unfold SMap.put
  split
  · rw [SMap.erase_eq_filter]
    exact SMap.wf_filter d _ m w
  · rename_i h
    simp only [SMap.wf, Bool.and_eq_true, List.all_eq_true, decide_eq_true_eq] at w ⊢
    refine ⟨SMap.risingFrom_insert m k v 0 (Nat.zero_le k) w.1, fun e c => ?_⟩
    rcases SMap.mem_insert m k v e c with x | x
    · rw [x]; exact h
    · exact w.2 e x

end Sys2Proof.Machine
end

