-- ==== Sys2Proof/Laws/Memory.lean ====
section
/-! SUPPORT. Laws of the fabric memory: a read after a write, the bytes a write leaves alone, and the canonical form under
every operation on memory. -/

namespace Sys2Proof.Machine

open Sys2Proof

@[simp] theorem readByte_writeByte (m : Memory) (a : Nat) (b : Byte) : readByte (writeByte m a b) a = b :=
  SMap.get_put_same _ m a b

theorem readByte_writeByte_ne (m : Memory) {a x : Nat} (b : Byte) (h : x ≠ a) :
    readByte (writeByte m a b) x = readByte m x := SMap.get_put_ne _ m b h

/-- Bytes outside the written span are left alone. -/
theorem readByte_writeBytes_out (b : List Byte) : ∀ (m : Memory) (a x : Nat), x < a ∨ a + b.length ≤ x →
    readByte (writeBytes m a b) x = readByte m x := by
  induction b with
  | nil => exact fun _ _ _ _ => rfl
  | cons v r ih =>
    intro m a x h
    simp only [List.length_cons] at h
    rw [writeBytes, ih _ _ _ (by omega), readByte_writeByte_ne _ _ (by omega)]

/-- Byte i of a written span reads as written. -/
theorem readByte_writeBytes_in (b : List Byte) : ∀ (m : Memory) (a i : Nat) (h : i < b.length),
    readByte (writeBytes m a b) (a + i) = b[i] := by
  induction b with
  | nil => exact fun _ _ _ h => absurd h (Nat.not_lt_zero _)
  | cons v r ih =>
    intro m a i h
    rw [writeBytes]
    cases i with
    | zero => rw [readByte_writeBytes_out _ _ _ _ (by omega)]; simp
    | succ j =>
      have := ih (writeByte m a v) (a + 1) j (by simpa using h)
      rw [show a + 1 + j = a + (j + 1) by omega] at this
      simpa using this

theorem writeByte_wf (m : Memory) (a : Nat) (b : Byte) (w : Memory.wf m = true) : Memory.wf (writeByte m a b) = true :=
  SMap.wf_put _ m a b w

/-- A write of bytes keeps the canonical form. -/
theorem writeBytes_wf (b : List Byte) : ∀ (m : Memory) (a : Nat), Memory.wf m = true → Memory.wf (writeBytes m a b) = true := by
  induction b with
  | nil => exact fun _ _ w => w
  | cons v r ih => exact fun m a w => ih _ _ (writeByte_wf m a v w)

/-- A wipe keeps the canonical form. -/
theorem wipeSpan_wf (m : Memory) (lo hi : Nat) (w : Memory.wf m = true) : Memory.wf (wipeSpan m lo hi) = true :=
  SMap.wf_filter _ _ m w

theorem reset_memory_wf : Memory.wf State.reset.live.mem = true := rfl

/-- Reading n bytes gives n bytes. -/
@[simp] theorem readBytes_length (m : Memory) (n : Nat) : ∀ a, (readBytes m a n).length = n := by
  induction n with
  | zero => exact fun _ => rfl
  | succ n ih => exact fun a => by simp [readBytes, ih]

end Sys2Proof.Machine
end

