-- ==== Sys2Proof/Laws/State.lean ====
section
/-! SUPPORT. Laws of the accessors of the state: what is read after an update, of the element updated, of another element, and of
every other part of the device. -/

namespace Sys2Proof.Machine

open Sys2Proof

@[simp] theorem setChan_same (l : Live) (i : Nat) (x : Channel) : (l.setChan i x).chan i = x := SMap.get_put_same _ _ _ _

theorem setChan_ne (l : Live) {i j : Nat} (x : Channel) (h : j ≠ i) : (l.setChan i x).chan j = l.chan j := SMap.get_put_ne _ _ _ h

@[simp] theorem setChan_keeps (l : Live) (i : Nat) (x : Channel) :
    (l.setChan i x).time = l.time ∧ (l.setChan i x).snap = l.snap ∧ (l.setChan i x).conf = l.conf ∧
    (l.setChan i x).groups = l.groups ∧ (l.setChan i x).tpins = l.tpins ∧ (l.setChan i x).clusters = l.clusters ∧
    (l.setChan i x).micro = l.micro ∧ (l.setChan i x).events = l.events ∧ (l.setChan i x).wheels = l.wheels ∧
    (l.setChan i x).ports = l.ports ∧ (l.setChan i x).pairs = l.pairs ∧ (l.setChan i x).pwm = l.pwm ∧
    (l.setChan i x).trips = l.trips ∧ (l.setChan i x).analog = l.analog ∧ (l.setChan i x).engines = l.engines ∧
    (l.setChan i x).dma = l.dma ∧ (l.setChan i x).log = l.log ∧ (l.setChan i x).irq = l.irq ∧
    (l.setChan i x).doze = l.doze ∧ (l.setChan i x).net = l.net ∧ (l.setChan i x).host = l.host ∧
    (l.setChan i x).mail = l.mail ∧ (l.setChan i x).mram = l.mram ∧ (l.setChan i x).journal = l.journal ∧
    (l.setChan i x).rst = l.rst ∧ (l.setChan i x).mem = l.mem ∧ (l.setChan i x).freeIdx = l.freeIdx ∧
    (l.setChan i x).dmaLast = l.dmaLast ∧ (l.setChan i x).dmaPosted = l.dmaPosted ∧ (l.setChan i x).flagsNow = l.flagsNow :=
  ⟨rfl, rfl, rfl, rfl, rfl, rfl, rfl, rfl, rfl, rfl, rfl, rfl, rfl, rfl, rfl, rfl, rfl, rfl, rfl, rfl, rfl, rfl, rfl, rfl, rfl, rfl, rfl, rfl, rfl, rfl⟩

@[simp] theorem updChan_same (l : Live) (i : Nat) (f : Channel → Channel) : (l.updChan i f).chan i = f (l.chan i) := setChan_same _ _ _

theorem updChan_ne (l : Live) {i j : Nat} (f : Channel → Channel) (h : j ≠ i) : (l.updChan i f).chan j = l.chan j := setChan_ne _ _ h

@[simp] theorem updChan_keeps (l : Live) (i : Nat) (f : Channel → Channel) :
    (l.updChan i f).time = l.time ∧ (l.updChan i f).snap = l.snap ∧ (l.updChan i f).conf = l.conf ∧
    (l.updChan i f).groups = l.groups ∧ (l.updChan i f).tpins = l.tpins ∧ (l.updChan i f).clusters = l.clusters ∧
    (l.updChan i f).micro = l.micro ∧ (l.updChan i f).events = l.events ∧ (l.updChan i f).wheels = l.wheels ∧
    (l.updChan i f).ports = l.ports ∧ (l.updChan i f).pairs = l.pairs ∧ (l.updChan i f).pwm = l.pwm ∧
    (l.updChan i f).trips = l.trips ∧ (l.updChan i f).analog = l.analog ∧ (l.updChan i f).engines = l.engines ∧
    (l.updChan i f).dma = l.dma ∧ (l.updChan i f).log = l.log ∧ (l.updChan i f).irq = l.irq ∧
    (l.updChan i f).doze = l.doze ∧ (l.updChan i f).net = l.net ∧ (l.updChan i f).host = l.host ∧
    (l.updChan i f).mail = l.mail ∧ (l.updChan i f).mram = l.mram ∧ (l.updChan i f).journal = l.journal ∧
    (l.updChan i f).rst = l.rst ∧ (l.updChan i f).mem = l.mem ∧ (l.updChan i f).freeIdx = l.freeIdx ∧
    (l.updChan i f).dmaLast = l.dmaLast ∧ (l.updChan i f).dmaPosted = l.dmaPosted ∧ (l.updChan i f).flagsNow = l.flagsNow :=
  ⟨rfl, rfl, rfl, rfl, rfl, rfl, rfl, rfl, rfl, rfl, rfl, rfl, rfl, rfl, rfl, rfl, rfl, rfl, rfl, rfl, rfl, rfl, rfl, rfl, rfl, rfl, rfl, rfl, rfl, rfl⟩

@[simp] theorem setTpin_same (l : Live) (i : Nat) (x : TPin) : (l.setTpin i x).tpin i = x := SMap.get_put_same _ _ _ _

theorem setTpin_ne (l : Live) {i j : Nat} (x : TPin) (h : j ≠ i) : (l.setTpin i x).tpin j = l.tpin j := SMap.get_put_ne _ _ _ h

@[simp] theorem setTpin_keeps (l : Live) (i : Nat) (x : TPin) :
    (l.setTpin i x).time = l.time ∧ (l.setTpin i x).snap = l.snap ∧ (l.setTpin i x).conf = l.conf ∧
    (l.setTpin i x).groups = l.groups ∧ (l.setTpin i x).channels = l.channels ∧
    (l.setTpin i x).clusters = l.clusters ∧ (l.setTpin i x).micro = l.micro ∧ (l.setTpin i x).events = l.events ∧
    (l.setTpin i x).wheels = l.wheels ∧ (l.setTpin i x).ports = l.ports ∧ (l.setTpin i x).pairs = l.pairs ∧
    (l.setTpin i x).pwm = l.pwm ∧ (l.setTpin i x).trips = l.trips ∧ (l.setTpin i x).analog = l.analog ∧
    (l.setTpin i x).engines = l.engines ∧ (l.setTpin i x).dma = l.dma ∧ (l.setTpin i x).log = l.log ∧
    (l.setTpin i x).irq = l.irq ∧ (l.setTpin i x).doze = l.doze ∧ (l.setTpin i x).net = l.net ∧
    (l.setTpin i x).host = l.host ∧ (l.setTpin i x).mail = l.mail ∧ (l.setTpin i x).mram = l.mram ∧
    (l.setTpin i x).journal = l.journal ∧ (l.setTpin i x).rst = l.rst ∧ (l.setTpin i x).mem = l.mem ∧
    (l.setTpin i x).freeIdx = l.freeIdx ∧
    (l.setTpin i x).dmaLast = l.dmaLast ∧ (l.setTpin i x).dmaPosted = l.dmaPosted ∧ (l.setTpin i x).flagsNow = l.flagsNow :=
  ⟨rfl, rfl, rfl, rfl, rfl, rfl, rfl, rfl, rfl, rfl, rfl, rfl, rfl, rfl, rfl, rfl, rfl, rfl, rfl, rfl, rfl, rfl, rfl, rfl, rfl, rfl, rfl, rfl, rfl, rfl⟩

@[simp] theorem updTpin_same (l : Live) (i : Nat) (f : TPin → TPin) : (l.updTpin i f).tpin i = f (l.tpin i) := setTpin_same _ _ _

theorem updTpin_ne (l : Live) {i j : Nat} (f : TPin → TPin) (h : j ≠ i) : (l.updTpin i f).tpin j = l.tpin j := setTpin_ne _ _ h

@[simp] theorem updTpin_keeps (l : Live) (i : Nat) (f : TPin → TPin) :
    (l.updTpin i f).time = l.time ∧ (l.updTpin i f).snap = l.snap ∧ (l.updTpin i f).conf = l.conf ∧
    (l.updTpin i f).groups = l.groups ∧ (l.updTpin i f).channels = l.channels ∧
    (l.updTpin i f).clusters = l.clusters ∧ (l.updTpin i f).micro = l.micro ∧ (l.updTpin i f).events = l.events ∧
    (l.updTpin i f).wheels = l.wheels ∧ (l.updTpin i f).ports = l.ports ∧ (l.updTpin i f).pairs = l.pairs ∧
    (l.updTpin i f).pwm = l.pwm ∧ (l.updTpin i f).trips = l.trips ∧ (l.updTpin i f).analog = l.analog ∧
    (l.updTpin i f).engines = l.engines ∧ (l.updTpin i f).dma = l.dma ∧ (l.updTpin i f).log = l.log ∧
    (l.updTpin i f).irq = l.irq ∧ (l.updTpin i f).doze = l.doze ∧ (l.updTpin i f).net = l.net ∧
    (l.updTpin i f).host = l.host ∧ (l.updTpin i f).mail = l.mail ∧ (l.updTpin i f).mram = l.mram ∧
    (l.updTpin i f).journal = l.journal ∧ (l.updTpin i f).rst = l.rst ∧ (l.updTpin i f).mem = l.mem ∧
    (l.updTpin i f).freeIdx = l.freeIdx ∧
    (l.updTpin i f).dmaLast = l.dmaLast ∧ (l.updTpin i f).dmaPosted = l.dmaPosted ∧ (l.updTpin i f).flagsNow = l.flagsNow :=
  ⟨rfl, rfl, rfl, rfl, rfl, rfl, rfl, rfl, rfl, rfl, rfl, rfl, rfl, rfl, rfl, rfl, rfl, rfl, rfl, rfl, rfl, rfl, rfl, rfl, rfl, rfl, rfl, rfl, rfl, rfl⟩

@[simp] theorem setCluster_same (l : Live) (i : Nat) (x : Cluster) : (l.setCluster i x).cluster i = x := SMap.get_put_same _ _ _ _

theorem setCluster_ne (l : Live) {i j : Nat} (x : Cluster) (h : j ≠ i) : (l.setCluster i x).cluster j = l.cluster j := SMap.get_put_ne _ _ _ h

@[simp] theorem setCluster_keeps (l : Live) (i : Nat) (x : Cluster) :
    (l.setCluster i x).time = l.time ∧ (l.setCluster i x).snap = l.snap ∧ (l.setCluster i x).conf = l.conf ∧
    (l.setCluster i x).groups = l.groups ∧ (l.setCluster i x).channels = l.channels ∧
    (l.setCluster i x).tpins = l.tpins ∧ (l.setCluster i x).micro = l.micro ∧ (l.setCluster i x).events = l.events ∧
    (l.setCluster i x).wheels = l.wheels ∧ (l.setCluster i x).ports = l.ports ∧ (l.setCluster i x).pairs = l.pairs ∧
    (l.setCluster i x).pwm = l.pwm ∧ (l.setCluster i x).trips = l.trips ∧ (l.setCluster i x).analog = l.analog ∧
    (l.setCluster i x).engines = l.engines ∧ (l.setCluster i x).dma = l.dma ∧ (l.setCluster i x).log = l.log ∧
    (l.setCluster i x).irq = l.irq ∧ (l.setCluster i x).doze = l.doze ∧ (l.setCluster i x).net = l.net ∧
    (l.setCluster i x).host = l.host ∧ (l.setCluster i x).mail = l.mail ∧ (l.setCluster i x).mram = l.mram ∧
    (l.setCluster i x).journal = l.journal ∧ (l.setCluster i x).rst = l.rst ∧ (l.setCluster i x).mem = l.mem ∧
    (l.setCluster i x).freeIdx = l.freeIdx ∧
    (l.setCluster i x).dmaLast = l.dmaLast ∧ (l.setCluster i x).dmaPosted = l.dmaPosted ∧ (l.setCluster i x).flagsNow = l.flagsNow :=
  ⟨rfl, rfl, rfl, rfl, rfl, rfl, rfl, rfl, rfl, rfl, rfl, rfl, rfl, rfl, rfl, rfl, rfl, rfl, rfl, rfl, rfl, rfl, rfl, rfl, rfl, rfl, rfl, rfl, rfl, rfl⟩

@[simp] theorem updCluster_same (l : Live) (i : Nat) (f : Cluster → Cluster) : (l.updCluster i f).cluster i = f (l.cluster i) := setCluster_same _ _ _

theorem updCluster_ne (l : Live) {i j : Nat} (f : Cluster → Cluster) (h : j ≠ i) : (l.updCluster i f).cluster j = l.cluster j := setCluster_ne _ _ h

@[simp] theorem updCluster_keeps (l : Live) (i : Nat) (f : Cluster → Cluster) :
    (l.updCluster i f).time = l.time ∧ (l.updCluster i f).snap = l.snap ∧ (l.updCluster i f).conf = l.conf ∧
    (l.updCluster i f).groups = l.groups ∧ (l.updCluster i f).channels = l.channels ∧
    (l.updCluster i f).tpins = l.tpins ∧ (l.updCluster i f).micro = l.micro ∧ (l.updCluster i f).events = l.events ∧
    (l.updCluster i f).wheels = l.wheels ∧ (l.updCluster i f).ports = l.ports ∧ (l.updCluster i f).pairs = l.pairs ∧
    (l.updCluster i f).pwm = l.pwm ∧ (l.updCluster i f).trips = l.trips ∧ (l.updCluster i f).analog = l.analog ∧
    (l.updCluster i f).engines = l.engines ∧ (l.updCluster i f).dma = l.dma ∧ (l.updCluster i f).log = l.log ∧
    (l.updCluster i f).irq = l.irq ∧ (l.updCluster i f).doze = l.doze ∧ (l.updCluster i f).net = l.net ∧
    (l.updCluster i f).host = l.host ∧ (l.updCluster i f).mail = l.mail ∧ (l.updCluster i f).mram = l.mram ∧
    (l.updCluster i f).journal = l.journal ∧ (l.updCluster i f).rst = l.rst ∧ (l.updCluster i f).mem = l.mem ∧
    (l.updCluster i f).freeIdx = l.freeIdx ∧
    (l.updCluster i f).dmaLast = l.dmaLast ∧ (l.updCluster i f).dmaPosted = l.dmaPosted ∧ (l.updCluster i f).flagsNow = l.flagsNow :=
  ⟨rfl, rfl, rfl, rfl, rfl, rfl, rfl, rfl, rfl, rfl, rfl, rfl, rfl, rfl, rfl, rfl, rfl, rfl, rfl, rfl, rfl, rfl, rfl, rfl, rfl, rfl, rfl, rfl, rfl, rfl⟩

@[simp] theorem setGroup_same (l : Live) (i : Nat) (x : Group) : (l.setGroup i x).group i = x := SMap.get_put_same _ _ _ _

theorem setGroup_ne (l : Live) {i j : Nat} (x : Group) (h : j ≠ i) : (l.setGroup i x).group j = l.group j := SMap.get_put_ne _ _ _ h

@[simp] theorem setGroup_keeps (l : Live) (i : Nat) (x : Group) :
    (l.setGroup i x).time = l.time ∧ (l.setGroup i x).snap = l.snap ∧ (l.setGroup i x).conf = l.conf ∧
    (l.setGroup i x).channels = l.channels ∧ (l.setGroup i x).tpins = l.tpins ∧
    (l.setGroup i x).clusters = l.clusters ∧ (l.setGroup i x).micro = l.micro ∧ (l.setGroup i x).events = l.events ∧
    (l.setGroup i x).wheels = l.wheels ∧ (l.setGroup i x).ports = l.ports ∧ (l.setGroup i x).pairs = l.pairs ∧
    (l.setGroup i x).pwm = l.pwm ∧ (l.setGroup i x).trips = l.trips ∧ (l.setGroup i x).analog = l.analog ∧
    (l.setGroup i x).engines = l.engines ∧ (l.setGroup i x).dma = l.dma ∧ (l.setGroup i x).log = l.log ∧
    (l.setGroup i x).irq = l.irq ∧ (l.setGroup i x).doze = l.doze ∧ (l.setGroup i x).net = l.net ∧
    (l.setGroup i x).host = l.host ∧ (l.setGroup i x).mail = l.mail ∧ (l.setGroup i x).mram = l.mram ∧
    (l.setGroup i x).journal = l.journal ∧ (l.setGroup i x).rst = l.rst ∧ (l.setGroup i x).mem = l.mem ∧
    (l.setGroup i x).freeIdx = l.freeIdx ∧
    (l.setGroup i x).dmaLast = l.dmaLast ∧ (l.setGroup i x).dmaPosted = l.dmaPosted ∧ (l.setGroup i x).flagsNow = l.flagsNow :=
  ⟨rfl, rfl, rfl, rfl, rfl, rfl, rfl, rfl, rfl, rfl, rfl, rfl, rfl, rfl, rfl, rfl, rfl, rfl, rfl, rfl, rfl, rfl, rfl, rfl, rfl, rfl, rfl, rfl, rfl, rfl⟩

@[simp] theorem updGroup_same (l : Live) (i : Nat) (f : Group → Group) : (l.updGroup i f).group i = f (l.group i) := setGroup_same _ _ _

theorem updGroup_ne (l : Live) {i j : Nat} (f : Group → Group) (h : j ≠ i) : (l.updGroup i f).group j = l.group j := setGroup_ne _ _ h

@[simp] theorem updGroup_keeps (l : Live) (i : Nat) (f : Group → Group) :
    (l.updGroup i f).time = l.time ∧ (l.updGroup i f).snap = l.snap ∧ (l.updGroup i f).conf = l.conf ∧
    (l.updGroup i f).channels = l.channels ∧ (l.updGroup i f).tpins = l.tpins ∧
    (l.updGroup i f).clusters = l.clusters ∧ (l.updGroup i f).micro = l.micro ∧ (l.updGroup i f).events = l.events ∧
    (l.updGroup i f).wheels = l.wheels ∧ (l.updGroup i f).ports = l.ports ∧ (l.updGroup i f).pairs = l.pairs ∧
    (l.updGroup i f).pwm = l.pwm ∧ (l.updGroup i f).trips = l.trips ∧ (l.updGroup i f).analog = l.analog ∧
    (l.updGroup i f).engines = l.engines ∧ (l.updGroup i f).dma = l.dma ∧ (l.updGroup i f).log = l.log ∧
    (l.updGroup i f).irq = l.irq ∧ (l.updGroup i f).doze = l.doze ∧ (l.updGroup i f).net = l.net ∧
    (l.updGroup i f).host = l.host ∧ (l.updGroup i f).mail = l.mail ∧ (l.updGroup i f).mram = l.mram ∧
    (l.updGroup i f).journal = l.journal ∧ (l.updGroup i f).rst = l.rst ∧ (l.updGroup i f).mem = l.mem ∧
    (l.updGroup i f).freeIdx = l.freeIdx ∧
    (l.updGroup i f).dmaLast = l.dmaLast ∧ (l.updGroup i f).dmaPosted = l.dmaPosted ∧ (l.updGroup i f).flagsNow = l.flagsNow :=
  ⟨rfl, rfl, rfl, rfl, rfl, rfl, rfl, rfl, rfl, rfl, rfl, rfl, rfl, rfl, rfl, rfl, rfl, rfl, rfl, rfl, rfl, rfl, rfl, rfl, rfl, rfl, rfl, rfl, rfl, rfl⟩

@[simp] theorem setEntry_same (l : Live) (i : Nat) (x : EvEntry) : (l.setEntry i x).entry i = x := SMap.get_put_same _ _ _ _

theorem setEntry_ne (l : Live) {i j : Nat} (x : EvEntry) (h : j ≠ i) : (l.setEntry i x).entry j = l.entry j := SMap.get_put_ne _ _ _ h

@[simp] theorem setEntry_keeps (l : Live) (i : Nat) (x : EvEntry) :
    (l.setEntry i x).time = l.time ∧ (l.setEntry i x).snap = l.snap ∧ (l.setEntry i x).conf = l.conf ∧
    (l.setEntry i x).groups = l.groups ∧ (l.setEntry i x).channels = l.channels ∧ (l.setEntry i x).tpins = l.tpins ∧
    (l.setEntry i x).clusters = l.clusters ∧ (l.setEntry i x).micro = l.micro ∧ (l.setEntry i x).wheels = l.wheels ∧
    (l.setEntry i x).ports = l.ports ∧ (l.setEntry i x).pairs = l.pairs ∧ (l.setEntry i x).pwm = l.pwm ∧
    (l.setEntry i x).trips = l.trips ∧ (l.setEntry i x).analog = l.analog ∧ (l.setEntry i x).engines = l.engines ∧
    (l.setEntry i x).dma = l.dma ∧ (l.setEntry i x).log = l.log ∧ (l.setEntry i x).irq = l.irq ∧
    (l.setEntry i x).doze = l.doze ∧ (l.setEntry i x).net = l.net ∧ (l.setEntry i x).host = l.host ∧
    (l.setEntry i x).mail = l.mail ∧ (l.setEntry i x).mram = l.mram ∧ (l.setEntry i x).journal = l.journal ∧
    (l.setEntry i x).rst = l.rst ∧ (l.setEntry i x).mem = l.mem ∧ (l.setEntry i x).freeIdx = l.freeIdx ∧
    (l.setEntry i x).dmaLast = l.dmaLast ∧ (l.setEntry i x).dmaPosted = l.dmaPosted ∧ (l.setEntry i x).flagsNow = l.flagsNow :=
  ⟨rfl, rfl, rfl, rfl, rfl, rfl, rfl, rfl, rfl, rfl, rfl, rfl, rfl, rfl, rfl, rfl, rfl, rfl, rfl, rfl, rfl, rfl, rfl, rfl, rfl, rfl, rfl, rfl, rfl, rfl⟩

@[simp] theorem updEntry_same (l : Live) (i : Nat) (f : EvEntry → EvEntry) : (l.updEntry i f).entry i = f (l.entry i) := setEntry_same _ _ _

theorem updEntry_ne (l : Live) {i j : Nat} (f : EvEntry → EvEntry) (h : j ≠ i) : (l.updEntry i f).entry j = l.entry j := setEntry_ne _ _ h

@[simp] theorem updEntry_keeps (l : Live) (i : Nat) (f : EvEntry → EvEntry) :
    (l.updEntry i f).time = l.time ∧ (l.updEntry i f).snap = l.snap ∧ (l.updEntry i f).conf = l.conf ∧
    (l.updEntry i f).groups = l.groups ∧ (l.updEntry i f).channels = l.channels ∧ (l.updEntry i f).tpins = l.tpins ∧
    (l.updEntry i f).clusters = l.clusters ∧ (l.updEntry i f).micro = l.micro ∧ (l.updEntry i f).wheels = l.wheels ∧
    (l.updEntry i f).ports = l.ports ∧ (l.updEntry i f).pairs = l.pairs ∧ (l.updEntry i f).pwm = l.pwm ∧
    (l.updEntry i f).trips = l.trips ∧ (l.updEntry i f).analog = l.analog ∧ (l.updEntry i f).engines = l.engines ∧
    (l.updEntry i f).dma = l.dma ∧ (l.updEntry i f).log = l.log ∧ (l.updEntry i f).irq = l.irq ∧
    (l.updEntry i f).doze = l.doze ∧ (l.updEntry i f).net = l.net ∧ (l.updEntry i f).host = l.host ∧
    (l.updEntry i f).mail = l.mail ∧ (l.updEntry i f).mram = l.mram ∧ (l.updEntry i f).journal = l.journal ∧
    (l.updEntry i f).rst = l.rst ∧ (l.updEntry i f).mem = l.mem ∧ (l.updEntry i f).freeIdx = l.freeIdx ∧
    (l.updEntry i f).dmaLast = l.dmaLast ∧ (l.updEntry i f).dmaPosted = l.dmaPosted ∧ (l.updEntry i f).flagsNow = l.flagsNow :=
  ⟨rfl, rfl, rfl, rfl, rfl, rfl, rfl, rfl, rfl, rfl, rfl, rfl, rfl, rfl, rfl, rfl, rfl, rfl, rfl, rfl, rfl, rfl, rfl, rfl, rfl, rfl, rfl, rfl, rfl, rfl⟩

@[simp] theorem setQueue_same (l : Live) (i : Nat) (x : EvQueue) : (l.setQueue i x).queue i = x := SMap.get_put_same _ _ _ _

theorem setQueue_ne (l : Live) {i j : Nat} (x : EvQueue) (h : j ≠ i) : (l.setQueue i x).queue j = l.queue j := SMap.get_put_ne _ _ _ h

@[simp] theorem setQueue_keeps (l : Live) (i : Nat) (x : EvQueue) :
    (l.setQueue i x).time = l.time ∧ (l.setQueue i x).snap = l.snap ∧ (l.setQueue i x).conf = l.conf ∧
    (l.setQueue i x).groups = l.groups ∧ (l.setQueue i x).channels = l.channels ∧ (l.setQueue i x).tpins = l.tpins ∧
    (l.setQueue i x).clusters = l.clusters ∧ (l.setQueue i x).micro = l.micro ∧ (l.setQueue i x).wheels = l.wheels ∧
    (l.setQueue i x).ports = l.ports ∧ (l.setQueue i x).pairs = l.pairs ∧ (l.setQueue i x).pwm = l.pwm ∧
    (l.setQueue i x).trips = l.trips ∧ (l.setQueue i x).analog = l.analog ∧ (l.setQueue i x).engines = l.engines ∧
    (l.setQueue i x).dma = l.dma ∧ (l.setQueue i x).log = l.log ∧ (l.setQueue i x).irq = l.irq ∧
    (l.setQueue i x).doze = l.doze ∧ (l.setQueue i x).net = l.net ∧ (l.setQueue i x).host = l.host ∧
    (l.setQueue i x).mail = l.mail ∧ (l.setQueue i x).mram = l.mram ∧ (l.setQueue i x).journal = l.journal ∧
    (l.setQueue i x).rst = l.rst ∧ (l.setQueue i x).mem = l.mem ∧ (l.setQueue i x).freeIdx = l.freeIdx ∧
    (l.setQueue i x).dmaLast = l.dmaLast ∧ (l.setQueue i x).dmaPosted = l.dmaPosted ∧ (l.setQueue i x).flagsNow = l.flagsNow :=
  ⟨rfl, rfl, rfl, rfl, rfl, rfl, rfl, rfl, rfl, rfl, rfl, rfl, rfl, rfl, rfl, rfl, rfl, rfl, rfl, rfl, rfl, rfl, rfl, rfl, rfl, rfl, rfl, rfl, rfl, rfl⟩

@[simp] theorem updQueue_same (l : Live) (i : Nat) (f : EvQueue → EvQueue) : (l.updQueue i f).queue i = f (l.queue i) := setQueue_same _ _ _

theorem updQueue_ne (l : Live) {i j : Nat} (f : EvQueue → EvQueue) (h : j ≠ i) : (l.updQueue i f).queue j = l.queue j := setQueue_ne _ _ h

@[simp] theorem updQueue_keeps (l : Live) (i : Nat) (f : EvQueue → EvQueue) :
    (l.updQueue i f).time = l.time ∧ (l.updQueue i f).snap = l.snap ∧ (l.updQueue i f).conf = l.conf ∧
    (l.updQueue i f).groups = l.groups ∧ (l.updQueue i f).channels = l.channels ∧ (l.updQueue i f).tpins = l.tpins ∧
    (l.updQueue i f).clusters = l.clusters ∧ (l.updQueue i f).micro = l.micro ∧ (l.updQueue i f).wheels = l.wheels ∧
    (l.updQueue i f).ports = l.ports ∧ (l.updQueue i f).pairs = l.pairs ∧ (l.updQueue i f).pwm = l.pwm ∧
    (l.updQueue i f).trips = l.trips ∧ (l.updQueue i f).analog = l.analog ∧ (l.updQueue i f).engines = l.engines ∧
    (l.updQueue i f).dma = l.dma ∧ (l.updQueue i f).log = l.log ∧ (l.updQueue i f).irq = l.irq ∧
    (l.updQueue i f).doze = l.doze ∧ (l.updQueue i f).net = l.net ∧ (l.updQueue i f).host = l.host ∧
    (l.updQueue i f).mail = l.mail ∧ (l.updQueue i f).mram = l.mram ∧ (l.updQueue i f).journal = l.journal ∧
    (l.updQueue i f).rst = l.rst ∧ (l.updQueue i f).mem = l.mem ∧ (l.updQueue i f).freeIdx = l.freeIdx ∧
    (l.updQueue i f).dmaLast = l.dmaLast ∧ (l.updQueue i f).dmaPosted = l.dmaPosted ∧ (l.updQueue i f).flagsNow = l.flagsNow :=
  ⟨rfl, rfl, rfl, rfl, rfl, rfl, rfl, rfl, rfl, rfl, rfl, rfl, rfl, rfl, rfl, rfl, rfl, rfl, rfl, rfl, rfl, rfl, rfl, rfl, rfl, rfl, rfl, rfl, rfl, rfl⟩

@[simp] theorem setWheel_same (l : Live) (i : Nat) (x : Wheel) : (l.setWheel i x).wheel i = x := SMap.get_put_same _ _ _ _

theorem setWheel_ne (l : Live) {i j : Nat} (x : Wheel) (h : j ≠ i) : (l.setWheel i x).wheel j = l.wheel j := SMap.get_put_ne _ _ _ h

@[simp] theorem setWheel_keeps (l : Live) (i : Nat) (x : Wheel) :
    (l.setWheel i x).time = l.time ∧ (l.setWheel i x).snap = l.snap ∧ (l.setWheel i x).conf = l.conf ∧
    (l.setWheel i x).groups = l.groups ∧ (l.setWheel i x).channels = l.channels ∧ (l.setWheel i x).tpins = l.tpins ∧
    (l.setWheel i x).clusters = l.clusters ∧ (l.setWheel i x).micro = l.micro ∧ (l.setWheel i x).events = l.events ∧
    (l.setWheel i x).ports = l.ports ∧ (l.setWheel i x).pairs = l.pairs ∧ (l.setWheel i x).pwm = l.pwm ∧
    (l.setWheel i x).trips = l.trips ∧ (l.setWheel i x).analog = l.analog ∧ (l.setWheel i x).engines = l.engines ∧
    (l.setWheel i x).dma = l.dma ∧ (l.setWheel i x).log = l.log ∧ (l.setWheel i x).irq = l.irq ∧
    (l.setWheel i x).doze = l.doze ∧ (l.setWheel i x).net = l.net ∧ (l.setWheel i x).host = l.host ∧
    (l.setWheel i x).mail = l.mail ∧ (l.setWheel i x).mram = l.mram ∧ (l.setWheel i x).journal = l.journal ∧
    (l.setWheel i x).rst = l.rst ∧ (l.setWheel i x).mem = l.mem ∧ (l.setWheel i x).freeIdx = l.freeIdx ∧
    (l.setWheel i x).dmaLast = l.dmaLast ∧ (l.setWheel i x).dmaPosted = l.dmaPosted ∧ (l.setWheel i x).flagsNow = l.flagsNow :=
  ⟨rfl, rfl, rfl, rfl, rfl, rfl, rfl, rfl, rfl, rfl, rfl, rfl, rfl, rfl, rfl, rfl, rfl, rfl, rfl, rfl, rfl, rfl, rfl, rfl, rfl, rfl, rfl, rfl, rfl, rfl⟩

@[simp] theorem updWheel_same (l : Live) (i : Nat) (f : Wheel → Wheel) : (l.updWheel i f).wheel i = f (l.wheel i) := setWheel_same _ _ _

theorem updWheel_ne (l : Live) {i j : Nat} (f : Wheel → Wheel) (h : j ≠ i) : (l.updWheel i f).wheel j = l.wheel j := setWheel_ne _ _ h

@[simp] theorem updWheel_keeps (l : Live) (i : Nat) (f : Wheel → Wheel) :
    (l.updWheel i f).time = l.time ∧ (l.updWheel i f).snap = l.snap ∧ (l.updWheel i f).conf = l.conf ∧
    (l.updWheel i f).groups = l.groups ∧ (l.updWheel i f).channels = l.channels ∧ (l.updWheel i f).tpins = l.tpins ∧
    (l.updWheel i f).clusters = l.clusters ∧ (l.updWheel i f).micro = l.micro ∧ (l.updWheel i f).events = l.events ∧
    (l.updWheel i f).ports = l.ports ∧ (l.updWheel i f).pairs = l.pairs ∧ (l.updWheel i f).pwm = l.pwm ∧
    (l.updWheel i f).trips = l.trips ∧ (l.updWheel i f).analog = l.analog ∧ (l.updWheel i f).engines = l.engines ∧
    (l.updWheel i f).dma = l.dma ∧ (l.updWheel i f).log = l.log ∧ (l.updWheel i f).irq = l.irq ∧
    (l.updWheel i f).doze = l.doze ∧ (l.updWheel i f).net = l.net ∧ (l.updWheel i f).host = l.host ∧
    (l.updWheel i f).mail = l.mail ∧ (l.updWheel i f).mram = l.mram ∧ (l.updWheel i f).journal = l.journal ∧
    (l.updWheel i f).rst = l.rst ∧ (l.updWheel i f).mem = l.mem ∧ (l.updWheel i f).freeIdx = l.freeIdx ∧
    (l.updWheel i f).dmaLast = l.dmaLast ∧ (l.updWheel i f).dmaPosted = l.dmaPosted ∧ (l.updWheel i f).flagsNow = l.flagsNow :=
  ⟨rfl, rfl, rfl, rfl, rfl, rfl, rfl, rfl, rfl, rfl, rfl, rfl, rfl, rfl, rfl, rfl, rfl, rfl, rfl, rfl, rfl, rfl, rfl, rfl, rfl, rfl, rfl, rfl, rfl, rfl⟩

@[simp] theorem setPort_same (l : Live) (i : Nat) (x : Port) : (l.setPort i x).port i = x := SMap.get_put_same _ _ _ _

theorem setPort_ne (l : Live) {i j : Nat} (x : Port) (h : j ≠ i) : (l.setPort i x).port j = l.port j := SMap.get_put_ne _ _ _ h

@[simp] theorem setPort_keeps (l : Live) (i : Nat) (x : Port) :
    (l.setPort i x).time = l.time ∧ (l.setPort i x).snap = l.snap ∧ (l.setPort i x).conf = l.conf ∧
    (l.setPort i x).groups = l.groups ∧ (l.setPort i x).channels = l.channels ∧ (l.setPort i x).tpins = l.tpins ∧
    (l.setPort i x).clusters = l.clusters ∧ (l.setPort i x).micro = l.micro ∧ (l.setPort i x).events = l.events ∧
    (l.setPort i x).wheels = l.wheels ∧ (l.setPort i x).pairs = l.pairs ∧ (l.setPort i x).pwm = l.pwm ∧
    (l.setPort i x).trips = l.trips ∧ (l.setPort i x).analog = l.analog ∧ (l.setPort i x).engines = l.engines ∧
    (l.setPort i x).dma = l.dma ∧ (l.setPort i x).log = l.log ∧ (l.setPort i x).irq = l.irq ∧
    (l.setPort i x).doze = l.doze ∧ (l.setPort i x).net = l.net ∧ (l.setPort i x).host = l.host ∧
    (l.setPort i x).mail = l.mail ∧ (l.setPort i x).mram = l.mram ∧ (l.setPort i x).journal = l.journal ∧
    (l.setPort i x).rst = l.rst ∧ (l.setPort i x).mem = l.mem ∧ (l.setPort i x).freeIdx = l.freeIdx ∧
    (l.setPort i x).dmaLast = l.dmaLast ∧ (l.setPort i x).dmaPosted = l.dmaPosted ∧ (l.setPort i x).flagsNow = l.flagsNow :=
  ⟨rfl, rfl, rfl, rfl, rfl, rfl, rfl, rfl, rfl, rfl, rfl, rfl, rfl, rfl, rfl, rfl, rfl, rfl, rfl, rfl, rfl, rfl, rfl, rfl, rfl, rfl, rfl, rfl, rfl, rfl⟩

@[simp] theorem updPort_same (l : Live) (i : Nat) (f : Port → Port) : (l.updPort i f).port i = f (l.port i) := setPort_same _ _ _

theorem updPort_ne (l : Live) {i j : Nat} (f : Port → Port) (h : j ≠ i) : (l.updPort i f).port j = l.port j := setPort_ne _ _ h

@[simp] theorem updPort_keeps (l : Live) (i : Nat) (f : Port → Port) :
    (l.updPort i f).time = l.time ∧ (l.updPort i f).snap = l.snap ∧ (l.updPort i f).conf = l.conf ∧
    (l.updPort i f).groups = l.groups ∧ (l.updPort i f).channels = l.channels ∧ (l.updPort i f).tpins = l.tpins ∧
    (l.updPort i f).clusters = l.clusters ∧ (l.updPort i f).micro = l.micro ∧ (l.updPort i f).events = l.events ∧
    (l.updPort i f).wheels = l.wheels ∧ (l.updPort i f).pairs = l.pairs ∧ (l.updPort i f).pwm = l.pwm ∧
    (l.updPort i f).trips = l.trips ∧ (l.updPort i f).analog = l.analog ∧ (l.updPort i f).engines = l.engines ∧
    (l.updPort i f).dma = l.dma ∧ (l.updPort i f).log = l.log ∧ (l.updPort i f).irq = l.irq ∧
    (l.updPort i f).doze = l.doze ∧ (l.updPort i f).net = l.net ∧ (l.updPort i f).host = l.host ∧
    (l.updPort i f).mail = l.mail ∧ (l.updPort i f).mram = l.mram ∧ (l.updPort i f).journal = l.journal ∧
    (l.updPort i f).rst = l.rst ∧ (l.updPort i f).mem = l.mem ∧ (l.updPort i f).freeIdx = l.freeIdx ∧
    (l.updPort i f).dmaLast = l.dmaLast ∧ (l.updPort i f).dmaPosted = l.dmaPosted ∧ (l.updPort i f).flagsNow = l.flagsNow :=
  ⟨rfl, rfl, rfl, rfl, rfl, rfl, rfl, rfl, rfl, rfl, rfl, rfl, rfl, rfl, rfl, rfl, rfl, rfl, rfl, rfl, rfl, rfl, rfl, rfl, rfl, rfl, rfl, rfl, rfl, rfl⟩

@[simp] theorem setPair_same (l : Live) (i : Nat) (x : Pair) : (l.setPair i x).pair i = x := SMap.get_put_same _ _ _ _

theorem setPair_ne (l : Live) {i j : Nat} (x : Pair) (h : j ≠ i) : (l.setPair i x).pair j = l.pair j := SMap.get_put_ne _ _ _ h

@[simp] theorem setPair_keeps (l : Live) (i : Nat) (x : Pair) :
    (l.setPair i x).time = l.time ∧ (l.setPair i x).snap = l.snap ∧ (l.setPair i x).conf = l.conf ∧
    (l.setPair i x).groups = l.groups ∧ (l.setPair i x).channels = l.channels ∧ (l.setPair i x).tpins = l.tpins ∧
    (l.setPair i x).clusters = l.clusters ∧ (l.setPair i x).micro = l.micro ∧ (l.setPair i x).events = l.events ∧
    (l.setPair i x).wheels = l.wheels ∧ (l.setPair i x).ports = l.ports ∧ (l.setPair i x).pwm = l.pwm ∧
    (l.setPair i x).trips = l.trips ∧ (l.setPair i x).analog = l.analog ∧ (l.setPair i x).engines = l.engines ∧
    (l.setPair i x).dma = l.dma ∧ (l.setPair i x).log = l.log ∧ (l.setPair i x).irq = l.irq ∧
    (l.setPair i x).doze = l.doze ∧ (l.setPair i x).net = l.net ∧ (l.setPair i x).host = l.host ∧
    (l.setPair i x).mail = l.mail ∧ (l.setPair i x).mram = l.mram ∧ (l.setPair i x).journal = l.journal ∧
    (l.setPair i x).rst = l.rst ∧ (l.setPair i x).mem = l.mem ∧ (l.setPair i x).freeIdx = l.freeIdx ∧
    (l.setPair i x).dmaLast = l.dmaLast ∧ (l.setPair i x).dmaPosted = l.dmaPosted ∧ (l.setPair i x).flagsNow = l.flagsNow :=
  ⟨rfl, rfl, rfl, rfl, rfl, rfl, rfl, rfl, rfl, rfl, rfl, rfl, rfl, rfl, rfl, rfl, rfl, rfl, rfl, rfl, rfl, rfl, rfl, rfl, rfl, rfl, rfl, rfl, rfl, rfl⟩

@[simp] theorem updPair_same (l : Live) (i : Nat) (f : Pair → Pair) : (l.updPair i f).pair i = f (l.pair i) := setPair_same _ _ _

theorem updPair_ne (l : Live) {i j : Nat} (f : Pair → Pair) (h : j ≠ i) : (l.updPair i f).pair j = l.pair j := setPair_ne _ _ h

@[simp] theorem updPair_keeps (l : Live) (i : Nat) (f : Pair → Pair) :
    (l.updPair i f).time = l.time ∧ (l.updPair i f).snap = l.snap ∧ (l.updPair i f).conf = l.conf ∧
    (l.updPair i f).groups = l.groups ∧ (l.updPair i f).channels = l.channels ∧ (l.updPair i f).tpins = l.tpins ∧
    (l.updPair i f).clusters = l.clusters ∧ (l.updPair i f).micro = l.micro ∧ (l.updPair i f).events = l.events ∧
    (l.updPair i f).wheels = l.wheels ∧ (l.updPair i f).ports = l.ports ∧ (l.updPair i f).pwm = l.pwm ∧
    (l.updPair i f).trips = l.trips ∧ (l.updPair i f).analog = l.analog ∧ (l.updPair i f).engines = l.engines ∧
    (l.updPair i f).dma = l.dma ∧ (l.updPair i f).log = l.log ∧ (l.updPair i f).irq = l.irq ∧
    (l.updPair i f).doze = l.doze ∧ (l.updPair i f).net = l.net ∧ (l.updPair i f).host = l.host ∧
    (l.updPair i f).mail = l.mail ∧ (l.updPair i f).mram = l.mram ∧ (l.updPair i f).journal = l.journal ∧
    (l.updPair i f).rst = l.rst ∧ (l.updPair i f).mem = l.mem ∧ (l.updPair i f).freeIdx = l.freeIdx ∧
    (l.updPair i f).dmaLast = l.dmaLast ∧ (l.updPair i f).dmaPosted = l.dmaPosted ∧ (l.updPair i f).flagsNow = l.flagsNow :=
  ⟨rfl, rfl, rfl, rfl, rfl, rfl, rfl, rfl, rfl, rfl, rfl, rfl, rfl, rfl, rfl, rfl, rfl, rfl, rfl, rfl, rfl, rfl, rfl, rfl, rfl, rfl, rfl, rfl, rfl, rfl⟩

@[simp] theorem setTrip_same (l : Live) (i : Nat) (x : TripInput) : (l.setTrip i x).trip i = x := SMap.get_put_same _ _ _ _

theorem setTrip_ne (l : Live) {i j : Nat} (x : TripInput) (h : j ≠ i) : (l.setTrip i x).trip j = l.trip j := SMap.get_put_ne _ _ _ h

@[simp] theorem setTrip_keeps (l : Live) (i : Nat) (x : TripInput) :
    (l.setTrip i x).time = l.time ∧ (l.setTrip i x).snap = l.snap ∧ (l.setTrip i x).conf = l.conf ∧
    (l.setTrip i x).groups = l.groups ∧ (l.setTrip i x).channels = l.channels ∧ (l.setTrip i x).tpins = l.tpins ∧
    (l.setTrip i x).clusters = l.clusters ∧ (l.setTrip i x).micro = l.micro ∧ (l.setTrip i x).events = l.events ∧
    (l.setTrip i x).wheels = l.wheels ∧ (l.setTrip i x).ports = l.ports ∧ (l.setTrip i x).pairs = l.pairs ∧
    (l.setTrip i x).pwm = l.pwm ∧ (l.setTrip i x).analog = l.analog ∧ (l.setTrip i x).engines = l.engines ∧
    (l.setTrip i x).dma = l.dma ∧ (l.setTrip i x).log = l.log ∧ (l.setTrip i x).irq = l.irq ∧
    (l.setTrip i x).doze = l.doze ∧ (l.setTrip i x).net = l.net ∧ (l.setTrip i x).host = l.host ∧
    (l.setTrip i x).mail = l.mail ∧ (l.setTrip i x).mram = l.mram ∧ (l.setTrip i x).journal = l.journal ∧
    (l.setTrip i x).rst = l.rst ∧ (l.setTrip i x).mem = l.mem ∧ (l.setTrip i x).freeIdx = l.freeIdx ∧
    (l.setTrip i x).dmaLast = l.dmaLast ∧ (l.setTrip i x).dmaPosted = l.dmaPosted ∧ (l.setTrip i x).flagsNow = l.flagsNow :=
  ⟨rfl, rfl, rfl, rfl, rfl, rfl, rfl, rfl, rfl, rfl, rfl, rfl, rfl, rfl, rfl, rfl, rfl, rfl, rfl, rfl, rfl, rfl, rfl, rfl, rfl, rfl, rfl, rfl, rfl, rfl⟩

@[simp] theorem updTrip_same (l : Live) (i : Nat) (f : TripInput → TripInput) : (l.updTrip i f).trip i = f (l.trip i) := setTrip_same _ _ _

theorem updTrip_ne (l : Live) {i j : Nat} (f : TripInput → TripInput) (h : j ≠ i) : (l.updTrip i f).trip j = l.trip j := setTrip_ne _ _ h

@[simp] theorem updTrip_keeps (l : Live) (i : Nat) (f : TripInput → TripInput) :
    (l.updTrip i f).time = l.time ∧ (l.updTrip i f).snap = l.snap ∧ (l.updTrip i f).conf = l.conf ∧
    (l.updTrip i f).groups = l.groups ∧ (l.updTrip i f).channels = l.channels ∧ (l.updTrip i f).tpins = l.tpins ∧
    (l.updTrip i f).clusters = l.clusters ∧ (l.updTrip i f).micro = l.micro ∧ (l.updTrip i f).events = l.events ∧
    (l.updTrip i f).wheels = l.wheels ∧ (l.updTrip i f).ports = l.ports ∧ (l.updTrip i f).pairs = l.pairs ∧
    (l.updTrip i f).pwm = l.pwm ∧ (l.updTrip i f).analog = l.analog ∧ (l.updTrip i f).engines = l.engines ∧
    (l.updTrip i f).dma = l.dma ∧ (l.updTrip i f).log = l.log ∧ (l.updTrip i f).irq = l.irq ∧
    (l.updTrip i f).doze = l.doze ∧ (l.updTrip i f).net = l.net ∧ (l.updTrip i f).host = l.host ∧
    (l.updTrip i f).mail = l.mail ∧ (l.updTrip i f).mram = l.mram ∧ (l.updTrip i f).journal = l.journal ∧
    (l.updTrip i f).rst = l.rst ∧ (l.updTrip i f).mem = l.mem ∧ (l.updTrip i f).freeIdx = l.freeIdx ∧
    (l.updTrip i f).dmaLast = l.dmaLast ∧ (l.updTrip i f).dmaPosted = l.dmaPosted ∧ (l.updTrip i f).flagsNow = l.flagsNow :=
  ⟨rfl, rfl, rfl, rfl, rfl, rfl, rfl, rfl, rfl, rfl, rfl, rfl, rfl, rfl, rfl, rfl, rfl, rfl, rfl, rfl, rfl, rfl, rfl, rfl, rfl, rfl, rfl, rfl, rfl, rfl⟩

@[simp] theorem setAnIn_same (l : Live) (i : Nat) (x : AnInput) : (l.setAnIn i x).anIn i = x := SMap.get_put_same _ _ _ _

theorem setAnIn_ne (l : Live) {i j : Nat} (x : AnInput) (h : j ≠ i) : (l.setAnIn i x).anIn j = l.anIn j := SMap.get_put_ne _ _ _ h

@[simp] theorem setAnIn_keeps (l : Live) (i : Nat) (x : AnInput) :
    (l.setAnIn i x).time = l.time ∧ (l.setAnIn i x).snap = l.snap ∧ (l.setAnIn i x).conf = l.conf ∧
    (l.setAnIn i x).groups = l.groups ∧ (l.setAnIn i x).channels = l.channels ∧ (l.setAnIn i x).tpins = l.tpins ∧
    (l.setAnIn i x).clusters = l.clusters ∧ (l.setAnIn i x).micro = l.micro ∧ (l.setAnIn i x).events = l.events ∧
    (l.setAnIn i x).wheels = l.wheels ∧ (l.setAnIn i x).ports = l.ports ∧ (l.setAnIn i x).pairs = l.pairs ∧
    (l.setAnIn i x).pwm = l.pwm ∧ (l.setAnIn i x).trips = l.trips ∧ (l.setAnIn i x).engines = l.engines ∧
    (l.setAnIn i x).dma = l.dma ∧ (l.setAnIn i x).log = l.log ∧ (l.setAnIn i x).irq = l.irq ∧
    (l.setAnIn i x).doze = l.doze ∧ (l.setAnIn i x).net = l.net ∧ (l.setAnIn i x).host = l.host ∧
    (l.setAnIn i x).mail = l.mail ∧ (l.setAnIn i x).mram = l.mram ∧ (l.setAnIn i x).journal = l.journal ∧
    (l.setAnIn i x).rst = l.rst ∧ (l.setAnIn i x).mem = l.mem ∧ (l.setAnIn i x).freeIdx = l.freeIdx ∧
    (l.setAnIn i x).dmaLast = l.dmaLast ∧ (l.setAnIn i x).dmaPosted = l.dmaPosted ∧ (l.setAnIn i x).flagsNow = l.flagsNow :=
  ⟨rfl, rfl, rfl, rfl, rfl, rfl, rfl, rfl, rfl, rfl, rfl, rfl, rfl, rfl, rfl, rfl, rfl, rfl, rfl, rfl, rfl, rfl, rfl, rfl, rfl, rfl, rfl, rfl, rfl, rfl⟩

@[simp] theorem updAnIn_same (l : Live) (i : Nat) (f : AnInput → AnInput) : (l.updAnIn i f).anIn i = f (l.anIn i) := setAnIn_same _ _ _

theorem updAnIn_ne (l : Live) {i j : Nat} (f : AnInput → AnInput) (h : j ≠ i) : (l.updAnIn i f).anIn j = l.anIn j := setAnIn_ne _ _ h

@[simp] theorem updAnIn_keeps (l : Live) (i : Nat) (f : AnInput → AnInput) :
    (l.updAnIn i f).time = l.time ∧ (l.updAnIn i f).snap = l.snap ∧ (l.updAnIn i f).conf = l.conf ∧
    (l.updAnIn i f).groups = l.groups ∧ (l.updAnIn i f).channels = l.channels ∧ (l.updAnIn i f).tpins = l.tpins ∧
    (l.updAnIn i f).clusters = l.clusters ∧ (l.updAnIn i f).micro = l.micro ∧ (l.updAnIn i f).events = l.events ∧
    (l.updAnIn i f).wheels = l.wheels ∧ (l.updAnIn i f).ports = l.ports ∧ (l.updAnIn i f).pairs = l.pairs ∧
    (l.updAnIn i f).pwm = l.pwm ∧ (l.updAnIn i f).trips = l.trips ∧ (l.updAnIn i f).engines = l.engines ∧
    (l.updAnIn i f).dma = l.dma ∧ (l.updAnIn i f).log = l.log ∧ (l.updAnIn i f).irq = l.irq ∧
    (l.updAnIn i f).doze = l.doze ∧ (l.updAnIn i f).net = l.net ∧ (l.updAnIn i f).host = l.host ∧
    (l.updAnIn i f).mail = l.mail ∧ (l.updAnIn i f).mram = l.mram ∧ (l.updAnIn i f).journal = l.journal ∧
    (l.updAnIn i f).rst = l.rst ∧ (l.updAnIn i f).mem = l.mem ∧ (l.updAnIn i f).freeIdx = l.freeIdx ∧
    (l.updAnIn i f).dmaLast = l.dmaLast ∧ (l.updAnIn i f).dmaPosted = l.dmaPosted ∧ (l.updAnIn i f).flagsNow = l.flagsNow :=
  ⟨rfl, rfl, rfl, rfl, rfl, rfl, rfl, rfl, rfl, rfl, rfl, rfl, rfl, rfl, rfl, rfl, rfl, rfl, rfl, rfl, rfl, rfl, rfl, rfl, rfl, rfl, rfl, rfl, rfl, rfl⟩

@[simp] theorem setConv_same (l : Live) (i : Nat) (x : Converter) : (l.setConv i x).conv i = x := SMap.get_put_same _ _ _ _

theorem setConv_ne (l : Live) {i j : Nat} (x : Converter) (h : j ≠ i) : (l.setConv i x).conv j = l.conv j := SMap.get_put_ne _ _ _ h

@[simp] theorem setConv_keeps (l : Live) (i : Nat) (x : Converter) :
    (l.setConv i x).time = l.time ∧ (l.setConv i x).snap = l.snap ∧ (l.setConv i x).conf = l.conf ∧
    (l.setConv i x).groups = l.groups ∧ (l.setConv i x).channels = l.channels ∧ (l.setConv i x).tpins = l.tpins ∧
    (l.setConv i x).clusters = l.clusters ∧ (l.setConv i x).micro = l.micro ∧ (l.setConv i x).events = l.events ∧
    (l.setConv i x).wheels = l.wheels ∧ (l.setConv i x).ports = l.ports ∧ (l.setConv i x).pairs = l.pairs ∧
    (l.setConv i x).pwm = l.pwm ∧ (l.setConv i x).trips = l.trips ∧ (l.setConv i x).engines = l.engines ∧
    (l.setConv i x).dma = l.dma ∧ (l.setConv i x).log = l.log ∧ (l.setConv i x).irq = l.irq ∧
    (l.setConv i x).doze = l.doze ∧ (l.setConv i x).net = l.net ∧ (l.setConv i x).host = l.host ∧
    (l.setConv i x).mail = l.mail ∧ (l.setConv i x).mram = l.mram ∧ (l.setConv i x).journal = l.journal ∧
    (l.setConv i x).rst = l.rst ∧ (l.setConv i x).mem = l.mem ∧ (l.setConv i x).freeIdx = l.freeIdx ∧
    (l.setConv i x).dmaLast = l.dmaLast ∧ (l.setConv i x).dmaPosted = l.dmaPosted ∧ (l.setConv i x).flagsNow = l.flagsNow :=
  ⟨rfl, rfl, rfl, rfl, rfl, rfl, rfl, rfl, rfl, rfl, rfl, rfl, rfl, rfl, rfl, rfl, rfl, rfl, rfl, rfl, rfl, rfl, rfl, rfl, rfl, rfl, rfl, rfl, rfl, rfl⟩

@[simp] theorem updConv_same (l : Live) (i : Nat) (f : Converter → Converter) : (l.updConv i f).conv i = f (l.conv i) := setConv_same _ _ _

theorem updConv_ne (l : Live) {i j : Nat} (f : Converter → Converter) (h : j ≠ i) : (l.updConv i f).conv j = l.conv j := setConv_ne _ _ h

@[simp] theorem updConv_keeps (l : Live) (i : Nat) (f : Converter → Converter) :
    (l.updConv i f).time = l.time ∧ (l.updConv i f).snap = l.snap ∧ (l.updConv i f).conf = l.conf ∧
    (l.updConv i f).groups = l.groups ∧ (l.updConv i f).channels = l.channels ∧ (l.updConv i f).tpins = l.tpins ∧
    (l.updConv i f).clusters = l.clusters ∧ (l.updConv i f).micro = l.micro ∧ (l.updConv i f).events = l.events ∧
    (l.updConv i f).wheels = l.wheels ∧ (l.updConv i f).ports = l.ports ∧ (l.updConv i f).pairs = l.pairs ∧
    (l.updConv i f).pwm = l.pwm ∧ (l.updConv i f).trips = l.trips ∧ (l.updConv i f).engines = l.engines ∧
    (l.updConv i f).dma = l.dma ∧ (l.updConv i f).log = l.log ∧ (l.updConv i f).irq = l.irq ∧
    (l.updConv i f).doze = l.doze ∧ (l.updConv i f).net = l.net ∧ (l.updConv i f).host = l.host ∧
    (l.updConv i f).mail = l.mail ∧ (l.updConv i f).mram = l.mram ∧ (l.updConv i f).journal = l.journal ∧
    (l.updConv i f).rst = l.rst ∧ (l.updConv i f).mem = l.mem ∧ (l.updConv i f).freeIdx = l.freeIdx ∧
    (l.updConv i f).dmaLast = l.dmaLast ∧ (l.updConv i f).dmaPosted = l.dmaPosted ∧ (l.updConv i f).flagsNow = l.flagsNow :=
  ⟨rfl, rfl, rfl, rfl, rfl, rfl, rfl, rfl, rfl, rfl, rfl, rfl, rfl, rfl, rfl, rfl, rfl, rfl, rfl, rfl, rfl, rfl, rfl, rfl, rfl, rfl, rfl, rfl, rfl, rfl⟩

@[simp] theorem setSeq_same (l : Live) (i : Nat) (x : Sequence) : (l.setSeq i x).seq i = x := SMap.get_put_same _ _ _ _

theorem setSeq_ne (l : Live) {i j : Nat} (x : Sequence) (h : j ≠ i) : (l.setSeq i x).seq j = l.seq j := SMap.get_put_ne _ _ _ h

@[simp] theorem setSeq_keeps (l : Live) (i : Nat) (x : Sequence) :
    (l.setSeq i x).time = l.time ∧ (l.setSeq i x).snap = l.snap ∧ (l.setSeq i x).conf = l.conf ∧
    (l.setSeq i x).groups = l.groups ∧ (l.setSeq i x).channels = l.channels ∧ (l.setSeq i x).tpins = l.tpins ∧
    (l.setSeq i x).clusters = l.clusters ∧ (l.setSeq i x).micro = l.micro ∧ (l.setSeq i x).events = l.events ∧
    (l.setSeq i x).wheels = l.wheels ∧ (l.setSeq i x).ports = l.ports ∧ (l.setSeq i x).pairs = l.pairs ∧
    (l.setSeq i x).pwm = l.pwm ∧ (l.setSeq i x).trips = l.trips ∧ (l.setSeq i x).engines = l.engines ∧
    (l.setSeq i x).dma = l.dma ∧ (l.setSeq i x).log = l.log ∧ (l.setSeq i x).irq = l.irq ∧
    (l.setSeq i x).doze = l.doze ∧ (l.setSeq i x).net = l.net ∧ (l.setSeq i x).host = l.host ∧
    (l.setSeq i x).mail = l.mail ∧ (l.setSeq i x).mram = l.mram ∧ (l.setSeq i x).journal = l.journal ∧
    (l.setSeq i x).rst = l.rst ∧ (l.setSeq i x).mem = l.mem ∧ (l.setSeq i x).freeIdx = l.freeIdx ∧
    (l.setSeq i x).dmaLast = l.dmaLast ∧ (l.setSeq i x).dmaPosted = l.dmaPosted ∧ (l.setSeq i x).flagsNow = l.flagsNow :=
  ⟨rfl, rfl, rfl, rfl, rfl, rfl, rfl, rfl, rfl, rfl, rfl, rfl, rfl, rfl, rfl, rfl, rfl, rfl, rfl, rfl, rfl, rfl, rfl, rfl, rfl, rfl, rfl, rfl, rfl, rfl⟩

@[simp] theorem updSeq_same (l : Live) (i : Nat) (f : Sequence → Sequence) : (l.updSeq i f).seq i = f (l.seq i) := setSeq_same _ _ _

theorem updSeq_ne (l : Live) {i j : Nat} (f : Sequence → Sequence) (h : j ≠ i) : (l.updSeq i f).seq j = l.seq j := setSeq_ne _ _ h

@[simp] theorem updSeq_keeps (l : Live) (i : Nat) (f : Sequence → Sequence) :
    (l.updSeq i f).time = l.time ∧ (l.updSeq i f).snap = l.snap ∧ (l.updSeq i f).conf = l.conf ∧
    (l.updSeq i f).groups = l.groups ∧ (l.updSeq i f).channels = l.channels ∧ (l.updSeq i f).tpins = l.tpins ∧
    (l.updSeq i f).clusters = l.clusters ∧ (l.updSeq i f).micro = l.micro ∧ (l.updSeq i f).events = l.events ∧
    (l.updSeq i f).wheels = l.wheels ∧ (l.updSeq i f).ports = l.ports ∧ (l.updSeq i f).pairs = l.pairs ∧
    (l.updSeq i f).pwm = l.pwm ∧ (l.updSeq i f).trips = l.trips ∧ (l.updSeq i f).engines = l.engines ∧
    (l.updSeq i f).dma = l.dma ∧ (l.updSeq i f).log = l.log ∧ (l.updSeq i f).irq = l.irq ∧
    (l.updSeq i f).doze = l.doze ∧ (l.updSeq i f).net = l.net ∧ (l.updSeq i f).host = l.host ∧
    (l.updSeq i f).mail = l.mail ∧ (l.updSeq i f).mram = l.mram ∧ (l.updSeq i f).journal = l.journal ∧
    (l.updSeq i f).rst = l.rst ∧ (l.updSeq i f).mem = l.mem ∧ (l.updSeq i f).freeIdx = l.freeIdx ∧
    (l.updSeq i f).dmaLast = l.dmaLast ∧ (l.updSeq i f).dmaPosted = l.dmaPosted ∧ (l.updSeq i f).flagsNow = l.flagsNow :=
  ⟨rfl, rfl, rfl, rfl, rfl, rfl, rfl, rfl, rfl, rfl, rfl, rfl, rfl, rfl, rfl, rfl, rfl, rfl, rfl, rfl, rfl, rfl, rfl, rfl, rfl, rfl, rfl, rfl, rfl, rfl⟩

@[simp] theorem setPe_same (l : Live) (i : Nat) (x : PinEngine) : (l.setPe i x).pe i = x := SMap.get_put_same _ _ _ _

theorem setPe_ne (l : Live) {i j : Nat} (x : PinEngine) (h : j ≠ i) : (l.setPe i x).pe j = l.pe j := SMap.get_put_ne _ _ _ h

@[simp] theorem setPe_keeps (l : Live) (i : Nat) (x : PinEngine) :
    (l.setPe i x).time = l.time ∧ (l.setPe i x).snap = l.snap ∧ (l.setPe i x).conf = l.conf ∧
    (l.setPe i x).groups = l.groups ∧ (l.setPe i x).channels = l.channels ∧ (l.setPe i x).tpins = l.tpins ∧
    (l.setPe i x).clusters = l.clusters ∧ (l.setPe i x).micro = l.micro ∧ (l.setPe i x).events = l.events ∧
    (l.setPe i x).wheels = l.wheels ∧ (l.setPe i x).ports = l.ports ∧ (l.setPe i x).pairs = l.pairs ∧
    (l.setPe i x).pwm = l.pwm ∧ (l.setPe i x).trips = l.trips ∧ (l.setPe i x).analog = l.analog ∧
    (l.setPe i x).dma = l.dma ∧ (l.setPe i x).log = l.log ∧ (l.setPe i x).irq = l.irq ∧ (l.setPe i x).doze = l.doze ∧
    (l.setPe i x).net = l.net ∧ (l.setPe i x).host = l.host ∧ (l.setPe i x).mail = l.mail ∧
    (l.setPe i x).mram = l.mram ∧ (l.setPe i x).journal = l.journal ∧ (l.setPe i x).rst = l.rst ∧
    (l.setPe i x).mem = l.mem ∧ (l.setPe i x).freeIdx = l.freeIdx ∧
    (l.setPe i x).dmaLast = l.dmaLast ∧ (l.setPe i x).dmaPosted = l.dmaPosted ∧ (l.setPe i x).flagsNow = l.flagsNow :=
  ⟨rfl, rfl, rfl, rfl, rfl, rfl, rfl, rfl, rfl, rfl, rfl, rfl, rfl, rfl, rfl, rfl, rfl, rfl, rfl, rfl, rfl, rfl, rfl, rfl, rfl, rfl, rfl, rfl, rfl, rfl⟩

@[simp] theorem updPe_same (l : Live) (i : Nat) (f : PinEngine → PinEngine) : (l.updPe i f).pe i = f (l.pe i) := setPe_same _ _ _

theorem updPe_ne (l : Live) {i j : Nat} (f : PinEngine → PinEngine) (h : j ≠ i) : (l.updPe i f).pe j = l.pe j := setPe_ne _ _ h

@[simp] theorem updPe_keeps (l : Live) (i : Nat) (f : PinEngine → PinEngine) :
    (l.updPe i f).time = l.time ∧ (l.updPe i f).snap = l.snap ∧ (l.updPe i f).conf = l.conf ∧
    (l.updPe i f).groups = l.groups ∧ (l.updPe i f).channels = l.channels ∧ (l.updPe i f).tpins = l.tpins ∧
    (l.updPe i f).clusters = l.clusters ∧ (l.updPe i f).micro = l.micro ∧ (l.updPe i f).events = l.events ∧
    (l.updPe i f).wheels = l.wheels ∧ (l.updPe i f).ports = l.ports ∧ (l.updPe i f).pairs = l.pairs ∧
    (l.updPe i f).pwm = l.pwm ∧ (l.updPe i f).trips = l.trips ∧ (l.updPe i f).analog = l.analog ∧
    (l.updPe i f).dma = l.dma ∧ (l.updPe i f).log = l.log ∧ (l.updPe i f).irq = l.irq ∧ (l.updPe i f).doze = l.doze ∧
    (l.updPe i f).net = l.net ∧ (l.updPe i f).host = l.host ∧ (l.updPe i f).mail = l.mail ∧
    (l.updPe i f).mram = l.mram ∧ (l.updPe i f).journal = l.journal ∧ (l.updPe i f).rst = l.rst ∧
    (l.updPe i f).mem = l.mem ∧ (l.updPe i f).freeIdx = l.freeIdx ∧
    (l.updPe i f).dmaLast = l.dmaLast ∧ (l.updPe i f).dmaPosted = l.dmaPosted ∧ (l.updPe i f).flagsNow = l.flagsNow :=
  ⟨rfl, rfl, rfl, rfl, rfl, rfl, rfl, rfl, rfl, rfl, rfl, rfl, rfl, rfl, rfl, rfl, rfl, rfl, rfl, rfl, rfl, rfl, rfl, rfl, rfl, rfl, rfl, rfl, rfl, rfl⟩

@[simp] theorem setDc_same (l : Live) (i : Nat) (x : DmaChannel) : (l.setDc i x).dc i = x := SMap.get_put_same _ _ _ _

theorem setDc_ne (l : Live) {i j : Nat} (x : DmaChannel) (h : j ≠ i) : (l.setDc i x).dc j = l.dc j := SMap.get_put_ne _ _ _ h

@[simp] theorem setDc_keeps (l : Live) (i : Nat) (x : DmaChannel) :
    (l.setDc i x).time = l.time ∧ (l.setDc i x).snap = l.snap ∧ (l.setDc i x).conf = l.conf ∧
    (l.setDc i x).groups = l.groups ∧ (l.setDc i x).channels = l.channels ∧ (l.setDc i x).tpins = l.tpins ∧
    (l.setDc i x).clusters = l.clusters ∧ (l.setDc i x).micro = l.micro ∧ (l.setDc i x).events = l.events ∧
    (l.setDc i x).wheels = l.wheels ∧ (l.setDc i x).ports = l.ports ∧ (l.setDc i x).pairs = l.pairs ∧
    (l.setDc i x).pwm = l.pwm ∧ (l.setDc i x).trips = l.trips ∧ (l.setDc i x).analog = l.analog ∧
    (l.setDc i x).engines = l.engines ∧ (l.setDc i x).log = l.log ∧ (l.setDc i x).irq = l.irq ∧
    (l.setDc i x).doze = l.doze ∧ (l.setDc i x).net = l.net ∧ (l.setDc i x).host = l.host ∧
    (l.setDc i x).mail = l.mail ∧ (l.setDc i x).mram = l.mram ∧ (l.setDc i x).journal = l.journal ∧
    (l.setDc i x).rst = l.rst ∧ (l.setDc i x).mem = l.mem ∧ (l.setDc i x).freeIdx = l.freeIdx ∧
    (l.setDc i x).dmaLast = l.dmaLast ∧ (l.setDc i x).dmaPosted = l.dmaPosted ∧ (l.setDc i x).flagsNow = l.flagsNow :=
  ⟨rfl, rfl, rfl, rfl, rfl, rfl, rfl, rfl, rfl, rfl, rfl, rfl, rfl, rfl, rfl, rfl, rfl, rfl, rfl, rfl, rfl, rfl, rfl, rfl, rfl, rfl, rfl, rfl, rfl, rfl⟩

@[simp] theorem updDc_same (l : Live) (i : Nat) (f : DmaChannel → DmaChannel) : (l.updDc i f).dc i = f (l.dc i) := setDc_same _ _ _

theorem updDc_ne (l : Live) {i j : Nat} (f : DmaChannel → DmaChannel) (h : j ≠ i) : (l.updDc i f).dc j = l.dc j := setDc_ne _ _ h

@[simp] theorem updDc_keeps (l : Live) (i : Nat) (f : DmaChannel → DmaChannel) :
    (l.updDc i f).time = l.time ∧ (l.updDc i f).snap = l.snap ∧ (l.updDc i f).conf = l.conf ∧
    (l.updDc i f).groups = l.groups ∧ (l.updDc i f).channels = l.channels ∧ (l.updDc i f).tpins = l.tpins ∧
    (l.updDc i f).clusters = l.clusters ∧ (l.updDc i f).micro = l.micro ∧ (l.updDc i f).events = l.events ∧
    (l.updDc i f).wheels = l.wheels ∧ (l.updDc i f).ports = l.ports ∧ (l.updDc i f).pairs = l.pairs ∧
    (l.updDc i f).pwm = l.pwm ∧ (l.updDc i f).trips = l.trips ∧ (l.updDc i f).analog = l.analog ∧
    (l.updDc i f).engines = l.engines ∧ (l.updDc i f).log = l.log ∧ (l.updDc i f).irq = l.irq ∧
    (l.updDc i f).doze = l.doze ∧ (l.updDc i f).net = l.net ∧ (l.updDc i f).host = l.host ∧
    (l.updDc i f).mail = l.mail ∧ (l.updDc i f).mram = l.mram ∧ (l.updDc i f).journal = l.journal ∧
    (l.updDc i f).rst = l.rst ∧ (l.updDc i f).mem = l.mem ∧ (l.updDc i f).freeIdx = l.freeIdx ∧
    (l.updDc i f).dmaLast = l.dmaLast ∧ (l.updDc i f).dmaPosted = l.dmaPosted ∧ (l.updDc i f).flagsNow = l.flagsNow :=
  ⟨rfl, rfl, rfl, rfl, rfl, rfl, rfl, rfl, rfl, rfl, rfl, rfl, rfl, rfl, rfl, rfl, rfl, rfl, rfl, rfl, rfl, rfl, rfl, rfl, rfl, rfl, rfl, rfl, rfl, rfl⟩

@[simp] theorem setIrqGroup_same (l : Live) (i : Nat) (x : IrqGroup) : (l.setIrqGroup i x).irqGroup i = x := SMap.get_put_same _ _ _ _

theorem setIrqGroup_ne (l : Live) {i j : Nat} (x : IrqGroup) (h : j ≠ i) : (l.setIrqGroup i x).irqGroup j = l.irqGroup j := SMap.get_put_ne _ _ _ h

@[simp] theorem setIrqGroup_keeps (l : Live) (i : Nat) (x : IrqGroup) :
    (l.setIrqGroup i x).time = l.time ∧ (l.setIrqGroup i x).snap = l.snap ∧ (l.setIrqGroup i x).conf = l.conf ∧
    (l.setIrqGroup i x).groups = l.groups ∧ (l.setIrqGroup i x).channels = l.channels ∧
    (l.setIrqGroup i x).tpins = l.tpins ∧ (l.setIrqGroup i x).clusters = l.clusters ∧
    (l.setIrqGroup i x).micro = l.micro ∧ (l.setIrqGroup i x).events = l.events ∧
    (l.setIrqGroup i x).wheels = l.wheels ∧ (l.setIrqGroup i x).ports = l.ports ∧
    (l.setIrqGroup i x).pairs = l.pairs ∧ (l.setIrqGroup i x).pwm = l.pwm ∧ (l.setIrqGroup i x).trips = l.trips ∧
    (l.setIrqGroup i x).analog = l.analog ∧ (l.setIrqGroup i x).engines = l.engines ∧
    (l.setIrqGroup i x).dma = l.dma ∧ (l.setIrqGroup i x).log = l.log ∧ (l.setIrqGroup i x).doze = l.doze ∧
    (l.setIrqGroup i x).net = l.net ∧ (l.setIrqGroup i x).host = l.host ∧ (l.setIrqGroup i x).mail = l.mail ∧
    (l.setIrqGroup i x).mram = l.mram ∧ (l.setIrqGroup i x).journal = l.journal ∧ (l.setIrqGroup i x).rst = l.rst ∧
    (l.setIrqGroup i x).mem = l.mem ∧ (l.setIrqGroup i x).freeIdx = l.freeIdx ∧
    (l.setIrqGroup i x).dmaLast = l.dmaLast ∧ (l.setIrqGroup i x).dmaPosted = l.dmaPosted ∧ (l.setIrqGroup i x).flagsNow = l.flagsNow :=
  ⟨rfl, rfl, rfl, rfl, rfl, rfl, rfl, rfl, rfl, rfl, rfl, rfl, rfl, rfl, rfl, rfl, rfl, rfl, rfl, rfl, rfl, rfl, rfl, rfl, rfl, rfl, rfl, rfl, rfl, rfl⟩

@[simp] theorem setBus_same (l : Live) (i : Nat) (x : Bus) : (l.setBus i x).bus i = x := SMap.get_put_same _ _ _ _

theorem setBus_ne (l : Live) {i j : Nat} (x : Bus) (h : j ≠ i) : (l.setBus i x).bus j = l.bus j := SMap.get_put_ne _ _ _ h

@[simp] theorem setBus_keeps (l : Live) (i : Nat) (x : Bus) :
    (l.setBus i x).time = l.time ∧ (l.setBus i x).snap = l.snap ∧ (l.setBus i x).conf = l.conf ∧
    (l.setBus i x).groups = l.groups ∧ (l.setBus i x).channels = l.channels ∧ (l.setBus i x).tpins = l.tpins ∧
    (l.setBus i x).clusters = l.clusters ∧ (l.setBus i x).micro = l.micro ∧ (l.setBus i x).events = l.events ∧
    (l.setBus i x).wheels = l.wheels ∧ (l.setBus i x).ports = l.ports ∧ (l.setBus i x).pairs = l.pairs ∧
    (l.setBus i x).pwm = l.pwm ∧ (l.setBus i x).trips = l.trips ∧ (l.setBus i x).analog = l.analog ∧
    (l.setBus i x).engines = l.engines ∧ (l.setBus i x).dma = l.dma ∧ (l.setBus i x).log = l.log ∧
    (l.setBus i x).irq = l.irq ∧ (l.setBus i x).doze = l.doze ∧ (l.setBus i x).host = l.host ∧
    (l.setBus i x).mail = l.mail ∧ (l.setBus i x).mram = l.mram ∧ (l.setBus i x).journal = l.journal ∧
    (l.setBus i x).rst = l.rst ∧ (l.setBus i x).mem = l.mem ∧ (l.setBus i x).freeIdx = l.freeIdx ∧
    (l.setBus i x).dmaLast = l.dmaLast ∧ (l.setBus i x).dmaPosted = l.dmaPosted ∧ (l.setBus i x).flagsNow = l.flagsNow :=
  ⟨rfl, rfl, rfl, rfl, rfl, rfl, rfl, rfl, rfl, rfl, rfl, rfl, rfl, rfl, rfl, rfl, rfl, rfl, rfl, rfl, rfl, rfl, rfl, rfl, rfl, rfl, rfl, rfl, rfl, rfl⟩

@[simp] theorem updBus_same (l : Live) (i : Nat) (f : Bus → Bus) : (l.updBus i f).bus i = f (l.bus i) := setBus_same _ _ _

theorem updBus_ne (l : Live) {i j : Nat} (f : Bus → Bus) (h : j ≠ i) : (l.updBus i f).bus j = l.bus j := setBus_ne _ _ h

@[simp] theorem updBus_keeps (l : Live) (i : Nat) (f : Bus → Bus) :
    (l.updBus i f).time = l.time ∧ (l.updBus i f).snap = l.snap ∧ (l.updBus i f).conf = l.conf ∧
    (l.updBus i f).groups = l.groups ∧ (l.updBus i f).channels = l.channels ∧ (l.updBus i f).tpins = l.tpins ∧
    (l.updBus i f).clusters = l.clusters ∧ (l.updBus i f).micro = l.micro ∧ (l.updBus i f).events = l.events ∧
    (l.updBus i f).wheels = l.wheels ∧ (l.updBus i f).ports = l.ports ∧ (l.updBus i f).pairs = l.pairs ∧
    (l.updBus i f).pwm = l.pwm ∧ (l.updBus i f).trips = l.trips ∧ (l.updBus i f).analog = l.analog ∧
    (l.updBus i f).engines = l.engines ∧ (l.updBus i f).dma = l.dma ∧ (l.updBus i f).log = l.log ∧
    (l.updBus i f).irq = l.irq ∧ (l.updBus i f).doze = l.doze ∧ (l.updBus i f).host = l.host ∧
    (l.updBus i f).mail = l.mail ∧ (l.updBus i f).mram = l.mram ∧ (l.updBus i f).journal = l.journal ∧
    (l.updBus i f).rst = l.rst ∧ (l.updBus i f).mem = l.mem ∧ (l.updBus i f).freeIdx = l.freeIdx ∧
    (l.updBus i f).dmaLast = l.dmaLast ∧ (l.updBus i f).dmaPosted = l.dmaPosted ∧ (l.updBus i f).flagsNow = l.flagsNow :=
  ⟨rfl, rfl, rfl, rfl, rfl, rfl, rfl, rfl, rfl, rfl, rfl, rfl, rfl, rfl, rfl, rfl, rfl, rfl, rfl, rfl, rfl, rfl, rfl, rfl, rfl, rfl, rfl, rfl, rfl, rfl⟩

@[simp] theorem setConnSt_same (l : Live) (i : Nat) (x : ConnState) : (l.setConnSt i x).connSt i = x := SMap.get_put_same _ _ _ _

theorem setConnSt_ne (l : Live) {i j : Nat} (x : ConnState) (h : j ≠ i) : (l.setConnSt i x).connSt j = l.connSt j := SMap.get_put_ne _ _ _ h

@[simp] theorem setConnSt_keeps (l : Live) (i : Nat) (x : ConnState) :
    (l.setConnSt i x).time = l.time ∧ (l.setConnSt i x).snap = l.snap ∧ (l.setConnSt i x).conf = l.conf ∧
    (l.setConnSt i x).groups = l.groups ∧ (l.setConnSt i x).channels = l.channels ∧
    (l.setConnSt i x).tpins = l.tpins ∧ (l.setConnSt i x).clusters = l.clusters ∧ (l.setConnSt i x).micro = l.micro ∧
    (l.setConnSt i x).events = l.events ∧ (l.setConnSt i x).wheels = l.wheels ∧ (l.setConnSt i x).ports = l.ports ∧
    (l.setConnSt i x).pairs = l.pairs ∧ (l.setConnSt i x).pwm = l.pwm ∧ (l.setConnSt i x).trips = l.trips ∧
    (l.setConnSt i x).analog = l.analog ∧ (l.setConnSt i x).engines = l.engines ∧ (l.setConnSt i x).dma = l.dma ∧
    (l.setConnSt i x).log = l.log ∧ (l.setConnSt i x).irq = l.irq ∧ (l.setConnSt i x).doze = l.doze ∧
    (l.setConnSt i x).host = l.host ∧ (l.setConnSt i x).mail = l.mail ∧ (l.setConnSt i x).mram = l.mram ∧
    (l.setConnSt i x).journal = l.journal ∧ (l.setConnSt i x).rst = l.rst ∧ (l.setConnSt i x).mem = l.mem ∧
    (l.setConnSt i x).freeIdx = l.freeIdx ∧
    (l.setConnSt i x).dmaLast = l.dmaLast ∧ (l.setConnSt i x).dmaPosted = l.dmaPosted ∧ (l.setConnSt i x).flagsNow = l.flagsNow :=
  ⟨rfl, rfl, rfl, rfl, rfl, rfl, rfl, rfl, rfl, rfl, rfl, rfl, rfl, rfl, rfl, rfl, rfl, rfl, rfl, rfl, rfl, rfl, rfl, rfl, rfl, rfl, rfl, rfl, rfl, rfl⟩

@[simp] theorem updConnSt_same (l : Live) (i : Nat) (f : ConnState → ConnState) : (l.updConnSt i f).connSt i = f (l.connSt i) := setConnSt_same _ _ _

theorem updConnSt_ne (l : Live) {i j : Nat} (f : ConnState → ConnState) (h : j ≠ i) : (l.updConnSt i f).connSt j = l.connSt j := setConnSt_ne _ _ h

@[simp] theorem updConnSt_keeps (l : Live) (i : Nat) (f : ConnState → ConnState) :
    (l.updConnSt i f).time = l.time ∧ (l.updConnSt i f).snap = l.snap ∧ (l.updConnSt i f).conf = l.conf ∧
    (l.updConnSt i f).groups = l.groups ∧ (l.updConnSt i f).channels = l.channels ∧
    (l.updConnSt i f).tpins = l.tpins ∧ (l.updConnSt i f).clusters = l.clusters ∧ (l.updConnSt i f).micro = l.micro ∧
    (l.updConnSt i f).events = l.events ∧ (l.updConnSt i f).wheels = l.wheels ∧ (l.updConnSt i f).ports = l.ports ∧
    (l.updConnSt i f).pairs = l.pairs ∧ (l.updConnSt i f).pwm = l.pwm ∧ (l.updConnSt i f).trips = l.trips ∧
    (l.updConnSt i f).analog = l.analog ∧ (l.updConnSt i f).engines = l.engines ∧ (l.updConnSt i f).dma = l.dma ∧
    (l.updConnSt i f).log = l.log ∧ (l.updConnSt i f).irq = l.irq ∧ (l.updConnSt i f).doze = l.doze ∧
    (l.updConnSt i f).host = l.host ∧ (l.updConnSt i f).mail = l.mail ∧ (l.updConnSt i f).mram = l.mram ∧
    (l.updConnSt i f).journal = l.journal ∧ (l.updConnSt i f).rst = l.rst ∧ (l.updConnSt i f).mem = l.mem ∧
    (l.updConnSt i f).freeIdx = l.freeIdx ∧
    (l.updConnSt i f).dmaLast = l.dmaLast ∧ (l.updConnSt i f).dmaPosted = l.dmaPosted ∧ (l.updConnSt i f).flagsNow = l.flagsNow :=
  ⟨rfl, rfl, rfl, rfl, rfl, rfl, rfl, rfl, rfl, rfl, rfl, rfl, rfl, rfl, rfl, rfl, rfl, rfl, rfl, rfl, rfl, rfl, rfl, rfl, rfl, rfl, rfl, rfl, rfl, rfl⟩

/-! ### The notes of flags set in a TCLK (R84) -/

@[simp] theorem noteFlags_keeps (k m : Nat) (l : Live) :
    (noteFlags k m l).time = l.time ∧ (noteFlags k m l).snap = l.snap ∧ (noteFlags k m l).conf = l.conf ∧
    (noteFlags k m l).groups = l.groups ∧ (noteFlags k m l).channels = l.channels ∧ (noteFlags k m l).tpins = l.tpins ∧
    (noteFlags k m l).clusters = l.clusters ∧ (noteFlags k m l).micro = l.micro ∧ (noteFlags k m l).events = l.events ∧
    (noteFlags k m l).wheels = l.wheels ∧ (noteFlags k m l).ports = l.ports ∧ (noteFlags k m l).pairs = l.pairs ∧
    (noteFlags k m l).pwm = l.pwm ∧ (noteFlags k m l).trips = l.trips ∧ (noteFlags k m l).analog = l.analog ∧
    (noteFlags k m l).engines = l.engines ∧ (noteFlags k m l).dma = l.dma ∧ (noteFlags k m l).dmaLast = l.dmaLast ∧
    (noteFlags k m l).dmaPosted = l.dmaPosted ∧ (noteFlags k m l).log = l.log ∧ (noteFlags k m l).irq = l.irq ∧
    (noteFlags k m l).doze = l.doze ∧ (noteFlags k m l).net = l.net ∧ (noteFlags k m l).host = l.host ∧
    (noteFlags k m l).mail = l.mail ∧ (noteFlags k m l).mram = l.mram ∧ (noteFlags k m l).journal = l.journal ∧
    (noteFlags k m l).rst = l.rst ∧ (noteFlags k m l).mem = l.mem ∧ (noteFlags k m l).freeIdx = l.freeIdx :=
  ⟨rfl, rfl, rfl, rfl, rfl, rfl, rfl, rfl, rfl, rfl, rfl, rfl, rfl, rfl, rfl, rfl, rfl, rfl, rfl, rfl, rfl, rfl, rfl, rfl, rfl, rfl, rfl, rfl, rfl, rfl⟩

@[simp] theorem noteFlags_acc (k m : Nat) (l : Live) :
    (∀ j, (noteFlags k m l).chan j = l.chan j) ∧ (∀ j, (noteFlags k m l).tpin j = l.tpin j) ∧
    (∀ j, (noteFlags k m l).cluster j = l.cluster j) ∧ (∀ j, (noteFlags k m l).group j = l.group j) ∧
    (∀ j, (noteFlags k m l).entry j = l.entry j) ∧ (∀ j, (noteFlags k m l).queue j = l.queue j) ∧
    (∀ j, (noteFlags k m l).wheel j = l.wheel j) ∧ (∀ j, (noteFlags k m l).port j = l.port j) ∧
    (∀ j, (noteFlags k m l).pair j = l.pair j) ∧ (∀ j, (noteFlags k m l).trip j = l.trip j) ∧
    (∀ j, (noteFlags k m l).anIn j = l.anIn j) ∧ (∀ j, (noteFlags k m l).conv j = l.conv j) ∧
    (∀ j, (noteFlags k m l).seq j = l.seq j) ∧ (∀ j, (noteFlags k m l).pe j = l.pe j) ∧
    (∀ j, (noteFlags k m l).dc j = l.dc j) ∧ (∀ j, (noteFlags k m l).irqGroup j = l.irqGroup j) ∧
    (∀ j, (noteFlags k m l).bus j = l.bus j) ∧ (∀ j, (noteFlags k m l).connSt j = l.connSt j) ∧
    (∀ j, (noteFlags k m l).baseVal j = l.baseVal j) ∧ (∀ j, (noteFlags k m l).val j = l.val j) ∧
    (noteFlags k m l).now = l.now ∧ (∀ i j, (noteFlags k m l).cfg i j = l.cfg i j) ∧
    (∀ i j, (noteFlags k m l).flag i j = l.flag i j) :=
  ⟨fun _ => rfl, fun _ => rfl, fun _ => rfl, fun _ => rfl, fun _ => rfl, fun _ => rfl, fun _ => rfl, fun _ => rfl, fun _ => rfl, fun _ => rfl, fun _ => rfl, fun _ => rfl, fun _ => rfl, fun _ => rfl, fun _ => rfl, fun _ => rfl, fun _ => rfl, fun _ => rfl, fun _ => rfl, fun _ => rfl, rfl, fun _ _ => rfl, fun _ _ => rfl⟩

@[simp] theorem noteBit_keeps (idx sub b : Nat) (l : Live) :
    (noteBit idx sub b l).time = l.time ∧ (noteBit idx sub b l).snap = l.snap ∧ (noteBit idx sub b l).conf = l.conf ∧
    (noteBit idx sub b l).groups = l.groups ∧ (noteBit idx sub b l).channels = l.channels ∧
    (noteBit idx sub b l).tpins = l.tpins ∧ (noteBit idx sub b l).clusters = l.clusters ∧
    (noteBit idx sub b l).micro = l.micro ∧ (noteBit idx sub b l).events = l.events ∧ (noteBit idx sub b l).wheels = l.wheels ∧
    (noteBit idx sub b l).ports = l.ports ∧ (noteBit idx sub b l).pairs = l.pairs ∧ (noteBit idx sub b l).pwm = l.pwm ∧
    (noteBit idx sub b l).trips = l.trips ∧ (noteBit idx sub b l).analog = l.analog ∧
    (noteBit idx sub b l).engines = l.engines ∧ (noteBit idx sub b l).dma = l.dma ∧ (noteBit idx sub b l).dmaLast = l.dmaLast ∧
    (noteBit idx sub b l).dmaPosted = l.dmaPosted ∧ (noteBit idx sub b l).log = l.log ∧ (noteBit idx sub b l).irq = l.irq ∧
    (noteBit idx sub b l).doze = l.doze ∧ (noteBit idx sub b l).net = l.net ∧ (noteBit idx sub b l).host = l.host ∧
    (noteBit idx sub b l).mail = l.mail ∧ (noteBit idx sub b l).mram = l.mram ∧ (noteBit idx sub b l).journal = l.journal ∧
    (noteBit idx sub b l).rst = l.rst ∧ (noteBit idx sub b l).mem = l.mem ∧ (noteBit idx sub b l).freeIdx = l.freeIdx :=
  ⟨rfl, rfl, rfl, rfl, rfl, rfl, rfl, rfl, rfl, rfl, rfl, rfl, rfl, rfl, rfl, rfl, rfl, rfl, rfl, rfl, rfl, rfl, rfl, rfl, rfl, rfl, rfl, rfl, rfl, rfl⟩

@[simp] theorem noteBit_acc (idx sub b : Nat) (l : Live) :
    (∀ j, (noteBit idx sub b l).chan j = l.chan j) ∧ (∀ j, (noteBit idx sub b l).tpin j = l.tpin j) ∧
    (∀ j, (noteBit idx sub b l).cluster j = l.cluster j) ∧ (∀ j, (noteBit idx sub b l).group j = l.group j) ∧
    (∀ j, (noteBit idx sub b l).entry j = l.entry j) ∧ (∀ j, (noteBit idx sub b l).queue j = l.queue j) ∧
    (∀ j, (noteBit idx sub b l).wheel j = l.wheel j) ∧ (∀ j, (noteBit idx sub b l).port j = l.port j) ∧
    (∀ j, (noteBit idx sub b l).pair j = l.pair j) ∧ (∀ j, (noteBit idx sub b l).trip j = l.trip j) ∧
    (∀ j, (noteBit idx sub b l).anIn j = l.anIn j) ∧ (∀ j, (noteBit idx sub b l).conv j = l.conv j) ∧
    (∀ j, (noteBit idx sub b l).seq j = l.seq j) ∧ (∀ j, (noteBit idx sub b l).pe j = l.pe j) ∧
    (∀ j, (noteBit idx sub b l).dc j = l.dc j) ∧ (∀ j, (noteBit idx sub b l).irqGroup j = l.irqGroup j) ∧
    (∀ j, (noteBit idx sub b l).bus j = l.bus j) ∧ (∀ j, (noteBit idx sub b l).connSt j = l.connSt j) ∧
    (∀ j, (noteBit idx sub b l).baseVal j = l.baseVal j) ∧ (∀ j, (noteBit idx sub b l).val j = l.val j) ∧
    (noteBit idx sub b l).now = l.now ∧ (∀ i j, (noteBit idx sub b l).cfg i j = l.cfg i j) ∧
    (∀ i j, (noteBit idx sub b l).flag i j = l.flag i j) :=
  ⟨fun _ => rfl, fun _ => rfl, fun _ => rfl, fun _ => rfl, fun _ => rfl, fun _ => rfl, fun _ => rfl, fun _ => rfl, fun _ => rfl, fun _ => rfl, fun _ => rfl, fun _ => rfl, fun _ => rfl, fun _ => rfl, fun _ => rfl, fun _ => rfl, fun _ => rfl, fun _ => rfl, fun _ => rfl, fun _ => rfl, rfl, fun _ _ => rfl, fun _ _ => rfl⟩

/-- A note changes the notes alone. -/
theorem noteFlags_only (k m : Nat) (l : Live) : noteFlags k m l = { l with flagsNow := (noteFlags k m l).flagsNow } := rfl

/-- Where no flag was set in the TCLK, a clearing write clears what it names. -/
@[simp] theorem clearable_none (l : Live) (k v : Nat) (h : l.flagsNow.get 0 k = 0) : clearable l k v = v := by
  simp [clearable, h]

end Sys2Proof.Machine
end

