-- ==== Sys2Proof/Laws/Apply.lean ====
section
/-! SUPPORT. What `State.apply` adds to a command's effect: reports and the snapshot that the command requests. Every other
part of the live device, and the queue, is what the effect made it. -/

namespace Sys2Proof.Machine

open Sys2Proof

theorem settle_only (pre l : Live) : OnlyReports l (settle pre l) := (lossReport_only _ _).trans (errSettle_reports _)

/-- Nothing but the reports, the snapshot controller and the notes of flags set in the TCLK differs. -/
def OnlySettled (l m : Live) : Prop :=
  m = { l with log := m.log, net := m.net, journal := m.journal, snap := m.snap, flagsNow := m.flagsNow }

theorem OnlySettled.trans {a b c : Live} (h : OnlySettled a b) (k : OnlySettled b c) : OnlySettled a c := by
  unfold OnlySettled at *
  rw [k, h]

theorem OnlyReports.settled {l m : Live} (h : OnlyReports l m) : OnlySettled l m := by
  unfold OnlyReports at h
  unfold OnlySettled
  rw [h]

theorem wipeBanks_live (s : State) : OnlySettled s.live (wipeBanks s).live := by
  unfold wipeBanks OnlySettled
  split <;> rfl

theorem settleHold_live (s : State) : OnlySettled s.live (settleHold s).live := by
  unfold settleHold OnlySettled
  dsimp only
  split <;> rfl

theorem seqWrap_live (l : Live) : OnlySettled l (seqWrap l) := by
  unfold seqWrap OnlySettled
  split
  · rw [writeRecord_only]
    rfl
  · rfl

theorem takeSnap_live (pre : Live) (s : State) : OnlySettled s.live (takeSnap pre s).live := by
  have h := seqWrap_live s.live
  unfold OnlySettled at h
  unfold takeSnap OnlySettled
  dsimp only
  rw [h]

theorem settleSnap_live (pre : Live) (s : State) : OnlySettled s.live (settleSnap pre s).live := by
  unfold settleSnap
  split
  · rfl
  · split
    · rfl
    · split
      · rfl
      · exact takeSnap_live pre s

/-- All that applying an effect can add to the effect. -/
theorem apply_only (f : Live → Live) (s : State) : OnlySettled (f s.live) (s.apply f).live := by
  have a : OnlySettled (f s.live) (wipeBanks { s with live := settle s.live (f s.live) }).live :=
    (settle_only _ _).settled.trans (wipeBanks_live { s with live := settle s.live (f s.live) })
  exact (a.trans (settleHold_live _)).trans (settleSnap_live _ _)

@[simp] theorem apply_pending (f : Live → Live) (s : State) : (s.apply f).pending = s.pending := by
  have a : ∀ s : State, (wipeBanks s).pending = s.pending := fun s => by unfold wipeBanks; split <;> rfl
  have b : ∀ s : State, (settleHold s).pending = s.pending := fun s => by unfold settleHold; dsimp only; split <;> rfl
  have c : ∀ p, ∀ s : State, (settleSnap p s).pending = s.pending := fun p s => by
    unfold settleSnap
    split
    · rfl
    · split
      · rfl
      · split
        · rfl
        · rfl
  unfold State.apply
  rw [c, b, a]

/-- A command leaves the values that the TCLK started with (R64). -/
@[simp] theorem apply_start (f : Live → Live) (s : State) : (s.apply f).start = s.start := by
  have a : ∀ s : State, (wipeBanks s).start = s.start := fun s => by unfold wipeBanks; split <;> rfl
  have b : ∀ s : State, (settleHold s).start = s.start := fun s => by unfold settleHold; dsimp only; split <;> rfl
  have c : ∀ p, ∀ s : State, (settleSnap p s).start = s.start := fun p s => by
    unfold settleSnap
    split
    · rfl
    · split
      · rfl
      · split
        · rfl
        · rfl
  unfold State.apply
  rw [c, b, a]

/-- Every part of the live device that applying an effect leaves as the effect made it. -/
@[simp] theorem apply_keeps (f : Live → Live) (s : State) :
    (s.apply f).live.time = (f s.live).time ∧ (s.apply f).live.conf = (f s.live).conf ∧
    (s.apply f).live.groups = (f s.live).groups ∧ (s.apply f).live.channels = (f s.live).channels ∧
    (s.apply f).live.tpins = (f s.live).tpins ∧ (s.apply f).live.clusters = (f s.live).clusters ∧
    (s.apply f).live.micro = (f s.live).micro ∧ (s.apply f).live.events = (f s.live).events ∧
    (s.apply f).live.wheels = (f s.live).wheels ∧ (s.apply f).live.ports = (f s.live).ports ∧
    (s.apply f).live.pairs = (f s.live).pairs ∧ (s.apply f).live.pwm = (f s.live).pwm ∧
    (s.apply f).live.trips = (f s.live).trips ∧ (s.apply f).live.analog = (f s.live).analog ∧
    (s.apply f).live.engines = (f s.live).engines ∧ (s.apply f).live.dma = (f s.live).dma ∧
    (s.apply f).live.dmaLast = (f s.live).dmaLast ∧ (s.apply f).live.dmaPosted = (f s.live).dmaPosted ∧
    (s.apply f).live.irq = (f s.live).irq ∧ (s.apply f).live.doze = (f s.live).doze ∧
    (s.apply f).live.host = (f s.live).host ∧ (s.apply f).live.mail = (f s.live).mail ∧
    (s.apply f).live.mram = (f s.live).mram ∧ (s.apply f).live.rst = (f s.live).rst ∧
    (s.apply f).live.mem = (f s.live).mem ∧ (s.apply f).live.freeIdx = (f s.live).freeIdx := by
  have h := apply_only f s
  unfold OnlySettled at h
  rw [h]
  exact ⟨rfl, rfl, rfl, rfl, rfl, rfl, rfl, rfl, rfl, rfl, rfl, rfl, rfl, rfl, rfl, rfl, rfl, rfl, rfl, rfl, rfl, rfl, rfl, rfl, rfl, rfl⟩

/-- A command whose effect is on the live device answers a next state. -/
theorem ran_next (f : Live → Live) (s : State) : ran f s = .next (s.apply f) := rfl

end Sys2Proof.Machine
end

