-- ==== Sys2Proof/Laws/Access.lean ====
section
/-! SUPPORT. What a request of a connection can change beside the object it reaches, and when it reaches it. -/

namespace Sys2Proof.Machine

open Sys2Proof

theorem updConnSt_only (i : Nat) (f : ConnState → ConnState) (l : Live) :
    l.updConnSt i f = { l with net := (l.updConnSt i f).net } := rfl

theorem touch_only (c : Conn) (l : Live) : touch c l = { l with net := (touch c l).net } := rfl

theorem reply_only (c : Conn) (code : Nat) (l : Live) : reply c code l = { l with net := (reply c code l).net } := rfl

@[simp] theorem reply_done_answer (c : Conn) (l : Live) : ((reply c 0 l).connSt (connId c)).answer = .done := by
  simp [reply, answer, Live.updConnSt, Live.setConnSt, Live.connSt]

/-- A served request that nothing aborts runs the object's rule and is answered by it. -/
theorem onObject_reaches {c : Conn} {idx sub : Nat} (f : Live → Live × Nat) {l : Live} (h : served c l = true)
    (k : writeAbort c idx sub (touch c l) = none) : onObject c idx sub f l = reply c (f (touch c l)).2 (f (touch c l)).1 := by
  simp [onObject, h, k]

/-- The same for a rule that always succeeds. -/
theorem onObject_done {c : Conn} {idx sub : Nat} (f : Live → Live) {l : Live} (h : served c l = true)
    (k : writeAbort c idx sub (touch c l) = none) : onObject c idx sub (done f) l = reply c 0 (f (touch c l)) :=
  onObject_reaches _ h k

/-- A request that is not served changes nothing. -/
theorem onObject_unserved {c : Conn} {idx sub : Nat} (f : Live → Live × Nat) {l : Live} (h : served c l = false) :
    onObject c idx sub f l = l := by
  simp [onObject, h]

@[simp] theorem touch_keeps (c : Conn) (l : Live) :
    (touch c l).time = l.time ∧ (touch c l).snap = l.snap ∧ (touch c l).conf = l.conf ∧
    (touch c l).groups = l.groups ∧ (touch c l).channels = l.channels ∧ (touch c l).tpins = l.tpins ∧
    (touch c l).clusters = l.clusters ∧ (touch c l).micro = l.micro ∧ (touch c l).events = l.events ∧
    (touch c l).wheels = l.wheels ∧ (touch c l).ports = l.ports ∧ (touch c l).pairs = l.pairs ∧
    (touch c l).pwm = l.pwm ∧ (touch c l).trips = l.trips ∧ (touch c l).analog = l.analog ∧
    (touch c l).engines = l.engines ∧ (touch c l).dma = l.dma ∧ (touch c l).log = l.log ∧ (touch c l).irq = l.irq ∧
    (touch c l).doze = l.doze ∧ (touch c l).host = l.host ∧ (touch c l).mail = l.mail ∧ (touch c l).mram = l.mram ∧
    (touch c l).journal = l.journal ∧ (touch c l).rst = l.rst ∧ (touch c l).mem = l.mem ∧
    (touch c l).freeIdx = l.freeIdx :=
  ⟨rfl, rfl, rfl, rfl, rfl, rfl, rfl, rfl, rfl, rfl, rfl, rfl, rfl, rfl, rfl, rfl, rfl, rfl, rfl, rfl, rfl, rfl, rfl, rfl, rfl, rfl, rfl⟩

@[simp] theorem reply_keeps (c : Conn) (code : Nat) (l : Live) :
    (reply c code l).time = l.time ∧ (reply c code l).snap = l.snap ∧ (reply c code l).conf = l.conf ∧
    (reply c code l).groups = l.groups ∧ (reply c code l).channels = l.channels ∧ (reply c code l).tpins = l.tpins ∧
    (reply c code l).clusters = l.clusters ∧ (reply c code l).micro = l.micro ∧ (reply c code l).events = l.events ∧
    (reply c code l).wheels = l.wheels ∧ (reply c code l).ports = l.ports ∧ (reply c code l).pairs = l.pairs ∧
    (reply c code l).pwm = l.pwm ∧ (reply c code l).trips = l.trips ∧ (reply c code l).analog = l.analog ∧
    (reply c code l).engines = l.engines ∧ (reply c code l).dma = l.dma ∧ (reply c code l).log = l.log ∧
    (reply c code l).irq = l.irq ∧ (reply c code l).doze = l.doze ∧ (reply c code l).host = l.host ∧
    (reply c code l).mail = l.mail ∧ (reply c code l).mram = l.mram ∧ (reply c code l).journal = l.journal ∧
    (reply c code l).rst = l.rst ∧ (reply c code l).mem = l.mem ∧ (reply c code l).freeIdx = l.freeIdx :=
  ⟨rfl, rfl, rfl, rfl, rfl, rfl, rfl, rfl, rfl, rfl, rfl, rfl, rfl, rfl, rfl, rfl, rfl, rfl, rfl, rfl, rfl, rfl, rfl, rfl, rfl, rfl, rfl⟩

end Sys2Proof.Machine
end

