-- ==== Sys2Proof/Laws/Accessors.lean ====
section
/-! SUPPORT. The accessors of one kind of unit after a write of another kind: unchanged. -/

namespace Sys2Proof.Machine

open Sys2Proof

@[simp] theorem setChan_acc (l : Live) (i : Nat) (x : Channel) :
    (∀ j, (l.setChan i x).tpin j = l.tpin j) ∧ (∀ j, (l.setChan i x).cluster j = l.cluster j) ∧ (∀ j, (l.setChan i x).group j = l.group j) ∧
    (∀ j, (l.setChan i x).entry j = l.entry j) ∧ (∀ j, (l.setChan i x).queue j = l.queue j) ∧ (∀ j, (l.setChan i x).wheel j = l.wheel j) ∧
    (∀ j, (l.setChan i x).port j = l.port j) ∧ (∀ j, (l.setChan i x).pair j = l.pair j) ∧ (∀ j, (l.setChan i x).trip j = l.trip j) ∧
    (∀ j, (l.setChan i x).anIn j = l.anIn j) ∧ (∀ j, (l.setChan i x).conv j = l.conv j) ∧ (∀ j, (l.setChan i x).seq j = l.seq j) ∧
    (∀ j, (l.setChan i x).pe j = l.pe j) ∧ (∀ j, (l.setChan i x).dc j = l.dc j) ∧ (∀ j, (l.setChan i x).irqGroup j = l.irqGroup j) ∧
    (∀ j, (l.setChan i x).bus j = l.bus j) ∧ (∀ j, (l.setChan i x).connSt j = l.connSt j) ∧ (∀ j, (l.setChan i x).baseVal j = l.baseVal j) ∧
    (∀ j, (l.setChan i x).val j = l.val j) ∧
    (l.setChan i x).now = l.now ∧ (∀ j k, (l.setChan i x).cfg j k = l.cfg j k) ∧ (∀ j k, (l.setChan i x).flag j k = l.flag j k) :=
  ⟨fun _ => rfl, fun _ => rfl, fun _ => rfl, fun _ => rfl, fun _ => rfl, fun _ => rfl, fun _ => rfl, fun _ => rfl, fun _ => rfl, fun _ => rfl, fun _ => rfl, fun _ => rfl, fun _ => rfl, fun _ => rfl, fun _ => rfl, fun _ => rfl, fun _ => rfl, fun _ => rfl, fun _ => rfl, rfl, fun _ _ => rfl, fun _ _ => rfl⟩

@[simp] theorem updChan_acc (l : Live) (i : Nat) (x : Channel → Channel) :
    (∀ j, (l.updChan i x).tpin j = l.tpin j) ∧ (∀ j, (l.updChan i x).cluster j = l.cluster j) ∧ (∀ j, (l.updChan i x).group j = l.group j) ∧
    (∀ j, (l.updChan i x).entry j = l.entry j) ∧ (∀ j, (l.updChan i x).queue j = l.queue j) ∧ (∀ j, (l.updChan i x).wheel j = l.wheel j) ∧
    (∀ j, (l.updChan i x).port j = l.port j) ∧ (∀ j, (l.updChan i x).pair j = l.pair j) ∧ (∀ j, (l.updChan i x).trip j = l.trip j) ∧
    (∀ j, (l.updChan i x).anIn j = l.anIn j) ∧ (∀ j, (l.updChan i x).conv j = l.conv j) ∧ (∀ j, (l.updChan i x).seq j = l.seq j) ∧
    (∀ j, (l.updChan i x).pe j = l.pe j) ∧ (∀ j, (l.updChan i x).dc j = l.dc j) ∧ (∀ j, (l.updChan i x).irqGroup j = l.irqGroup j) ∧
    (∀ j, (l.updChan i x).bus j = l.bus j) ∧ (∀ j, (l.updChan i x).connSt j = l.connSt j) ∧ (∀ j, (l.updChan i x).baseVal j = l.baseVal j) ∧
    (∀ j, (l.updChan i x).val j = l.val j) ∧
    (l.updChan i x).now = l.now ∧ (∀ j k, (l.updChan i x).cfg j k = l.cfg j k) ∧ (∀ j k, (l.updChan i x).flag j k = l.flag j k) :=
  ⟨fun _ => rfl, fun _ => rfl, fun _ => rfl, fun _ => rfl, fun _ => rfl, fun _ => rfl, fun _ => rfl, fun _ => rfl, fun _ => rfl, fun _ => rfl, fun _ => rfl, fun _ => rfl, fun _ => rfl, fun _ => rfl, fun _ => rfl, fun _ => rfl, fun _ => rfl, fun _ => rfl, fun _ => rfl, rfl, fun _ _ => rfl, fun _ _ => rfl⟩

@[simp] theorem setTpin_acc (l : Live) (i : Nat) (x : TPin) :
    (∀ j, (l.setTpin i x).chan j = l.chan j) ∧ (∀ j, (l.setTpin i x).cluster j = l.cluster j) ∧ (∀ j, (l.setTpin i x).group j = l.group j) ∧
    (∀ j, (l.setTpin i x).entry j = l.entry j) ∧ (∀ j, (l.setTpin i x).queue j = l.queue j) ∧ (∀ j, (l.setTpin i x).wheel j = l.wheel j) ∧
    (∀ j, (l.setTpin i x).port j = l.port j) ∧ (∀ j, (l.setTpin i x).pair j = l.pair j) ∧ (∀ j, (l.setTpin i x).trip j = l.trip j) ∧
    (∀ j, (l.setTpin i x).anIn j = l.anIn j) ∧ (∀ j, (l.setTpin i x).conv j = l.conv j) ∧ (∀ j, (l.setTpin i x).seq j = l.seq j) ∧
    (∀ j, (l.setTpin i x).pe j = l.pe j) ∧ (∀ j, (l.setTpin i x).dc j = l.dc j) ∧ (∀ j, (l.setTpin i x).irqGroup j = l.irqGroup j) ∧
    (∀ j, (l.setTpin i x).bus j = l.bus j) ∧ (∀ j, (l.setTpin i x).connSt j = l.connSt j) ∧ (∀ j, (l.setTpin i x).baseVal j = l.baseVal j) ∧
    (∀ j, (l.setTpin i x).val j = l.val j) ∧
    (l.setTpin i x).now = l.now ∧ (∀ j k, (l.setTpin i x).cfg j k = l.cfg j k) ∧ (∀ j k, (l.setTpin i x).flag j k = l.flag j k) :=
  ⟨fun _ => rfl, fun _ => rfl, fun _ => rfl, fun _ => rfl, fun _ => rfl, fun _ => rfl, fun _ => rfl, fun _ => rfl, fun _ => rfl, fun _ => rfl, fun _ => rfl, fun _ => rfl, fun _ => rfl, fun _ => rfl, fun _ => rfl, fun _ => rfl, fun _ => rfl, fun _ => rfl, fun _ => rfl, rfl, fun _ _ => rfl, fun _ _ => rfl⟩

@[simp] theorem updTpin_acc (l : Live) (i : Nat) (x : TPin → TPin) :
    (∀ j, (l.updTpin i x).chan j = l.chan j) ∧ (∀ j, (l.updTpin i x).cluster j = l.cluster j) ∧ (∀ j, (l.updTpin i x).group j = l.group j) ∧
    (∀ j, (l.updTpin i x).entry j = l.entry j) ∧ (∀ j, (l.updTpin i x).queue j = l.queue j) ∧ (∀ j, (l.updTpin i x).wheel j = l.wheel j) ∧
    (∀ j, (l.updTpin i x).port j = l.port j) ∧ (∀ j, (l.updTpin i x).pair j = l.pair j) ∧ (∀ j, (l.updTpin i x).trip j = l.trip j) ∧
    (∀ j, (l.updTpin i x).anIn j = l.anIn j) ∧ (∀ j, (l.updTpin i x).conv j = l.conv j) ∧ (∀ j, (l.updTpin i x).seq j = l.seq j) ∧
    (∀ j, (l.updTpin i x).pe j = l.pe j) ∧ (∀ j, (l.updTpin i x).dc j = l.dc j) ∧ (∀ j, (l.updTpin i x).irqGroup j = l.irqGroup j) ∧
    (∀ j, (l.updTpin i x).bus j = l.bus j) ∧ (∀ j, (l.updTpin i x).connSt j = l.connSt j) ∧ (∀ j, (l.updTpin i x).baseVal j = l.baseVal j) ∧
    (∀ j, (l.updTpin i x).val j = l.val j) ∧
    (l.updTpin i x).now = l.now ∧ (∀ j k, (l.updTpin i x).cfg j k = l.cfg j k) ∧ (∀ j k, (l.updTpin i x).flag j k = l.flag j k) :=
  ⟨fun _ => rfl, fun _ => rfl, fun _ => rfl, fun _ => rfl, fun _ => rfl, fun _ => rfl, fun _ => rfl, fun _ => rfl, fun _ => rfl, fun _ => rfl, fun _ => rfl, fun _ => rfl, fun _ => rfl, fun _ => rfl, fun _ => rfl, fun _ => rfl, fun _ => rfl, fun _ => rfl, fun _ => rfl, rfl, fun _ _ => rfl, fun _ _ => rfl⟩

@[simp] theorem setCluster_acc (l : Live) (i : Nat) (x : Cluster) :
    (∀ j, (l.setCluster i x).chan j = l.chan j) ∧ (∀ j, (l.setCluster i x).tpin j = l.tpin j) ∧ (∀ j, (l.setCluster i x).group j = l.group j) ∧
    (∀ j, (l.setCluster i x).entry j = l.entry j) ∧ (∀ j, (l.setCluster i x).queue j = l.queue j) ∧ (∀ j, (l.setCluster i x).wheel j = l.wheel j) ∧
    (∀ j, (l.setCluster i x).port j = l.port j) ∧ (∀ j, (l.setCluster i x).pair j = l.pair j) ∧ (∀ j, (l.setCluster i x).trip j = l.trip j) ∧
    (∀ j, (l.setCluster i x).anIn j = l.anIn j) ∧ (∀ j, (l.setCluster i x).conv j = l.conv j) ∧ (∀ j, (l.setCluster i x).seq j = l.seq j) ∧
    (∀ j, (l.setCluster i x).pe j = l.pe j) ∧ (∀ j, (l.setCluster i x).dc j = l.dc j) ∧ (∀ j, (l.setCluster i x).irqGroup j = l.irqGroup j) ∧
    (∀ j, (l.setCluster i x).bus j = l.bus j) ∧ (∀ j, (l.setCluster i x).connSt j = l.connSt j) ∧ (∀ j, (l.setCluster i x).baseVal j = l.baseVal j) ∧
    (∀ j, (l.setCluster i x).val j = l.val j) ∧
    (l.setCluster i x).now = l.now ∧ (∀ j k, (l.setCluster i x).cfg j k = l.cfg j k) ∧ (∀ j k, (l.setCluster i x).flag j k = l.flag j k) :=
  ⟨fun _ => rfl, fun _ => rfl, fun _ => rfl, fun _ => rfl, fun _ => rfl, fun _ => rfl, fun _ => rfl, fun _ => rfl, fun _ => rfl, fun _ => rfl, fun _ => rfl, fun _ => rfl, fun _ => rfl, fun _ => rfl, fun _ => rfl, fun _ => rfl, fun _ => rfl, fun _ => rfl, fun _ => rfl, rfl, fun _ _ => rfl, fun _ _ => rfl⟩

@[simp] theorem updCluster_acc (l : Live) (i : Nat) (x : Cluster → Cluster) :
    (∀ j, (l.updCluster i x).chan j = l.chan j) ∧ (∀ j, (l.updCluster i x).tpin j = l.tpin j) ∧ (∀ j, (l.updCluster i x).group j = l.group j) ∧
    (∀ j, (l.updCluster i x).entry j = l.entry j) ∧ (∀ j, (l.updCluster i x).queue j = l.queue j) ∧ (∀ j, (l.updCluster i x).wheel j = l.wheel j) ∧
    (∀ j, (l.updCluster i x).port j = l.port j) ∧ (∀ j, (l.updCluster i x).pair j = l.pair j) ∧ (∀ j, (l.updCluster i x).trip j = l.trip j) ∧
    (∀ j, (l.updCluster i x).anIn j = l.anIn j) ∧ (∀ j, (l.updCluster i x).conv j = l.conv j) ∧ (∀ j, (l.updCluster i x).seq j = l.seq j) ∧
    (∀ j, (l.updCluster i x).pe j = l.pe j) ∧ (∀ j, (l.updCluster i x).dc j = l.dc j) ∧ (∀ j, (l.updCluster i x).irqGroup j = l.irqGroup j) ∧
    (∀ j, (l.updCluster i x).bus j = l.bus j) ∧ (∀ j, (l.updCluster i x).connSt j = l.connSt j) ∧ (∀ j, (l.updCluster i x).baseVal j = l.baseVal j) ∧
    (∀ j, (l.updCluster i x).val j = l.val j) ∧
    (l.updCluster i x).now = l.now ∧ (∀ j k, (l.updCluster i x).cfg j k = l.cfg j k) ∧ (∀ j k, (l.updCluster i x).flag j k = l.flag j k) :=
  ⟨fun _ => rfl, fun _ => rfl, fun _ => rfl, fun _ => rfl, fun _ => rfl, fun _ => rfl, fun _ => rfl, fun _ => rfl, fun _ => rfl, fun _ => rfl, fun _ => rfl, fun _ => rfl, fun _ => rfl, fun _ => rfl, fun _ => rfl, fun _ => rfl, fun _ => rfl, fun _ => rfl, fun _ => rfl, rfl, fun _ _ => rfl, fun _ _ => rfl⟩

@[simp] theorem setGroup_acc (l : Live) (i : Nat) (x : Group) :
    (∀ j, (l.setGroup i x).chan j = l.chan j) ∧ (∀ j, (l.setGroup i x).tpin j = l.tpin j) ∧ (∀ j, (l.setGroup i x).cluster j = l.cluster j) ∧
    (∀ j, (l.setGroup i x).entry j = l.entry j) ∧ (∀ j, (l.setGroup i x).queue j = l.queue j) ∧ (∀ j, (l.setGroup i x).wheel j = l.wheel j) ∧
    (∀ j, (l.setGroup i x).port j = l.port j) ∧ (∀ j, (l.setGroup i x).pair j = l.pair j) ∧ (∀ j, (l.setGroup i x).trip j = l.trip j) ∧
    (∀ j, (l.setGroup i x).anIn j = l.anIn j) ∧ (∀ j, (l.setGroup i x).conv j = l.conv j) ∧ (∀ j, (l.setGroup i x).seq j = l.seq j) ∧
    (∀ j, (l.setGroup i x).pe j = l.pe j) ∧ (∀ j, (l.setGroup i x).dc j = l.dc j) ∧ (∀ j, (l.setGroup i x).irqGroup j = l.irqGroup j) ∧
    (∀ j, (l.setGroup i x).bus j = l.bus j) ∧ (∀ j, (l.setGroup i x).connSt j = l.connSt j) ∧ (∀ j, (l.setGroup i x).baseVal j = l.baseVal j) ∧
    (∀ j, (l.setGroup i x).val j = l.val j) ∧
    (l.setGroup i x).now = l.now ∧ (∀ j k, (l.setGroup i x).cfg j k = l.cfg j k) ∧ (∀ j k, (l.setGroup i x).flag j k = l.flag j k) :=
  ⟨fun _ => rfl, fun _ => rfl, fun _ => rfl, fun _ => rfl, fun _ => rfl, fun _ => rfl, fun _ => rfl, fun _ => rfl, fun _ => rfl, fun _ => rfl, fun _ => rfl, fun _ => rfl, fun _ => rfl, fun _ => rfl, fun _ => rfl, fun _ => rfl, fun _ => rfl, fun _ => rfl, fun _ => rfl, rfl, fun _ _ => rfl, fun _ _ => rfl⟩

@[simp] theorem updGroup_acc (l : Live) (i : Nat) (x : Group → Group) :
    (∀ j, (l.updGroup i x).chan j = l.chan j) ∧ (∀ j, (l.updGroup i x).tpin j = l.tpin j) ∧ (∀ j, (l.updGroup i x).cluster j = l.cluster j) ∧
    (∀ j, (l.updGroup i x).entry j = l.entry j) ∧ (∀ j, (l.updGroup i x).queue j = l.queue j) ∧ (∀ j, (l.updGroup i x).wheel j = l.wheel j) ∧
    (∀ j, (l.updGroup i x).port j = l.port j) ∧ (∀ j, (l.updGroup i x).pair j = l.pair j) ∧ (∀ j, (l.updGroup i x).trip j = l.trip j) ∧
    (∀ j, (l.updGroup i x).anIn j = l.anIn j) ∧ (∀ j, (l.updGroup i x).conv j = l.conv j) ∧ (∀ j, (l.updGroup i x).seq j = l.seq j) ∧
    (∀ j, (l.updGroup i x).pe j = l.pe j) ∧ (∀ j, (l.updGroup i x).dc j = l.dc j) ∧ (∀ j, (l.updGroup i x).irqGroup j = l.irqGroup j) ∧
    (∀ j, (l.updGroup i x).bus j = l.bus j) ∧ (∀ j, (l.updGroup i x).connSt j = l.connSt j) ∧ (∀ j, (l.updGroup i x).baseVal j = l.baseVal j) ∧
    (∀ j, (l.updGroup i x).val j = l.val j) ∧
    (l.updGroup i x).now = l.now ∧ (∀ j k, (l.updGroup i x).cfg j k = l.cfg j k) ∧ (∀ j k, (l.updGroup i x).flag j k = l.flag j k) :=
  ⟨fun _ => rfl, fun _ => rfl, fun _ => rfl, fun _ => rfl, fun _ => rfl, fun _ => rfl, fun _ => rfl, fun _ => rfl, fun _ => rfl, fun _ => rfl, fun _ => rfl, fun _ => rfl, fun _ => rfl, fun _ => rfl, fun _ => rfl, fun _ => rfl, fun _ => rfl, fun _ => rfl, fun _ => rfl, rfl, fun _ _ => rfl, fun _ _ => rfl⟩

@[simp] theorem setEntry_acc (l : Live) (i : Nat) (x : EvEntry) :
    (∀ j, (l.setEntry i x).chan j = l.chan j) ∧ (∀ j, (l.setEntry i x).tpin j = l.tpin j) ∧ (∀ j, (l.setEntry i x).cluster j = l.cluster j) ∧
    (∀ j, (l.setEntry i x).group j = l.group j) ∧ (∀ j, (l.setEntry i x).queue j = l.queue j) ∧ (∀ j, (l.setEntry i x).wheel j = l.wheel j) ∧
    (∀ j, (l.setEntry i x).port j = l.port j) ∧ (∀ j, (l.setEntry i x).pair j = l.pair j) ∧ (∀ j, (l.setEntry i x).trip j = l.trip j) ∧
    (∀ j, (l.setEntry i x).anIn j = l.anIn j) ∧ (∀ j, (l.setEntry i x).conv j = l.conv j) ∧ (∀ j, (l.setEntry i x).seq j = l.seq j) ∧
    (∀ j, (l.setEntry i x).pe j = l.pe j) ∧ (∀ j, (l.setEntry i x).dc j = l.dc j) ∧ (∀ j, (l.setEntry i x).irqGroup j = l.irqGroup j) ∧
    (∀ j, (l.setEntry i x).bus j = l.bus j) ∧ (∀ j, (l.setEntry i x).connSt j = l.connSt j) ∧ (∀ j, (l.setEntry i x).baseVal j = l.baseVal j) ∧
    (∀ j, (l.setEntry i x).val j = l.val j) ∧
    (l.setEntry i x).now = l.now ∧ (∀ j k, (l.setEntry i x).cfg j k = l.cfg j k) ∧ (∀ j k, (l.setEntry i x).flag j k = l.flag j k) :=
  ⟨fun _ => rfl, fun _ => rfl, fun _ => rfl, fun _ => rfl, fun _ => rfl, fun _ => rfl, fun _ => rfl, fun _ => rfl, fun _ => rfl, fun _ => rfl, fun _ => rfl, fun _ => rfl, fun _ => rfl, fun _ => rfl, fun _ => rfl, fun _ => rfl, fun _ => rfl, fun _ => rfl, fun _ => rfl, rfl, fun _ _ => rfl, fun _ _ => rfl⟩

@[simp] theorem updEntry_acc (l : Live) (i : Nat) (x : EvEntry → EvEntry) :
    (∀ j, (l.updEntry i x).chan j = l.chan j) ∧ (∀ j, (l.updEntry i x).tpin j = l.tpin j) ∧ (∀ j, (l.updEntry i x).cluster j = l.cluster j) ∧
    (∀ j, (l.updEntry i x).group j = l.group j) ∧ (∀ j, (l.updEntry i x).queue j = l.queue j) ∧ (∀ j, (l.updEntry i x).wheel j = l.wheel j) ∧
    (∀ j, (l.updEntry i x).port j = l.port j) ∧ (∀ j, (l.updEntry i x).pair j = l.pair j) ∧ (∀ j, (l.updEntry i x).trip j = l.trip j) ∧
    (∀ j, (l.updEntry i x).anIn j = l.anIn j) ∧ (∀ j, (l.updEntry i x).conv j = l.conv j) ∧ (∀ j, (l.updEntry i x).seq j = l.seq j) ∧
    (∀ j, (l.updEntry i x).pe j = l.pe j) ∧ (∀ j, (l.updEntry i x).dc j = l.dc j) ∧ (∀ j, (l.updEntry i x).irqGroup j = l.irqGroup j) ∧
    (∀ j, (l.updEntry i x).bus j = l.bus j) ∧ (∀ j, (l.updEntry i x).connSt j = l.connSt j) ∧ (∀ j, (l.updEntry i x).baseVal j = l.baseVal j) ∧
    (∀ j, (l.updEntry i x).val j = l.val j) ∧
    (l.updEntry i x).now = l.now ∧ (∀ j k, (l.updEntry i x).cfg j k = l.cfg j k) ∧ (∀ j k, (l.updEntry i x).flag j k = l.flag j k) :=
  ⟨fun _ => rfl, fun _ => rfl, fun _ => rfl, fun _ => rfl, fun _ => rfl, fun _ => rfl, fun _ => rfl, fun _ => rfl, fun _ => rfl, fun _ => rfl, fun _ => rfl, fun _ => rfl, fun _ => rfl, fun _ => rfl, fun _ => rfl, fun _ => rfl, fun _ => rfl, fun _ => rfl, fun _ => rfl, rfl, fun _ _ => rfl, fun _ _ => rfl⟩

@[simp] theorem setQueue_acc (l : Live) (i : Nat) (x : EvQueue) :
    (∀ j, (l.setQueue i x).chan j = l.chan j) ∧ (∀ j, (l.setQueue i x).tpin j = l.tpin j) ∧ (∀ j, (l.setQueue i x).cluster j = l.cluster j) ∧
    (∀ j, (l.setQueue i x).group j = l.group j) ∧ (∀ j, (l.setQueue i x).entry j = l.entry j) ∧ (∀ j, (l.setQueue i x).wheel j = l.wheel j) ∧
    (∀ j, (l.setQueue i x).port j = l.port j) ∧ (∀ j, (l.setQueue i x).pair j = l.pair j) ∧ (∀ j, (l.setQueue i x).trip j = l.trip j) ∧
    (∀ j, (l.setQueue i x).anIn j = l.anIn j) ∧ (∀ j, (l.setQueue i x).conv j = l.conv j) ∧ (∀ j, (l.setQueue i x).seq j = l.seq j) ∧
    (∀ j, (l.setQueue i x).pe j = l.pe j) ∧ (∀ j, (l.setQueue i x).dc j = l.dc j) ∧ (∀ j, (l.setQueue i x).irqGroup j = l.irqGroup j) ∧
    (∀ j, (l.setQueue i x).bus j = l.bus j) ∧ (∀ j, (l.setQueue i x).connSt j = l.connSt j) ∧ (∀ j, (l.setQueue i x).baseVal j = l.baseVal j) ∧
    (∀ j, (l.setQueue i x).val j = l.val j) ∧
    (l.setQueue i x).now = l.now ∧ (∀ j k, (l.setQueue i x).cfg j k = l.cfg j k) ∧ (∀ j k, (l.setQueue i x).flag j k = l.flag j k) :=
  ⟨fun _ => rfl, fun _ => rfl, fun _ => rfl, fun _ => rfl, fun _ => rfl, fun _ => rfl, fun _ => rfl, fun _ => rfl, fun _ => rfl, fun _ => rfl, fun _ => rfl, fun _ => rfl, fun _ => rfl, fun _ => rfl, fun _ => rfl, fun _ => rfl, fun _ => rfl, fun _ => rfl, fun _ => rfl, rfl, fun _ _ => rfl, fun _ _ => rfl⟩

@[simp] theorem updQueue_acc (l : Live) (i : Nat) (x : EvQueue → EvQueue) :
    (∀ j, (l.updQueue i x).chan j = l.chan j) ∧ (∀ j, (l.updQueue i x).tpin j = l.tpin j) ∧ (∀ j, (l.updQueue i x).cluster j = l.cluster j) ∧
    (∀ j, (l.updQueue i x).group j = l.group j) ∧ (∀ j, (l.updQueue i x).entry j = l.entry j) ∧ (∀ j, (l.updQueue i x).wheel j = l.wheel j) ∧
    (∀ j, (l.updQueue i x).port j = l.port j) ∧ (∀ j, (l.updQueue i x).pair j = l.pair j) ∧ (∀ j, (l.updQueue i x).trip j = l.trip j) ∧
    (∀ j, (l.updQueue i x).anIn j = l.anIn j) ∧ (∀ j, (l.updQueue i x).conv j = l.conv j) ∧ (∀ j, (l.updQueue i x).seq j = l.seq j) ∧
    (∀ j, (l.updQueue i x).pe j = l.pe j) ∧ (∀ j, (l.updQueue i x).dc j = l.dc j) ∧ (∀ j, (l.updQueue i x).irqGroup j = l.irqGroup j) ∧
    (∀ j, (l.updQueue i x).bus j = l.bus j) ∧ (∀ j, (l.updQueue i x).connSt j = l.connSt j) ∧ (∀ j, (l.updQueue i x).baseVal j = l.baseVal j) ∧
    (∀ j, (l.updQueue i x).val j = l.val j) ∧
    (l.updQueue i x).now = l.now ∧ (∀ j k, (l.updQueue i x).cfg j k = l.cfg j k) ∧ (∀ j k, (l.updQueue i x).flag j k = l.flag j k) :=
  ⟨fun _ => rfl, fun _ => rfl, fun _ => rfl, fun _ => rfl, fun _ => rfl, fun _ => rfl, fun _ => rfl, fun _ => rfl, fun _ => rfl, fun _ => rfl, fun _ => rfl, fun _ => rfl, fun _ => rfl, fun _ => rfl, fun _ => rfl, fun _ => rfl, fun _ => rfl, fun _ => rfl, fun _ => rfl, rfl, fun _ _ => rfl, fun _ _ => rfl⟩

@[simp] theorem setWheel_acc (l : Live) (i : Nat) (x : Wheel) :
    (∀ j, (l.setWheel i x).chan j = l.chan j) ∧ (∀ j, (l.setWheel i x).tpin j = l.tpin j) ∧ (∀ j, (l.setWheel i x).cluster j = l.cluster j) ∧
    (∀ j, (l.setWheel i x).group j = l.group j) ∧ (∀ j, (l.setWheel i x).entry j = l.entry j) ∧ (∀ j, (l.setWheel i x).queue j = l.queue j) ∧
    (∀ j, (l.setWheel i x).port j = l.port j) ∧ (∀ j, (l.setWheel i x).pair j = l.pair j) ∧ (∀ j, (l.setWheel i x).trip j = l.trip j) ∧
    (∀ j, (l.setWheel i x).anIn j = l.anIn j) ∧ (∀ j, (l.setWheel i x).conv j = l.conv j) ∧ (∀ j, (l.setWheel i x).seq j = l.seq j) ∧
    (∀ j, (l.setWheel i x).pe j = l.pe j) ∧ (∀ j, (l.setWheel i x).dc j = l.dc j) ∧ (∀ j, (l.setWheel i x).irqGroup j = l.irqGroup j) ∧
    (∀ j, (l.setWheel i x).bus j = l.bus j) ∧ (∀ j, (l.setWheel i x).connSt j = l.connSt j) ∧ (∀ j, (l.setWheel i x).baseVal j = l.baseVal j) ∧
    (∀ j, (l.setWheel i x).val j = l.val j) ∧
    (l.setWheel i x).now = l.now ∧ (∀ j k, (l.setWheel i x).cfg j k = l.cfg j k) ∧ (∀ j k, (l.setWheel i x).flag j k = l.flag j k) :=
  ⟨fun _ => rfl, fun _ => rfl, fun _ => rfl, fun _ => rfl, fun _ => rfl, fun _ => rfl, fun _ => rfl, fun _ => rfl, fun _ => rfl, fun _ => rfl, fun _ => rfl, fun _ => rfl, fun _ => rfl, fun _ => rfl, fun _ => rfl, fun _ => rfl, fun _ => rfl, fun _ => rfl, fun _ => rfl, rfl, fun _ _ => rfl, fun _ _ => rfl⟩

@[simp] theorem updWheel_acc (l : Live) (i : Nat) (x : Wheel → Wheel) :
    (∀ j, (l.updWheel i x).chan j = l.chan j) ∧ (∀ j, (l.updWheel i x).tpin j = l.tpin j) ∧ (∀ j, (l.updWheel i x).cluster j = l.cluster j) ∧
    (∀ j, (l.updWheel i x).group j = l.group j) ∧ (∀ j, (l.updWheel i x).entry j = l.entry j) ∧ (∀ j, (l.updWheel i x).queue j = l.queue j) ∧
    (∀ j, (l.updWheel i x).port j = l.port j) ∧ (∀ j, (l.updWheel i x).pair j = l.pair j) ∧ (∀ j, (l.updWheel i x).trip j = l.trip j) ∧
    (∀ j, (l.updWheel i x).anIn j = l.anIn j) ∧ (∀ j, (l.updWheel i x).conv j = l.conv j) ∧ (∀ j, (l.updWheel i x).seq j = l.seq j) ∧
    (∀ j, (l.updWheel i x).pe j = l.pe j) ∧ (∀ j, (l.updWheel i x).dc j = l.dc j) ∧ (∀ j, (l.updWheel i x).irqGroup j = l.irqGroup j) ∧
    (∀ j, (l.updWheel i x).bus j = l.bus j) ∧ (∀ j, (l.updWheel i x).connSt j = l.connSt j) ∧ (∀ j, (l.updWheel i x).baseVal j = l.baseVal j) ∧
    (∀ j, (l.updWheel i x).val j = l.val j) ∧
    (l.updWheel i x).now = l.now ∧ (∀ j k, (l.updWheel i x).cfg j k = l.cfg j k) ∧ (∀ j k, (l.updWheel i x).flag j k = l.flag j k) :=
  ⟨fun _ => rfl, fun _ => rfl, fun _ => rfl, fun _ => rfl, fun _ => rfl, fun _ => rfl, fun _ => rfl, fun _ => rfl, fun _ => rfl, fun _ => rfl, fun _ => rfl, fun _ => rfl, fun _ => rfl, fun _ => rfl, fun _ => rfl, fun _ => rfl, fun _ => rfl, fun _ => rfl, fun _ => rfl, rfl, fun _ _ => rfl, fun _ _ => rfl⟩

@[simp] theorem setPort_acc (l : Live) (i : Nat) (x : Port) :
    (∀ j, (l.setPort i x).chan j = l.chan j) ∧ (∀ j, (l.setPort i x).tpin j = l.tpin j) ∧ (∀ j, (l.setPort i x).cluster j = l.cluster j) ∧
    (∀ j, (l.setPort i x).group j = l.group j) ∧ (∀ j, (l.setPort i x).entry j = l.entry j) ∧ (∀ j, (l.setPort i x).queue j = l.queue j) ∧
    (∀ j, (l.setPort i x).wheel j = l.wheel j) ∧ (∀ j, (l.setPort i x).pair j = l.pair j) ∧ (∀ j, (l.setPort i x).trip j = l.trip j) ∧
    (∀ j, (l.setPort i x).anIn j = l.anIn j) ∧ (∀ j, (l.setPort i x).conv j = l.conv j) ∧ (∀ j, (l.setPort i x).seq j = l.seq j) ∧
    (∀ j, (l.setPort i x).pe j = l.pe j) ∧ (∀ j, (l.setPort i x).dc j = l.dc j) ∧ (∀ j, (l.setPort i x).irqGroup j = l.irqGroup j) ∧
    (∀ j, (l.setPort i x).bus j = l.bus j) ∧ (∀ j, (l.setPort i x).connSt j = l.connSt j) ∧ (∀ j, (l.setPort i x).baseVal j = l.baseVal j) ∧
    (∀ j, (l.setPort i x).val j = l.val j) ∧
    (l.setPort i x).now = l.now ∧ (∀ j k, (l.setPort i x).cfg j k = l.cfg j k) ∧ (∀ j k, (l.setPort i x).flag j k = l.flag j k) :=
  ⟨fun _ => rfl, fun _ => rfl, fun _ => rfl, fun _ => rfl, fun _ => rfl, fun _ => rfl, fun _ => rfl, fun _ => rfl, fun _ => rfl, fun _ => rfl, fun _ => rfl, fun _ => rfl, fun _ => rfl, fun _ => rfl, fun _ => rfl, fun _ => rfl, fun _ => rfl, fun _ => rfl, fun _ => rfl, rfl, fun _ _ => rfl, fun _ _ => rfl⟩

@[simp] theorem updPort_acc (l : Live) (i : Nat) (x : Port → Port) :
    (∀ j, (l.updPort i x).chan j = l.chan j) ∧ (∀ j, (l.updPort i x).tpin j = l.tpin j) ∧ (∀ j, (l.updPort i x).cluster j = l.cluster j) ∧
    (∀ j, (l.updPort i x).group j = l.group j) ∧ (∀ j, (l.updPort i x).entry j = l.entry j) ∧ (∀ j, (l.updPort i x).queue j = l.queue j) ∧
    (∀ j, (l.updPort i x).wheel j = l.wheel j) ∧ (∀ j, (l.updPort i x).pair j = l.pair j) ∧ (∀ j, (l.updPort i x).trip j = l.trip j) ∧
    (∀ j, (l.updPort i x).anIn j = l.anIn j) ∧ (∀ j, (l.updPort i x).conv j = l.conv j) ∧ (∀ j, (l.updPort i x).seq j = l.seq j) ∧
    (∀ j, (l.updPort i x).pe j = l.pe j) ∧ (∀ j, (l.updPort i x).dc j = l.dc j) ∧ (∀ j, (l.updPort i x).irqGroup j = l.irqGroup j) ∧
    (∀ j, (l.updPort i x).bus j = l.bus j) ∧ (∀ j, (l.updPort i x).connSt j = l.connSt j) ∧ (∀ j, (l.updPort i x).baseVal j = l.baseVal j) ∧
    (∀ j, (l.updPort i x).val j = l.val j) ∧
    (l.updPort i x).now = l.now ∧ (∀ j k, (l.updPort i x).cfg j k = l.cfg j k) ∧ (∀ j k, (l.updPort i x).flag j k = l.flag j k) :=
  ⟨fun _ => rfl, fun _ => rfl, fun _ => rfl, fun _ => rfl, fun _ => rfl, fun _ => rfl, fun _ => rfl, fun _ => rfl, fun _ => rfl, fun _ => rfl, fun _ => rfl, fun _ => rfl, fun _ => rfl, fun _ => rfl, fun _ => rfl, fun _ => rfl, fun _ => rfl, fun _ => rfl, fun _ => rfl, rfl, fun _ _ => rfl, fun _ _ => rfl⟩

@[simp] theorem setPair_acc (l : Live) (i : Nat) (x : Pair) :
    (∀ j, (l.setPair i x).chan j = l.chan j) ∧ (∀ j, (l.setPair i x).tpin j = l.tpin j) ∧ (∀ j, (l.setPair i x).cluster j = l.cluster j) ∧
    (∀ j, (l.setPair i x).group j = l.group j) ∧ (∀ j, (l.setPair i x).entry j = l.entry j) ∧ (∀ j, (l.setPair i x).queue j = l.queue j) ∧
    (∀ j, (l.setPair i x).wheel j = l.wheel j) ∧ (∀ j, (l.setPair i x).port j = l.port j) ∧ (∀ j, (l.setPair i x).trip j = l.trip j) ∧
    (∀ j, (l.setPair i x).anIn j = l.anIn j) ∧ (∀ j, (l.setPair i x).conv j = l.conv j) ∧ (∀ j, (l.setPair i x).seq j = l.seq j) ∧
    (∀ j, (l.setPair i x).pe j = l.pe j) ∧ (∀ j, (l.setPair i x).dc j = l.dc j) ∧ (∀ j, (l.setPair i x).irqGroup j = l.irqGroup j) ∧
    (∀ j, (l.setPair i x).bus j = l.bus j) ∧ (∀ j, (l.setPair i x).connSt j = l.connSt j) ∧ (∀ j, (l.setPair i x).baseVal j = l.baseVal j) ∧
    (∀ j, (l.setPair i x).val j = l.val j) ∧
    (l.setPair i x).now = l.now ∧ (∀ j k, (l.setPair i x).cfg j k = l.cfg j k) ∧ (∀ j k, (l.setPair i x).flag j k = l.flag j k) :=
  ⟨fun _ => rfl, fun _ => rfl, fun _ => rfl, fun _ => rfl, fun _ => rfl, fun _ => rfl, fun _ => rfl, fun _ => rfl, fun _ => rfl, fun _ => rfl, fun _ => rfl, fun _ => rfl, fun _ => rfl, fun _ => rfl, fun _ => rfl, fun _ => rfl, fun _ => rfl, fun _ => rfl, fun _ => rfl, rfl, fun _ _ => rfl, fun _ _ => rfl⟩

@[simp] theorem updPair_acc (l : Live) (i : Nat) (x : Pair → Pair) :
    (∀ j, (l.updPair i x).chan j = l.chan j) ∧ (∀ j, (l.updPair i x).tpin j = l.tpin j) ∧ (∀ j, (l.updPair i x).cluster j = l.cluster j) ∧
    (∀ j, (l.updPair i x).group j = l.group j) ∧ (∀ j, (l.updPair i x).entry j = l.entry j) ∧ (∀ j, (l.updPair i x).queue j = l.queue j) ∧
    (∀ j, (l.updPair i x).wheel j = l.wheel j) ∧ (∀ j, (l.updPair i x).port j = l.port j) ∧ (∀ j, (l.updPair i x).trip j = l.trip j) ∧
    (∀ j, (l.updPair i x).anIn j = l.anIn j) ∧ (∀ j, (l.updPair i x).conv j = l.conv j) ∧ (∀ j, (l.updPair i x).seq j = l.seq j) ∧
    (∀ j, (l.updPair i x).pe j = l.pe j) ∧ (∀ j, (l.updPair i x).dc j = l.dc j) ∧ (∀ j, (l.updPair i x).irqGroup j = l.irqGroup j) ∧
    (∀ j, (l.updPair i x).bus j = l.bus j) ∧ (∀ j, (l.updPair i x).connSt j = l.connSt j) ∧ (∀ j, (l.updPair i x).baseVal j = l.baseVal j) ∧
    (∀ j, (l.updPair i x).val j = l.val j) ∧
    (l.updPair i x).now = l.now ∧ (∀ j k, (l.updPair i x).cfg j k = l.cfg j k) ∧ (∀ j k, (l.updPair i x).flag j k = l.flag j k) :=
  ⟨fun _ => rfl, fun _ => rfl, fun _ => rfl, fun _ => rfl, fun _ => rfl, fun _ => rfl, fun _ => rfl, fun _ => rfl, fun _ => rfl, fun _ => rfl, fun _ => rfl, fun _ => rfl, fun _ => rfl, fun _ => rfl, fun _ => rfl, fun _ => rfl, fun _ => rfl, fun _ => rfl, fun _ => rfl, rfl, fun _ _ => rfl, fun _ _ => rfl⟩

@[simp] theorem setTrip_acc (l : Live) (i : Nat) (x : TripInput) :
    (∀ j, (l.setTrip i x).chan j = l.chan j) ∧ (∀ j, (l.setTrip i x).tpin j = l.tpin j) ∧ (∀ j, (l.setTrip i x).cluster j = l.cluster j) ∧
    (∀ j, (l.setTrip i x).group j = l.group j) ∧ (∀ j, (l.setTrip i x).entry j = l.entry j) ∧ (∀ j, (l.setTrip i x).queue j = l.queue j) ∧
    (∀ j, (l.setTrip i x).wheel j = l.wheel j) ∧ (∀ j, (l.setTrip i x).port j = l.port j) ∧ (∀ j, (l.setTrip i x).pair j = l.pair j) ∧
    (∀ j, (l.setTrip i x).anIn j = l.anIn j) ∧ (∀ j, (l.setTrip i x).conv j = l.conv j) ∧ (∀ j, (l.setTrip i x).seq j = l.seq j) ∧
    (∀ j, (l.setTrip i x).pe j = l.pe j) ∧ (∀ j, (l.setTrip i x).dc j = l.dc j) ∧ (∀ j, (l.setTrip i x).irqGroup j = l.irqGroup j) ∧
    (∀ j, (l.setTrip i x).bus j = l.bus j) ∧ (∀ j, (l.setTrip i x).connSt j = l.connSt j) ∧ (∀ j, (l.setTrip i x).baseVal j = l.baseVal j) ∧
    (∀ j, (l.setTrip i x).val j = l.val j) ∧
    (l.setTrip i x).now = l.now ∧ (∀ j k, (l.setTrip i x).cfg j k = l.cfg j k) ∧ (∀ j k, (l.setTrip i x).flag j k = l.flag j k) :=
  ⟨fun _ => rfl, fun _ => rfl, fun _ => rfl, fun _ => rfl, fun _ => rfl, fun _ => rfl, fun _ => rfl, fun _ => rfl, fun _ => rfl, fun _ => rfl, fun _ => rfl, fun _ => rfl, fun _ => rfl, fun _ => rfl, fun _ => rfl, fun _ => rfl, fun _ => rfl, fun _ => rfl, fun _ => rfl, rfl, fun _ _ => rfl, fun _ _ => rfl⟩

@[simp] theorem updTrip_acc (l : Live) (i : Nat) (x : TripInput → TripInput) :
    (∀ j, (l.updTrip i x).chan j = l.chan j) ∧ (∀ j, (l.updTrip i x).tpin j = l.tpin j) ∧ (∀ j, (l.updTrip i x).cluster j = l.cluster j) ∧
    (∀ j, (l.updTrip i x).group j = l.group j) ∧ (∀ j, (l.updTrip i x).entry j = l.entry j) ∧ (∀ j, (l.updTrip i x).queue j = l.queue j) ∧
    (∀ j, (l.updTrip i x).wheel j = l.wheel j) ∧ (∀ j, (l.updTrip i x).port j = l.port j) ∧ (∀ j, (l.updTrip i x).pair j = l.pair j) ∧
    (∀ j, (l.updTrip i x).anIn j = l.anIn j) ∧ (∀ j, (l.updTrip i x).conv j = l.conv j) ∧ (∀ j, (l.updTrip i x).seq j = l.seq j) ∧
    (∀ j, (l.updTrip i x).pe j = l.pe j) ∧ (∀ j, (l.updTrip i x).dc j = l.dc j) ∧ (∀ j, (l.updTrip i x).irqGroup j = l.irqGroup j) ∧
    (∀ j, (l.updTrip i x).bus j = l.bus j) ∧ (∀ j, (l.updTrip i x).connSt j = l.connSt j) ∧ (∀ j, (l.updTrip i x).baseVal j = l.baseVal j) ∧
    (∀ j, (l.updTrip i x).val j = l.val j) ∧
    (l.updTrip i x).now = l.now ∧ (∀ j k, (l.updTrip i x).cfg j k = l.cfg j k) ∧ (∀ j k, (l.updTrip i x).flag j k = l.flag j k) :=
  ⟨fun _ => rfl, fun _ => rfl, fun _ => rfl, fun _ => rfl, fun _ => rfl, fun _ => rfl, fun _ => rfl, fun _ => rfl, fun _ => rfl, fun _ => rfl, fun _ => rfl, fun _ => rfl, fun _ => rfl, fun _ => rfl, fun _ => rfl, fun _ => rfl, fun _ => rfl, fun _ => rfl, fun _ => rfl, rfl, fun _ _ => rfl, fun _ _ => rfl⟩

@[simp] theorem setAnIn_acc (l : Live) (i : Nat) (x : AnInput) :
    (∀ j, (l.setAnIn i x).chan j = l.chan j) ∧ (∀ j, (l.setAnIn i x).tpin j = l.tpin j) ∧ (∀ j, (l.setAnIn i x).cluster j = l.cluster j) ∧
    (∀ j, (l.setAnIn i x).group j = l.group j) ∧ (∀ j, (l.setAnIn i x).entry j = l.entry j) ∧ (∀ j, (l.setAnIn i x).queue j = l.queue j) ∧
    (∀ j, (l.setAnIn i x).wheel j = l.wheel j) ∧ (∀ j, (l.setAnIn i x).port j = l.port j) ∧ (∀ j, (l.setAnIn i x).pair j = l.pair j) ∧
    (∀ j, (l.setAnIn i x).trip j = l.trip j) ∧ (∀ j, (l.setAnIn i x).conv j = l.conv j) ∧ (∀ j, (l.setAnIn i x).seq j = l.seq j) ∧
    (∀ j, (l.setAnIn i x).pe j = l.pe j) ∧ (∀ j, (l.setAnIn i x).dc j = l.dc j) ∧ (∀ j, (l.setAnIn i x).irqGroup j = l.irqGroup j) ∧
    (∀ j, (l.setAnIn i x).bus j = l.bus j) ∧ (∀ j, (l.setAnIn i x).connSt j = l.connSt j) ∧ (∀ j, (l.setAnIn i x).baseVal j = l.baseVal j) ∧
    (∀ j, (l.setAnIn i x).val j = l.val j) ∧
    (l.setAnIn i x).now = l.now ∧ (∀ j k, (l.setAnIn i x).cfg j k = l.cfg j k) ∧ (∀ j k, (l.setAnIn i x).flag j k = l.flag j k) :=
  ⟨fun _ => rfl, fun _ => rfl, fun _ => rfl, fun _ => rfl, fun _ => rfl, fun _ => rfl, fun _ => rfl, fun _ => rfl, fun _ => rfl, fun _ => rfl, fun _ => rfl, fun _ => rfl, fun _ => rfl, fun _ => rfl, fun _ => rfl, fun _ => rfl, fun _ => rfl, fun _ => rfl, fun _ => rfl, rfl, fun _ _ => rfl, fun _ _ => rfl⟩

@[simp] theorem updAnIn_acc (l : Live) (i : Nat) (x : AnInput → AnInput) :
    (∀ j, (l.updAnIn i x).chan j = l.chan j) ∧ (∀ j, (l.updAnIn i x).tpin j = l.tpin j) ∧ (∀ j, (l.updAnIn i x).cluster j = l.cluster j) ∧
    (∀ j, (l.updAnIn i x).group j = l.group j) ∧ (∀ j, (l.updAnIn i x).entry j = l.entry j) ∧ (∀ j, (l.updAnIn i x).queue j = l.queue j) ∧
    (∀ j, (l.updAnIn i x).wheel j = l.wheel j) ∧ (∀ j, (l.updAnIn i x).port j = l.port j) ∧ (∀ j, (l.updAnIn i x).pair j = l.pair j) ∧
    (∀ j, (l.updAnIn i x).trip j = l.trip j) ∧ (∀ j, (l.updAnIn i x).conv j = l.conv j) ∧ (∀ j, (l.updAnIn i x).seq j = l.seq j) ∧
    (∀ j, (l.updAnIn i x).pe j = l.pe j) ∧ (∀ j, (l.updAnIn i x).dc j = l.dc j) ∧ (∀ j, (l.updAnIn i x).irqGroup j = l.irqGroup j) ∧
    (∀ j, (l.updAnIn i x).bus j = l.bus j) ∧ (∀ j, (l.updAnIn i x).connSt j = l.connSt j) ∧ (∀ j, (l.updAnIn i x).baseVal j = l.baseVal j) ∧
    (∀ j, (l.updAnIn i x).val j = l.val j) ∧
    (l.updAnIn i x).now = l.now ∧ (∀ j k, (l.updAnIn i x).cfg j k = l.cfg j k) ∧ (∀ j k, (l.updAnIn i x).flag j k = l.flag j k) :=
  ⟨fun _ => rfl, fun _ => rfl, fun _ => rfl, fun _ => rfl, fun _ => rfl, fun _ => rfl, fun _ => rfl, fun _ => rfl, fun _ => rfl, fun _ => rfl, fun _ => rfl, fun _ => rfl, fun _ => rfl, fun _ => rfl, fun _ => rfl, fun _ => rfl, fun _ => rfl, fun _ => rfl, fun _ => rfl, rfl, fun _ _ => rfl, fun _ _ => rfl⟩

@[simp] theorem setConv_acc (l : Live) (i : Nat) (x : Converter) :
    (∀ j, (l.setConv i x).chan j = l.chan j) ∧ (∀ j, (l.setConv i x).tpin j = l.tpin j) ∧ (∀ j, (l.setConv i x).cluster j = l.cluster j) ∧
    (∀ j, (l.setConv i x).group j = l.group j) ∧ (∀ j, (l.setConv i x).entry j = l.entry j) ∧ (∀ j, (l.setConv i x).queue j = l.queue j) ∧
    (∀ j, (l.setConv i x).wheel j = l.wheel j) ∧ (∀ j, (l.setConv i x).port j = l.port j) ∧ (∀ j, (l.setConv i x).pair j = l.pair j) ∧
    (∀ j, (l.setConv i x).trip j = l.trip j) ∧ (∀ j, (l.setConv i x).anIn j = l.anIn j) ∧ (∀ j, (l.setConv i x).seq j = l.seq j) ∧
    (∀ j, (l.setConv i x).pe j = l.pe j) ∧ (∀ j, (l.setConv i x).dc j = l.dc j) ∧ (∀ j, (l.setConv i x).irqGroup j = l.irqGroup j) ∧
    (∀ j, (l.setConv i x).bus j = l.bus j) ∧ (∀ j, (l.setConv i x).connSt j = l.connSt j) ∧ (∀ j, (l.setConv i x).baseVal j = l.baseVal j) ∧
    (∀ j, (l.setConv i x).val j = l.val j) ∧
    (l.setConv i x).now = l.now ∧ (∀ j k, (l.setConv i x).cfg j k = l.cfg j k) ∧ (∀ j k, (l.setConv i x).flag j k = l.flag j k) :=
  ⟨fun _ => rfl, fun _ => rfl, fun _ => rfl, fun _ => rfl, fun _ => rfl, fun _ => rfl, fun _ => rfl, fun _ => rfl, fun _ => rfl, fun _ => rfl, fun _ => rfl, fun _ => rfl, fun _ => rfl, fun _ => rfl, fun _ => rfl, fun _ => rfl, fun _ => rfl, fun _ => rfl, fun _ => rfl, rfl, fun _ _ => rfl, fun _ _ => rfl⟩

@[simp] theorem updConv_acc (l : Live) (i : Nat) (x : Converter → Converter) :
    (∀ j, (l.updConv i x).chan j = l.chan j) ∧ (∀ j, (l.updConv i x).tpin j = l.tpin j) ∧ (∀ j, (l.updConv i x).cluster j = l.cluster j) ∧
    (∀ j, (l.updConv i x).group j = l.group j) ∧ (∀ j, (l.updConv i x).entry j = l.entry j) ∧ (∀ j, (l.updConv i x).queue j = l.queue j) ∧
    (∀ j, (l.updConv i x).wheel j = l.wheel j) ∧ (∀ j, (l.updConv i x).port j = l.port j) ∧ (∀ j, (l.updConv i x).pair j = l.pair j) ∧
    (∀ j, (l.updConv i x).trip j = l.trip j) ∧ (∀ j, (l.updConv i x).anIn j = l.anIn j) ∧ (∀ j, (l.updConv i x).seq j = l.seq j) ∧
    (∀ j, (l.updConv i x).pe j = l.pe j) ∧ (∀ j, (l.updConv i x).dc j = l.dc j) ∧ (∀ j, (l.updConv i x).irqGroup j = l.irqGroup j) ∧
    (∀ j, (l.updConv i x).bus j = l.bus j) ∧ (∀ j, (l.updConv i x).connSt j = l.connSt j) ∧ (∀ j, (l.updConv i x).baseVal j = l.baseVal j) ∧
    (∀ j, (l.updConv i x).val j = l.val j) ∧
    (l.updConv i x).now = l.now ∧ (∀ j k, (l.updConv i x).cfg j k = l.cfg j k) ∧ (∀ j k, (l.updConv i x).flag j k = l.flag j k) :=
  ⟨fun _ => rfl, fun _ => rfl, fun _ => rfl, fun _ => rfl, fun _ => rfl, fun _ => rfl, fun _ => rfl, fun _ => rfl, fun _ => rfl, fun _ => rfl, fun _ => rfl, fun _ => rfl, fun _ => rfl, fun _ => rfl, fun _ => rfl, fun _ => rfl, fun _ => rfl, fun _ => rfl, fun _ => rfl, rfl, fun _ _ => rfl, fun _ _ => rfl⟩

@[simp] theorem setSeq_acc (l : Live) (i : Nat) (x : Sequence) :
    (∀ j, (l.setSeq i x).chan j = l.chan j) ∧ (∀ j, (l.setSeq i x).tpin j = l.tpin j) ∧ (∀ j, (l.setSeq i x).cluster j = l.cluster j) ∧
    (∀ j, (l.setSeq i x).group j = l.group j) ∧ (∀ j, (l.setSeq i x).entry j = l.entry j) ∧ (∀ j, (l.setSeq i x).queue j = l.queue j) ∧
    (∀ j, (l.setSeq i x).wheel j = l.wheel j) ∧ (∀ j, (l.setSeq i x).port j = l.port j) ∧ (∀ j, (l.setSeq i x).pair j = l.pair j) ∧
    (∀ j, (l.setSeq i x).trip j = l.trip j) ∧ (∀ j, (l.setSeq i x).anIn j = l.anIn j) ∧ (∀ j, (l.setSeq i x).conv j = l.conv j) ∧
    (∀ j, (l.setSeq i x).pe j = l.pe j) ∧ (∀ j, (l.setSeq i x).dc j = l.dc j) ∧ (∀ j, (l.setSeq i x).irqGroup j = l.irqGroup j) ∧
    (∀ j, (l.setSeq i x).bus j = l.bus j) ∧ (∀ j, (l.setSeq i x).connSt j = l.connSt j) ∧ (∀ j, (l.setSeq i x).baseVal j = l.baseVal j) ∧
    (∀ j, (l.setSeq i x).val j = l.val j) ∧
    (l.setSeq i x).now = l.now ∧ (∀ j k, (l.setSeq i x).cfg j k = l.cfg j k) ∧ (∀ j k, (l.setSeq i x).flag j k = l.flag j k) :=
  ⟨fun _ => rfl, fun _ => rfl, fun _ => rfl, fun _ => rfl, fun _ => rfl, fun _ => rfl, fun _ => rfl, fun _ => rfl, fun _ => rfl, fun _ => rfl, fun _ => rfl, fun _ => rfl, fun _ => rfl, fun _ => rfl, fun _ => rfl, fun _ => rfl, fun _ => rfl, fun _ => rfl, fun _ => rfl, rfl, fun _ _ => rfl, fun _ _ => rfl⟩

@[simp] theorem updSeq_acc (l : Live) (i : Nat) (x : Sequence → Sequence) :
    (∀ j, (l.updSeq i x).chan j = l.chan j) ∧ (∀ j, (l.updSeq i x).tpin j = l.tpin j) ∧ (∀ j, (l.updSeq i x).cluster j = l.cluster j) ∧
    (∀ j, (l.updSeq i x).group j = l.group j) ∧ (∀ j, (l.updSeq i x).entry j = l.entry j) ∧ (∀ j, (l.updSeq i x).queue j = l.queue j) ∧
    (∀ j, (l.updSeq i x).wheel j = l.wheel j) ∧ (∀ j, (l.updSeq i x).port j = l.port j) ∧ (∀ j, (l.updSeq i x).pair j = l.pair j) ∧
    (∀ j, (l.updSeq i x).trip j = l.trip j) ∧ (∀ j, (l.updSeq i x).anIn j = l.anIn j) ∧ (∀ j, (l.updSeq i x).conv j = l.conv j) ∧
    (∀ j, (l.updSeq i x).pe j = l.pe j) ∧ (∀ j, (l.updSeq i x).dc j = l.dc j) ∧ (∀ j, (l.updSeq i x).irqGroup j = l.irqGroup j) ∧
    (∀ j, (l.updSeq i x).bus j = l.bus j) ∧ (∀ j, (l.updSeq i x).connSt j = l.connSt j) ∧ (∀ j, (l.updSeq i x).baseVal j = l.baseVal j) ∧
    (∀ j, (l.updSeq i x).val j = l.val j) ∧
    (l.updSeq i x).now = l.now ∧ (∀ j k, (l.updSeq i x).cfg j k = l.cfg j k) ∧ (∀ j k, (l.updSeq i x).flag j k = l.flag j k) :=
  ⟨fun _ => rfl, fun _ => rfl, fun _ => rfl, fun _ => rfl, fun _ => rfl, fun _ => rfl, fun _ => rfl, fun _ => rfl, fun _ => rfl, fun _ => rfl, fun _ => rfl, fun _ => rfl, fun _ => rfl, fun _ => rfl, fun _ => rfl, fun _ => rfl, fun _ => rfl, fun _ => rfl, fun _ => rfl, rfl, fun _ _ => rfl, fun _ _ => rfl⟩

@[simp] theorem setPe_acc (l : Live) (i : Nat) (x : PinEngine) :
    (∀ j, (l.setPe i x).chan j = l.chan j) ∧ (∀ j, (l.setPe i x).tpin j = l.tpin j) ∧ (∀ j, (l.setPe i x).cluster j = l.cluster j) ∧
    (∀ j, (l.setPe i x).group j = l.group j) ∧ (∀ j, (l.setPe i x).entry j = l.entry j) ∧ (∀ j, (l.setPe i x).queue j = l.queue j) ∧
    (∀ j, (l.setPe i x).wheel j = l.wheel j) ∧ (∀ j, (l.setPe i x).port j = l.port j) ∧ (∀ j, (l.setPe i x).pair j = l.pair j) ∧
    (∀ j, (l.setPe i x).trip j = l.trip j) ∧ (∀ j, (l.setPe i x).anIn j = l.anIn j) ∧ (∀ j, (l.setPe i x).conv j = l.conv j) ∧
    (∀ j, (l.setPe i x).seq j = l.seq j) ∧ (∀ j, (l.setPe i x).dc j = l.dc j) ∧ (∀ j, (l.setPe i x).irqGroup j = l.irqGroup j) ∧
    (∀ j, (l.setPe i x).bus j = l.bus j) ∧ (∀ j, (l.setPe i x).connSt j = l.connSt j) ∧ (∀ j, (l.setPe i x).baseVal j = l.baseVal j) ∧
    (∀ j, (l.setPe i x).val j = l.val j) ∧
    (l.setPe i x).now = l.now ∧ (∀ j k, (l.setPe i x).cfg j k = l.cfg j k) ∧ (∀ j k, (l.setPe i x).flag j k = l.flag j k) :=
  ⟨fun _ => rfl, fun _ => rfl, fun _ => rfl, fun _ => rfl, fun _ => rfl, fun _ => rfl, fun _ => rfl, fun _ => rfl, fun _ => rfl, fun _ => rfl, fun _ => rfl, fun _ => rfl, fun _ => rfl, fun _ => rfl, fun _ => rfl, fun _ => rfl, fun _ => rfl, fun _ => rfl, fun _ => rfl, rfl, fun _ _ => rfl, fun _ _ => rfl⟩

@[simp] theorem updPe_acc (l : Live) (i : Nat) (x : PinEngine → PinEngine) :
    (∀ j, (l.updPe i x).chan j = l.chan j) ∧ (∀ j, (l.updPe i x).tpin j = l.tpin j) ∧ (∀ j, (l.updPe i x).cluster j = l.cluster j) ∧
    (∀ j, (l.updPe i x).group j = l.group j) ∧ (∀ j, (l.updPe i x).entry j = l.entry j) ∧ (∀ j, (l.updPe i x).queue j = l.queue j) ∧
    (∀ j, (l.updPe i x).wheel j = l.wheel j) ∧ (∀ j, (l.updPe i x).port j = l.port j) ∧ (∀ j, (l.updPe i x).pair j = l.pair j) ∧
    (∀ j, (l.updPe i x).trip j = l.trip j) ∧ (∀ j, (l.updPe i x).anIn j = l.anIn j) ∧ (∀ j, (l.updPe i x).conv j = l.conv j) ∧
    (∀ j, (l.updPe i x).seq j = l.seq j) ∧ (∀ j, (l.updPe i x).dc j = l.dc j) ∧ (∀ j, (l.updPe i x).irqGroup j = l.irqGroup j) ∧
    (∀ j, (l.updPe i x).bus j = l.bus j) ∧ (∀ j, (l.updPe i x).connSt j = l.connSt j) ∧ (∀ j, (l.updPe i x).baseVal j = l.baseVal j) ∧
    (∀ j, (l.updPe i x).val j = l.val j) ∧
    (l.updPe i x).now = l.now ∧ (∀ j k, (l.updPe i x).cfg j k = l.cfg j k) ∧ (∀ j k, (l.updPe i x).flag j k = l.flag j k) :=
  ⟨fun _ => rfl, fun _ => rfl, fun _ => rfl, fun _ => rfl, fun _ => rfl, fun _ => rfl, fun _ => rfl, fun _ => rfl, fun _ => rfl, fun _ => rfl, fun _ => rfl, fun _ => rfl, fun _ => rfl, fun _ => rfl, fun _ => rfl, fun _ => rfl, fun _ => rfl, fun _ => rfl, fun _ => rfl, rfl, fun _ _ => rfl, fun _ _ => rfl⟩

@[simp] theorem setDc_acc (l : Live) (i : Nat) (x : DmaChannel) :
    (∀ j, (l.setDc i x).chan j = l.chan j) ∧ (∀ j, (l.setDc i x).tpin j = l.tpin j) ∧ (∀ j, (l.setDc i x).cluster j = l.cluster j) ∧
    (∀ j, (l.setDc i x).group j = l.group j) ∧ (∀ j, (l.setDc i x).entry j = l.entry j) ∧ (∀ j, (l.setDc i x).queue j = l.queue j) ∧
    (∀ j, (l.setDc i x).wheel j = l.wheel j) ∧ (∀ j, (l.setDc i x).port j = l.port j) ∧ (∀ j, (l.setDc i x).pair j = l.pair j) ∧
    (∀ j, (l.setDc i x).trip j = l.trip j) ∧ (∀ j, (l.setDc i x).anIn j = l.anIn j) ∧ (∀ j, (l.setDc i x).conv j = l.conv j) ∧
    (∀ j, (l.setDc i x).seq j = l.seq j) ∧ (∀ j, (l.setDc i x).pe j = l.pe j) ∧ (∀ j, (l.setDc i x).irqGroup j = l.irqGroup j) ∧
    (∀ j, (l.setDc i x).bus j = l.bus j) ∧ (∀ j, (l.setDc i x).connSt j = l.connSt j) ∧ (∀ j, (l.setDc i x).baseVal j = l.baseVal j) ∧
    (∀ j, (l.setDc i x).val j = l.val j) ∧
    (l.setDc i x).now = l.now ∧ (∀ j k, (l.setDc i x).cfg j k = l.cfg j k) ∧ (∀ j k, (l.setDc i x).flag j k = l.flag j k) :=
  ⟨fun _ => rfl, fun _ => rfl, fun _ => rfl, fun _ => rfl, fun _ => rfl, fun _ => rfl, fun _ => rfl, fun _ => rfl, fun _ => rfl, fun _ => rfl, fun _ => rfl, fun _ => rfl, fun _ => rfl, fun _ => rfl, fun _ => rfl, fun _ => rfl, fun _ => rfl, fun _ => rfl, fun _ => rfl, rfl, fun _ _ => rfl, fun _ _ => rfl⟩

@[simp] theorem updDc_acc (l : Live) (i : Nat) (x : DmaChannel → DmaChannel) :
    (∀ j, (l.updDc i x).chan j = l.chan j) ∧ (∀ j, (l.updDc i x).tpin j = l.tpin j) ∧ (∀ j, (l.updDc i x).cluster j = l.cluster j) ∧
    (∀ j, (l.updDc i x).group j = l.group j) ∧ (∀ j, (l.updDc i x).entry j = l.entry j) ∧ (∀ j, (l.updDc i x).queue j = l.queue j) ∧
    (∀ j, (l.updDc i x).wheel j = l.wheel j) ∧ (∀ j, (l.updDc i x).port j = l.port j) ∧ (∀ j, (l.updDc i x).pair j = l.pair j) ∧
    (∀ j, (l.updDc i x).trip j = l.trip j) ∧ (∀ j, (l.updDc i x).anIn j = l.anIn j) ∧ (∀ j, (l.updDc i x).conv j = l.conv j) ∧
    (∀ j, (l.updDc i x).seq j = l.seq j) ∧ (∀ j, (l.updDc i x).pe j = l.pe j) ∧ (∀ j, (l.updDc i x).irqGroup j = l.irqGroup j) ∧
    (∀ j, (l.updDc i x).bus j = l.bus j) ∧ (∀ j, (l.updDc i x).connSt j = l.connSt j) ∧ (∀ j, (l.updDc i x).baseVal j = l.baseVal j) ∧
    (∀ j, (l.updDc i x).val j = l.val j) ∧
    (l.updDc i x).now = l.now ∧ (∀ j k, (l.updDc i x).cfg j k = l.cfg j k) ∧ (∀ j k, (l.updDc i x).flag j k = l.flag j k) :=
  ⟨fun _ => rfl, fun _ => rfl, fun _ => rfl, fun _ => rfl, fun _ => rfl, fun _ => rfl, fun _ => rfl, fun _ => rfl, fun _ => rfl, fun _ => rfl, fun _ => rfl, fun _ => rfl, fun _ => rfl, fun _ => rfl, fun _ => rfl, fun _ => rfl, fun _ => rfl, fun _ => rfl, fun _ => rfl, rfl, fun _ _ => rfl, fun _ _ => rfl⟩

@[simp] theorem setIrqGroup_acc (l : Live) (i : Nat) (x : IrqGroup) :
    (∀ j, (l.setIrqGroup i x).chan j = l.chan j) ∧ (∀ j, (l.setIrqGroup i x).tpin j = l.tpin j) ∧ (∀ j, (l.setIrqGroup i x).cluster j = l.cluster j) ∧
    (∀ j, (l.setIrqGroup i x).group j = l.group j) ∧ (∀ j, (l.setIrqGroup i x).entry j = l.entry j) ∧ (∀ j, (l.setIrqGroup i x).queue j = l.queue j) ∧
    (∀ j, (l.setIrqGroup i x).wheel j = l.wheel j) ∧ (∀ j, (l.setIrqGroup i x).port j = l.port j) ∧ (∀ j, (l.setIrqGroup i x).pair j = l.pair j) ∧
    (∀ j, (l.setIrqGroup i x).trip j = l.trip j) ∧ (∀ j, (l.setIrqGroup i x).anIn j = l.anIn j) ∧ (∀ j, (l.setIrqGroup i x).conv j = l.conv j) ∧
    (∀ j, (l.setIrqGroup i x).seq j = l.seq j) ∧ (∀ j, (l.setIrqGroup i x).pe j = l.pe j) ∧ (∀ j, (l.setIrqGroup i x).dc j = l.dc j) ∧
    (∀ j, (l.setIrqGroup i x).bus j = l.bus j) ∧ (∀ j, (l.setIrqGroup i x).connSt j = l.connSt j) ∧ (∀ j, (l.setIrqGroup i x).baseVal j = l.baseVal j) ∧
    (∀ j, (l.setIrqGroup i x).val j = l.val j) ∧
    (l.setIrqGroup i x).now = l.now ∧ (∀ j k, (l.setIrqGroup i x).cfg j k = l.cfg j k) ∧ (∀ j k, (l.setIrqGroup i x).flag j k = l.flag j k) :=
  ⟨fun _ => rfl, fun _ => rfl, fun _ => rfl, fun _ => rfl, fun _ => rfl, fun _ => rfl, fun _ => rfl, fun _ => rfl, fun _ => rfl, fun _ => rfl, fun _ => rfl, fun _ => rfl, fun _ => rfl, fun _ => rfl, fun _ => rfl, fun _ => rfl, fun _ => rfl, fun _ => rfl, fun _ => rfl, rfl, fun _ _ => rfl, fun _ _ => rfl⟩

@[simp] theorem setBus_acc (l : Live) (i : Nat) (x : Bus) :
    (∀ j, (l.setBus i x).chan j = l.chan j) ∧ (∀ j, (l.setBus i x).tpin j = l.tpin j) ∧ (∀ j, (l.setBus i x).cluster j = l.cluster j) ∧
    (∀ j, (l.setBus i x).group j = l.group j) ∧ (∀ j, (l.setBus i x).entry j = l.entry j) ∧ (∀ j, (l.setBus i x).queue j = l.queue j) ∧
    (∀ j, (l.setBus i x).wheel j = l.wheel j) ∧ (∀ j, (l.setBus i x).port j = l.port j) ∧ (∀ j, (l.setBus i x).pair j = l.pair j) ∧
    (∀ j, (l.setBus i x).trip j = l.trip j) ∧ (∀ j, (l.setBus i x).anIn j = l.anIn j) ∧ (∀ j, (l.setBus i x).conv j = l.conv j) ∧
    (∀ j, (l.setBus i x).seq j = l.seq j) ∧ (∀ j, (l.setBus i x).pe j = l.pe j) ∧ (∀ j, (l.setBus i x).dc j = l.dc j) ∧
    (∀ j, (l.setBus i x).irqGroup j = l.irqGroup j) ∧ (∀ j, (l.setBus i x).connSt j = l.connSt j) ∧ (∀ j, (l.setBus i x).baseVal j = l.baseVal j) ∧
    (∀ j, (l.setBus i x).val j = l.val j) ∧
    (l.setBus i x).now = l.now ∧ (∀ j k, (l.setBus i x).cfg j k = l.cfg j k) ∧ (∀ j k, (l.setBus i x).flag j k = l.flag j k) :=
  ⟨fun _ => rfl, fun _ => rfl, fun _ => rfl, fun _ => rfl, fun _ => rfl, fun _ => rfl, fun _ => rfl, fun _ => rfl, fun _ => rfl, fun _ => rfl, fun _ => rfl, fun _ => rfl, fun _ => rfl, fun _ => rfl, fun _ => rfl, fun _ => rfl, fun _ => rfl, fun _ => rfl, fun _ => rfl, rfl, fun _ _ => rfl, fun _ _ => rfl⟩

@[simp] theorem updBus_acc (l : Live) (i : Nat) (x : Bus → Bus) :
    (∀ j, (l.updBus i x).chan j = l.chan j) ∧ (∀ j, (l.updBus i x).tpin j = l.tpin j) ∧ (∀ j, (l.updBus i x).cluster j = l.cluster j) ∧
    (∀ j, (l.updBus i x).group j = l.group j) ∧ (∀ j, (l.updBus i x).entry j = l.entry j) ∧ (∀ j, (l.updBus i x).queue j = l.queue j) ∧
    (∀ j, (l.updBus i x).wheel j = l.wheel j) ∧ (∀ j, (l.updBus i x).port j = l.port j) ∧ (∀ j, (l.updBus i x).pair j = l.pair j) ∧
    (∀ j, (l.updBus i x).trip j = l.trip j) ∧ (∀ j, (l.updBus i x).anIn j = l.anIn j) ∧ (∀ j, (l.updBus i x).conv j = l.conv j) ∧
    (∀ j, (l.updBus i x).seq j = l.seq j) ∧ (∀ j, (l.updBus i x).pe j = l.pe j) ∧ (∀ j, (l.updBus i x).dc j = l.dc j) ∧
    (∀ j, (l.updBus i x).irqGroup j = l.irqGroup j) ∧ (∀ j, (l.updBus i x).connSt j = l.connSt j) ∧ (∀ j, (l.updBus i x).baseVal j = l.baseVal j) ∧
    (∀ j, (l.updBus i x).val j = l.val j) ∧
    (l.updBus i x).now = l.now ∧ (∀ j k, (l.updBus i x).cfg j k = l.cfg j k) ∧ (∀ j k, (l.updBus i x).flag j k = l.flag j k) :=
  ⟨fun _ => rfl, fun _ => rfl, fun _ => rfl, fun _ => rfl, fun _ => rfl, fun _ => rfl, fun _ => rfl, fun _ => rfl, fun _ => rfl, fun _ => rfl, fun _ => rfl, fun _ => rfl, fun _ => rfl, fun _ => rfl, fun _ => rfl, fun _ => rfl, fun _ => rfl, fun _ => rfl, fun _ => rfl, rfl, fun _ _ => rfl, fun _ _ => rfl⟩

@[simp] theorem setConnSt_acc (l : Live) (i : Nat) (x : ConnState) :
    (∀ j, (l.setConnSt i x).chan j = l.chan j) ∧ (∀ j, (l.setConnSt i x).tpin j = l.tpin j) ∧ (∀ j, (l.setConnSt i x).cluster j = l.cluster j) ∧
    (∀ j, (l.setConnSt i x).group j = l.group j) ∧ (∀ j, (l.setConnSt i x).entry j = l.entry j) ∧ (∀ j, (l.setConnSt i x).queue j = l.queue j) ∧
    (∀ j, (l.setConnSt i x).wheel j = l.wheel j) ∧ (∀ j, (l.setConnSt i x).port j = l.port j) ∧ (∀ j, (l.setConnSt i x).pair j = l.pair j) ∧
    (∀ j, (l.setConnSt i x).trip j = l.trip j) ∧ (∀ j, (l.setConnSt i x).anIn j = l.anIn j) ∧ (∀ j, (l.setConnSt i x).conv j = l.conv j) ∧
    (∀ j, (l.setConnSt i x).seq j = l.seq j) ∧ (∀ j, (l.setConnSt i x).pe j = l.pe j) ∧ (∀ j, (l.setConnSt i x).dc j = l.dc j) ∧
    (∀ j, (l.setConnSt i x).irqGroup j = l.irqGroup j) ∧ (∀ j, (l.setConnSt i x).bus j = l.bus j) ∧ (∀ j, (l.setConnSt i x).baseVal j = l.baseVal j) ∧
    (∀ j, (l.setConnSt i x).val j = l.val j) ∧
    (l.setConnSt i x).now = l.now ∧ (∀ j k, (l.setConnSt i x).cfg j k = l.cfg j k) ∧ (∀ j k, (l.setConnSt i x).flag j k = l.flag j k) :=
  ⟨fun _ => rfl, fun _ => rfl, fun _ => rfl, fun _ => rfl, fun _ => rfl, fun _ => rfl, fun _ => rfl, fun _ => rfl, fun _ => rfl, fun _ => rfl, fun _ => rfl, fun _ => rfl, fun _ => rfl, fun _ => rfl, fun _ => rfl, fun _ => rfl, fun _ => rfl, fun _ => rfl, fun _ => rfl, rfl, fun _ _ => rfl, fun _ _ => rfl⟩

@[simp] theorem updConnSt_acc (l : Live) (i : Nat) (x : ConnState → ConnState) :
    (∀ j, (l.updConnSt i x).chan j = l.chan j) ∧ (∀ j, (l.updConnSt i x).tpin j = l.tpin j) ∧ (∀ j, (l.updConnSt i x).cluster j = l.cluster j) ∧
    (∀ j, (l.updConnSt i x).group j = l.group j) ∧ (∀ j, (l.updConnSt i x).entry j = l.entry j) ∧ (∀ j, (l.updConnSt i x).queue j = l.queue j) ∧
    (∀ j, (l.updConnSt i x).wheel j = l.wheel j) ∧ (∀ j, (l.updConnSt i x).port j = l.port j) ∧ (∀ j, (l.updConnSt i x).pair j = l.pair j) ∧
    (∀ j, (l.updConnSt i x).trip j = l.trip j) ∧ (∀ j, (l.updConnSt i x).anIn j = l.anIn j) ∧ (∀ j, (l.updConnSt i x).conv j = l.conv j) ∧
    (∀ j, (l.updConnSt i x).seq j = l.seq j) ∧ (∀ j, (l.updConnSt i x).pe j = l.pe j) ∧ (∀ j, (l.updConnSt i x).dc j = l.dc j) ∧
    (∀ j, (l.updConnSt i x).irqGroup j = l.irqGroup j) ∧ (∀ j, (l.updConnSt i x).bus j = l.bus j) ∧ (∀ j, (l.updConnSt i x).baseVal j = l.baseVal j) ∧
    (∀ j, (l.updConnSt i x).val j = l.val j) ∧
    (l.updConnSt i x).now = l.now ∧ (∀ j k, (l.updConnSt i x).cfg j k = l.cfg j k) ∧ (∀ j k, (l.updConnSt i x).flag j k = l.flag j k) :=
  ⟨fun _ => rfl, fun _ => rfl, fun _ => rfl, fun _ => rfl, fun _ => rfl, fun _ => rfl, fun _ => rfl, fun _ => rfl, fun _ => rfl, fun _ => rfl, fun _ => rfl, fun _ => rfl, fun _ => rfl, fun _ => rfl, fun _ => rfl, fun _ => rfl, fun _ => rfl, fun _ => rfl, fun _ => rfl, rfl, fun _ _ => rfl, fun _ _ => rfl⟩

end Sys2Proof.Machine
end

