-- ==== Sys2Proof/Laws/Bits.lean ====
section
/-! SUPPORT. Bits of a word after a bit of it was set, cleared or written. -/

namespace Sys2Proof.Machine

/-- A set bit reads 1, the others as before. -/
theorem setBit_getLsbD {w : Nat} (x : BitVec w) (n i : Nat) :
    (setBit x n).getLsbD i = (x.getLsbD i || (decide (i < w) && decide (n = i))) := by
  unfold setBit
  rw [BitVec.getLsbD_or, BitVec.getLsbD_ofNat, Nat.testBit_two_pow]

/-- A cleared bit reads 0, the others as before. -/
theorem clrBit_getLsbD {w : Nat} (x : BitVec w) (n i : Nat) :
    (clrBit x n).getLsbD i = (x.getLsbD i && !decide (n = i)) := by
  unfold clrBit
  rw [BitVec.getLsbD_and, BitVec.getLsbD_not, BitVec.getLsbD_ofNat, Nat.testBit_two_pow]
  by_cases h : i < w
  · simp [h]
  · have e : x.getLsbD i = false := BitVec.getLsbD_of_ge x i (Nat.le_of_not_lt h)
    simp [e]

theorem setBit_other {w i n : Nat} (x : BitVec w) (h : i ≠ n) : (setBit x n).getLsbD i = x.getLsbD i := by
  rw [setBit_getLsbD]
  simp [Ne.symm h]

theorem setBit_same {w n : Nat} (x : BitVec w) (h : n < w) : (setBit x n).getLsbD n = true := by
  rw [setBit_getLsbD]
  simp [h]

theorem clrBit_other {w i n : Nat} (x : BitVec w) (h : i ≠ n) : (clrBit x n).getLsbD i = x.getLsbD i := by
  rw [clrBit_getLsbD]
  simp [Ne.symm h]

theorem clrBit_same {w n : Nat} (x : BitVec w) : (clrBit x n).getLsbD n = false := by
  rw [clrBit_getLsbD]
  simp

end Sys2Proof.Machine
end

