-- ==== Sys2Proof/Laws/Completes.lean ====
section
/-! SUPPORT. No well-formed command stops: `exec` answers a next state for it, whatever the state. -/

namespace Sys2Proof.Machine

theorem withBank_next (f : Bank → Live → Live) (s : State) : ∃ t, withBank f s = .next t := by
  unfold withBank
  split <;> exact ⟨_, rfl⟩

theorem exec_next (c : Instr) (s : State) (h : c.wf = true) : ∃ t, exec c s = .next t := by
  cases c
  case rpdoReceived b p data => exact ⟨_, if_pos h⟩
  case tpdoEventTimer p => exact withBank_next _ s
  case tpdoInhibitEnd p => exact withBank_next _ s
  case startUpCommit =>
    change ∃ t, execStartUpCommit s = .next t
    unfold execStartUpCommit
    split <;> exact ⟨_, rfl⟩
  all_goals exact ⟨_, rfl⟩

end Sys2Proof.Machine
end

