-- ==== Sys2Proof/Laws/Parts.lean ====
section
/-! SUPPORT. Which parts of the network unit, the log, the journal and the snapshot controller a report, and so applying an effect,
leaves alone; and the accessors of the live device through `State.apply`. -/

namespace Sys2Proof.Machine

open Sys2Proof

theorem PartReports.refl (l : Live) : PartReports l l := ⟨rfl, rfl, fun _ _ => rfl, rfl, fun _ => ⟨rfl, fun _ _ => rfl⟩⟩

theorem PartReports.trans {a b c : Live} (h : PartReports a b) (k : PartReports b c) : PartReports a c := by
  obtain ⟨h1, h2, h0, h3, h4⟩ := h
  obtain ⟨k1, k2, k0, k3, k4⟩ := k
  unfold NetReports at h1 k1
  unfold LogReports at h2 k2
  unfold JournalReports at h3 k3
  refine ⟨?_, ?_, fun i hi => (k0 i hi).trans (h0 i hi), ?_, fun i => ?_⟩
  · unfold NetReports
    rw [k1, h1]
  · unfold LogReports
    rw [k2, h2]
  · unfold JournalReports
    rw [k3, h3]
  · obtain ⟨h5, h6⟩ := h4 i
    obtain ⟨k5, k6⟩ := k4 i
    refine ⟨?_, fun j hj => (k6 j hj).trans (h6 j hj)⟩
    rw [k5, h5]

/-- Only the log changes, by `LogReports`, and the notes of flags. -/
theorem partReports_log {l : Live} {g : LogUnit} {n : SMap Nat} (h : LogReports l.log g)
    (k : ∀ i, i ≠ 0 → g.status.getLsbD i = l.log.status.getLsbD i) : PartReports l { l with log := g, flagsNow := n } :=
  ⟨rfl, h, k, rfl, fun _ => ⟨rfl, fun _ _ => rfl⟩⟩

/-- A note of a flag is no report. -/
theorem noteFlags_parts (k m : Nat) (l : Live) : PartReports l (noteFlags k m l) :=
  ⟨rfl, rfl, fun _ _ => rfl, rfl, fun _ => ⟨rfl, fun _ _ => rfl⟩⟩

theorem lose_parts (cause n : Nat) (l : Live) : PartReports l (lose cause n l) := by
  unfold lose
  split
  · exact .refl l
  · dsimp only
    split <;> exact partReports_log rfl (fun i hi => setBit_other _ hi)

theorem writeRecordAt_parts (dt src kind payload : Nat) (l : Live) : PartReports l (writeRecordAt dt src kind payload l) := by
  unfold writeRecordAt
  split
  · exact .refl l
  · dsimp only
    split
    · exact partReports_log rfl (fun _ _ => rfl)
    · exact lose_parts _ _ _

theorem writeRecord_parts (src kind payload : Nat) (l : Live) : PartReports l (writeRecord src kind payload l) :=
  writeRecordAt_parts _ _ _ _ _

theorem journalAt_parts (dt : Word) (src kind payload code : Nat) (l : Live) :
    PartReports l (journalAt dt src kind payload code l) := by
  unfold journalAt
  dsimp only
  split <;> exact ⟨rfl, rfl, fun _ _ => rfl, rfl, fun _ => ⟨rfl, fun _ _ => rfl⟩⟩

theorem setBus_parts {l : Live} {b : Nat} {y : Bus} (h : BusReports (l.bus b) y) : PartReports l (l.setBus b y) := by
  refine ⟨rfl, rfl, fun _ _ => rfl, rfl, fun c => ?_⟩
  by_cases e : c = b
  · subst e
    simpa using h
  · have k : (l.setBus b y).bus c = l.bus c := SMap.get_put_ne ({} : Bus) l.net.buses y e
    rw [k]
    exact ⟨rfl, fun _ _ => rfl⟩

theorem emcyOnBus_parts (data : List Byte) (b : Nat) (l : Live) : PartReports l (emcyOnBus data b l) := by
  unfold emcyOnBus
  split
  · dsimp only
    split
    · exact setBus_parts ⟨rfl, fun _ _ => rfl⟩
    · split
      · exact setBus_parts ⟨rfl, fun _ _ => rfl⟩
      · refine (noteFlags_parts (key 0x3000 (0x20 + b)) (2 ^ 6) l).trans (setBus_parts (l := noteBus b 6 l) ⟨rfl, fun i hi => ?_⟩)
        exact setBit_other _ hi
  · exact .refl l

theorem emcyBuses_parts (data : List Byte) (l : Live) : PartReports l (forAll (emcyOnBus data) [0, 1] l) :=
  (emcyOnBus_parts data 0 l).trans (emcyOnBus_parts data 1 _)

/-- Only the error list and register change. -/
theorem partReports_net {l : Live} {n : NetUnit} (h : NetReports l.net n) (b : n.buses = l.net.buses) :
    PartReports l { l with net := n } :=
  ⟨h, rfl, fun _ _ => rfl, rfl, fun i => by unfold Live.bus; rw [b]; exact ⟨rfl, fun _ _ => rfl⟩⟩

/-- A record and frames, after a change of the error list and register. -/
theorem record_frames_parts {l m : Live} (h : PartReports l m) (src kind payload : Nat) (data : List Byte) :
    PartReports l (forAll (emcyOnBus data) [0, 1] (writeRecord src kind payload m)) :=
  h.trans ((writeRecord_parts _ _ _ _).trans (emcyBuses_parts _ _))

theorem emcy_parts (code src payload : Nat) (l : Live) : PartReports l (emcy code src payload l) := by
  unfold emcy
  dsimp only
  refine record_frames_parts ?_ _ _ _ _
  split
  · exact ⟨rfl, rfl, fun _ _ => rfl, rfl, fun _ => ⟨rfl, fun _ _ => rfl⟩⟩
  · exact ⟨rfl, rfl, fun _ _ => rfl, rfl, fun _ => ⟨rfl, fun _ _ => rfl⟩⟩

theorem errSettle_parts (l : Live) : PartReports l (errSettle l) := by
  unfold errSettle
  dsimp only
  split
  · exact (partReports_net (n := { l.net with errReg := 0 }) rfl rfl).trans ((writeRecord_parts _ _ _ _).trans (emcyBuses_parts _ _))
  · exact partReports_net rfl rfl

theorem journalEntry_parts (src kind payload code : Nat) (l : Live) : PartReports l (journalEntry src kind payload code l) := by
  unfold journalEntry journal
  split
  · exact journalAt_parts _ _ _ _ _ _
  · exact (journalAt_parts _ _ _ _ _ _).trans (emcy_parts _ _ _ _)

theorem reportFault_parts (src kind payload code : Nat) (l : Live) : PartReports l (reportFault src kind payload code l) :=
  ((writeRecord_parts _ _ _ _).trans (emcy_parts _ _ _ _)).trans (journalEntry_parts _ _ _ _ _)

theorem reportJournal_parts (src kind payload : Nat) (l : Live) : PartReports l (reportJournal src kind payload l) :=
  (writeRecord_parts _ _ _ _).trans (journalEntry_parts _ _ _ _ _)

theorem lossReport_parts (before : Byte) (l : Live) : PartReports l (lossReport before l) := by
  unfold lossReport
  split
  · exact .refl l
  · exact (emcy_parts _ _ _ _).trans (journalEntry_parts _ _ _ _ _)

theorem settle_parts (pre l : Live) : PartReports l (settle pre l) := (lossReport_parts _ _).trans (errSettle_parts _)

/-- The snapshot controller alone changes. -/
theorem partReports_snap (l : Live) (u : SnapUnit) : PartReports l { l with snap := u } :=
  ⟨rfl, rfl, fun _ _ => rfl, rfl, fun _ => ⟨rfl, fun _ _ => rfl⟩⟩

theorem seqWrap_parts (l : Live) : PartReports l (seqWrap l) := by
  unfold seqWrap
  split
  · exact ((partReports_snap l _).trans (noteFlags_parts _ _ _)).trans (writeRecord_parts _ _ _ _)
  · exact .refl l

/-- What applying an effect can do to the reporting units beyond the effect. -/
theorem apply_parts (f : Live → Live) (s : State) : PartReports (f s.live) (s.apply f).live := by
  have a : ∀ s : State, PartReports s.live (wipeBanks s).live := fun s => by
    unfold wipeBanks
    split
    · exact partReports_snap _ _
    · exact .refl _
  have b : ∀ s : State, PartReports s.live (settleHold s).live := fun s => by
    unfold settleHold
    dsimp only
    split <;> exact partReports_snap _ _
  have c : ∀ p, ∀ s : State, PartReports s.live (settleSnap p s).live := fun p s => by
    unfold settleSnap
    split
    · exact .refl _
    · split
      · exact partReports_snap _ _
      · split
        · exact partReports_snap _ _
        · exact (seqWrap_parts s.live).trans (partReports_snap _ _)
  unfold State.apply
  have d : PartReports (f s.live) (wipeBanks { s with live := settle s.live (f s.live) }).live :=
    (settle_parts s.live (f s.live)).trans (a { s with live := settle s.live (f s.live) })
  exact d.trans ((b _).trans (c _ _))

theorem PartReports.keeps {l m : Live} (h : PartReports l m) :
    m.net.nmt = l.net.nmt ∧ m.net.opAt = l.net.opAt ∧ m.net.choice = l.net.choice ∧ m.net.conns = l.net.conns ∧
    m.net.tpdos = l.net.tpdos ∧ m.net.rpdos = l.net.rpdos ∧ m.net.lastSync = l.net.lastSync ∧ m.net.window = l.net.window ∧
    m.net.key = l.net.key ∧ m.log.staging = l.log.staging ∧ m.log.nextSeq = l.log.nextSeq ∧ m.log.head = l.log.head ∧
    m.log.tail = l.log.tail ∧ m.log.count = l.log.count ∧ m.log.tailSeq = l.log.tailSeq ∧ m.log.runs = l.log.runs ∧
    m.log.startDue = l.log.startDue ∧ m.log.flushing = l.log.flushing ∧ m.log.testHold = l.log.testHold ∧
    m.log.zeroing = l.log.zeroing ∧ m.journal.newest = l.journal.newest ∧ m.journal.valid = l.journal.valid ∧
    m.journal.result = l.journal.result ∧ m.journal.wroteAt = l.journal.wroteAt := by
  obtain ⟨h1, h2, -, h3, -⟩ := h
  rw [h1, h2, h3]
  exact ⟨rfl, rfl, rfl, rfl, rfl, rfl, rfl, rfl, rfl, rfl, rfl, rfl, rfl, rfl, rfl, rfl, rfl, rfl, rfl, rfl, rfl, rfl, rfl, rfl⟩

theorem PartReports.bus_keeps {l m : Live} (h : PartReports l m) (b : Nat) :
    (m.bus b).rpdoFaultCnt = (l.bus b).rpdoFaultCnt ∧ (m.bus b).hbTimeoutCnt = (l.bus b).hbTimeoutCnt ∧
    (m.bus b).nodeId = (l.bus b).nodeId ∧ (m.bus b).arbRate = (l.bus b).arbRate ∧ (m.bus b).dataRate = (l.bus b).dataRate ∧
    (m.bus b).lastHb = (l.bus b).lastHb ∧ (m.bus b).consumers = (l.bus b).consumers ∧ (m.bus b).lss = (l.bus b).lss ∧
    (m.bus b).storedCode = (l.bus b).storedCode ∧ (m.bus b).tpdoDrop = (l.bus b).tpdoDrop ∧
    (m.bus b).rpdoFlag = (l.bus b).rpdoFlag := by
  rw [(h.bus b).1]
  exact ⟨rfl, rfl, rfl, rfl, rfl, rfl, rfl, rfl, rfl, rfl, rfl⟩

/-- Every other bit of a bus status word stays. -/
theorem PartReports.bus_status {l m : Live} (h : PartReports l m) (b i : Nat) (hi : i ≠ 6) :
    (m.bus b).status.getLsbD i = (l.bus b).status.getLsbD i := (h.bus b).2 i hi

@[simp] theorem apply_parts_keep (f : Live → Live) (s : State) :
    ((s.apply f).live).net.nmt = (f s.live).net.nmt ∧
    ((s.apply f).live).net.opAt = (f s.live).net.opAt ∧
    ((s.apply f).live).net.choice = (f s.live).net.choice ∧
    ((s.apply f).live).net.conns = (f s.live).net.conns ∧
    ((s.apply f).live).net.tpdos = (f s.live).net.tpdos ∧
    ((s.apply f).live).net.rpdos = (f s.live).net.rpdos ∧
    ((s.apply f).live).net.lastSync = (f s.live).net.lastSync ∧
    ((s.apply f).live).net.window = (f s.live).net.window ∧
    ((s.apply f).live).net.key = (f s.live).net.key ∧
    ((s.apply f).live).log.staging = (f s.live).log.staging ∧
    ((s.apply f).live).log.nextSeq = (f s.live).log.nextSeq ∧
    ((s.apply f).live).log.head = (f s.live).log.head ∧
    ((s.apply f).live).log.tail = (f s.live).log.tail ∧
    ((s.apply f).live).log.count = (f s.live).log.count ∧
    ((s.apply f).live).log.tailSeq = (f s.live).log.tailSeq ∧
    ((s.apply f).live).log.runs = (f s.live).log.runs ∧
    ((s.apply f).live).log.startDue = (f s.live).log.startDue ∧
    ((s.apply f).live).log.flushing = (f s.live).log.flushing ∧
    ((s.apply f).live).log.testHold = (f s.live).log.testHold ∧
    ((s.apply f).live).log.zeroing = (f s.live).log.zeroing ∧
    ((s.apply f).live).journal.newest = (f s.live).journal.newest ∧
    ((s.apply f).live).journal.valid = (f s.live).journal.valid ∧
    ((s.apply f).live).journal.result = (f s.live).journal.result ∧
    ((s.apply f).live).journal.wroteAt = (f s.live).journal.wroteAt :=
  (apply_parts f s).keeps

@[simp] theorem apply_bus_keeps (f : Live → Live) (s : State) (b : Nat) :
    (((s.apply f).live).bus b).rpdoFaultCnt = ((f s.live).bus b).rpdoFaultCnt ∧
    (((s.apply f).live).bus b).hbTimeoutCnt = ((f s.live).bus b).hbTimeoutCnt ∧
    (((s.apply f).live).bus b).nodeId = ((f s.live).bus b).nodeId ∧
    (((s.apply f).live).bus b).arbRate = ((f s.live).bus b).arbRate ∧
    (((s.apply f).live).bus b).dataRate = ((f s.live).bus b).dataRate ∧
    (((s.apply f).live).bus b).lastHb = ((f s.live).bus b).lastHb ∧
    (((s.apply f).live).bus b).consumers = ((f s.live).bus b).consumers ∧
    (((s.apply f).live).bus b).lss = ((f s.live).bus b).lss ∧
    (((s.apply f).live).bus b).storedCode = ((f s.live).bus b).storedCode ∧
    (((s.apply f).live).bus b).tpdoDrop = ((f s.live).bus b).tpdoDrop ∧
    (((s.apply f).live).bus b).rpdoFlag = ((f s.live).bus b).rpdoFlag :=
  (apply_parts f s).bus_keeps b

@[simp] theorem writeRecord_parts_keep (src kind payload : Nat) (l : Live) :
    (writeRecord src kind payload l).net.nmt = (l).net.nmt ∧
    (writeRecord src kind payload l).net.opAt = (l).net.opAt ∧
    (writeRecord src kind payload l).net.choice = (l).net.choice ∧
    (writeRecord src kind payload l).net.conns = (l).net.conns ∧
    (writeRecord src kind payload l).net.tpdos = (l).net.tpdos ∧
    (writeRecord src kind payload l).net.rpdos = (l).net.rpdos ∧
    (writeRecord src kind payload l).net.lastSync = (l).net.lastSync ∧
    (writeRecord src kind payload l).net.window = (l).net.window ∧
    (writeRecord src kind payload l).net.key = (l).net.key ∧
    (writeRecord src kind payload l).log.staging = (l).log.staging ∧
    (writeRecord src kind payload l).log.nextSeq = (l).log.nextSeq ∧
    (writeRecord src kind payload l).log.head = (l).log.head ∧
    (writeRecord src kind payload l).log.tail = (l).log.tail ∧
    (writeRecord src kind payload l).log.count = (l).log.count ∧
    (writeRecord src kind payload l).log.tailSeq = (l).log.tailSeq ∧
    (writeRecord src kind payload l).log.runs = (l).log.runs ∧
    (writeRecord src kind payload l).log.startDue = (l).log.startDue ∧
    (writeRecord src kind payload l).log.flushing = (l).log.flushing ∧
    (writeRecord src kind payload l).log.testHold = (l).log.testHold ∧
    (writeRecord src kind payload l).log.zeroing = (l).log.zeroing ∧
    (writeRecord src kind payload l).journal.newest = (l).journal.newest ∧
    (writeRecord src kind payload l).journal.valid = (l).journal.valid ∧
    (writeRecord src kind payload l).journal.result = (l).journal.result ∧
    (writeRecord src kind payload l).journal.wroteAt = (l).journal.wroteAt :=
  (writeRecord_parts src kind payload l).keeps

@[simp] theorem writeRecord_bus_keeps (src kind payload : Nat) (l : Live) (b : Nat) :
    ((writeRecord src kind payload l).bus b).rpdoFaultCnt = ((l).bus b).rpdoFaultCnt ∧
    ((writeRecord src kind payload l).bus b).hbTimeoutCnt = ((l).bus b).hbTimeoutCnt ∧
    ((writeRecord src kind payload l).bus b).nodeId = ((l).bus b).nodeId ∧
    ((writeRecord src kind payload l).bus b).arbRate = ((l).bus b).arbRate ∧
    ((writeRecord src kind payload l).bus b).dataRate = ((l).bus b).dataRate ∧
    ((writeRecord src kind payload l).bus b).lastHb = ((l).bus b).lastHb ∧
    ((writeRecord src kind payload l).bus b).consumers = ((l).bus b).consumers ∧
    ((writeRecord src kind payload l).bus b).lss = ((l).bus b).lss ∧
    ((writeRecord src kind payload l).bus b).storedCode = ((l).bus b).storedCode ∧
    ((writeRecord src kind payload l).bus b).tpdoDrop = ((l).bus b).tpdoDrop ∧
    ((writeRecord src kind payload l).bus b).rpdoFlag = ((l).bus b).rpdoFlag :=
  (writeRecord_parts src kind payload l).bus_keeps b

@[simp] theorem emcy_parts_keep (code src payload : Nat) (l : Live) :
    (emcy code src payload l).net.nmt = (l).net.nmt ∧
    (emcy code src payload l).net.opAt = (l).net.opAt ∧
    (emcy code src payload l).net.choice = (l).net.choice ∧
    (emcy code src payload l).net.conns = (l).net.conns ∧
    (emcy code src payload l).net.tpdos = (l).net.tpdos ∧
    (emcy code src payload l).net.rpdos = (l).net.rpdos ∧
    (emcy code src payload l).net.lastSync = (l).net.lastSync ∧
    (emcy code src payload l).net.window = (l).net.window ∧
    (emcy code src payload l).net.key = (l).net.key ∧
    (emcy code src payload l).log.staging = (l).log.staging ∧
    (emcy code src payload l).log.nextSeq = (l).log.nextSeq ∧
    (emcy code src payload l).log.head = (l).log.head ∧
    (emcy code src payload l).log.tail = (l).log.tail ∧
    (emcy code src payload l).log.count = (l).log.count ∧
    (emcy code src payload l).log.tailSeq = (l).log.tailSeq ∧
    (emcy code src payload l).log.runs = (l).log.runs ∧
    (emcy code src payload l).log.startDue = (l).log.startDue ∧
    (emcy code src payload l).log.flushing = (l).log.flushing ∧
    (emcy code src payload l).log.testHold = (l).log.testHold ∧
    (emcy code src payload l).log.zeroing = (l).log.zeroing ∧
    (emcy code src payload l).journal.newest = (l).journal.newest ∧
    (emcy code src payload l).journal.valid = (l).journal.valid ∧
    (emcy code src payload l).journal.result = (l).journal.result ∧
    (emcy code src payload l).journal.wroteAt = (l).journal.wroteAt :=
  (emcy_parts code src payload l).keeps

@[simp] theorem emcy_bus_keeps (code src payload : Nat) (l : Live) (b : Nat) :
    ((emcy code src payload l).bus b).rpdoFaultCnt = ((l).bus b).rpdoFaultCnt ∧
    ((emcy code src payload l).bus b).hbTimeoutCnt = ((l).bus b).hbTimeoutCnt ∧
    ((emcy code src payload l).bus b).nodeId = ((l).bus b).nodeId ∧
    ((emcy code src payload l).bus b).arbRate = ((l).bus b).arbRate ∧
    ((emcy code src payload l).bus b).dataRate = ((l).bus b).dataRate ∧
    ((emcy code src payload l).bus b).lastHb = ((l).bus b).lastHb ∧
    ((emcy code src payload l).bus b).consumers = ((l).bus b).consumers ∧
    ((emcy code src payload l).bus b).lss = ((l).bus b).lss ∧
    ((emcy code src payload l).bus b).storedCode = ((l).bus b).storedCode ∧
    ((emcy code src payload l).bus b).tpdoDrop = ((l).bus b).tpdoDrop ∧
    ((emcy code src payload l).bus b).rpdoFlag = ((l).bus b).rpdoFlag :=
  (emcy_parts code src payload l).bus_keeps b

@[simp] theorem journalEntry_parts_keep (src kind payload code : Nat) (l : Live) :
    (journalEntry src kind payload code l).net.nmt = (l).net.nmt ∧
    (journalEntry src kind payload code l).net.opAt = (l).net.opAt ∧
    (journalEntry src kind payload code l).net.choice = (l).net.choice ∧
    (journalEntry src kind payload code l).net.conns = (l).net.conns ∧
    (journalEntry src kind payload code l).net.tpdos = (l).net.tpdos ∧
    (journalEntry src kind payload code l).net.rpdos = (l).net.rpdos ∧
    (journalEntry src kind payload code l).net.lastSync = (l).net.lastSync ∧
    (journalEntry src kind payload code l).net.window = (l).net.window ∧
    (journalEntry src kind payload code l).net.key = (l).net.key ∧
    (journalEntry src kind payload code l).log.staging = (l).log.staging ∧
    (journalEntry src kind payload code l).log.nextSeq = (l).log.nextSeq ∧
    (journalEntry src kind payload code l).log.head = (l).log.head ∧
    (journalEntry src kind payload code l).log.tail = (l).log.tail ∧
    (journalEntry src kind payload code l).log.count = (l).log.count ∧
    (journalEntry src kind payload code l).log.tailSeq = (l).log.tailSeq ∧
    (journalEntry src kind payload code l).log.runs = (l).log.runs ∧
    (journalEntry src kind payload code l).log.startDue = (l).log.startDue ∧
    (journalEntry src kind payload code l).log.flushing = (l).log.flushing ∧
    (journalEntry src kind payload code l).log.testHold = (l).log.testHold ∧
    (journalEntry src kind payload code l).log.zeroing = (l).log.zeroing ∧
    (journalEntry src kind payload code l).journal.newest = (l).journal.newest ∧
    (journalEntry src kind payload code l).journal.valid = (l).journal.valid ∧
    (journalEntry src kind payload code l).journal.result = (l).journal.result ∧
    (journalEntry src kind payload code l).journal.wroteAt = (l).journal.wroteAt :=
  (journalEntry_parts src kind payload code l).keeps

@[simp] theorem journalEntry_bus_keeps (src kind payload code : Nat) (l : Live) (b : Nat) :
    ((journalEntry src kind payload code l).bus b).rpdoFaultCnt = ((l).bus b).rpdoFaultCnt ∧
    ((journalEntry src kind payload code l).bus b).hbTimeoutCnt = ((l).bus b).hbTimeoutCnt ∧
    ((journalEntry src kind payload code l).bus b).nodeId = ((l).bus b).nodeId ∧
    ((journalEntry src kind payload code l).bus b).arbRate = ((l).bus b).arbRate ∧
    ((journalEntry src kind payload code l).bus b).dataRate = ((l).bus b).dataRate ∧
    ((journalEntry src kind payload code l).bus b).lastHb = ((l).bus b).lastHb ∧
    ((journalEntry src kind payload code l).bus b).consumers = ((l).bus b).consumers ∧
    ((journalEntry src kind payload code l).bus b).lss = ((l).bus b).lss ∧
    ((journalEntry src kind payload code l).bus b).storedCode = ((l).bus b).storedCode ∧
    ((journalEntry src kind payload code l).bus b).tpdoDrop = ((l).bus b).tpdoDrop ∧
    ((journalEntry src kind payload code l).bus b).rpdoFlag = ((l).bus b).rpdoFlag :=
  (journalEntry_parts src kind payload code l).bus_keeps b

@[simp] theorem reportFault_parts_keep (src kind payload code : Nat) (l : Live) :
    (reportFault src kind payload code l).net.nmt = (l).net.nmt ∧
    (reportFault src kind payload code l).net.opAt = (l).net.opAt ∧
    (reportFault src kind payload code l).net.choice = (l).net.choice ∧
    (reportFault src kind payload code l).net.conns = (l).net.conns ∧
    (reportFault src kind payload code l).net.tpdos = (l).net.tpdos ∧
    (reportFault src kind payload code l).net.rpdos = (l).net.rpdos ∧
    (reportFault src kind payload code l).net.lastSync = (l).net.lastSync ∧
    (reportFault src kind payload code l).net.window = (l).net.window ∧
    (reportFault src kind payload code l).net.key = (l).net.key ∧
    (reportFault src kind payload code l).log.staging = (l).log.staging ∧
    (reportFault src kind payload code l).log.nextSeq = (l).log.nextSeq ∧
    (reportFault src kind payload code l).log.head = (l).log.head ∧
    (reportFault src kind payload code l).log.tail = (l).log.tail ∧
    (reportFault src kind payload code l).log.count = (l).log.count ∧
    (reportFault src kind payload code l).log.tailSeq = (l).log.tailSeq ∧
    (reportFault src kind payload code l).log.runs = (l).log.runs ∧
    (reportFault src kind payload code l).log.startDue = (l).log.startDue ∧
    (reportFault src kind payload code l).log.flushing = (l).log.flushing ∧
    (reportFault src kind payload code l).log.testHold = (l).log.testHold ∧
    (reportFault src kind payload code l).log.zeroing = (l).log.zeroing ∧
    (reportFault src kind payload code l).journal.newest = (l).journal.newest ∧
    (reportFault src kind payload code l).journal.valid = (l).journal.valid ∧
    (reportFault src kind payload code l).journal.result = (l).journal.result ∧
    (reportFault src kind payload code l).journal.wroteAt = (l).journal.wroteAt :=
  (reportFault_parts src kind payload code l).keeps

@[simp] theorem reportFault_bus_keeps (src kind payload code : Nat) (l : Live) (b : Nat) :
    ((reportFault src kind payload code l).bus b).rpdoFaultCnt = ((l).bus b).rpdoFaultCnt ∧
    ((reportFault src kind payload code l).bus b).hbTimeoutCnt = ((l).bus b).hbTimeoutCnt ∧
    ((reportFault src kind payload code l).bus b).nodeId = ((l).bus b).nodeId ∧
    ((reportFault src kind payload code l).bus b).arbRate = ((l).bus b).arbRate ∧
    ((reportFault src kind payload code l).bus b).dataRate = ((l).bus b).dataRate ∧
    ((reportFault src kind payload code l).bus b).lastHb = ((l).bus b).lastHb ∧
    ((reportFault src kind payload code l).bus b).consumers = ((l).bus b).consumers ∧
    ((reportFault src kind payload code l).bus b).lss = ((l).bus b).lss ∧
    ((reportFault src kind payload code l).bus b).storedCode = ((l).bus b).storedCode ∧
    ((reportFault src kind payload code l).bus b).tpdoDrop = ((l).bus b).tpdoDrop ∧
    ((reportFault src kind payload code l).bus b).rpdoFlag = ((l).bus b).rpdoFlag :=
  (reportFault_parts src kind payload code l).bus_keeps b

@[simp] theorem reportJournal_parts_keep (src kind payload : Nat) (l : Live) :
    (reportJournal src kind payload l).net.nmt = (l).net.nmt ∧
    (reportJournal src kind payload l).net.opAt = (l).net.opAt ∧
    (reportJournal src kind payload l).net.choice = (l).net.choice ∧
    (reportJournal src kind payload l).net.conns = (l).net.conns ∧
    (reportJournal src kind payload l).net.tpdos = (l).net.tpdos ∧
    (reportJournal src kind payload l).net.rpdos = (l).net.rpdos ∧
    (reportJournal src kind payload l).net.lastSync = (l).net.lastSync ∧
    (reportJournal src kind payload l).net.window = (l).net.window ∧
    (reportJournal src kind payload l).net.key = (l).net.key ∧
    (reportJournal src kind payload l).log.staging = (l).log.staging ∧
    (reportJournal src kind payload l).log.nextSeq = (l).log.nextSeq ∧
    (reportJournal src kind payload l).log.head = (l).log.head ∧
    (reportJournal src kind payload l).log.tail = (l).log.tail ∧
    (reportJournal src kind payload l).log.count = (l).log.count ∧
    (reportJournal src kind payload l).log.tailSeq = (l).log.tailSeq ∧
    (reportJournal src kind payload l).log.runs = (l).log.runs ∧
    (reportJournal src kind payload l).log.startDue = (l).log.startDue ∧
    (reportJournal src kind payload l).log.flushing = (l).log.flushing ∧
    (reportJournal src kind payload l).log.testHold = (l).log.testHold ∧
    (reportJournal src kind payload l).log.zeroing = (l).log.zeroing ∧
    (reportJournal src kind payload l).journal.newest = (l).journal.newest ∧
    (reportJournal src kind payload l).journal.valid = (l).journal.valid ∧
    (reportJournal src kind payload l).journal.result = (l).journal.result ∧
    (reportJournal src kind payload l).journal.wroteAt = (l).journal.wroteAt :=
  (reportJournal_parts src kind payload l).keeps

@[simp] theorem reportJournal_bus_keeps (src kind payload : Nat) (l : Live) (b : Nat) :
    ((reportJournal src kind payload l).bus b).rpdoFaultCnt = ((l).bus b).rpdoFaultCnt ∧
    ((reportJournal src kind payload l).bus b).hbTimeoutCnt = ((l).bus b).hbTimeoutCnt ∧
    ((reportJournal src kind payload l).bus b).nodeId = ((l).bus b).nodeId ∧
    ((reportJournal src kind payload l).bus b).arbRate = ((l).bus b).arbRate ∧
    ((reportJournal src kind payload l).bus b).dataRate = ((l).bus b).dataRate ∧
    ((reportJournal src kind payload l).bus b).lastHb = ((l).bus b).lastHb ∧
    ((reportJournal src kind payload l).bus b).consumers = ((l).bus b).consumers ∧
    ((reportJournal src kind payload l).bus b).lss = ((l).bus b).lss ∧
    ((reportJournal src kind payload l).bus b).storedCode = ((l).bus b).storedCode ∧
    ((reportJournal src kind payload l).bus b).tpdoDrop = ((l).bus b).tpdoDrop ∧
    ((reportJournal src kind payload l).bus b).rpdoFlag = ((l).bus b).rpdoFlag :=
  (reportJournal_parts src kind payload l).bus_keeps b

/-! ### The accessors through reports -/

/-- The accessors of a live device that differs in its reporting units only. -/
theorem OnlyReports.acc {l m : Live} (h : OnlyReports l m) (k : m.net.conns = l.net.conns) :
    (∀ i, m.chan i = l.chan i) ∧ (∀ i, m.tpin i = l.tpin i) ∧ (∀ i, m.cluster i = l.cluster i) ∧ (∀ i, m.group i = l.group i) ∧ (∀ i, m.entry i = l.entry i) ∧ (∀ i, m.queue i = l.queue i) ∧ (∀ i, m.wheel i = l.wheel i) ∧ (∀ i, m.port i = l.port i) ∧ (∀ i, m.pair i = l.pair i) ∧ (∀ i, m.trip i = l.trip i) ∧ (∀ i, m.anIn i = l.anIn i) ∧ (∀ i, m.conv i = l.conv i) ∧ (∀ i, m.seq i = l.seq i) ∧ (∀ i, m.pe i = l.pe i) ∧ (∀ i, m.dc i = l.dc i) ∧ (∀ i, m.irqGroup i = l.irqGroup i) ∧ (∀ i, m.connSt i = l.connSt i) ∧ (∀ i, m.baseVal i = l.baseVal i) ∧ (∀ i, m.val i = l.val i) ∧
    m.now = l.now ∧ (∀ i j, m.cfg i j = l.cfg i j) ∧ (∀ i j, m.flag i j = l.flag i j) := by
  have e : ∀ i, m.connSt i = l.connSt i := fun i => by unfold Live.connSt; rw [k]
  unfold OnlyReports at h
  rw [h] at e ⊢
  exact ⟨fun _ => rfl, fun _ => rfl, fun _ => rfl, fun _ => rfl, fun _ => rfl, fun _ => rfl, fun _ => rfl, fun _ => rfl, fun _ => rfl, fun _ => rfl, fun _ => rfl, fun _ => rfl, fun _ => rfl, fun _ => rfl, fun _ => rfl, fun _ => rfl, e, fun _ => rfl, fun _ => rfl, rfl, fun _ _ => rfl, fun _ _ => rfl⟩

@[simp] theorem writeRecord_acc (src kind payload : Nat) (l : Live) :
    (∀ i, (writeRecord src kind payload l).chan i = l.chan i) ∧
    (∀ i, (writeRecord src kind payload l).tpin i = l.tpin i) ∧
    (∀ i, (writeRecord src kind payload l).cluster i = l.cluster i) ∧
    (∀ i, (writeRecord src kind payload l).group i = l.group i) ∧
    (∀ i, (writeRecord src kind payload l).entry i = l.entry i) ∧
    (∀ i, (writeRecord src kind payload l).queue i = l.queue i) ∧
    (∀ i, (writeRecord src kind payload l).wheel i = l.wheel i) ∧
    (∀ i, (writeRecord src kind payload l).port i = l.port i) ∧
    (∀ i, (writeRecord src kind payload l).pair i = l.pair i) ∧
    (∀ i, (writeRecord src kind payload l).trip i = l.trip i) ∧
    (∀ i, (writeRecord src kind payload l).anIn i = l.anIn i) ∧
    (∀ i, (writeRecord src kind payload l).conv i = l.conv i) ∧
    (∀ i, (writeRecord src kind payload l).seq i = l.seq i) ∧
    (∀ i, (writeRecord src kind payload l).pe i = l.pe i) ∧
    (∀ i, (writeRecord src kind payload l).dc i = l.dc i) ∧
    (∀ i, (writeRecord src kind payload l).irqGroup i = l.irqGroup i) ∧
    (∀ i, (writeRecord src kind payload l).connSt i = l.connSt i) ∧
    (∀ i, (writeRecord src kind payload l).baseVal i = l.baseVal i) ∧
    (∀ i, (writeRecord src kind payload l).val i = l.val i) ∧
    (writeRecord src kind payload l).now = l.now ∧ (∀ i j, (writeRecord src kind payload l).cfg i j = l.cfg i j) ∧ (∀ i j, (writeRecord src kind payload l).flag i j = l.flag i j) :=
  (writeRecord_reports src kind payload l).acc (by simp)

@[simp] theorem emcy_acc (code src payload : Nat) (l : Live) :
    (∀ i, (emcy code src payload l).chan i = l.chan i) ∧
    (∀ i, (emcy code src payload l).tpin i = l.tpin i) ∧
    (∀ i, (emcy code src payload l).cluster i = l.cluster i) ∧
    (∀ i, (emcy code src payload l).group i = l.group i) ∧
    (∀ i, (emcy code src payload l).entry i = l.entry i) ∧
    (∀ i, (emcy code src payload l).queue i = l.queue i) ∧
    (∀ i, (emcy code src payload l).wheel i = l.wheel i) ∧
    (∀ i, (emcy code src payload l).port i = l.port i) ∧
    (∀ i, (emcy code src payload l).pair i = l.pair i) ∧
    (∀ i, (emcy code src payload l).trip i = l.trip i) ∧
    (∀ i, (emcy code src payload l).anIn i = l.anIn i) ∧
    (∀ i, (emcy code src payload l).conv i = l.conv i) ∧
    (∀ i, (emcy code src payload l).seq i = l.seq i) ∧
    (∀ i, (emcy code src payload l).pe i = l.pe i) ∧
    (∀ i, (emcy code src payload l).dc i = l.dc i) ∧
    (∀ i, (emcy code src payload l).irqGroup i = l.irqGroup i) ∧
    (∀ i, (emcy code src payload l).connSt i = l.connSt i) ∧
    (∀ i, (emcy code src payload l).baseVal i = l.baseVal i) ∧
    (∀ i, (emcy code src payload l).val i = l.val i) ∧
    (emcy code src payload l).now = l.now ∧ (∀ i j, (emcy code src payload l).cfg i j = l.cfg i j) ∧ (∀ i j, (emcy code src payload l).flag i j = l.flag i j) :=
  (emcy_reports code src payload l).acc (by simp)

@[simp] theorem journalEntry_acc (src kind payload code : Nat) (l : Live) :
    (∀ i, (journalEntry src kind payload code l).chan i = l.chan i) ∧
    (∀ i, (journalEntry src kind payload code l).tpin i = l.tpin i) ∧
    (∀ i, (journalEntry src kind payload code l).cluster i = l.cluster i) ∧
    (∀ i, (journalEntry src kind payload code l).group i = l.group i) ∧
    (∀ i, (journalEntry src kind payload code l).entry i = l.entry i) ∧
    (∀ i, (journalEntry src kind payload code l).queue i = l.queue i) ∧
    (∀ i, (journalEntry src kind payload code l).wheel i = l.wheel i) ∧
    (∀ i, (journalEntry src kind payload code l).port i = l.port i) ∧
    (∀ i, (journalEntry src kind payload code l).pair i = l.pair i) ∧
    (∀ i, (journalEntry src kind payload code l).trip i = l.trip i) ∧
    (∀ i, (journalEntry src kind payload code l).anIn i = l.anIn i) ∧
    (∀ i, (journalEntry src kind payload code l).conv i = l.conv i) ∧
    (∀ i, (journalEntry src kind payload code l).seq i = l.seq i) ∧
    (∀ i, (journalEntry src kind payload code l).pe i = l.pe i) ∧
    (∀ i, (journalEntry src kind payload code l).dc i = l.dc i) ∧
    (∀ i, (journalEntry src kind payload code l).irqGroup i = l.irqGroup i) ∧
    (∀ i, (journalEntry src kind payload code l).connSt i = l.connSt i) ∧
    (∀ i, (journalEntry src kind payload code l).baseVal i = l.baseVal i) ∧
    (∀ i, (journalEntry src kind payload code l).val i = l.val i) ∧
    (journalEntry src kind payload code l).now = l.now ∧ (∀ i j, (journalEntry src kind payload code l).cfg i j = l.cfg i j) ∧ (∀ i j, (journalEntry src kind payload code l).flag i j = l.flag i j) :=
  (journalEntry_only src kind payload code l).acc (by simp)

@[simp] theorem reportFault_acc (src kind payload code : Nat) (l : Live) :
    (∀ i, (reportFault src kind payload code l).chan i = l.chan i) ∧
    (∀ i, (reportFault src kind payload code l).tpin i = l.tpin i) ∧
    (∀ i, (reportFault src kind payload code l).cluster i = l.cluster i) ∧
    (∀ i, (reportFault src kind payload code l).group i = l.group i) ∧
    (∀ i, (reportFault src kind payload code l).entry i = l.entry i) ∧
    (∀ i, (reportFault src kind payload code l).queue i = l.queue i) ∧
    (∀ i, (reportFault src kind payload code l).wheel i = l.wheel i) ∧
    (∀ i, (reportFault src kind payload code l).port i = l.port i) ∧
    (∀ i, (reportFault src kind payload code l).pair i = l.pair i) ∧
    (∀ i, (reportFault src kind payload code l).trip i = l.trip i) ∧
    (∀ i, (reportFault src kind payload code l).anIn i = l.anIn i) ∧
    (∀ i, (reportFault src kind payload code l).conv i = l.conv i) ∧
    (∀ i, (reportFault src kind payload code l).seq i = l.seq i) ∧
    (∀ i, (reportFault src kind payload code l).pe i = l.pe i) ∧
    (∀ i, (reportFault src kind payload code l).dc i = l.dc i) ∧
    (∀ i, (reportFault src kind payload code l).irqGroup i = l.irqGroup i) ∧
    (∀ i, (reportFault src kind payload code l).connSt i = l.connSt i) ∧
    (∀ i, (reportFault src kind payload code l).baseVal i = l.baseVal i) ∧
    (∀ i, (reportFault src kind payload code l).val i = l.val i) ∧
    (reportFault src kind payload code l).now = l.now ∧ (∀ i j, (reportFault src kind payload code l).cfg i j = l.cfg i j) ∧ (∀ i j, (reportFault src kind payload code l).flag i j = l.flag i j) :=
  (reportFault_only src kind payload code l).acc (by simp)

@[simp] theorem reportJournal_acc (src kind payload : Nat) (l : Live) :
    (∀ i, (reportJournal src kind payload l).chan i = l.chan i) ∧
    (∀ i, (reportJournal src kind payload l).tpin i = l.tpin i) ∧
    (∀ i, (reportJournal src kind payload l).cluster i = l.cluster i) ∧
    (∀ i, (reportJournal src kind payload l).group i = l.group i) ∧
    (∀ i, (reportJournal src kind payload l).entry i = l.entry i) ∧
    (∀ i, (reportJournal src kind payload l).queue i = l.queue i) ∧
    (∀ i, (reportJournal src kind payload l).wheel i = l.wheel i) ∧
    (∀ i, (reportJournal src kind payload l).port i = l.port i) ∧
    (∀ i, (reportJournal src kind payload l).pair i = l.pair i) ∧
    (∀ i, (reportJournal src kind payload l).trip i = l.trip i) ∧
    (∀ i, (reportJournal src kind payload l).anIn i = l.anIn i) ∧
    (∀ i, (reportJournal src kind payload l).conv i = l.conv i) ∧
    (∀ i, (reportJournal src kind payload l).seq i = l.seq i) ∧
    (∀ i, (reportJournal src kind payload l).pe i = l.pe i) ∧
    (∀ i, (reportJournal src kind payload l).dc i = l.dc i) ∧
    (∀ i, (reportJournal src kind payload l).irqGroup i = l.irqGroup i) ∧
    (∀ i, (reportJournal src kind payload l).connSt i = l.connSt i) ∧
    (∀ i, (reportJournal src kind payload l).baseVal i = l.baseVal i) ∧
    (∀ i, (reportJournal src kind payload l).val i = l.val i) ∧
    (reportJournal src kind payload l).now = l.now ∧ (∀ i j, (reportJournal src kind payload l).cfg i j = l.cfg i j) ∧ (∀ i j, (reportJournal src kind payload l).flag i j = l.flag i j) :=
  (reportJournal_only src kind payload l).acc (by simp)

/-! ### The accessors through `State.apply` -/

@[simp] theorem apply_chan (f : Live → Live) (s : State) (c : Nat) : (s.apply f).live.chan c = (f s.live).chan c := by
  simp [Live.chan]

@[simp] theorem apply_tpin (f : Live → Live) (s : State) (n : Nat) : (s.apply f).live.tpin n = (f s.live).tpin n := by
  simp [Live.tpin]

@[simp] theorem apply_cluster (f : Live → Live) (s : State) (k : Nat) : (s.apply f).live.cluster k = (f s.live).cluster k := by
  simp [Live.cluster]

@[simp] theorem apply_group (f : Live → Live) (s : State) (g : Nat) : (s.apply f).live.group g = (f s.live).group g := by
  simp [Live.group]

@[simp] theorem apply_entry (f : Live → Live) (s : State) (e : Nat) : (s.apply f).live.entry e = (f s.live).entry e := by
  simp [Live.entry]

@[simp] theorem apply_queue (f : Live → Live) (s : State) (q : Nat) : (s.apply f).live.queue q = (f s.live).queue q := by
  simp [Live.queue]

@[simp] theorem apply_wheel (f : Live → Live) (s : State) (w : Nat) : (s.apply f).live.wheel w = (f s.live).wheel w := by
  simp [Live.wheel]

@[simp] theorem apply_port (f : Live → Live) (s : State) (n : Nat) : (s.apply f).live.port n = (f s.live).port n := by
  simp [Live.port]

@[simp] theorem apply_pair (f : Live → Live) (s : State) (u : Nat) : (s.apply f).live.pair u = (f s.live).pair u := by
  simp [Live.pair]

@[simp] theorem apply_trip (f : Live → Live) (s : State) (i : Nat) : (s.apply f).live.trip i = (f s.live).trip i := by
  simp [Live.trip]

@[simp] theorem apply_anIn (f : Live → Live) (s : State) (a : Nat) : (s.apply f).live.anIn a = (f s.live).anIn a := by
  simp [Live.anIn]

@[simp] theorem apply_conv (f : Live → Live) (s : State) (k : Nat) : (s.apply f).live.conv k = (f s.live).conv k := by
  simp [Live.conv]

@[simp] theorem apply_seq (f : Live → Live) (s : State) (q : Nat) : (s.apply f).live.seq q = (f s.live).seq q := by
  simp [Live.seq]

@[simp] theorem apply_pe (f : Live → Live) (s : State) (e : Nat) : (s.apply f).live.pe e = (f s.live).pe e := by
  simp [Live.pe]

@[simp] theorem apply_dc (f : Live → Live) (s : State) (c : Nat) : (s.apply f).live.dc c = (f s.live).dc c := by
  simp [Live.dc]

@[simp] theorem apply_irqGroup (f : Live → Live) (s : State) (g : Nat) : (s.apply f).live.irqGroup g = (f s.live).irqGroup g := by
  simp [Live.irqGroup]

@[simp] theorem apply_baseVal (f : Live → Live) (s : State) (k : Nat) : (s.apply f).live.baseVal k = (f s.live).baseVal k := by
  simp [Live.baseVal]

@[simp] theorem apply_val (f : Live → Live) (s : State) (k : Nat) : (s.apply f).live.val k = (f s.live).val k := by
  simp [Live.val, Live.baseVal]

@[simp] theorem apply_connSt (f : Live → Live) (s : State) (i : Nat) : (s.apply f).live.connSt i = (f s.live).connSt i := by
  simp [Live.connSt]

@[simp] theorem apply_now (f : Live → Live) (s : State) : (s.apply f).live.now = (f s.live).now := by
  simp [Live.now]

@[simp] theorem apply_cfg (f : Live → Live) (s : State) (idx sub : Nat) : (s.apply f).live.cfg idx sub = (f s.live).cfg idx sub := by
  simp [Live.cfg]

@[simp] theorem apply_flag (f : Live → Live) (s : State) (idx sub : Nat) : (s.apply f).live.flag idx sub = (f s.live).flag idx sub := by
  simp [Live.flag]

end Sys2Proof.Machine
end

