-- ==== Sys2Proof/Laws/Events.lean ====
section
/-! SUPPORT. What the scheduler's bookkeeping (reached keys, jumps of a lane, withdrawn entries) can change: the event table alone. -/

namespace Sys2Proof.Machine

open Sys2Proof

/-- A relation that every pass of a loop keeps holds over the loop. -/
theorem forAll_rel {α : Type} {R : Live → Live → Prop} (refl : ∀ l, R l l) (trans : ∀ a b c, R a b → R b c → R a c)
    {f : α → Live → Live} (h : ∀ x l, R l (f x l)) : ∀ (xs : List α) (l : Live), R l (forAll f xs l)
  | [], l => refl l
  | x :: r, l => trans _ _ _ (h x l) (forAll_rel refl trans h r (f x l))

/-- Nothing but the event table and the notes of flags just set differs. -/
def OnlyEvents (l m : Live) : Prop := m = { l with events := m.events, flagsNow := m.flagsNow }

theorem OnlyEvents.refl (l : Live) : OnlyEvents l l := rfl

theorem OnlyEvents.trans {a b c : Live} (h : OnlyEvents a b) (k : OnlyEvents b c) : OnlyEvents a c := by
  unfold OnlyEvents at *
  rw [k, h]

theorem forAll_onlyEvents {α : Type} {f : α → Live → Live} (h : ∀ x l, OnlyEvents l (f x l)) (xs : List α) (l : Live) :
    OnlyEvents l (forAll f xs l) := forAll_rel OnlyEvents.refl (fun _ _ _ => OnlyEvents.trans) h xs l

theorem laneReached_onlyEvents (w lane fine : Nat) (lagging : Bool) (l : Live) : OnlyEvents l (laneReached w lane fine lagging l) := by
  unfold laneReached
  refine forAll_onlyEvents (fun e m => ?_) _ _
  dsimp only
  split <;> rfl

theorem jumpQueue_onlyEvents (q old new : Nat) (l : Live) : OnlyEvents l (jumpQueue q old new l) := by
  unfold jumpQueue
  dsimp only
  split
  · rfl
  · refine OnlyEvents.trans (b := forAll _ (usedEntries (queueFlag q 5 l)) (queueFlag q 5 l))
      (OnlyEvents.trans (b := queueFlag q 5 l) rfl (forAll_onlyEvents (fun e m => ?_) _ _)) rfl
    split
    · rfl
    · split <;> split <;> rfl

theorem trackQueue_onlyEvents (q : Nat) (l : Live) : OnlyEvents l (trackQueue q l) := by
  unfold trackQueue
  dsimp only
  split
  · rfl
  · split
    · split
      · rfl
      · refine OnlyEvents.trans (b := l.setQueue q _) rfl (forAll_onlyEvents (fun e m => ?_) _ _)
        split <;> rfl
    · split
      · exact OnlyEvents.trans (b := l.setQueue q _) rfl (jumpQueue_onlyEvents _ _ _ _)
      · rfl

theorem trackWheel_onlyEvents (w : Nat) (l : Live) : OnlyEvents l (trackWheel w l) := by
  unfold trackWheel
  refine forAll_onlyEvents (fun q m => ?_) _ _
  split
  · exact trackQueue_onlyEvents _ _
  · rfl

theorem laneSet_onlyEvents (w old new : Nat) (l : Live) : OnlyEvents l (laneSet w old new l) := by
  unfold laneSet
  refine forAll_onlyEvents (fun q m => ?_) _ _
  split
  · exact jumpQueue_onlyEvents _ _ _ _
  · rfl

theorem predictAfresh_onlyEvents (w : Nat) (l : Live) : OnlyEvents l (predictAfresh w l) := by
  unfold predictAfresh
  refine forAll_onlyEvents (fun e m => ?_) _ _
  dsimp only
  split
  · split <;> rfl
  · rfl

theorem portMoved_onlyEvents (n p0 p1 : Nat) (l : Live) : OnlyEvents l (portMoved n p0 p1 l) := by
  unfold portMoved
  dsimp only
  split
  · rfl
  · refine forAll_onlyEvents (fun q m => ?_) _ _
    split
    · rfl
    · refine OnlyEvents.trans (b := forAll _ _ m) (forAll_onlyEvents (fun e k => ?_) _ _) rfl
      split <;> split <;> rfl

theorem OnlyEvents.cfg {l m : Live} (h : OnlyEvents l m) (i j : Nat) : m.cfg i j = l.cfg i j := by
  unfold OnlyEvents at h
  rw [h]
  rfl

theorem OnlyEvents.keeps {l m : Live} (h : OnlyEvents l m) :
    m.time = l.time ∧
    m.snap = l.snap ∧
    m.conf = l.conf ∧
    m.groups = l.groups ∧
    m.channels = l.channels ∧
    m.tpins = l.tpins ∧
    m.clusters = l.clusters ∧
    m.micro = l.micro ∧
    m.wheels = l.wheels ∧
    m.ports = l.ports ∧
    m.pairs = l.pairs ∧
    m.pwm = l.pwm ∧
    m.trips = l.trips ∧
    m.analog = l.analog ∧
    m.engines = l.engines ∧
    m.dma = l.dma ∧
    m.log = l.log ∧
    m.irq = l.irq ∧
    m.doze = l.doze ∧
    m.net = l.net ∧
    m.host = l.host ∧
    m.mail = l.mail ∧
    m.mram = l.mram ∧
    m.journal = l.journal ∧
    m.rst = l.rst ∧
    m.mem = l.mem ∧
    m.dmaLast = l.dmaLast ∧
    m.dmaPosted = l.dmaPosted ∧
    m.freeIdx = l.freeIdx := by
  unfold OnlyEvents at h
  rw [h]
  exact ⟨rfl, rfl, rfl, rfl, rfl, rfl, rfl, rfl, rfl, rfl, rfl, rfl, rfl, rfl, rfl, rfl, rfl, rfl, rfl, rfl, rfl, rfl, rfl, rfl, rfl, rfl, rfl, rfl, rfl⟩

@[simp] theorem laneReached_keeps (w lane fine : Nat) (lagging : Bool) (l : Live) :
    (laneReached w lane fine lagging l).time = l.time ∧
    (laneReached w lane fine lagging l).snap = l.snap ∧
    (laneReached w lane fine lagging l).conf = l.conf ∧
    (laneReached w lane fine lagging l).groups = l.groups ∧
    (laneReached w lane fine lagging l).channels = l.channels ∧
    (laneReached w lane fine lagging l).tpins = l.tpins ∧
    (laneReached w lane fine lagging l).clusters = l.clusters ∧
    (laneReached w lane fine lagging l).micro = l.micro ∧
    (laneReached w lane fine lagging l).wheels = l.wheels ∧
    (laneReached w lane fine lagging l).ports = l.ports ∧
    (laneReached w lane fine lagging l).pairs = l.pairs ∧
    (laneReached w lane fine lagging l).pwm = l.pwm ∧
    (laneReached w lane fine lagging l).trips = l.trips ∧
    (laneReached w lane fine lagging l).analog = l.analog ∧
    (laneReached w lane fine lagging l).engines = l.engines ∧
    (laneReached w lane fine lagging l).dma = l.dma ∧
    (laneReached w lane fine lagging l).log = l.log ∧
    (laneReached w lane fine lagging l).irq = l.irq ∧
    (laneReached w lane fine lagging l).doze = l.doze ∧
    (laneReached w lane fine lagging l).net = l.net ∧
    (laneReached w lane fine lagging l).host = l.host ∧
    (laneReached w lane fine lagging l).mail = l.mail ∧
    (laneReached w lane fine lagging l).mram = l.mram ∧
    (laneReached w lane fine lagging l).journal = l.journal ∧
    (laneReached w lane fine lagging l).rst = l.rst ∧
    (laneReached w lane fine lagging l).mem = l.mem ∧
    (laneReached w lane fine lagging l).dmaLast = l.dmaLast ∧
    (laneReached w lane fine lagging l).dmaPosted = l.dmaPosted ∧
    (laneReached w lane fine lagging l).freeIdx = l.freeIdx :=
  (laneReached_onlyEvents w lane fine lagging l).keeps

@[simp] theorem laneReached_wheel (w lane fine : Nat) (lagging : Bool) (l : Live) (v : Nat) : (laneReached w lane fine lagging l).wheel v = l.wheel v := by
  simp [Live.wheel]

@[simp] theorem laneReached_now (w lane fine : Nat) (lagging : Bool) (l : Live) : (laneReached w lane fine lagging l).now = l.now := by
  simp [Live.now]

@[simp] theorem laneReached_cfg (w lane fine : Nat) (lagging : Bool) (l : Live) (i j : Nat) : (laneReached w lane fine lagging l).cfg i j = l.cfg i j :=
  (laneReached_onlyEvents w lane fine lagging l).cfg i j

@[simp] theorem trackWheel_keeps (w : Nat) (l : Live) :
    (trackWheel w l).time = l.time ∧
    (trackWheel w l).snap = l.snap ∧
    (trackWheel w l).conf = l.conf ∧
    (trackWheel w l).groups = l.groups ∧
    (trackWheel w l).channels = l.channels ∧
    (trackWheel w l).tpins = l.tpins ∧
    (trackWheel w l).clusters = l.clusters ∧
    (trackWheel w l).micro = l.micro ∧
    (trackWheel w l).wheels = l.wheels ∧
    (trackWheel w l).ports = l.ports ∧
    (trackWheel w l).pairs = l.pairs ∧
    (trackWheel w l).pwm = l.pwm ∧
    (trackWheel w l).trips = l.trips ∧
    (trackWheel w l).analog = l.analog ∧
    (trackWheel w l).engines = l.engines ∧
    (trackWheel w l).dma = l.dma ∧
    (trackWheel w l).log = l.log ∧
    (trackWheel w l).irq = l.irq ∧
    (trackWheel w l).doze = l.doze ∧
    (trackWheel w l).net = l.net ∧
    (trackWheel w l).host = l.host ∧
    (trackWheel w l).mail = l.mail ∧
    (trackWheel w l).mram = l.mram ∧
    (trackWheel w l).journal = l.journal ∧
    (trackWheel w l).rst = l.rst ∧
    (trackWheel w l).mem = l.mem ∧
    (trackWheel w l).dmaLast = l.dmaLast ∧
    (trackWheel w l).dmaPosted = l.dmaPosted ∧
    (trackWheel w l).freeIdx = l.freeIdx :=
  (trackWheel_onlyEvents w l).keeps

@[simp] theorem trackWheel_wheel (w : Nat) (l : Live) (v : Nat) : (trackWheel w l).wheel v = l.wheel v := by
  simp [Live.wheel]

@[simp] theorem trackWheel_now (w : Nat) (l : Live) : (trackWheel w l).now = l.now := by
  simp [Live.now]

@[simp] theorem trackWheel_cfg (w : Nat) (l : Live) (i j : Nat) : (trackWheel w l).cfg i j = l.cfg i j :=
  (trackWheel_onlyEvents w l).cfg i j

@[simp] theorem trackQueue_keeps (q : Nat) (l : Live) :
    (trackQueue q l).time = l.time ∧
    (trackQueue q l).snap = l.snap ∧
    (trackQueue q l).conf = l.conf ∧
    (trackQueue q l).groups = l.groups ∧
    (trackQueue q l).channels = l.channels ∧
    (trackQueue q l).tpins = l.tpins ∧
    (trackQueue q l).clusters = l.clusters ∧
    (trackQueue q l).micro = l.micro ∧
    (trackQueue q l).wheels = l.wheels ∧
    (trackQueue q l).ports = l.ports ∧
    (trackQueue q l).pairs = l.pairs ∧
    (trackQueue q l).pwm = l.pwm ∧
    (trackQueue q l).trips = l.trips ∧
    (trackQueue q l).analog = l.analog ∧
    (trackQueue q l).engines = l.engines ∧
    (trackQueue q l).dma = l.dma ∧
    (trackQueue q l).log = l.log ∧
    (trackQueue q l).irq = l.irq ∧
    (trackQueue q l).doze = l.doze ∧
    (trackQueue q l).net = l.net ∧
    (trackQueue q l).host = l.host ∧
    (trackQueue q l).mail = l.mail ∧
    (trackQueue q l).mram = l.mram ∧
    (trackQueue q l).journal = l.journal ∧
    (trackQueue q l).rst = l.rst ∧
    (trackQueue q l).mem = l.mem ∧
    (trackQueue q l).dmaLast = l.dmaLast ∧
    (trackQueue q l).dmaPosted = l.dmaPosted ∧
    (trackQueue q l).freeIdx = l.freeIdx :=
  (trackQueue_onlyEvents q l).keeps

@[simp] theorem trackQueue_wheel (q : Nat) (l : Live) (v : Nat) : (trackQueue q l).wheel v = l.wheel v := by
  simp [Live.wheel]

@[simp] theorem trackQueue_now (q : Nat) (l : Live) : (trackQueue q l).now = l.now := by
  simp [Live.now]

@[simp] theorem trackQueue_cfg (q : Nat) (l : Live) (i j : Nat) : (trackQueue q l).cfg i j = l.cfg i j :=
  (trackQueue_onlyEvents q l).cfg i j

@[simp] theorem laneSet_keeps (w old new : Nat) (l : Live) :
    (laneSet w old new l).time = l.time ∧
    (laneSet w old new l).snap = l.snap ∧
    (laneSet w old new l).conf = l.conf ∧
    (laneSet w old new l).groups = l.groups ∧
    (laneSet w old new l).channels = l.channels ∧
    (laneSet w old new l).tpins = l.tpins ∧
    (laneSet w old new l).clusters = l.clusters ∧
    (laneSet w old new l).micro = l.micro ∧
    (laneSet w old new l).wheels = l.wheels ∧
    (laneSet w old new l).ports = l.ports ∧
    (laneSet w old new l).pairs = l.pairs ∧
    (laneSet w old new l).pwm = l.pwm ∧
    (laneSet w old new l).trips = l.trips ∧
    (laneSet w old new l).analog = l.analog ∧
    (laneSet w old new l).engines = l.engines ∧
    (laneSet w old new l).dma = l.dma ∧
    (laneSet w old new l).log = l.log ∧
    (laneSet w old new l).irq = l.irq ∧
    (laneSet w old new l).doze = l.doze ∧
    (laneSet w old new l).net = l.net ∧
    (laneSet w old new l).host = l.host ∧
    (laneSet w old new l).mail = l.mail ∧
    (laneSet w old new l).mram = l.mram ∧
    (laneSet w old new l).journal = l.journal ∧
    (laneSet w old new l).rst = l.rst ∧
    (laneSet w old new l).mem = l.mem ∧
    (laneSet w old new l).dmaLast = l.dmaLast ∧
    (laneSet w old new l).dmaPosted = l.dmaPosted ∧
    (laneSet w old new l).freeIdx = l.freeIdx :=
  (laneSet_onlyEvents w old new l).keeps

@[simp] theorem laneSet_wheel (w old new : Nat) (l : Live) (v : Nat) : (laneSet w old new l).wheel v = l.wheel v := by
  simp [Live.wheel]

@[simp] theorem laneSet_now (w old new : Nat) (l : Live) : (laneSet w old new l).now = l.now := by
  simp [Live.now]

@[simp] theorem laneSet_cfg (w old new : Nat) (l : Live) (i j : Nat) : (laneSet w old new l).cfg i j = l.cfg i j :=
  (laneSet_onlyEvents w old new l).cfg i j

@[simp] theorem jumpQueue_keeps (q old new : Nat) (l : Live) :
    (jumpQueue q old new l).time = l.time ∧
    (jumpQueue q old new l).snap = l.snap ∧
    (jumpQueue q old new l).conf = l.conf ∧
    (jumpQueue q old new l).groups = l.groups ∧
    (jumpQueue q old new l).channels = l.channels ∧
    (jumpQueue q old new l).tpins = l.tpins ∧
    (jumpQueue q old new l).clusters = l.clusters ∧
    (jumpQueue q old new l).micro = l.micro ∧
    (jumpQueue q old new l).wheels = l.wheels ∧
    (jumpQueue q old new l).ports = l.ports ∧
    (jumpQueue q old new l).pairs = l.pairs ∧
    (jumpQueue q old new l).pwm = l.pwm ∧
    (jumpQueue q old new l).trips = l.trips ∧
    (jumpQueue q old new l).analog = l.analog ∧
    (jumpQueue q old new l).engines = l.engines ∧
    (jumpQueue q old new l).dma = l.dma ∧
    (jumpQueue q old new l).log = l.log ∧
    (jumpQueue q old new l).irq = l.irq ∧
    (jumpQueue q old new l).doze = l.doze ∧
    (jumpQueue q old new l).net = l.net ∧
    (jumpQueue q old new l).host = l.host ∧
    (jumpQueue q old new l).mail = l.mail ∧
    (jumpQueue q old new l).mram = l.mram ∧
    (jumpQueue q old new l).journal = l.journal ∧
    (jumpQueue q old new l).rst = l.rst ∧
    (jumpQueue q old new l).mem = l.mem ∧
    (jumpQueue q old new l).dmaLast = l.dmaLast ∧
    (jumpQueue q old new l).dmaPosted = l.dmaPosted ∧
    (jumpQueue q old new l).freeIdx = l.freeIdx :=
  (jumpQueue_onlyEvents q old new l).keeps

@[simp] theorem jumpQueue_wheel (q old new : Nat) (l : Live) (v : Nat) : (jumpQueue q old new l).wheel v = l.wheel v := by
  simp [Live.wheel]

@[simp] theorem jumpQueue_now (q old new : Nat) (l : Live) : (jumpQueue q old new l).now = l.now := by
  simp [Live.now]

@[simp] theorem jumpQueue_cfg (q old new : Nat) (l : Live) (i j : Nat) : (jumpQueue q old new l).cfg i j = l.cfg i j :=
  (jumpQueue_onlyEvents q old new l).cfg i j

@[simp] theorem predictAfresh_keeps (w : Nat) (l : Live) :
    (predictAfresh w l).time = l.time ∧
    (predictAfresh w l).snap = l.snap ∧
    (predictAfresh w l).conf = l.conf ∧
    (predictAfresh w l).groups = l.groups ∧
    (predictAfresh w l).channels = l.channels ∧
    (predictAfresh w l).tpins = l.tpins ∧
    (predictAfresh w l).clusters = l.clusters ∧
    (predictAfresh w l).micro = l.micro ∧
    (predictAfresh w l).wheels = l.wheels ∧
    (predictAfresh w l).ports = l.ports ∧
    (predictAfresh w l).pairs = l.pairs ∧
    (predictAfresh w l).pwm = l.pwm ∧
    (predictAfresh w l).trips = l.trips ∧
    (predictAfresh w l).analog = l.analog ∧
    (predictAfresh w l).engines = l.engines ∧
    (predictAfresh w l).dma = l.dma ∧
    (predictAfresh w l).log = l.log ∧
    (predictAfresh w l).irq = l.irq ∧
    (predictAfresh w l).doze = l.doze ∧
    (predictAfresh w l).net = l.net ∧
    (predictAfresh w l).host = l.host ∧
    (predictAfresh w l).mail = l.mail ∧
    (predictAfresh w l).mram = l.mram ∧
    (predictAfresh w l).journal = l.journal ∧
    (predictAfresh w l).rst = l.rst ∧
    (predictAfresh w l).mem = l.mem ∧
    (predictAfresh w l).dmaLast = l.dmaLast ∧
    (predictAfresh w l).dmaPosted = l.dmaPosted ∧
    (predictAfresh w l).freeIdx = l.freeIdx :=
  (predictAfresh_onlyEvents w l).keeps

@[simp] theorem predictAfresh_wheel (w : Nat) (l : Live) (v : Nat) : (predictAfresh w l).wheel v = l.wheel v := by
  simp [Live.wheel]

@[simp] theorem predictAfresh_now (w : Nat) (l : Live) : (predictAfresh w l).now = l.now := by
  simp [Live.now]

@[simp] theorem predictAfresh_cfg (w : Nat) (l : Live) (i j : Nat) : (predictAfresh w l).cfg i j = l.cfg i j :=
  (predictAfresh_onlyEvents w l).cfg i j

@[simp] theorem portMoved_keeps (n p0 p1 : Nat) (l : Live) :
    (portMoved n p0 p1 l).time = l.time ∧
    (portMoved n p0 p1 l).snap = l.snap ∧
    (portMoved n p0 p1 l).conf = l.conf ∧
    (portMoved n p0 p1 l).groups = l.groups ∧
    (portMoved n p0 p1 l).channels = l.channels ∧
    (portMoved n p0 p1 l).tpins = l.tpins ∧
    (portMoved n p0 p1 l).clusters = l.clusters ∧
    (portMoved n p0 p1 l).micro = l.micro ∧
    (portMoved n p0 p1 l).wheels = l.wheels ∧
    (portMoved n p0 p1 l).ports = l.ports ∧
    (portMoved n p0 p1 l).pairs = l.pairs ∧
    (portMoved n p0 p1 l).pwm = l.pwm ∧
    (portMoved n p0 p1 l).trips = l.trips ∧
    (portMoved n p0 p1 l).analog = l.analog ∧
    (portMoved n p0 p1 l).engines = l.engines ∧
    (portMoved n p0 p1 l).dma = l.dma ∧
    (portMoved n p0 p1 l).log = l.log ∧
    (portMoved n p0 p1 l).irq = l.irq ∧
    (portMoved n p0 p1 l).doze = l.doze ∧
    (portMoved n p0 p1 l).net = l.net ∧
    (portMoved n p0 p1 l).host = l.host ∧
    (portMoved n p0 p1 l).mail = l.mail ∧
    (portMoved n p0 p1 l).mram = l.mram ∧
    (portMoved n p0 p1 l).journal = l.journal ∧
    (portMoved n p0 p1 l).rst = l.rst ∧
    (portMoved n p0 p1 l).mem = l.mem ∧
    (portMoved n p0 p1 l).dmaLast = l.dmaLast ∧
    (portMoved n p0 p1 l).dmaPosted = l.dmaPosted ∧
    (portMoved n p0 p1 l).freeIdx = l.freeIdx :=
  (portMoved_onlyEvents n p0 p1 l).keeps

@[simp] theorem portMoved_wheel (n p0 p1 : Nat) (l : Live) (v : Nat) : (portMoved n p0 p1 l).wheel v = l.wheel v := by
  simp [Live.wheel]

@[simp] theorem portMoved_now (n p0 p1 : Nat) (l : Live) : (portMoved n p0 p1 l).now = l.now := by
  simp [Live.now]

@[simp] theorem portMoved_cfg (n p0 p1 : Nat) (l : Live) (i j : Nat) : (portMoved n p0 p1 l).cfg i j = l.cfg i j :=
  (portMoved_onlyEvents n p0 p1 l).cfg i j

/-! ### A change of a tracker's state -/

@[simp] theorem wheelState_same (w : Nat) (new : WheelState) (code : Nat) (l : Live) :
    (wheelState w new code l).wheel w = (l.wheel w).enter new code := by
  simp [wheelState]

theorem wheelState_ne (w : Nat) (new : WheelState) (code : Nat) (l : Live) {v : Nat} (h : v ≠ w) :
    (wheelState w new code l).wheel v = l.wheel v := by
  simp [wheelState, setWheel_ne _ _ h]

@[simp] theorem wheelState_now (w : Nat) (new : WheelState) (code : Nat) (l : Live) : (wheelState w new code l).now = l.now := by
  simp [wheelState]

@[simp] theorem wheelState_cfg (w : Nat) (new : WheelState) (code : Nat) (l : Live) (i j : Nat) :
    (wheelState w new code l).cfg i j = l.cfg i j := by
  simp [wheelState]

@[simp] theorem wheelState_mem (w : Nat) (new : WheelState) (code : Nat) (l : Live) : (wheelState w new code l).mem = l.mem := by
  simp [wheelState]

theorem Wheel.enter_runs (new : WheelState) (code : Nat) (x : Wheel) (h : new.runs = true) :
    x.enter new code = { x with state := new, status := (x.enter new code).status } := by
  unfold Wheel.enter
  cases new <;> simp_all [WheelState.runs]

@[simp] theorem Wheel.enter_state (new : WheelState) (code : Nat) (x : Wheel) : (x.enter new code).state = new := by
  unfold Wheel.enter
  cases new <;> (first | rfl | (dsimp only [WheelState.runs]; split <;> rfl))

@[simp] theorem Wheel.enter_lane (new : WheelState) (code : Nat) (x : Wheel) : (x.enter new code).lane = x.lane := by
  unfold Wheel.enter Wheel.marks
  cases new <;> dsimp only [WheelState.runs] <;> first | rfl | (split <;> rfl)

@[simp] theorem Wheel.enter_seeking (code : Nat) (x : Wheel) :
    x.enter .seeking code = { x.marks false false with refEdge := none, virt := false, run := 0, state := .seeking } := rfl

@[simp] theorem Wheel.enter_preSync (code : Nat) (x : Wheel) : x.enter .preSync code = { x with state := .preSync } := rfl

@[simp] theorem Wheel.enter_sync (code : Nat) (x : Wheel) :
    x.enter .sync code = { x with state := .sync, status := setBit x.status 0 } := rfl

@[simp] theorem Wheel.enter_lost (code : Nat) (x : Wheel) :
    x.enter .lost code = { x.marks false false with refEdge := none, virt := false, run := 0, state := .lost,
                                                    status := setBit (x.marks false false).status 4, lossCnt := x.lossCnt + 1,
                                                    lastLoss := code } := rfl

end Sys2Proof.Machine
end

