-- ==== Sys2Proof/Tests/Slice0.lean ====
section
/-! SUPPORT. Tests: well-formedness, worked examples of the spec, and for every statement with hypotheses a witness that meets them, one
for each of its clauses at a boundary of its ranges. -/

open Sys2Proof Sys2Proof.Machine

namespace Sys2Proof.Tests

set_option Elab.async false

/-- A running device: every domain released, OPERATIONAL, life-cycle DEVELOP, the host-port session open, both buses with node-ID 0x11. -/
def base : Live :=
  { rst := { held := [], asserted := 0, sources := 0, starting := false, committed := true, life := 2 },
    time := { pllLocked := true, dtime := 10000000000 },
      net := { nmt := 5, buses := [(0, { nodeId := 0x11, status := 0 }), (1, { nodeId := 0x11, status := 0 })] },
    mail := { session := 1 } }

/-- The running device with committed values of objects and a change. -/
def on (cfg : List (Nat × Nat × Nat)) (f : Live → Live) : State :=
  let l := f (cfg.foldl (fun l c => l.setBase (key c.1 c.2.1) (.num c.2.2)) base)
  { live := l, start := l }

/-- A routine of slot 5 at address 0x10 with a budget of 100 ECLK. -/
def routine : Routine :=
  { slot := 5, addr := 0x10, lastAddr := 0, req := 1, lnkd := 0, capa := 0, capb := 0, start := 0, x := [], z := false, n := false,
    c := false, ah := false, div0 := false, wtoExpired := false, committed := false, used := 0, budget := 100, staged := {},
    protect := false, restart := false, first := false, stall := none, swRead := 0, result := 0 }

/-- A microcode image of one word for cluster 7, written out from R151. -/
def microImage : List Byte :=
  withCrc ([0x51, 0x4E, 0x59, 0x31, 1, 0, 1, 0, 92, 0, 0, 0, 1, 0, 0x80, 0] ++ List.replicate 48 0 ++ [7, 0, 0x10, 0, 1, 0, 0, 0]
    ++ List.replicate 16 0)

/-- An event image of no entry, written out from R204. -/
def eventImage : List Byte := [0x48, 0x58, 0x45, 0x31, 1, 0, 0, 0, 0, 0, 0, 0, 0, 0, 0, 0]

/-- A base image of no record, written out from R423 and R424. -/
def baseImage : List Byte := withCrc ([0x50, 0x59, 0x52, 0x31, 1, 0, 0, 0, 68, 0, 0, 0] ++ List.replicate 52 0)

/-- An overlay image of slot 12 with no delta, written out from R431. -/
def slotImage : List Byte := withCrc ([0x50, 0x59, 0x4F, 0x31, 1, 0, 0, 0, 12] ++ List.replicate 23 0)

/-- The running device with one mailbox request in slot 0 (R416). -/
def mailed (req : List Byte) : State :=
  on [] (fun l => { l with mail := { l.mail with reqProd := 1, reqSlots := [(0, req)] }, net := { l.net with nmt := 0x7F } })

/-- The device after a command. -/
def after (c : Instr) (s : State) : Live := match exec c s with
  | .next t => t.live
  | _ => base

/-- In an empty table the search for a free entry ends where it starts. -/
theorem firstFree_empty (n : Nat) : firstFree (on [] id).live (n % 4096) = some (n % 4096) := by
  have h : ∀ e, ((on [] id).live.entry e).phase = .free := fun _ => rfl
  simp only [firstFree, h, decide_true, show List.range 4096 = 0 :: (List.range 4095).map Nat.succ from List.range_succ_eq_map,
    List.map_cons, List.find?_cons_of_pos, Nat.add_zero, Nat.mod_mod]

/-! ### Well-formedness -/

/-- A frame of 65 data bytes is no command of this hardware; one of 64 is (R401, R406). -/
theorem test_wf_frame :
    Instr.wf (.rpdoReceived 1 15 (List.replicate 65 0)) = false ∧ Instr.wf (.rpdoReceived 1 15 (List.replicate 64 0)) = true := by
  decide

/-- The device refuses it. -/
theorem test_overlong_faults :
    exec (.rpdoReceived 1 15 (List.replicate 65 0)) State.reset = .fault (.illFormed "RPDO_RECEIVED") := rfl

/-! ### Worked examples of the spec -/

/-- 02, Device time: CAPA 0xFFFF_FFC3_1640 read at DTIME 0x0001_0000_0000_1F40 is the stamp 0x0000_FFFF_FFC3_1640, and
0x0000_0000_1F40 read at 0x0001_0000_003D_2840 is 0x0001_0000_0000_1F40 (R38). -/
theorem test_stamp_widens :
    widen 0x1000000001F40 0xFFFFFFC31640 = 0xFFFFFFC31640 ∧ widen 0x10000003D2840 0x1F40 = 0x1000000001F40 := by decide

/-- 02, R54: at ATIME 9 s, tick 80,000,000, a TIME message of 15,000 days and 43,200,200 ms makes the next second 1,296,043,201
instead of 10. -/
theorem test_time_message :
    (after (.timeReceived 15000 43200200) (on [(0x2000, 0x0C, 1), (0x1012, 0, 0x80000100)]
      (fun l => { l with time := { l.time with seconds := 9, tick := 80000000 } }))).time.relabel = some (1296043201 - 10) := by
  decide +kernel

/-- 05, Worked example: the last word of the fan guard carries PAR 0x80 (R128). -/
theorem test_fan_guard_parity : parityOf 0x80000000000000000048C03524003000 = 0x80 := by decide +kernel

/-- 05, Worked example, word 0x004: (0x001D_0900 − 0xFFFF_FFE0_0000) mod 2^48 = 0x3D_0900 (R137). -/
theorem test_fan_guard_period :
    ((after (.aluSub 7 2 0x1D0900 0xFFFFFFE00000) (on [] (fun l => l.setCluster 7 { state := 1, run := some routine }))).cluster 7).run.map
      Routine.result = some 0x3D0900 := by decide +kernel

/-- 10, Worked examples: the stream beat 0xD099 is a duty of 53,401 fine ticks (R277). -/
theorem test_stream_beat :
    ((after (.streamBeatWrite 0 0xD099) (on [(0x2400, 0x0C, 1)] id)).pair 0).shadow.duty = 53401 := by decide +kernel

/-- 10, Worked examples: with the default arm lead of 1,000 µs ARM0 first rises at 2,680,008,000 and the pairs start at
2,680,408,000 (R291). -/
theorem test_arm_lead :
    ((after .armStart (on [(0x2400, 1, 1)] (fun l => { l with
      time := { l.time with dtime := 2680008000 }, pwm := ({ arm := .accepted, acceptedAt := 2680001234 } : PwmUnit) }))).pair 0).startAt
      = some 2680408000 := by decide +kernel

/-- 14, Serving the trip: VECTOR0 reads 0x8F0B_3003, and LINES11 0x8000_0000_0000_0008 (R376, R377). -/
theorem test_vector :
    let l := (on [(0x2B0B, 1, 2 ^ 64 - 1), (0x2B0B, 2, 15), (0x2B0B, 3, 0)] (fun l => settleGroup 11 ({ l with
      trips := [(3, { status := 1 })], pwm := ({ status := 1 } : PwmUnit) } : Live))).live
    vectorWord l 0 = 0x8F0B3003 ∧ groupLines l 11 = 0x8000000000000008 := by decide +kernel

/-- R335's example: one read of 8 bytes at 0x2_0024 gives RXD 0x000A_3C41, then STAT with RXV 1, RXLVL 0 and SIG 1. -/
theorem test_rxd_with_stat :
    (hostRead none false 0x20024 8 false none [] (on [] (fun l => l.setPe 2 { state := .running, rx := [0x000A3C41], stat := 1 })).live).host.lastRead
      = [0x41, 0x3C, 0x0A, 0x00, 0x01, 0x00, 0x00, 0x80] := by decide +kernel

/-- 15, Worked example: the response to a mailbox read of DTIME under generation 0x0005 and session 0x002A (R416). -/
theorem test_mailbox_dtime :
    let s := mailed [1, 3, 0, 0, 0, 0x30, 1, 7, 0, 0, 0, 0, 0x2A]
    let l : Live := { s.live with mail := { s.live.mail with session := 0x2A }, rst := { s.live.rst with gen := 5 } }
    ((after .mailboxRead { s with published := some ⟨0, 0, base⟩, live := l }).mail.rspSlots.get [] 0).take 16 =
      [0x81, 3, 8, 0, 0, 0x30, 1, 7, 0, 0, 0, 0, 5, 0, 0, 0] := by
  decide +kernel

/-! ### Witnesses -/

theorem witness_ClockEventsComplete :
    (∃ (s : State), s.live.time.pllLocked = false ∧ ((∀ k, k < 7 → s.live.rst.asserted.getLsbD k = false))) ∧
    (∃ (s : State), s.live.time.pllLocked = false) ∧
    (∃ (s : State), timeUp s.live = true ∧ s.live.time.status.getLsbD 10 = true) ∧
    (∃ (s : State), timeUp s.live = true ∧ s.live.time.freeRun = true) ∧
    (∃ (s : State), timeUp s.live = true ∧ s.live.stamp = 0 ∧ s.live.time.dtime ≠ 0) ∧
    (∃ (s : State), timeUp s.live = true ∧ s.live.time.boundary = true ∧ s.live.time.relabel = none ∧ ppsOutPermitted s.live = true ∧
      s.live.time.ppsOutRise = none ∧ s.live.time.ppsOutEarly = false ∧ ppsOutInstant s.live < (s.live.now + 1) * 64) ∧
    (∃ (s : State), timeUp s.live = true ∧ s.live.time.boundary = true ∧ s.live.time.relabel = none ∧
      s.live.time.ppsOutEarly = false ∧ s.live.time.ppsWarm = false ∧ (s.live.now + 1) * 64 ≤ ppsOutInstant s.live) ∧
    (∃ (s : State) (off : _), timeUp s.live = true ∧ s.live.time.boundary = true ∧ s.live.time.relabel = some off) ∧
    (∃ (s : State), s.live.time.ppsOut = true ∧ s.live.time.ppsOutEnd ≤ s.live.now * 64 + 63) :=
  ⟨⟨{ live := powerOn State.reset.live }, by decide +kernel⟩,
   ⟨State.reset, by decide +kernel⟩,
   ⟨on [] (fun l => { l with time := { l.time with status := 0x400 } }), by decide +kernel⟩,
   ⟨on [] (fun l => { l with time := { l.time with freeRun := true } }), by decide +kernel⟩,
   ⟨on [] (fun l => { l with time := { l.time with dtime := 0x1000000000000 } }), by decide +kernel⟩,
   ⟨on [(0x2000, 7, 1)] (fun l => { l with time := { l.time with boundary := true } }), by decide +kernel⟩,
   ⟨on [(0x2000, 9, 1000)] (fun l => { l with time := { l.time with boundary := true } }), by decide +kernel⟩,
   ⟨on [] (fun l => { l with time := { l.time with boundary := true, relabel := some 1 } }), 1, by decide +kernel⟩,
   ⟨on [] (fun l => { l with time := { l.time with ppsOut := true, ppsOutEnd := 640000000063 } }), by decide +kernel⟩⟩

theorem witness_DisciplineComplete :
    (∃ (s : State), timeUp s.live = true ∧ s.live.time.pps.active = false) ∧
    (∃ (s : State), timeUp s.live = true ∧ s.live.time.pps.active = true ∧ s.live.time.pps.longJudged = false ∧
      s.live.now - s.live.time.pps.edgeDtime < 400) ∧
    (∃ (s : State), timeUp s.live = true ∧ s.live.time.pps.active = true ∧ s.live.time.pps.longJudged = false ∧
      s.live.time.pps.edgeDtime + 200000000 < s.live.now ∧ s.live.time.pps.longRun < 2) ∧
    (∃ (s : State), timeUp s.live = true ∧ s.live.time.pps.toProcess = true ∧ s.live.time.pps.edgeDtime + 400 ≤ s.live.now ∧
      s.live.time.disc = .acquire ∧ s.live.time.pps.pairFirst = none) ∧
    (∃ (s : State) (x : _), timeUp s.live = true ∧ s.live.time.pps.lastAccepted = some x ∧
      ((s.live.time.disc = .track ∨ s.live.time.disc = .locked)) ∧ x + 600000000 * 40000 ≤ ((s.live.now * 40000 : Nat) : Int)) ∧
    (∃ (s : State), busActive s.live s.live.net.choice.timeBus = true ∧ preOrOp s.live = true ∧ s.live.flag 0x2000 0x0C = true ∧
      bitOf (commVal s.live 0x1012 0) 31 = true) :=
  ⟨⟨on [] id, by decide +kernel⟩,
   ⟨on [] (fun l => { l with time := { l.time with pps := { active := true, edgeDtime := 9999999601 } } }), by decide +kernel⟩,
   ⟨on [] (fun l => { l with time := { l.time with pps := { active := true, edgeDtime := 9799999999, longRun := 1 } } }), by decide +kernel⟩,
   ⟨on [] (fun l => { l with time := { l.time with disc := .acquire, pps := { toProcess := true, edgeDtime := 9999999600 } } }), by decide +kernel⟩,
   ⟨on [] (fun l => { l with time := { l.time with disc := .track, pps := { lastAccepted := some 376000000000000 } } }),
     376000000000000, by decide +kernel⟩,
   ⟨on [(0x2000, 0x0C, 1), (0x1012, 0, 0x80000100)] id, by decide +kernel⟩⟩

theorem witness_SecondsSetObject :
    (∃ (s : State) (conn : Conn) (value : BitVec 40), (served conn s.live = true ∧
      writeAbort conn 0x2000 0x0B (touch conn s.live) = none) ∧ value.toNat < 2 ^ 35) ∧
    (∃ (s : State) (conn : Conn) (value : BitVec 40), (served conn s.live = true ∧
      writeAbort conn 0x2000 0x0B (touch conn s.live) = none) ∧ 2 ^ 35 ≤ value.toNat) ∧
    (∃ (s : State) (value : Nat) (old : Nat), timeUp s.live = true ∧ s.live.time.boundary = true ∧ value < 2 ^ 35 ∧
      s.live.time.relabel = some ((value : Int) - (old + 1)) ∧ s.live.time.seconds.toNat = old + 1) :=
  ⟨⟨on [] id, .host, 0x7FFFFFFFF, by decide +kernel⟩,
   ⟨on [] id, .host, 0x800000000, by decide +kernel⟩,
   ⟨on [] (fun l => { l with time := { l.time with boundary := true, seconds := 10, relabel := some 1296043191 } }), 1296043201,
     9, by decide +kernel⟩⟩

theorem witness_EpochProvisional :
    ∃ (s : State) (off : _), timeUp s.live = true ∧ s.live.time.boundary = true ∧ s.live.time.relabel = some off :=
  ⟨on [] (fun l => { l with time := { l.time with boundary := true, relabel := some 5 } }), 5, by decide +kernel⟩

theorem witness_SnapshotsAndGroupsComplete :
    (∃ (s : State) (conn : Conn), (served conn s.live = true ∧ writeAbort conn 0x2C80 3 (touch conn s.live) = none) ∧
      s.live.snap.copying = false ∧ s.live.snap.waiting = false) ∧
    (∃ (s : State) (conn : Conn) (b : Bank), (served conn s.live = true ∧ writeAbort conn 0x2C80 3 (touch conn s.live) = none) ∧
      s.published = some b ∧ s.live.snap.wipe = false) ∧
    (∃ (s : State) (conn : Conn), (served conn s.live = true ∧ writeAbort conn 0x2C80 3 (touch conn s.live) = none)) ∧
    (∃ (s : State), coreUp s.live = true ∧ s.live.cfg 0x2C80 1 ≠ 0 ∧ s.live.snap.nextPeriodic ≤ s.live.now ∧ s.live.snap.copying = false ∧
      s.live.snap.waiting = false) ∧
    (∃ (s : State) (b : Bank), s.filling = some b ∧ s.live.snap.copying = true) ∧
    (∃ (s : State) (b : Bank) (h : Nat), s.held = some (b, h) ∧ h + 400000 ≤ s.live.now) ∧
    (∃ (s : State) (conn : Conn) (g : Fin 64), (served conn s.live = true ∧
      writeAbort conn (0x2C00 + g.val) 3 (touch conn s.live) = none) ∧ (s.live.group g).state = .staging ∧
      s.live.cfg (0x2C00 + g.val) 1 ≠ 0) ∧
    (∃ (s : State) (conn : Conn) (g : Fin 64), (served conn s.live = true ∧
      writeAbort conn (0x2C00 + g.val) 3 (touch conn s.live) = none) ∧ (s.live.group g).state = .armed) ∧
    (∃ (s : State) (conn : Conn) (g : Fin 64), (served conn s.live = true ∧
      writeAbort conn (0x2C00 + g.val) 3 (touch conn s.live) = none) ∧ (s.live.group g).state ≠ .idle) ∧
    (∃ (s : State) (conn : Conn) (g : Fin 64) (entry : BitVec 32) (k : Nat), (served conn s.live = true ∧
      writeAbort conn (0x2C00 + g.val) 4 (touch conn s.live) = none) ∧ memberKey entry.toNat = some k ∧ g.val ≠ 0 ∧ admissible k = true ∧
      membershipLocked s.live g k = false ∧ ownerOf s.live k = 0 ∧ (s.live.group g).members.length < 512) ∧
    (∃ (s : State) (conn : Conn) (g : Fin 64) (entry : BitVec 32) (k : Nat), (served conn s.live = true ∧
      writeAbort conn (0x2C00 + g.val) 5 (touch conn s.live) = none) ∧ memberKey entry.toNat = some k ∧ g.val ≠ 0 ∧
      membershipLocked s.live g k = false ∧ ownerOf s.live k = g.val) :=
  ⟨⟨on [] id, .host, by decide +kernel⟩,
   ⟨{ on [] id with published := some ⟨7, 5, base⟩ }, .host, ⟨7, 5, base⟩, by decide +kernel⟩,
   ⟨on [] id, .host, by decide +kernel⟩,
   ⟨on [(0x2C80, 1, 1)] (fun l => { l with snap := { nextPeriodic := 10000000000 } }), by decide +kernel⟩,
   ⟨{ on [] (fun l => { l with snap := { copying := true } }) with filling := some ⟨7, 5, base⟩ }, ⟨7, 5, base⟩, by decide +kernel⟩,
   ⟨{ on [] id with held := some (⟨7, 5, base⟩, 9999600000) }, ⟨7, 5, base⟩, 9999600000, by decide +kernel⟩,
   ⟨on [(0x2C3F, 1, 1)] (fun l => l.setGroup 63 { state := .staging }), .host, 63, by decide +kernel⟩,
   ⟨on [] (fun l => l.setGroup 63 { state := .armed }), .host, 63, by decide +kernel⟩,
   ⟨on [] (fun l => l.setGroup 63 { state := .staging }), .host, 63, by decide +kernel⟩,
   ⟨on [] (fun l => l.setGroup 63 { members := List.replicate 511 0 }), .host, 63, 0x24000300, 0x240003, by decide +kernel⟩,
   ⟨on [] (fun l => l.setGroup 63 { members := [0x240003] }), .host, 63, 0x24000300, 0x240003, by decide +kernel⟩⟩

theorem witness_ObjectWritesComplete :
    (∃ (s : State) (conn : Conn) (idx : BitVec 16) (sub : BitVec 8) (data : List Byte) (v : Val) (r : Val), (served conn s.live = true ∧
      writeAbort conn idx.toNat sub.toNat (touch conn s.live) = none) ∧ s.live.rst.sourceDue = none ∧
      bytesCommand conn idx.toNat sub.toNat data = none ∧ numberCommand conn idx.toNat sub.toNat (ofBytesLE data) = none ∧
      isStatus idx.toNat = false ∧ isComm idx.toNat = false ∧ answeredLater idx.toNat sub.toNat = false ∧
      parseValue idx.toNat sub.toNat data = .ok v ∧ admitValue (touch conn s.live) idx.toNat sub.toNat v = .ok r ∧
      covered s.live (key idx.toNat sub.toNat) = false ∧ groupArmed s.live (ownerOf s.live (key idx.toNat sub.toNat)) = false) ∧
    (∃ (s : State) (conn : Conn) (e : Fin 16) (data : List Byte) (r : Val), (served conn s.live = true ∧
      writeAbort conn (0x2900 + e.val) 0x0D (touch conn s.live) = none) ∧ s.live.rst.sourceDue = none ∧ data.length = 144 ∧
      admitValue (touch conn s.live) (0x2900 + e.val) 0x0D (.bytes data) = .ok r ∧ covered s.live (key (0x2900 + e.val) 0x0D) = false ∧
      groupArmed s.live (ownerOf s.live (key (0x2900 + e.val) 0x0D)) = false) ∧
    (∃ (s : State) (conn : Conn) (data : List Byte), s.live.rst.sourceDue = none ∧ (served conn s.live = true ∧
      writeAbort conn 0x3000 4 (touch conn s.live) = none) ∧ data.length = 2) ∧
    (∃ (s : State) (conn : Conn) (data : List Byte) (c : Fin 512), s.live.rst.sourceDue = none ∧ (served conn s.live = true ∧
      writeAbort conn (0x3200 + c.val) 1 (touch conn s.live) = none) ∧ data.length = 2) ∧
    (∃ (s : State) (conn : Conn) (data : List Byte) (k : Fin 8), s.live.rst.sourceDue = none ∧ (served conn s.live = true ∧
      writeAbort conn (0x3100 + k.val) 3 (touch conn s.live) = none) ∧ data.length = 1) ∧
    (∃ (s : State) (conn : Conn) (data : List Byte) (c : Fin 32), s.live.rst.sourceDue = none ∧ (served conn s.live = true ∧
      writeAbort conn (0x3A00 + c.val) 2 (touch conn s.live) = none) ∧ data.length = 1) ∧
    (∃ (s : State) (conn : Conn) (data : List Byte), s.live.rst.sourceDue = none ∧ (served conn s.live = true ∧
      writeAbort conn 0x5E40 0x14 (touch conn s.live) = none) ∧ data.length = 2) :=
  ⟨⟨on [] id, .host, 0x2000, 9, [1, 0, 0, 0], .num 1, .num 1, by decide +kernel⟩,
   ⟨on [] id, .host, 15, List.replicate 144 0, .bytes (List.replicate 144 0), by decide +kernel⟩,
   ⟨on [] id, .host, [0xFF, 0xFF], by decide +kernel⟩,
   ⟨on [] id, .host, [0xFF, 0xFF], 511, by decide +kernel⟩,
   ⟨on [] id, .host, [0xFF], 7, by decide +kernel⟩,
   ⟨on [] id, .host, [0xFF], 31, by decide +kernel⟩,
   ⟨on [] id, .host, [0xFF, 0xFF], by decide +kernel⟩⟩

theorem witness_ImmediateCommit :
    ∃ (s : State) (conn : Conn) (g : Fin 64), (served conn s.live = true ∧ writeAbort conn (0x2C00 + g.val) 3 (touch conn s.live) = none) ∧
      (s.live.group g).state = .staging ∧ s.live.cfg (0x2C00 + g.val) 1 = 0 ∧ commitBreaks (touch conn s.live) g = false :=
  ⟨on [] (fun l => l.setGroup 0 { state := .staging }), .host, 0, by decide +kernel⟩

theorem witness_MatchFires :
    (∃ (s : State) (c : Fin 512), clusterUp s.live (c.val / 64) = true) ∧
    (∃ (s : State) (c : Fin 512), clusterUp s.live (c.val / 64) = true ∧ (s.live.chan c).ma.fires s.live = true ∧
      (s.live.chan c).mb.fires s.live = false ∧ (s.live.chan c).mode.maact = 0 ∧ ((s.live.chan c).ma.atStart s.live.now).late = false) ∧
    (∃ (s : State) (c : Fin 512), clusterUp s.live (c.val / 64) = true ∧ (s.live.chan c).ma.fires s.live = true ∧
      (s.live.chan c).mb.fires s.live = false ∧ (s.live.chan c).mode.maact = 1 ∧ (s.live.chan c).outTclk ≠ s.live.now) :=
  ⟨⟨on [] id, 511, by decide +kernel⟩,
   ⟨on [] (fun l => l.setChan 511 { ma := { cur := { value := 10000000000, en := true } } }), 511, by decide +kernel⟩,
   ⟨on [] (fun l => l.setChan 511 { ma := { cur := { value := 10000000000, en := true } }, mode := { maact := 1 } }),
     511, by decide +kernel⟩⟩

theorem witness_ChannelCommandsComplete :
    (∃ (s : State) (c : Fin 512) (rising : Bool), clusterUp s.live (c.val / 64) = true ∧ s.live.cfg (0x2200 + c.val) 4 < 192 ∧
      (s.live.chan c).input = !rising ∧ edgeSel (s.live.chan c).mode.caedge rising = true) ∧
    (∃ (s : State) (conn : Conn) (c : Fin 512) (e : _) (r : _), served conn s.live = true ∧ (s.live.chan c).fifo = e :: r) ∧
    (∃ (s : State) (conn : Conn) (c : Fin 512), (served conn s.live = true ∧
      writeAbort conn (0x2200 + c.val) 0x0A (touch conn s.live) = none)) ∧
    (∃ (s : State) (c : Fin 512), clusterUp s.live (c.val / 64) = true) ∧
    (∃ (s : State) (n : Fin 192) (level : _), (s.live.tpin n).checkDue = true ∧ s.live.now = (s.live.tpin n).edgeAt + 8 ∧
      (s.live.tpin n).driven = some level) ∧
    (∃ (s : State) (conn : Conn) (n : Fin 192), (served conn s.live = true ∧
      writeAbort conn (0x3D00 + n.val) 1 (touch conn s.live) = none) ∧ clearable s.live (key (0x3D00 + n.val) 1) 2 ≠ 0) ∧
    (∃ (s : State) (n : Fin 192) (level : Bool), (s.live.tpin n).checkDue = true ∧ s.live.now = (s.live.tpin n).edgeAt + 8 ∧
      (s.live.tpin n).driven = some (!level) ∧ 2 ≤ (s.live.tpin n).mismatches) :=
  ⟨⟨on [(0x23FF, 4, 191)] (fun l => l.setChan 511 { mode := { caedge := 1 } }), 511, true, by decide +kernel⟩,
   ⟨on [] (fun l => l.setChan 511 { fifo := [5] }), .host, 511, 5, [], by decide +kernel⟩,
   ⟨on [] id, .host, 511, by decide +kernel⟩,
   ⟨on [] id, 511, by decide +kernel⟩,
   ⟨on [] (fun l => l.setTpin 191 { checkDue := true, edgeAt := 9999999992, driven := some true }), 191, true, by decide +kernel⟩,
   ⟨on [] (fun l => l.setTpin 191 { status := 2 }), .host, 191, by decide +kernel⟩,
   ⟨on [] (fun l => l.setTpin 191 { checkDue := true, edgeAt := 9999999992, driven := some false, mismatches := 2 }), 191,
     true, by decide +kernel⟩⟩

theorem witness_AluResults :
    ∃ (s : State) (k : Fin 8) (r : Routine), running s.live k = some r :=
  ⟨on [] (fun l => l.setCluster 7 { state := 1, run := some routine }), 7, routine, by decide +kernel⟩

theorem witness_EffectsAreStaged :
    (∃ (s : State) (k : Fin 8) (r : Routine), running s.live k = some r ∧ r.committed = false) ∧
    (∃ (s : State) (k : Fin 8) (r : Routine), running s.live k = some r ∧ r.committed = false) ∧
    (∃ (s : State) (k : Fin 8) (r : Routine), running s.live k = some r ∧ r.committed = false) ∧
    (∃ (s : State) (k : Fin 8) (r : Routine), running s.live k = some r ∧ r.committed = false) ∧
    (∃ (s : State) (k : Fin 8) (r : Routine), running s.live k = some r ∧ r.committed = false) ∧
    (∃ (s : State) (k : Fin 8) (r : Routine), running s.live k = some r ∧ r.committed = false) ∧
    (∃ (s : State) (k : Fin 8) (r : Routine), running s.live k = some r ∧ r.committed = false) ∧
    (∃ (s : State) (k : Fin 8) (r : Routine), running s.live k = some r ∧ r.committed = false) ∧
    (∃ (s : State) (k : Fin 8) (r : Routine), running s.live k = some r ∧ r.committed = false) ∧
    (∃ (s : State) (k : Fin 8) (r : Routine), running s.live k = some r ∧ r.committed = false ∧
      r.staged.pops < (s.live.chan (runChan k r)).fifo.length ∧ r.staged.pops < 4) ∧
    (∃ (s : State) (k : Fin 8) (r : Routine), running s.live k = some r ∧ r.committed = false) ∧
    (∃ (s : State) (k : Fin 8) (r : Routine), running s.live k = some r ∧ r.committed = false ∧ r.staged.pins.length < 4) ∧
    (∃ (s : State) (k : Fin 8) (r : Routine), running s.live k = some r ∧ r.committed = false ∧ r.staged.pins.length < 4) ∧
    (∃ (s : State) (k : Fin 8) (r : Routine), running s.live k = some r ∧ r.committed = false ∧ r.staged.pins.length < 4) ∧
    (∃ (s : State) (k : Fin 8) (r : Routine), running s.live k = some r ∧ r.committed = false ∧ r.staged.pins.length < 4) ∧
    (∃ (s : State) (k : Fin 8) (r : Routine), running s.live k = some r ∧ r.committed = false ∧ r.staged.pins.length < 4) ∧
    (∃ (s : State) (k : Fin 8) (r : Routine), running s.live k = some r ∧ r.committed = false) ∧
    (∃ (s : State) (k : Fin 8) (r : Routine), running s.live k = some r ∧ r.committed = false) ∧
    (∃ (s : State) (k : Fin 8) (r : Routine), running s.live k = some r ∧ r.committed = false ∧ r.staged.links.length < 2) ∧
    (∃ (s : State) (k : Fin 8) (r : Routine), running s.live k = some r ∧ r.committed = false ∧ r.staged.links.length < 2) ∧
    (∃ (s : State) (k : Fin 8) (r : Routine), running s.live k = some r ∧ r.committed = false) ∧
    (∃ (s : State) (k : Fin 8) (r : Routine), running s.live k = some r ∧ r.committed = false) ∧
    (∃ (s : State) (k : Fin 8) (r : Routine), running s.live k = some r ∧ r.committed = false ∧ r.staged.posts.length < 2) ∧
    (∃ (s : State) (k : Fin 8) (r : Routine), running s.live k = some r ∧ r.committed = false ∧ r.staged.logs.length < 4) ∧
    (∃ (s : State) (k : Fin 8) (r : Routine) (i : BitVec 5), running s.live k = some r ∧ r.committed = false ∧
      ((16 ≤ i.toNat ∨ isResult s.live (runChan k r) i.toNat = true)) ∧ (r.staged.sw.filter (fun e => e.1 ≠ i.toNat)).length < 8) :=
  ⟨⟨on [] (fun l => l.setCluster 7 { state := 1, run := some routine }), 7, routine, by decide +kernel⟩,
   ⟨on [] (fun l => l.setCluster 7 { state := 1, run := some routine }), 7, routine, by decide +kernel⟩,
   ⟨on [] (fun l => l.setCluster 7 { state := 1, run := some routine }), 7, routine, by decide +kernel⟩,
   ⟨on [] (fun l => l.setCluster 7 { state := 1, run := some routine }), 7, routine, by decide +kernel⟩,
   ⟨on [] (fun l => l.setCluster 7 { state := 1, run := some routine }), 7, routine, by decide +kernel⟩,
   ⟨on [] (fun l => l.setCluster 7 { state := 1, run := some routine }), 7, routine, by decide +kernel⟩,
   ⟨on [] (fun l => l.setCluster 7 { state := 1, run := some routine }), 7, routine, by decide +kernel⟩,
   ⟨on [] (fun l => l.setCluster 7 { state := 1, run := some routine }), 7, routine, by decide +kernel⟩,
   ⟨on [] (fun l => l.setCluster 7 { state := 1, run := some routine }), 7, routine, by decide +kernel⟩,
   ⟨on [] (fun l => (l.setCluster 7 { state := 1, run := some routine }).setChan 453 { fifo := [5] }), 7, routine, by decide +kernel⟩,
   ⟨on [] (fun l => l.setCluster 7 { state := 1, run := some routine }), 7, routine, by decide +kernel⟩,
   ⟨on [] (fun l => l.setCluster 7 { state := 1, run := some routine }), 7, routine, by decide +kernel⟩,
   ⟨on [] (fun l => l.setCluster 7 { state := 1, run := some routine }), 7, routine, by decide +kernel⟩,
   ⟨on [] (fun l => l.setCluster 7 { state := 1, run := some routine }), 7, routine, by decide +kernel⟩,
   ⟨on [] (fun l => l.setCluster 7 { state := 1, run := some routine }), 7, routine, by decide +kernel⟩,
   ⟨on [] (fun l => l.setCluster 7 { state := 1, run := some routine }), 7, routine, by decide +kernel⟩,
   ⟨on [] (fun l => l.setCluster 7 { state := 1, run := some routine }), 7, routine, by decide +kernel⟩,
   ⟨on [] (fun l => l.setCluster 7 { state := 1, run := some routine }), 7, routine, by decide +kernel⟩,
   ⟨on [] (fun l => l.setCluster 7 { state := 1, run := some routine }), 7, routine, by decide +kernel⟩,
   ⟨on [] (fun l => l.setCluster 7 { state := 1, run := some routine }), 7, routine, by decide +kernel⟩,
   ⟨on [] (fun l => l.setCluster 7 { state := 1, run := some routine }), 7, routine, by decide +kernel⟩,
   ⟨on [] (fun l => l.setCluster 7 { state := 1, run := some routine }), 7, routine, by decide +kernel⟩,
   ⟨on [] (fun l => l.setCluster 7 { state := 1, run := some routine }), 7, routine, by decide +kernel⟩,
   ⟨on [] (fun l => l.setCluster 7 { state := 1, run := some routine }), 7, routine, by decide +kernel⟩,
   ⟨on [] (fun l => l.setCluster 7 { state := 1, run := some routine }), 7, routine, 31, by decide +kernel⟩⟩

theorem witness_RoutineFlow :
    (∃ (s : State) (k : Fin 8) (slot : Nat), engineUp s.live k = true ∧ (s.live.cluster k).state = 1 ∧ (s.live.cluster k).paused = false ∧
      (s.live.cluster k).run = none ∧ pickThread s.live k = some slot) ∧
    (∃ (s : State) (k : Fin 8) (r : Routine), running s.live k = some r) ∧
    (∃ (s : State) (k : Fin 8) (r : Routine), running s.live k = some r) ∧
    (∃ (s : State) (k : Fin 8) (r : Routine), running s.live k = some r) ∧
    (∃ (s : State) (k : Fin 8) (r : Routine), running s.live k = some r) ∧
    (∃ (s : State) (k : Fin 8) (r : Routine), running s.live k = some r) ∧
    (∃ (s : State) (k : Fin 8) (r : Routine), running s.live k = some r ∧ r.committed = true ∧ (s.live.chan (runChan k r)).en = true ∧
      s.live.flag (0x2100 + k.val) 1 = true ∧ (s.live.chan (runChan k r)).startDue = none) ∧
    (∃ (s : State) (k : Fin 8) (r : Routine), running s.live k = some r ∧ r.committed = false) ∧
    (∃ (s : State) (k : Fin 8) (off : _), engineUp s.live k = true ∧ (s.live.cluster k).tlost = [] ∧ (s.live.cluster k).tpend = some off ∧
      off % 8 = 0 ∧ off < tableSize) :=
  ⟨⟨on [(0x2107, 1, 1)] (fun l => (l.setCluster 7 { state := 1 }).setChan 511 { thread := .ready, en := true, req := 1, func := 0xC }), 7,
    63, by decide +kernel⟩,
   ⟨on [] (fun l => l.setCluster 7 { state := 1, run := some routine }), 7, routine, by decide +kernel⟩,
   ⟨on [] (fun l => l.setCluster 7 { state := 1, run := some routine }), 7, routine, by decide +kernel⟩,
   ⟨on [] (fun l => l.setCluster 7 { state := 1, run := some routine }), 7, routine, by decide +kernel⟩,
   ⟨on [] (fun l => l.setCluster 7 { state := 1, run := some routine }), 7, routine, by decide +kernel⟩,
   ⟨on [] (fun l => l.setCluster 7 { state := 1, run := some routine }), 7, routine, by decide +kernel⟩,
   ⟨on [(0x2107, 1, 1)] (fun l => (l.setCluster 7 { state := 1, run := some { routine with committed := true } }).setChan 453 { en := true }), 7, { routine with committed := true }, by decide +kernel⟩,
   ⟨on [] (fun l => l.setCluster 7 { state := 1, run := some routine }), 7, routine, by decide +kernel⟩,
   ⟨on [] (fun l => l.setCluster 7 { state := 1, tpend := some 901112 }), 7, 901112, by decide +kernel⟩⟩

theorem witness_MicrowordsComplete :
    (∃ (s : State) (k : Fin 8) (r : Routine), running s.live k = some r ∧ r.div = none ∧
      ((r.stall = none → fetchCheck s.live k r.addr.toNat false = none ∧ romFunctionAt r.addr.toNat = none)) ∧
      r.used + wordTime (if r.stall.isSome then r.word else (microFetch s.live k r.addr.toNat).1) ≤ r.budget ∧
      ((r.stall = none → mwWait (if r.stall.isSome then r.word else (microFetch s.live k r.addr.toNat).1) = false)) ∧
      ((r.stall.isSome = true → waitCond s.live k r (if r.stall.isSome then r.word else (microFetch s.live k r.addr.toNat).1) = true ∨ waitLast r (if r.stall.isSome then r.word else (microFetch s.live k r.addr.toNat).1) = true)) ∧ ((mwAop (if r.stall.isSome then r.word else (microFetch s.live k r.addr.toNat).1) ≠ 0xA → StagingRoom r))) ∧
    (∃ (s : State) (k : Fin 8) (r : Routine), running s.live k = some r ∧ r.div = none ∧
      ((r.stall = none → fetchCheck s.live k r.addr.toNat false = none ∧ romFunctionAt r.addr.toNat = none)) ∧
      r.used + wordTime (if r.stall.isSome then r.word else (microFetch s.live k r.addr.toNat).1) ≤ r.budget ∧ r.stall = none ∧
      mwWait (if r.stall.isSome then r.word else (microFetch s.live k r.addr.toNat).1) = true ∧
      (waitCond s.live k r (if r.stall.isSome then r.word else (microFetch s.live k r.addr.toNat).1) = true ∨ waitLast r (if r.stall.isSome then r.word else (microFetch s.live k r.addr.toNat).1) = true) ∧ ((mwAop (if r.stall.isSome then r.word else (microFetch s.live k r.addr.toNat).1) ≠ 0xA → StagingRoom r))) ∧
    (∃ (s : State) (k : Fin 8) (r : Routine), running s.live k = some r ∧ r.div = none ∧
      ((r.stall = none → fetchCheck s.live k r.addr.toNat false = none ∧ romFunctionAt r.addr.toNat = none)) ∧
      r.used + wordTime (if r.stall.isSome then r.word else (microFetch s.live k r.addr.toNat).1) ≤ r.budget ∧
      ((r.stall.isSome = true ∨ mwWait (if r.stall.isSome then r.word else (microFetch s.live k r.addr.toNat).1) = true)) ∧
      waitCond s.live k r (if r.stall.isSome then r.word else (microFetch s.live k r.addr.toNat).1) = false ∧
      waitLast r (if r.stall.isSome then r.word else (microFetch s.live k r.addr.toNat).1) = false) ∧
    (∃ (s : State) (k : Fin 8) (r : Routine) (f : _), running s.live k = some r ∧ r.div = none ∧ r.stall = none ∧
      romFunctionAt r.addr.toNat = some f ∧ fetchCheck s.live k r.addr.toNat false = none ∧ r.used < r.budget ∧
      r.used + romPath f ≤ r.budget ∧ ((r.committed = true ∨ mergeFits r.staged (romStages k f r s.live).1 = true))) ∧
    (∃ (s : State) (k : Fin 8) (r : Routine), running s.live k = some r ∧ r.div = none ∧ r.stall = none ∧ 0xC00 ≤ r.addr.toNat ∧
      r.used < r.budget ∧ ((∀ t', s.live.micro.lastMcAt = some t' → t' + 400000000 ≤ s.live.now))) ∧
    (∃ (s : State) (k : Fin 8) (r : Routine) (w : _), waitWord s.live k = some (r, w) ∧ waitCond s.live k r w = false ∧
      waitLast r w = false) ∧
    (∃ (s : State) (k : Fin 8) (addr : _) (cause : _), badWait s.live k = some (addr, cause) ∧ ((∀ t',
      s.live.micro.lastMcAt = some t' → t' + 400000000 ≤ s.live.now))) ∧
    (∃ (s : State) (k : Fin 8) (r : Routine) (w : _), waitWord s.live k = some (r, w) ∧ r.stall.isSome = true ∧
      r.used + wordTime w ≤ r.budget ∧ ((mwAop w ≠ 0xA → StagingRoom r)) ∧ waitCond s.live k r w = true) ∧
    (∃ (s : State) (k : Fin 8) (r : Routine) (w : _), waitWord s.live k = some (r, w) ∧ r.stall.isSome = true ∧
      r.used + wordTime w ≤ r.budget ∧ ((mwAop w ≠ 0xA → StagingRoom r)) ∧ waitCond s.live k r w = false ∧ waitLast r w = true) :=
  ⟨⟨on [] (fun l => l.setCluster 7 { state := 1, run := some { routine with stall := some 0, word := 0x200000 } }), 7,
    { routine with stall := some 0, word := 0x200000 }, by and_intros <;> first | decide +kernel | (unfold StagingRoom; decide +kernel)⟩,
   ⟨on [] (fun l => l.setCluster 7 { state := 1, run := some routine, store := [(0x10, (0x200000, 2))] }), 7,
     routine, by and_intros <;> first | decide +kernel | (unfold StagingRoom; decide +kernel)⟩,
   ⟨on [] (fun l => l.setCluster 7 { state := 1, run := some routine, store := [(0x10, (0x300000, 0))] }), 7, routine, by decide +kernel⟩,
   ⟨on [] (fun l => l.setCluster 7 { state := 1, run := some { routine with addr := 0x850 } }), 7, { routine with addr := 0x850 },
     1, by and_intros <;> first | decide +kernel | (simp [fetchCheck, microFetch, withParity, parityHolds]; decide +kernel)⟩,
   ⟨on [] (fun l => l.setCluster 7 { state := 1, run := some { routine with addr := 0xC00 } }), 7, { routine with addr := 0xC00 }, rfl,
     rfl, rfl, by decide, by decide, fun _ h => nomatch h⟩,
   ⟨on [] (fun l => l.setCluster 7 { state := 1, run := some routine, store := [(0x10, (0x300000, 0))] }), 7, routine,
     0x300000, by decide +kernel⟩,
   ⟨on [] (fun l => l.setCluster 7 { state := 1, run := some routine, store := [(0x10, (0x300001, 0))] }), 7, 0x10,
     0, by decide +kernel, fun _ h => nomatch h⟩,
   ⟨on [] (fun l => l.setCluster 7 { state := 1, run := some { routine with stall := some 0, word := 0x200000 } }), 7,
     { routine with stall := some 0, word := 0x200000 },
     0x200000, by and_intros <;> first | decide +kernel | (unfold StagingRoom; decide +kernel)⟩,
   ⟨on [] (fun l => l.setCluster 7 { state := 1, run := some { routine with stall := some 1, word := 0x300000 } }), 7,
     { routine with stall := some 1, word := 0x300000 },
     0x300000, by and_intros <;> first | decide +kernel | (unfold StagingRoom; decide +kernel)⟩⟩

set_option maxRecDepth 100000 in
theorem witness_EngineUpkeepComplete :
    (∃ (s : State) (k : Fin 8) (r : Routine), running s.live k = some r ∧ hiLane s.live (runChan k r) = false ∧ r.committed = false ∧
      r.protect = false ∧ r.div = none ∧ (s.live.cluster k).paused = false ∧ r.slot < 64 ∧
      (firstReady s.live k true (s.live.cluster k).lastHi).isSome = true) ∧
    (∃ (s : State) (k : Fin 8) (r : Routine), running s.live k = some r ∧ r.div = none ∧ overBudget s.live k r = true) ∧
    (∃ (s : State) (k : Fin 8) (addr : _), (s.live.cluster k).recovery = some ⟨addr, 0⟩ ∧ engineUp s.live k = true ∧
      bitOf (s.live.cluster k).status.toNat 5 = false ∧ s.live.cfg (0x4100 + k.val) 0x21 ≠ 1) ∧
    (∃ (s : State) (k : Fin 8), engineUp s.live k = true ∧ (s.live.cluster k).scrubPos < 0x800 ∧
      parityHolds (storeWordAt s.live k (s.live.cluster k).scrubPos) = true) ∧
    (∃ (s : State) (k : Fin 8) (a : _) (r : _), engineUp s.live k = true ∧ (s.live.cluster k).poisoned = a :: r) ∧
    (∃ (s : State), schedUp s.live = true) ∧
    (∃ (s : State) (conn : Conn) (data : List Byte), (served conn s.live = true ∧ writeAbort conn 0x5E31 1 (touch conn s.live) = none) ∧
      ((s.live.net.nmt = nmtPre ∨ s.live.net.nmt = nmtOp)) ∧ s.live.micro.todo = [] ∧ data.length ≤ 278528) ∧
    (∃ (s : State) (conn : Conn) (k : Nat) (ks : _), (served conn s.live = true ∧ writeAbort conn 0x5E31 2 (touch conn s.live) = none) ∧
      s.live.micro.todo = [] ∧ activateReason s.live = 0 ∧
      (List.range 8).filter (fun k => bitOf (imgMask (microCopy s.live (spareCopy s.live))) k) = k :: ks) ∧
    (∃ (s : State) (k : _) (rest : _), coreUp s.live = true ∧ s.live.micro.todo = k :: rest ∧ (s.live.cluster k).run = none) :=
  ⟨⟨on [(0x23C1, 3, 1)] (fun l => (l.setCluster 7 { state := 1, run := some routine }).setChan 449 { thread := .ready }), 7,
    routine, by decide +kernel⟩,
   ⟨on [] (fun l => l.setCluster 7 { state := 1, run := some { routine with used := 100 } }), 7,
     { routine with used := 100 }, by decide +kernel⟩,
   ⟨on [] (fun l => l.setCluster 7 { recovery := some ⟨0x7FF, 0⟩ }), 7, 0x7FF, by decide +kernel⟩,
   ⟨on [] (fun l => l.setCluster 7 { scrubPos := 0x7FF }), 7, by decide +kernel⟩,
   ⟨on [] (fun l => l.setCluster 7 { poisoned := [0x7FF] }), 7, 0x7FF, [], by decide +kernel⟩,
   ⟨on [] id, by decide +kernel⟩,
   ⟨on [] id, .host, List.replicate 278528 0, by decide +kernel, by decide +kernel, by decide +kernel, Nat.le_of_eq List.length_replicate⟩,
   ⟨on [] (fun l => { l with mram := { l.mram with microB := microImage } }), .host, 7, [], by decide +kernel⟩,
   ⟨on [] (fun l => { l with micro := { l.micro with todo := [7] } }), 7, [], by decide +kernel⟩⟩

set_option maxRecDepth 100000 in
theorem witness_InsertsAndReadsComplete :
    (∃ (s : State) (conn : Conn) (data : List Byte) (e : _), (served conn s.live = true ∧
      writeAbort conn 0x2810 1 (touch conn s.live) = none) ∧ data.length = 17 ∧ fieldLE data 0 1 < 64 ∧
      groupArmed s.live (fieldLE data 0 1) = false ∧ insertReason s.live (fieldLE data 1 16) = 0 ∧ (allocEntry s.live).1 = some e) ∧
    (∃ (s : State) (conn : Conn) (value : BitVec 32), (served conn s.live = true ∧ writeAbort conn 0x2810 2 (touch conn s.live) = none) ∧
      field value.toNat 23 12 = 0 ∧ field value.toNat 31 24 < 64 ∧ groupArmed s.live (field value.toNat 31 24) = false ∧
      (s.live.entry (field value.toNat 11 0)).phase ≠ .free) ∧
    (∃ (s : State) (e : _) (rest : _) (g : _) (b : _), schedUp s.live = true ∧ s.live.events.fifo = e :: rest ∧
      (s.live.entry e).phase = .walking g b ∧ listed s.live (s.live.entry e).queue = false ∧
      s.live.events.walkFrom + 2 * walkTime s.live e ≤ s.live.now) ∧
    (∃ (s : State) (conn : Conn) (value : BitVec 16), (served conn s.live = true ∧ writeAbort conn 0x2811 3 (touch conn s.live) = none) ∧
      value.toNat < 0x1010 ∧ s.live.events.listing = none) ∧
    (∃ (s : State) (q : _) (r : _), s.live.events.listing = some (q, r)) ∧
    (∃ (s : State) (conn : Conn) (data : List Byte), (served conn s.live = true ∧ writeAbort conn 0x2811 1 (touch conn s.live) = none) ∧
      eventImageOk s.live data = true) :=
  ⟨⟨on [] id, .host, 63 :: List.replicate 16 0,
    (Config.freeValue 0).toNat % 4096, by decide +kernel, rfl, by decide, by decide +kernel, by decide +kernel, firstFree_empty _⟩,
   ⟨on [] (fun l => l.setEntry 4095 { phase := .live }), .host, 0x3F000FFF, by decide +kernel⟩,
   ⟨on [] (fun l => { l.setEntry 4095 { phase := .walking none false, queue := 15 } with events := { (l.setEntry 4095 { phase := .walking none false, queue := 15 }).events with fifo := [4095], walkFrom := 9999999996 } }), 4095, [], none, false, by decide +kernel⟩,
   ⟨on [] id, .host, 0x100F, by decide +kernel⟩,
   ⟨on [] (fun l => { l with events := { l.events with listing := some (15, []) } }), 15, [], by decide +kernel⟩,
   ⟨on [] id, .host, eventImage, by decide +kernel⟩⟩

theorem witness_FlushFreesQueue :
    ∃ (s : State) (conn : Conn) (q : Fin 16), (served conn s.live = true ∧ writeAbort conn (0x2800 + q.val) 7 (touch conn s.live) = none) :=
  ⟨on [] id, .host, 15, by decide +kernel⟩

theorem witness_SchedulerCompletes :
    (∃ (s : State) (e : _) (d : Due), schedUp s.live = true ∧ s.live.events.prearmAt ≠ some (s.live.now / 2) ∧ armedEntries s.live < 32 ∧
      earliest s.live (List.range 16) = some (e, d)) ∧
    (∃ (s : State) (e : BitVec 12) (due : _), schedUp s.live = true ∧ s.live.events.slotAt ≠ some (s.live.now / 2) ∧
      slotWinner s.live = some (e.toNat, due) ∧ s.live.now = due ∧ (s.live.entry e.toNat).late = false ∧ (s.live.entry e.toNat).per = 0 ∧
      (s.live.entry e.toNat).phase = .live ∧ boundaryCommitDue s.live = false ∧ listed s.live (s.live.entry e.toNat).queue = false ∧
      (s.live.entry e.toNat).act = 0) ∧
    (∃ (s : State) (e : BitVec 12) (due : _), schedUp s.live = true ∧ s.live.events.slotAt ≠ some (s.live.now / 2) ∧
      slotWinner s.live = some (e.toNat, due) ∧ s.live.now = due ∧ (s.live.entry e.toNat).late = false ∧ (s.live.entry e.toNat).per = 0 ∧
      (s.live.entry e.toNat).phase = .live ∧ boundaryCommitDue s.live = false ∧ listed s.live (s.live.entry e.toNat).queue = false ∧
      (s.live.entry e.toNat).act = 1 ∧ blockHeld s.live ((s.live.entry e.toNat).tgt / 64) = false) ∧
    (∃ (s : State) (e : BitVec 12) (a : _), schedUp s.live = true ∧ pinActOf (s.live.entry e.toNat) = some a ∧
      readyAt s.live e.toNat = some s.live.now ∧ (s.live.entry e.toNat).late = false ∧ (s.live.entry e.toNat).landed = false ∧
      driverOf s.live (s.live.entry e.toNat).tgt = 0xFFFE ∧ commitFirst s.live = false) :=
  ⟨⟨on [] (fun l => { (l.setEntry 4095 { phase := .live, queue := 15, key := 10000000000 }).setQueue 15 { order := [4095] } with time := l.time }), 4095, ⟨10000000000, 0, 0⟩, by decide +kernel⟩,
   ⟨on [] (fun l => { (l.setEntry 4095 { phase := .live, queue := 15, armed := some 10000000000 }).setQueue 15 { order := [4095] } with time := l.time }), 4095, 10000000000, by decide +kernel⟩,
   ⟨on [] (fun l => { (l.setEntry 4095 { phase := .live, queue := 15, act := 1, tgt := 511, armed := some 10000000000 }).setQueue 15 { order := [4095] } with time := l.time }), 4095, 10000000000, by decide +kernel⟩,
   ⟨on [(0x2DBF, 2, 0xFFFE)] (fun l => { (l.setEntry 4095 { phase := .live, queue := 15, act := 2, tgt := 191, armed := some 10000000000 }).setQueue 15 { order := [4095] } with time := l.time }), 4095, .set, by decide +kernel⟩⟩

theorem witness_EventActionsComplete :
    (∃ (s : State) (c : Fin 512), schedUp s.live = true ∧ blockHeld s.live (c.val / 64) = false) ∧
    (∃ (s : State) (n : Fin 192), schedUp s.live = true ∧ driverOf s.live n = 0xFFFE) ∧
    (∃ (s : State) (n : Fin 192), schedUp s.live = true ∧ driverOf s.live n = 0xFFFE) ∧
    (∃ (s : State) (n : Fin 192), schedUp s.live = true ∧ driverOf s.live n = 0xFFFE) ∧
    (∃ (s : State) (n : Fin 192), schedUp s.live = true ∧ driverOf s.live n < 512 ∧ blockHeld s.live (driverOf s.live n / 64) = false ∧
      (s.live.chan (driverOf s.live n)).outTclk ≠ s.live.now) ∧
    (∃ (s : State) (n : Fin 192), schedUp s.live = true ∧ driverOf s.live n < 512 ∧ blockHeld s.live (driverOf s.live n / 64) = false ∧
      (s.live.chan (driverOf s.live n)).outTclk ≠ s.live.now) ∧
    (∃ (s : State) (n : Fin 192), schedUp s.live = true ∧ driverOf s.live n < 512 ∧ blockHeld s.live (driverOf s.live n / 64) = false ∧
      (s.live.chan (driverOf s.live n)).outTclk ≠ s.live.now) ∧
    (∃ (s : State) (g : Fin 64), schedUp s.live = true ∧ groupArmed s.live g = true ∧ s.live.cfg (0x2C00 + g.val) 1 = 1 ∧
      memberHeld s.live g = false ∧ commitBreaks s.live g = false) ∧
    (∃ (s : State) (n : Fin 4), schedUp s.live = true ∧ blockHeld s.live 0x18 = false ∧ analogUp s.live = true ∧ analogOn s.live = true ∧
      calibrating s.live = false ∧ (s.live.seq n).run = none) ∧
    (∃ (s : State) (n : Fin 8), schedUp s.live = true ∧ ssiMode s.live n = true ∧ blockHeld s.live (0x20 + n.val) = false) ∧
    (∃ (s : State) (slot : Fin 13), schedUp s.live = true ∧ ((slot.val = 0 ∨ slotUsed s.live slot = true)) ∧
      (overlayReason slot s.live).1 = 0) ∧
    (∃ (s : State) (c : Fin 32), schedUp s.live = true ∧ (s.live.dc c).state = .running ∧ blockHeld s.live 0x40 = false) ∧
    (∃ (s : State) (c : Fin 32), schedUp s.live = true ∧ (s.live.dc c).state ≠ .running) ∧
    (∃ (s : State) (e : Fin 16), schedUp s.live = true ∧ unitUp (0x30 + e.val) s.live = true) ∧
    (∃ (s : State) (q : Fin 16), schedUp s.live = true ∧ s.live.logOn = true ∧ (s.live.log.waiting.get [] (576 + q.val)).length < 16) ∧
    (∃ (s : State), schedUp s.live = true ∧ s.live.snap.copying = false ∧ s.live.snap.waiting = false) :=
  ⟨⟨on [] id, 511, by decide +kernel⟩,
   ⟨on [(0x2DBF, 2, 0xFFFE)] id, 191, by decide +kernel⟩,
   ⟨on [(0x2DBF, 2, 0xFFFE)] id, 191, by decide +kernel⟩,
   ⟨on [(0x2DBF, 2, 0xFFFE)] id, 191, by decide +kernel⟩,
   ⟨on [(0x2DBF, 2, 511)] id, 191, by decide +kernel⟩,
   ⟨on [(0x2DBF, 2, 511)] id, 191, by decide +kernel⟩,
   ⟨on [(0x2DBF, 2, 511)] id, 191, by decide +kernel⟩,
   ⟨on [(0x2C3F, 1, 1)] (fun l => l.setGroup 63 { state := .armed }), 63, by decide +kernel⟩,
   ⟨on [(0x2750, 1, 1)] (fun l => { l with analog := { l.analog with status := 0 } }), 3, by decide +kernel⟩,
   ⟨on [(0x2507, 1, 2)] id, 7, by decide +kernel⟩,
   ⟨on [] id, 0, by decide +kernel⟩,
   ⟨on [] (fun l => l.setDc 31 { state := .running }), 31, by decide +kernel⟩,
   ⟨on [] (fun l => l.setDc 31 { state := .stopped }), 31, by decide +kernel⟩,
   ⟨on [] id, 15, by decide +kernel⟩,
   ⟨on [] id, 15, by decide +kernel⟩,
   ⟨on [] id, by decide +kernel⟩⟩

theorem witness_ToothEdgesComplete :
    (∃ (s : State) (w : Fin 4) (stamp : Stamp) (rising : Bool), takesEdge s.live w rising stamp = true ∧ (s.live.wheel w).lastEdge = none ∧
      (s.live.wheel w).state = .stopped) ∧
    (∃ (s : State) (w : Fin 4) (stamp : Stamp) (rising : Bool), takesEdge s.live w rising stamp = true ∧
      (s.live.wheel w).lastEdge.isSome = true ∧ (s.live.wheel w).refNum = 0 ∧
      2048 ≤ ((s.live.widen stamp) - (s.live.wheel w).lastEdge.getD 0)) ∧
    (∃ (s : State) (w : Fin 4) (stamp : Stamp) (rising : Bool), takesEdge s.live w rising stamp = true ∧
      (s.live.wheel w).lastEdge.isSome = true ∧ (s.live.wheel w).refNum ≠ 0 ∧
      ratioBelow (s.live.wheel w) ((s.live.widen stamp) - (s.live.wheel w).lastEdge.getD 0) 1 (ratioLimit s.live w 0x20) = true) ∧
    (∃ (s : State) (w : Fin 4) (stamp : Stamp) (rising : Bool), takesEdge s.live w rising stamp = true ∧
      (s.live.wheel w).lastEdge.isSome = true ∧ (s.live.wheel w).refNum ≠ 0 ∧
      ratioBelow (s.live.wheel w) ((s.live.widen stamp) - (s.live.wheel w).lastEdge.getD 0) 1 (ratioLimit s.live w 0x20) = false ∧
      (s.live.wheel w).state = .seeking ∧ 2048 ≤ ((s.live.widen stamp) - (s.live.wheel w).lastEdge.getD 0) ∧
      gapCandidate s.live w ((s.live.widen stamp) - (s.live.wheel w).lastEdge.getD 0) = true) ∧
    (∃ (s : State) (w : Fin 4) (stamp : Stamp) (rising : Bool), takesEdge s.live w rising stamp = true ∧
      (s.live.wheel w).lastEdge.isSome = true ∧ (s.live.wheel w).refNum ≠ 0 ∧
      ratioBelow (s.live.wheel w) ((s.live.widen stamp) - (s.live.wheel w).lastEdge.getD 0) 1 (ratioLimit s.live w 0x20) = false ∧
      (s.live.wheel w).state = .preSync ∧ (s.live.wheel w).refEdge = none ∧ closesGap s.live w = true ∧
      ratioBelow (s.live.wheel w) ((s.live.widen stamp) - (s.live.wheel w).lastEdge.getD 0) (wheelM s.live w + 1) (ratioLimit s.live w 0x21) = false ∧ ratioAbove (s.live.wheel w) ((s.live.widen stamp) - (s.live.wheel w).lastEdge.getD 0) (wheelM s.live w + 1) (ratioLimit s.live w 0x22) = false ∧ 2048 * (wheelM s.live w + 1) ≤ ((s.live.widen stamp) - (s.live.wheel w).lastEdge.getD 0)) ∧
    (∃ (s : State) (w : Fin 4) (stamp : Stamp) (rising : Bool), takesEdge s.live w rising stamp = true ∧
      (s.live.wheel w).lastEdge.isSome = true ∧ (s.live.wheel w).refNum ≠ 0 ∧
      ratioBelow (s.live.wheel w) ((s.live.widen stamp) - (s.live.wheel w).lastEdge.getD 0) 1 (ratioLimit s.live w 0x20) = false ∧
      (s.live.wheel w).state.runs = true ∧ (s.live.wheel w).refEdge = none ∧ (s.live.wheel w).virt = false ∧ closesGap s.live w = false ∧
      ratioBelow (s.live.wheel w) ((s.live.widen stamp) - (s.live.wheel w).lastEdge.getD 0) 1 (ratioLimit s.live w 0x23) = true ∧
      2048 ≤ ((s.live.widen stamp) - (s.live.wheel w).lastEdge.getD 0)) :=
  ⟨⟨on [(0x2603, 1, 1), (0x2603, 2, 191), (0x2603, 4, 2)] id, 3, 9999999996, true, by decide +kernel⟩,
   ⟨on [(0x2603, 1, 1), (0x2603, 2, 191), (0x2603, 4, 2)] (fun l => l.setWheel 3 { state := .seeking, lastEdge := some 9999997948 }), 3,
     9999999996, true, by decide +kernel⟩,
   ⟨on [(0x2603, 1, 1), (0x2603, 2, 191), (0x2603, 4,
     2)] (fun l => l.setWheel 3 { state := .seeking, lastEdge := some 9999997952, refNum := 4000000 }), 3, 9999999996,
     true, by decide +kernel⟩,
   ⟨on [(0x2603, 1, 1), (0x2603, 2, 191), (0x2603, 4,
     2)] (fun l => l.setWheel 3 { state := .seeking, lastEdge := some 9999700000, refNum := 100000, run := 2 }), 3, 9999999996,
     true, by decide +kernel⟩,
   ⟨on [(0x2603, 1, 1), (0x2603, 2, 191), (0x2603, 4,
     2)] (fun l => l.setWheel 3 { state := .preSync, lastEdge := some 9999700000, refNum := 100000, tooth := 57 }), 3, 9999999996,
     true, by decide +kernel⟩,
   ⟨on [(0x2603, 1, 1), (0x2603, 2, 191), (0x2603, 4,
     2)] (fun l => l.setWheel 3 { state := .sync, lastEdge := some 9999900000, refNum := 100000 }), 3, 9999999996, true, by decide +kernel⟩⟩

theorem witness_TrackerDeadlinesComplete :
    (∃ (s : State) (w : Fin 4), wheelUp s.live w = true ∧ (s.live.wheel w).state.synced = true ∧ (s.live.wheel w).virt = false ∧
      (s.live.wheel w).refEdge = none ∧ closesGap s.live w = false ∧ intervalReached s.live w 1 (s.live.wheel w).held.missLow = true) ∧
    (∃ (s : State) (w : Fin 4), wheelUp s.live w = true ∧ (s.live.wheel w).state.synced = true ∧ closesGap s.live w = false ∧
      intervalReached s.live w 1 (s.live.wheel w).held.missHigh = true) ∧
    (∃ (s : State) (w : Fin 4), wheelUp s.live w = true ∧ (s.live.wheel w).state.runs = true ∧ closesGap s.live w = true ∧
      intervalReached s.live w (wheelM s.live w + 1) (s.live.wheel w).held.gapHigh = true) ∧
    (∃ (s : State) (w : Fin 4) (e : _), wheelUp s.live w = true ∧ (s.live.wheel w).state ≠ .stopped ∧ (s.live.wheel w).lastEdge = some e ∧
      e + (s.live.wheel w).held.stall * 400 ≤ s.live.now) ∧
    (∃ (s : State) (w : Fin 4), wheelUp s.live w = true ∧ (s.live.wheel w).state.runs = true ∧
      (s.live.wheel w).rel = ((s.live.wheel w).span : Int) - 1 ∧ ((s.live.wheel w).span : Int) - 1 ≤ (s.live.wheel w).ticks s.live.now) ∧
    (∃ (s : State) (w : Fin 4), wheelUp s.live w = true ∧ (s.live.wheel w).catching = true ∧
      (s.live.wheel w).goal s.live.now ≤ (s.live.wheel w).rel) ∧
    (∃ (s : State) (w : Fin 4), wheelUp s.live w = true ∧ (s.live.wheel w).state = .cycleSync ∧
      (s.live.wheel w).cyc + (s.live.wheel w).held.cam + (s.live.wheel w).camDue ≤ (s.live.wheel w).sinceRef) :=
  ⟨⟨on [(0x2603, 1, 1)] (fun l => l.setWheel 3 { state := .sync, lastEdge := some 0, refNum := 100000 }), 3, by decide +kernel⟩,
   ⟨on [(0x2603, 1, 1)] (fun l => l.setWheel 3 { state := .sync, lastEdge := some 0, refNum := 100000 }), 3, by decide +kernel⟩,
   ⟨on [(0x2603, 1, 1)] (fun l => l.setWheel 3 { state := .sync, lastEdge := some 0, refNum := 100000, tooth := 57 }),
     3, by decide +kernel⟩,
   ⟨on [(0x2603, 1, 1)] (fun l => l.setWheel 3 { state := .seeking, lastEdge := some 0 }), 3, 0, by decide +kernel⟩,
   ⟨on [(0x2603, 1, 1)] (fun l => l.setWheel 3 { state := .sync, lane := 1023, tickLen := 65536 }), 3, by decide +kernel⟩,
   ⟨on [(0x2603, 1, 1)] (fun l => l.setWheel 3 { state := .sync, lane := 1023, catching := true, tickLen := 65536 }), 3, by decide +kernel⟩,
   ⟨on [(0x2603, 1, 1)] (fun l => l.setWheel 3 { state := .cycleSync, sinceRef := 0xFFFFFF }), 3, by decide +kernel⟩⟩

theorem witness_FeedbackPortsComplete :
    (∃ (s : State) (n : Fin 8) (stamp : Stamp) (a : _) (b : _) (d : _), portOn s.live n = true ∧
      (((fbMode s.live n) = 1 ∨ (fbMode s.live n) = 3)) ∧ settled s.live (s.live.cfg (0x2500 + n.val) 3) stamp = true ∧ d ≠ 0 ∧
      quadCount ((s.live.port n).lines.getLsbD 0) ((s.live.port n).lines.getLsbD 1) a b = some d) ∧
    (∃ (s : State) (n : Fin 8) (stamp : Stamp) (a : _) (b : _), portOn s.live n = true ∧
      (((fbMode s.live n) = 1 ∨ (fbMode s.live n) = 3)) ∧ settled s.live (s.live.cfg (0x2500 + n.val) 3) stamp = true ∧
      quadCount ((s.live.port n).lines.getLsbD 0) ((s.live.port n).lines.getLsbD 1) a b = none) ∧
    (∃ (s : State) (n : Fin 8) (stamp : Stamp) (rising : Bool), portOn s.live n = true ∧
      (((fbMode s.live n) = 1 ∨ (fbMode s.live n) = 5)) ∧ settled s.live (s.live.cfg (0x2500 + n.val) 3) stamp = true ∧
      rising = decide (s.live.cfg (0x2500 + n.val) 6 = 0) ∧
      ((s.live.cfg (0x2500 + n.val) 7 = 0 ∨ s.live.cfg (0x2500 + n.val) 7 = b2n ((s.live.port n).lines.getLsbD 0) * 2 + b2n ((s.live.port n).lines.getLsbD 1) + 1))) ∧
    (∃ (s : State) (n : Fin 8) (conn : Conn), (served conn s.live = true ∧ writeAbort conn (0x2500 + n.val) 9 (touch conn s.live) = none) ∧
      (((fbMode s.live n) = 1 ∨ (fbMode s.live n) = 5)) ∧ portUp s.live n = true) ∧
    (∃ (s : State) (n : Fin 8) (conn : Conn), (served conn s.live = true ∧ writeAbort conn (0x2500 + n.val) 9 (touch conn s.live) = none) ∧
      (((fbMode s.live n) = 1 ∨ (fbMode s.live n) = 5)) ∧ portUp s.live n = true) ∧
    (∃ (s : State) (n : Fin 8) (conn : Conn), (served conn s.live = true ∧
      writeAbort conn (0x2500 + n.val) 0x0A (touch conn s.live) = none) ∧ portUp s.live n = true) ∧
    (∃ (s : State) (n : Fin 8) (stamp : Stamp) (lines : BitVec 3), portOn s.live n = true ∧ (fbMode s.live n) = 4 ∧
      settled s.live (s.live.cfg (0x2500 + n.val) 3) stamp = true ∧ (s.live.port n).state = .running ∧
      hallSector (s.live.port n).lines ≠ 0xFF ∧ hallSector lines ≠ 0xFF ∧
      (hallSector lines + 6 - hallSector (s.live.port n).lines) % 6 = 1) ∧
    (∃ (s : State) (n : Fin 8) (stamp : Stamp), portUp s.live n = true ∧ (fbMode s.live n) = 4 ∧
      settled s.live (s.live.cfg (0x2500 + n.val) 3) stamp = true ∧ (s.live.port n).state = .starting) ∧
    (∃ (s : State) (n : Fin 8) (stamp : Stamp) (lines : BitVec 3), portOn s.live n = true ∧ (fbMode s.live n) = 4 ∧
      settled s.live (s.live.cfg (0x2500 + n.val) 3) stamp = true ∧ (s.live.port n).state ≠ .starting ∧ (s.live.port n).lines ≠ lines ∧
      hallSector lines = 0xFF) ∧
    (∃ (s : State) (n : Fin 8) (stamp : Stamp) (rising : Bool), portOn s.live n = true ∧ probeSel s.live n rising = true ∧
      settled s.live (s.live.cfg (0x2500 + n.val) 0x10) stamp = true) ∧
    (∃ (s : State) (n : Fin 8), portOn s.live n = true ∧ s.live.now % 160 = 0) ∧
    (∃ (s : State) (n : Fin 8), portOn s.live n = true ∧ s.live.now % 160 = 0 ∧ (s.live.port n).moveAt + standTime s.live n < s.live.now ∧
      (s.live.port n).obs ≠ .standstill ∧ (s.live.port n).obs ≠ .held) ∧
    (∃ (s : State) (n : Fin 8) (level : Bool), (s.live.port n).ckReleased = false ∧ 8 ≤ s.live.now ∧
      ckEdge s.live n (s.live.now - 8) = some level) ∧
    (∃ (s : State) (n : Fin 8) (level : Bool), (s.live.port n).ckReleased = false ∧ 8 ≤ s.live.now ∧
      ckEdge s.live n (s.live.now - 8) = some level ∧ 2 ≤ (s.live.port n).ckRun) ∧
    (∃ (s : State) (n : Fin 8), portOn s.live n = true ∧ (s.live.port n).state = .starting ∧
      (((fbMode s.live n) = 1 ∨ (fbMode s.live n) = 4 ∧ hallSector (s.live.port n).lines ≠ 0xFF)) ∧ (s.live.port n).moveAt < s.live.now) ∧
    (∃ (s : State) (n : Fin 8), portOn s.live n = true ∧ (s.live.port n).state = .starting ∧ (fbMode s.live n) = 4 ∧
      hallSector (s.live.port n).lines = 0xFF ∧ (s.live.port n).moveAt < s.live.now) :=
  ⟨⟨on [(0x2507, 1, 1), (0x2507, 3, 2)] (fun l => l.setPort 7 { state := .running }), 7, 9999999996, true, false, 1, by decide +kernel⟩,
   ⟨on [(0x2507, 1, 3), (0x2507, 3, 2)] (fun l => l.setPort 7 { state := .running }), 7, 9999999996, true, true, by decide +kernel⟩,
   ⟨on [(0x2507, 1, 5), (0x2507, 3, 2), (0x2507, 7, 4)] (fun l => l.setPort 7 { state := .running, lines := 3 }), 7, 9999999996,
     true, by decide +kernel⟩,
   ⟨on [(0x2507, 1, 1)] (fun l => l.setPort 7 { state := .running }), 7, .host, by decide +kernel⟩,
   ⟨on [(0x2507, 1, 5)] (fun l => l.setPort 7 { state := .running }), 7, .host, by decide +kernel⟩,
   ⟨on [] id, 7, .host, by decide +kernel⟩,
   ⟨on [(0x2507, 1, 4), (0x2507, 3, 2)] (fun l => l.setPort 7 { state := .running, lines := 1 }), 7, 9999999996, 3, by decide +kernel⟩,
   ⟨on [(0x2507, 1, 4), (0x2507, 3, 2)] (fun l => l.setPort 7 { state := .starting }), 7, 9999999996, by decide +kernel⟩,
   ⟨on [(0x2507, 1, 4), (0x2507, 3, 2)] (fun l => l.setPort 7 { state := .running, lines := 1 }), 7, 9999999996, 7, by decide +kernel⟩,
   ⟨on [(0x2507, 1, 1), (0x2507, 0x0F, 1), (0x2507, 0x10, 2)] (fun l => l.setPort 7 { state := .running }), 7, 9999999996,
     true, by decide +kernel⟩,
   ⟨on [(0x2507, 1, 1)] (fun l => l.setPort 7 { state := .running }), 7, by decide +kernel⟩,
   ⟨on [(0x2507, 1, 1)] (fun l => l.setPort 7 { state := .running }), 7, by decide +kernel⟩,
   ⟨on [(0x2507, 1, 2)] (fun l => l.setPort 7 { state := .running, ckRise := some 9999999992 }), 7, true, by decide +kernel⟩,
   ⟨on [(0x2507, 1, 2)] (fun l => l.setPort 7 { state := .running, ckRun := 2, ckRise := some 9999999992 }), 7, true, by decide +kernel⟩,
   ⟨on [(0x2507, 1, 4)] (fun l => l.setPort 7 { state := .starting, moveAt := 9999999999, lines := 5 }), 7, by decide +kernel⟩,
   ⟨on [(0x2507, 1, 4)] (fun l => l.setPort 7 { state := .starting, moveAt := 9999999999, lines := 7 }), 7, by decide +kernel⟩⟩

theorem witness_SsiFramesComplete :
    (∃ (s : State) (n : Fin 8), portOn s.live n = true ∧ ssiMode s.live n = true ∧ s.live.cfg (0x2500 + n.val) 0x17 ≠ 0 ∧
      (s.live.port n).nextReq ≤ s.live.now ∧ (s.live.port n).ssi = .idle ∧ (s.live.port n).reqAt ≠ some s.live.now) ∧
    (∃ (s : State) (n : Fin 8) (tL : _), portOn s.live n = true ∧ (s.live.port n).ssi = .starting tL) ∧
    (∃ (s : State) (n : Fin 8) (tL : _) (level : Bool), portOn s.live n = true ∧ (s.live.port n).ssi = .waiting tL true ∧
      (s.live.port n).ckReleased = false ∧ level = (s.live.port n).frame.invert ∧ tL ≤ s.live.now ∧ s.live.now ≤ tL + 800) ∧
    (∃ (s : State) (n : Fin 8) (tL : _), portOn s.live n = true ∧ (s.live.port n).ssi = .waiting tL true ∧ tL + 800 ≤ s.live.now) ∧
    (∃ (s : State) (n : Fin 8) (tL : _) (d : _), portOn s.live n = true ∧ (s.live.port n).ssi = .sampling tL d ∧
      tL + ssiL s.live n * 2 * ssiHalf s.live n + d + 2 ≤ s.live.now) ∧
    (∃ (s : State) (n : Fin 8) (tL : _) (d : _), portOn s.live n = true ∧ (s.live.port n).ssi = .sampling tL d ∧
      tL + ssiL s.live n * 2 * ssiHalf s.live n + d + 2 ≤ s.live.now ∧ fbMode s.live n = 2 ∧ (s.live.port n).state = .starting ∧
      ssiC s.live n = 0 ∧ ssiF s.live n = 0 ∧ s.live.flag (0x2500 + n.val) 0x16 = false) ∧
    (∃ (s : State) (n : Fin 8) (till : _), portOn s.live n = true ∧ (s.live.port n).ssi = .recovery till ∧ till ≤ s.live.now) :=
  ⟨⟨on [(0x2507, 1, 2), (0x2507, 0x17, 1)] (fun l => l.setPort 7 { state := .running, nextReq := 10000000000, reqAt := some 9999999999 }),
    7, by decide +kernel⟩,
   ⟨on [(0x2507, 1, 2)] (fun l => l.setPort 7 { state := .running, ssi := .starting 10000000000 }), 7, 10000000000, by decide +kernel⟩,
   ⟨on [(0x2507, 1, 2)] (fun l => l.setPort 7 { state := .running, ssi := .waiting 9999999200 true }), 7, 9999999200,
     false, by decide +kernel⟩,
   ⟨on [(0x2507, 1, 2)] (fun l => l.setPort 7 { state := .running, ssi := .waiting 9999999200 true }), 7, 9999999200, by decide +kernel⟩,
   ⟨on [(0x2507, 1, 2)] (fun l => l.setPort 7 { state := .running, ssi := .sampling 9999000000 0 }), 7, 9999000000, 0, by decide +kernel⟩,
   ⟨on [(0x2507, 1, 2), (0x2507, 0x14, 0), (0x2507, 0x15, 0), (0x2507, 0x16,
     0)] (fun l => l.setPort 7 { state := .starting, ssi := .sampling 9999000000 0 }), 7, 9999000000, 0, by decide +kernel⟩,
   ⟨on [(0x2507, 1, 2)] (fun l => l.setPort 7 { state := .running, ssi := .recovery 10000000000 }), 7, 10000000000, by decide +kernel⟩⟩

theorem witness_WaveformComplete :
    (∃ (s : State) (u : Fin 24) (b : Nat), (s.live.pair u).nextB = some b ∧ (s.live.pair u).state = .running ∧ b / 64 = s.live.now ∧
      (s.live.pair u).stopDue = false ∧ ((∀ g, g < 64 → ¬(s.live.cfg (0x2C00 + g) 1 = 4 ∧ s.live.cfg (0x2C00 + g) 2 = u.val)))) ∧
    (∃ (s : State) (u : Fin 24) (b : Nat), (s.live.pair u).nextB = some b ∧ (s.live.pair u).state = .running ∧ b / 64 = s.live.now ∧
      (s.live.pair u).stopDue = true) ∧
    (∃ (s : State) (u : Fin 24) (b : Nat), (s.live.pair u).lastB = some b ∧ (s.live.pair u).state = .running ∧ 16 ≤ u.val ∧
      s.live.cfg (0x2400 + u.val) 0x0E = 1 ∧ (s.live.pair u).midDone = false ∧ midOf s.live u (s.live.pair u) b / 64 = s.live.now) ∧
    (∃ (s : State) (u : Fin 24) (i : Nat) (r : _), (s.live.pair u).refEdges = (i, true) :: r ∧ i / 64 = s.live.now ∧
      (s.live.pair u).state = .running) ∧
    (∃ (s : State) (u : Fin 24) (i : Nat) (r : _), (s.live.pair u).refEdges = (i, false) :: r ∧ i / 64 = s.live.now ∧
      (s.live.pair u).state = .running) ∧
    (∃ (s : State) (u : Fin 24) (i : Nat), (s.live.pair u).onH = some i ∧ i / 64 = s.live.now ∧ (s.live.pair u).state ≠ .idle) ∧
    (∃ (s : State) (u : Fin 24) (i : Nat), (s.live.pair u).onL = some i ∧ i / 64 = s.live.now ∧ (s.live.pair u).state ≠ .idle) ∧
    (∃ (s : State) (u : Fin 24) (beat : Word), unitUp 0x10 s.live = true ∧ streaming s.live u = true ∧ beat.toNat < 2 ^ 22 ∧
      reloadDue s.live u = false ∧ (s.live.pair u).reloadAt ≠ some s.live.now) ∧
    (∃ (s : State) (u : Fin 24) (beat : Word), unitUp 0x10 s.live = true ∧ streaming s.live u = true ∧ 2 ^ 22 ≤ beat.toNat) ∧
    (∃ (s : State) (u : Fin 24) (isL : Bool) (taps : Byte), unitUp 0x10 s.live = true ∧ domainUp .prot s.live = true ∧ u.val < 16 ∧
      (if isL then (s.live.pair u).dlL else (s.live.pair u).dlH).calDue s.live.now = true ∧
      (if isL then (s.live.pair u).dlL else (s.live.pair u).dlH).bad taps.toNat = false) ∧
    (∃ (s : State) (u : Fin 24) (isL : Bool) (taps : Byte), unitUp 0x10 s.live = true ∧ domainUp .prot s.live = true ∧ u.val < 16 ∧
      (if isL then (s.live.pair u).dlL else (s.live.pair u).dlH).calDue s.live.now = true ∧
      (if isL then (s.live.pair u).dlL else (s.live.pair u).dlH).bad taps.toNat = true) ∧
    (∃ (s : State) (u : Fin 24), (s.live.pair u).startAt = some s.live.now ∧ s.live.pwm.arm = .armed ∧
      s.live.flag (0x2400 + u.val) 1 = true ∧ (s.live.pair u).state ≠ .running ∧ unitUp 0x10 s.live = true) :=
  ⟨⟨on [] (fun l => l.setPair 23 { state := .running, nextB := some 640000000063 }), 23, 640000000063, by decide +kernel⟩,
   ⟨on [] (fun l => l.setPair 23 { state := .running, nextB := some 640000000063, stopDue := true }), 23, 640000000063, by decide +kernel⟩,
   ⟨on [(0x2417, 0x0E, 1)] (fun l => l.setPair 23 { state := .running, lastB := some 640000000000, eff := { period := 0 } }), 23,
     640000000000, by decide +kernel⟩,
   ⟨on [] (fun l => l.setPair 23 { state := .running, refEdges := [(640000000063, true)] }), 23, 640000000063, [], by decide +kernel⟩,
   ⟨on [] (fun l => l.setPair 23 { state := .running, refEdges := [(640000000063, false)] }), 23, 640000000063, [], by decide +kernel⟩,
   ⟨on [] (fun l => l.setPair 23 { state := .running, onH := some 640000000063 }), 23, 640000000063, by decide +kernel⟩,
   ⟨on [] (fun l => l.setPair 23 { state := .tripped, onL := some 640000000063 }), 23, 640000000063, by decide +kernel⟩,
   ⟨on [(0x240F, 0x0C, 1)] (fun l => l.setPair 15 { state := .running }), 15, 0x3FFFFF, by decide +kernel⟩,
   ⟨on [(0x240F, 0x0C, 1)] (fun l => l.setPair 15 { state := .running }), 15, 0x400000, by decide +kernel⟩,
   ⟨on [] (fun l => l.setPair 15 { dlL := { calAt := some 9999600000, prev := some 119 } }), 15, true, 127, by decide +kernel⟩,
   ⟨on [] (fun l => l.setPair 15 { dlL := { prev := some 110 } }), 15, true, 119, by decide +kernel⟩,
   ⟨on [(0x240F, 1, 1)] (fun l => { (l.setPair 15 { startAt := some 10000000000 }) with pwm := { arm := .armed } }), 15, by decide +kernel⟩⟩

theorem witness_TripAndArmComplete :
    (∃ (s : State) (i : Fin 16) (stamp : Stamp), domainUp .prot s.live = true ∧ s.live.flag (0x2420 + i.val) 1 = true ∧
      maskOn s.live i = false ∧ tripSampled s.live i stamp = true) ∧
    (∃ (s : State) (i : Fin 16) (stamp : Stamp), domainUp .prot s.live = true ∧ tripSampled s.live i stamp = true) ∧
    (∃ (s : State) (i : Fin 16) (since : Nat), maskOn s.live i = true ∧ (s.live.trip i).maskFrom = some since ∧
      since + s.live.cfg (0x2420 + i.val) 6 ≤ s.live.now) ∧
    (∃ (s : State) (conn : Conn) (i : Fin 16), (served conn s.live = true ∧
      writeAbort conn (0x2420 + i.val) 8 (touch conn s.live) = none)) ∧
    (∃ (s : State) (conn : Conn), (served conn s.live = true ∧ writeAbort conn 0x2418 4 (touch conn s.live) = none)) ∧
    (∃ (s : State) (conn : Conn), (served conn s.live = true ∧ writeAbort conn 0x2418 2 (touch conn s.live) = none) ∧
      s.live.pwm.arm = .disarmed ∧ refusalReason s.live = 0) ∧
    (∃ (s : State) (conn : Conn), (served conn s.live = true ∧ writeAbort conn 0x2418 2 (touch conn s.live) = none) ∧
      s.live.pwm.arm = .disarmed ∧ refusalReason s.live ≠ 0) ∧
    (∃ (s : State) (conn : Conn), (served conn s.live = true ∧ writeAbort conn 0x2418 2 (touch conn s.live) = none) ∧
      ((s.live.pwm.arm = .armed ∨ s.live.pwm.arm = .accepted ∧ refusalReason s.live = 0))) ∧
    (∃ (s : State) (conn : Conn), (served conn s.live = true ∧ writeAbort conn 0x2418 2 (touch conn s.live) = none) ∧
      s.live.pwm.arm ≠ .armed) ∧
    (∃ (s : State) (conn : Conn), (served conn s.live = true ∧ writeAbort conn 0x2418 2 (touch conn s.live) = none) ∧
      s.live.pwm.arm = .armed) ∧
    (∃ (s : State), s.live.pwm.arm = .accepted ∧ s.live.pwm.acceptedAt < s.live.now ∧ s.live.now % 8000 = 0) ∧
    (∃ (s : State), s.live.pwm.arm = .armed ∧ s.live.pwm.armDtime.toNat < s.live.now ∧
      (s.live.now - s.live.pwm.armDtime.toNat) % 4000 = 0 ∧ s.live.pwm.arm0.released = false ∧ s.live.pwm.arm1.released = false) ∧
    (∃ (s : State) (u : Fin 24) (level : Bool), (s.live.pair u).h.checkDue = true ∧ s.live.now = (s.live.pair u).h.edgeAt + 8 ∧
      (s.live.pair u).h.driven = some level) ∧
    (∃ (s : State) (u : Fin 24) (level : Bool), (s.live.pair u).h.checkDue = true ∧ s.live.now = (s.live.pair u).h.edgeAt + 8 ∧
      (s.live.pair u).h.driven = some (!level) ∧ 2 ≤ (s.live.pair u).h.run) ∧
    (∃ (s : State) (u : Fin 24) (level : Bool), (s.live.pair u).l.checkDue = true ∧ s.live.now = (s.live.pair u).l.edgeAt + 8 ∧
      (s.live.pair u).l.driven = some (!level) ∧ 2 ≤ (s.live.pair u).l.run) ∧
    (∃ (s : State) (j : Fin 2) (level : Bool), (if j = 0 then s.live.pwm.arm0 else s.live.pwm.arm1).checkDue = true ∧
      s.live.now = (if j = 0 then s.live.pwm.arm0 else s.live.pwm.arm1).edgeAt + 8 ∧
      (if j = 0 then s.live.pwm.arm0 else s.live.pwm.arm1).driven = some (!level) ∧
      2 ≤ (if j = 0 then s.live.pwm.arm0 else s.live.pwm.arm1).run) :=
  ⟨⟨on [(0x242F, 1, 1), (0x242F, 4, 15)] id, 15, 9999999986, by decide +kernel⟩,
   ⟨on [(0x242F, 4, 15)] id, 15, 9999999986, by decide +kernel⟩,
   ⟨on [(0x242F, 3, 1), (0x242F, 5, 511), (0x242F, 6,
     500)] (fun l => (l.setChan 511 { out := true, en := true }).setTrip 15 { maskFrom := some 9999999500 }), 15,
     9999999500, by decide +kernel⟩,
   ⟨on [] id, .host, 15, by decide +kernel⟩,
   ⟨on [] id, .host, by decide +kernel⟩,
   ⟨on [(0x2418, 1, 1)] (fun l => { l with time := { l.time with status := 0x400 }, pairs := (List.range 16).map (fun u => (u, { calH := true, calL := true })) }), .host, by decide +kernel⟩,
   ⟨on [] id, .host, by decide +kernel⟩,
   ⟨on [(0x2418, 1, 1)] (fun l => { l with time := { l.time with status := 0x400 }, pairs := (List.range 16).map (fun u => (u, { calH := true, calL := true })), pwm := { arm := .accepted } }), .host, by decide +kernel⟩,
   ⟨on [] (fun l => { l with pwm := { arm := .accepted } }), .host, by decide +kernel⟩,
   ⟨on [] (fun l => { l with pwm := { arm := .armed } }), .host, by decide +kernel⟩,
   ⟨on [] (fun l => { l with pwm := { arm := .accepted, acceptedAt := 9999999999 } }), by decide +kernel⟩,
   ⟨on [] (fun l => { l with pwm := { arm := .armed, armDtime := 9999996000 } }), by decide +kernel⟩,
   ⟨on [] (fun l => l.setPair 23 { h := { checkDue := true, edgeAt := 9999999992, driven := some true } }), 23, true, by decide +kernel⟩,
   ⟨on [] (fun l => l.setPair 23 { h := { checkDue := true, edgeAt := 9999999992, driven := some false, run := 2 } }), 23,
     true, by decide +kernel⟩,
   ⟨on [] (fun l => l.setPair 23 { l := { checkDue := true, edgeAt := 9999999992, driven := some false, run := 2 } }), 23,
     true, by decide +kernel⟩,
   ⟨on [] (fun l => { l with pwm := { arm1 := { checkDue := true, edgeAt := 9999999992, driven := some false, run := 2 } } }), 1,
     true, by decide +kernel⟩⟩

theorem witness_ConversionComplete :
    (∃ (s : State) (conn : Conn) (n : Fin 4), (served conn s.live = true ∧ writeAbort conn (0x2740 + n.val) 3 (touch conn s.live) = none) ∧
      analogUp s.live = true ∧ analogOn s.live = true ∧ calibrating s.live = false ∧ (s.live.seq n).run = none) ∧
    (∃ (s : State) (n : Fin 4) (p : Pass) (w : _), (s.live.seq n).run = some p ∧ stepWaits s.live n = some w ∧ analogUp s.live = true ∧
      s.live.now % 4 = 0 ∧ convsFree s.live w = true ∧ lowerFirst s.live n w = false) ∧
    (∃ (s : State) (n : Fin 4) (p : Pass) (start : _), (s.live.seq n).run = some p ∧ p.startedAt = some start ∧ analogUp s.live = true ∧
      start + (stepAcq p.word + 16) * 4 ≤ s.live.now ∧ p.step + 1 < p.words.length ∧ (s.live.seq n).stopDue = false) ∧
    (∃ (s : State) (k : Fin 4) (a : _) (b : _) (r : _), analogUp s.live = true ∧ (s.live.conv k).fifo = a :: b :: r) ∧
    (∃ (s : State) (conn : Conn), (served conn s.live = true ∧ writeAbort conn 0x2750 2 (touch conn s.live) = none) ∧
      calibrating s.live = false ∧ analogUp s.live = true) ∧
    (∃ (s : State) (r0 : CalResult) (r1 : CalResult) (r2 : CalResult) (r3 : CalResult), calibrating s.live = true ∧
      s.live.analog.calStart + 5120000 ≤ s.live.now ∧ ([r0, r1, r2, r3].any calBad) = false) ∧
    (∃ (s : State) (conn : Conn) (a : Fin 48), (served conn s.live = true ∧
      writeAbort conn (0x2700 + a.val) 8 (touch conn s.live) = none) ∧ bitOf (s.live.anIn a).status.toNat 4 = true ∧
      (s.live.anIn a).since = true ∧ (s.live.anIn a).inside = true) :=
  ⟨⟨on [(0x2750, 1, 1), (0x2743, 2, 2)] id, .host, 3, by decide +kernel⟩,
   ⟨on [] (fun l => l.setSeq 3 { run := some { step := 0, words := [0x00040000FFFFFF00, 0x00040000FFFFFF00], continuous := false, startedAt := none, delayed := false, begun := true } }), 3, { step := 0, words := [0x00040000FFFFFF00, 0x00040000FFFFFF00], continuous := false, startedAt := none, delayed := false, begun := true }, 0x00040000FFFFFF00, by decide +kernel⟩,
   ⟨on [] (fun l => l.setSeq 3 { run := some { step := 0, words := [0x00040000FFFFFF00, 0x00040000FFFFFF00], continuous := false, startedAt := some 1000, delayed := false, begun := true } }), 3, { step := 0, words := [0x00040000FFFFFF00, 0x00040000FFFFFF00], continuous := false, startedAt := some 1000, delayed := false, begun := true }, 1000, by decide +kernel⟩,
   ⟨on [] (fun l => l.setConv 3 { fifo := [1, 2] }), 3, 1, 2, [], by decide +kernel⟩,
   ⟨on [] id, .host, by decide +kernel⟩,
   ⟨on [] (fun l => { l with analog := { l.analog with status := 4, calStart := 9994880000 } }), ⟨⟨512, 0⟩, ⟨0, 200⟩⟩, {}, {},
     {}, by decide +kernel⟩,
   ⟨on [] (fun l => l.setAnIn 47 { status := 16, since := true, inside := true }), .host, 47, by decide +kernel⟩⟩

theorem witness_ResultRegister :
    ∃ (s : State) (n : Fin 4) (p : Pass) (start : _), (s.live.seq n).run = some p ∧ p.startedAt = some start ∧ analogUp s.live = true ∧
      start + (stepAcq p.word + 16) * 4 ≤ s.live.now ∧ stepConvs p.word = [0] :=
  ⟨on [] (fun l => l.setSeq 3 { run := some { step := 0, words := [0x00040000FFFFFF00, 0x00040000FFFFFF00], continuous := false, startedAt := some 1000, delayed := false, begun := true } }), 3, { step := 0, words := [0x00040000FFFFFF00, 0x00040000FFFFFF00], continuous := false, startedAt := some 1000, delayed := false, begun := true }, 1000, by decide +kernel⟩

theorem witness_StopEndsPass :
    (∃ (s : State) (conn : Conn) (n : Fin 4) (p : Pass), (served conn s.live = true ∧
      writeAbort conn (0x2740 + n.val) 3 (touch conn s.live) = none) ∧ (s.live.seq n).run = some p) ∧
    (∃ (s : State) (n : Fin 4) (p : Pass) (start : _), (s.live.seq n).run = some p ∧ p.startedAt = some start ∧ analogUp s.live = true ∧
      start + (stepAcq p.word + 16) * 4 ≤ s.live.now ∧ (s.live.seq n).stopDue = true) ∧
    (∃ (s : State) (conn : Conn) (n : Fin 4), (served conn s.live = true ∧ writeAbort conn (0x2740 + n.val) 3 (touch conn s.live) = none) ∧
      (s.live.seq n).run = none) :=
  ⟨⟨on [] (fun l => l.setSeq 3 { run := some { step := 0, words := [0x00040000FFFFFF00, 0x00040000FFFFFF00], continuous := false, startedAt := none, delayed := false, begun := true } }), .host, 3, { step := 0, words := [0x00040000FFFFFF00, 0x00040000FFFFFF00], continuous := false, startedAt := none, delayed := false, begun := true }, by decide +kernel⟩,
   ⟨on [] (fun l => l.setSeq 3 { run := some { step := 0, words := [0x00040000FFFFFF00, 0x00040000FFFFFF00], continuous := false, startedAt := some 1000, delayed := false, begun := true }, stopDue := true }), 3, { step := 0, words := [0x00040000FFFFFF00, 0x00040000FFFFFF00], continuous := false, startedAt := some 1000, delayed := false, begun := true }, 1000, by decide +kernel⟩,
   ⟨on [] (fun l => l.setSeq 3 { resume := true }), .host, 3, by decide +kernel⟩⟩

theorem witness_PinInstructionsComplete :
    (∃ (s : State) (e : Fin 16), peReady s.live e 0x0 = true) ∧
    (∃ (s : State) (e : Fin 16), peReady s.live e 0x1 = true) ∧
    (∃ (s : State) (e : Fin 16) (n : _), peUp s.live e = true ∧ (s.live.pe e).state = .running ∧ (s.live.pe e).delay = some n ∧
      (s.live.pe e).reaches (n - 1) = true) ∧
    (∃ (s : State) (e : Fin 16) (pins : Byte), peReady s.live e 0x2 = true ∧ waitHolds (s.live.pe e) pins = false) ∧
    (∃ (s : State) (e : Fin 16) (pins : Byte), peReady s.live e 0x2 = true ∧ waitHolds (s.live.pe e) pins = true ∧
      ((field (s.live.pe e).instr 19 18 ≠ 1 ∨ bitOf (s.live.pe e).instr 17 = false))) ∧
    (∃ (s : State) (e : Fin 16) (pins : Byte), peReady s.live e 0x2 = true ∧ waitHolds (s.live.pe e) pins = true ∧
      field (s.live.pe e).instr 19 18 = 1 ∧ bitOf (s.live.pe e).instr 17 = true ∧ (s.live.pe e).flagSets = none) ∧
    (∃ (s : State) (e : Fin 16) (pins : Byte), peUp s.live e = true ∧ (s.live.pe e).state = .waiting ∧ (s.live.pe e).releasable = true ∧
      waitHolds (s.live.pe e) pins = true ∧ peOp (s.live.pe e).instr = 0x2 ∧
      ((field (s.live.pe e).instr 19 18 ≠ 1 ∨ bitOf (s.live.pe e).instr 17 = false))) ∧
    (∃ (s : State) (e : Fin 16) (pins : Byte) (w : _) (v : _) (r : _), peUp s.live e = true ∧ (s.live.pe e).state = .waiting ∧
      (s.live.pe e).releasable = true ∧ waitHolds (s.live.pe e) pins = true ∧ peOp (s.live.pe e).instr = 0x6 ∧
      (s.live.pe e).seen.tx = w :: v ∧ (s.live.pe e).seen.flushed = false ∧ (s.live.pe e).tx = w :: r) ∧
    (∃ (s : State) (e : Fin 16) (pins : Byte), peUp s.live e = true ∧ (s.live.pe e).state = .waiting ∧ (s.live.pe e).releasable = true ∧
      waitHolds (s.live.pe e) pins = true ∧ peOp (s.live.pe e).instr = 0x7) ∧
    (∃ (s : State) (e : Fin 16) (pins : Byte), peUp s.live e = true ∧ (s.live.pe e).state = .waiting ∧
      (s.live.pe e).reaches (2 ^ (peTo (s.live.pe e).instr + 1) - 1) = true ∧
      ((s.live.pe e).releasable && waitHolds (s.live.pe e) pins) = false ∧ s.live.flag (0x2900 + e.val) 0x0E = false) ∧
    (∃ (s : State) (e : Fin 16) (pins : Byte), peUp s.live e = true ∧ (s.live.pe e).state = .waiting ∧
      (s.live.pe e).reaches (2 ^ (peTo (s.live.pe e).instr + 1) - 1) = true ∧
      ((s.live.pe e).releasable && waitHolds (s.live.pe e) pins) = false ∧ s.live.flag (0x2900 + e.val) 0x0E = true) ∧
    (∃ (s : State) (e : Fin 16), peReady s.live e 0x3 = true) ∧
    (∃ (s : State) (e : Fin 16), peReady s.live e 0x4 = true) ∧
    (∃ (s : State) (e : Fin 16), peReady s.live e 0x5 = true) ∧
    (∃ (s : State) (e : Fin 16) (w : _) (v : _) (r : _), peReady s.live e 0x6 = true ∧ (s.live.pe e).seen.tx = w :: v ∧
      (s.live.pe e).seen.flushed = false ∧ (s.live.pe e).tx = w :: r) ∧
    (∃ (s : State) (e : Fin 16), peReady s.live e 0x6 = true ∧ (s.live.pe e).seen.tx = [] ∧ bitOf (s.live.pe e).instr 16 = true) ∧
    (∃ (s : State) (e : Fin 16), peReady s.live e 0x6 = true ∧ (s.live.pe e).seen.tx = [] ∧ bitOf (s.live.pe e).instr 16 = false) ∧
    (∃ (s : State) (e : Fin 16), peReady s.live e 0x7 = true ∧ (s.live.pe e).seen.rx < 8) ∧
    (∃ (s : State) (e : Fin 16), peReady s.live e 0x7 = true ∧ 8 ≤ (s.live.pe e).seen.rx ∧ bitOf (s.live.pe e).instr 16 = false) ∧
    (∃ (s : State) (e : Fin 16), peReady s.live e 0x8 = true) ∧
    (∃ (s : State) (e : Fin 16), peReady s.live e 0x9 = true) ∧
    (∃ (s : State) (e : Fin 16), peReady s.live e 0xA = true) ∧
    (∃ (s : State) (e : Fin 16), peReady s.live e 0xB = true) :=
  ⟨⟨on [] (fun l => l.setPe 15 { state := .running, bankA := List.replicate 48 0x000000 }), 15, by decide +kernel⟩,
   ⟨on [] (fun l => l.setPe 15 { state := .running, bankA := List.replicate 48 0x1003FF }), 15, by decide +kernel⟩,
   ⟨on [] (fun l => l.setPe 15 { state := .running, bankA := List.replicate 48 0x1003FF, delay := some 1023, ticks := 1022 }), 15,
     1023, by decide +kernel⟩,
   ⟨on [] (fun l => l.setPe 15 { state := .running, bankA := List.replicate 48 0x220002 }), 15, 0, by decide +kernel⟩,
   ⟨on [] (fun l => l.setPe 15 { state := .running, bankA := List.replicate 48 0x200002 }), 15, 0, by decide +kernel⟩,
   ⟨on [] (fun l => l.setPe 15 { state := .running, bankA := List.replicate 48 0x26C002, seen := { flags := 8 } }), 15,
     0, by decide +kernel⟩,
   ⟨on [] (fun l => l.setPe 15 { state := .waiting, bankA := List.replicate 48 0x200002 }), 15, 0, by decide +kernel⟩,
   ⟨on [] (fun l => l.setPe 15 { state := .waiting, bankA := List.replicate 48 0x610002, tx := [5, 6], seen := { tx := [5] } }), 15, 0, 5,
     [], [6], by decide +kernel⟩,
   ⟨on [] (fun l => l.setPe 15 { state := .waiting, bankA := List.replicate 48 0x710002, rx := List.replicate 7 0, seen := { rx := 7 } }),
     15, 0, by decide +kernel⟩,
   ⟨on [] (fun l => l.setPe 15 { state := .waiting, bankA := List.replicate 48 0x220000 }), 15, 0, by decide +kernel⟩,
   ⟨on [(0x290F, 0x0E, 1)] (fun l => l.setPe 15 { state := .waiting, bankA := List.replicate 48 0x220001, ticks := 3 }), 15,
     0, by decide +kernel⟩,
   ⟨on [] (fun l => l.setPe 15 { state := .running, bankA := List.replicate 48 0x301010 }), 15, by decide +kernel⟩,
   ⟨on [] (fun l => l.setPe 15 { state := .running, bankA := List.replicate 48 0x400000 }), 15, by decide +kernel⟩,
   ⟨on [] (fun l => l.setPe 15 { state := .running, bankA := List.replicate 48 0x500000 }), 15, by decide +kernel⟩,
   ⟨on [] (fun l => l.setPe 15 { state := .running, bankA := List.replicate 48 0x600000, tx := [5, 6], seen := { tx := [5] } }), 15, 5, [],
     [6], by decide +kernel⟩,
   ⟨on [] (fun l => l.setPe 15 { state := .running, bankA := List.replicate 48 0x610000, tx := [5] }), 15, by decide +kernel⟩,
   ⟨on [] (fun l => l.setPe 15 { state := .running, bankA := List.replicate 48 0x600000, tx := [5] }), 15, by decide +kernel⟩,
   ⟨on [] (fun l => l.setPe 15 { state := .running, bankA := List.replicate 48 0x700000, rx := List.replicate 7 0, seen := { rx := 7 } }),
     15, by decide +kernel⟩,
   ⟨on [] (fun l => l.setPe 15 { state := .running, bankA := List.replicate 48 0x700000, rx := List.replicate 7 0, seen := { rx := 8 } }),
     15, by decide +kernel⟩,
   ⟨on [] (fun l => l.setPe 15 { state := .running, bankA := List.replicate 48 0x800005 }), 15, by decide +kernel⟩,
   ⟨on [] (fun l => l.setPe 15 { state := .running, bankA := List.replicate 48 0x9003FF }), 15, by decide +kernel⟩,
   ⟨on [] (fun l => l.setPe 15 { state := .running, bankA := List.replicate 48 0xA0002F }), 15, by decide +kernel⟩,
   ⟨on [] (fun l => l.setPe 15 { state := .running, bankA := List.replicate 48 0xB00000 }), 15, by decide +kernel⟩⟩

theorem witness_PinEngineCommandsComplete :
    (∃ (s : State) (e : Fin 16), unitUp (0x30 + e.val) s.live = true ∧ (s.live.pe e).tx.length < 8) ∧
    (∃ (s : State) (e : Fin 16) (w : _) (r : _), unitUp (0x30 + e.val) s.live = true ∧ (s.live.pe e).rx = w :: r) ∧
    (∃ (s : State) (e : Fin 16), unitUp (0x30 + e.val) s.live = true ∧ (s.live.pe e).rx = []) ∧
    (∃ (s : State) (e : Fin 16), unitUp (0x30 + e.val) s.live = true) ∧
    (∃ (s : State) (e : Fin 16), unitUp (0x30 + e.val) s.live = true ∧ (s.live.pe e).flagSets = none) ∧
    (∃ (s : State) (e : Fin 16), unitUp (0x30 + e.val) s.live = true) ∧
    (∃ (s : State) (e : Fin 16), unitUp (0x30 + e.val) s.live = true ∧ (s.live.pe e).swapPending = true) ∧
    (∃ (s : State) (e : Fin 16), unitUp (0x30 + e.val) s.live = true ∧ peUp s.live e = true ∧ swapDue s.live e = true) ∧
    (∃ (s : State) (e : Fin 16) (j : Fin 8) (level : _), unitUp (0x30 + e.val) s.live = true ∧
      ((s.live.pe e).pins.get {} (peBase s.live e + j.val)).checkDue = true ∧
      s.live.now = ((s.live.pe e).pins.get {} (peBase s.live e + j.val)).edgeAt + 8 ∧
      ((s.live.pe e).pins.get {} (peBase s.live e + j.val)).driven = some level) ∧
    (∃ (s : State) (e : Fin 16) (j : Fin 8) (level : Bool), unitUp (0x30 + e.val) s.live = true ∧
      ((s.live.pe e).pins.get {} (peBase s.live e + j.val)).checkDue = true ∧
      s.live.now = ((s.live.pe e).pins.get {} (peBase s.live e + j.val)).edgeAt + 8 ∧
      ((s.live.pe e).pins.get {} (peBase s.live e + j.val)).driven = some (!level) ∧
      2 ≤ ((s.live.pe e).pins.get {} (peBase s.live e + j.val)).run) :=
  ⟨⟨on [] (fun l => l.setPe 15 { tx := List.replicate 7 0 }), 15, by decide +kernel⟩,
   ⟨on [] (fun l => l.setPe 15 { rx := [7] }), 15, 7, [], by decide +kernel⟩,
   ⟨on [] (fun l => l.setPe 15 {  }), 15, by decide +kernel⟩,
   ⟨on [] (fun l => l.setPe 15 {  }), 15, by decide +kernel⟩,
   ⟨on [] (fun l => l.setPe 15 {  }), 15, by decide +kernel⟩,
   ⟨on [] (fun l => l.setPe 15 {  }), 15, by decide +kernel⟩,
   ⟨on [] (fun l => l.setPe 15 { swapPending := true }), 15, by decide +kernel⟩,
   ⟨on [] (fun l => l.setPe 15 { swapPending := true, state := .running }), 15, by decide +kernel⟩,
   ⟨on [(0x290F, 2, 24)] (fun l => l.setPe 15 { pins := [(31, { checkDue := true, edgeAt := 9999999992, driven := some true })] }), 15, 7,
     true, by decide +kernel⟩,
   ⟨on [(0x290F, 2, 24)] (fun l => l.setPe 15 { pins := [(31, { checkDue := true, edgeAt := 9999999992, driven := some false, run := 2 })] }), 15, 7, true, by decide +kernel⟩⟩

theorem witness_DmaChannelsComplete :
    (∃ (s : State) (c : Fin 32), dmaReady s.live c = true ∧ burstsInFlight s.live < 16 ∧ outranked s.live c = false) ∧
    (∃ (s : State) (c : Fin 32), awake s.live = true ∧ (s.live.dc c).burst = some 8 ∧ descOp (s.live.dc c).desc = 1 ∧
      inTables (s.live.dc c).dst 8 = true ∧ 8 < (s.live.dc c).remaining.toNat) ∧
    (∃ (s : State) (c : Fin 32) (ecc : EccWords), awake s.live = true ∧ (s.live.dc c).burst = some 8 ∧ descOp (s.live.dc c).desc = 0 ∧
      inTables (s.live.dc c).src 8 = true ∧ doubleAt ecc (s.live.dc c).src = false ∧ inTables (s.live.dc c).dst 8 = true ∧
      (s.live.dc c).remaining = 8 ∧ descFence (s.live.dc c).desc = false ∧ descChain (s.live.dc c).desc = false) ∧
    (∃ (s : State) (c : Fin 32) (ecc : EccWords), awake s.live = true ∧ (s.live.dc c).burst = some 8 ∧ descOp (s.live.dc c).desc = 0 ∧
      inTables (s.live.dc c).src 8 = true ∧ doubleAt ecc (s.live.dc c).src = true) ∧
    (∃ (s : State) (c : Fin 32) (n : Nat), awake s.live = true ∧ (s.live.dc c).burst = some n) ∧
    (∃ (s : State) (c : Fin 32) (ecc : EccWords), awake s.live = true ∧ (s.live.dc c).fencing = true ∧
      doubleAt ecc (fenceAddr (s.live.dc c)) = false) ∧
    (∃ (s : State) (c : Fin 32) (ecc : EccWords), awake s.live = true ∧ (s.live.dc c).fetching = true ∧
      mayFetch s.live (descNext (s.live.dc c).desc) = true ∧ inTables (descNext (s.live.dc c).desc) 32 = true ∧
      descOk s.live (readBytes s.live.mem (descNext (s.live.dc c).desc) 32) = true ∧ ((∀ i,
      i < 4 → doubleAt ecc ((descNext (s.live.dc c).desc) + 8 * i) = false))) ∧
    (∃ (s : State) (c : Fin 32) (ecc : EccWords), awake s.live = true ∧ (s.live.dc c).fetching = true ∧
      mayFetch s.live (descNext (s.live.dc c).desc) = true ∧ inTables (descNext (s.live.dc c).desc) 32 = true ∧
      ((descOk s.live (readBytes s.live.mem (descNext (s.live.dc c).desc) 32) = false ∨ ∃ i, i < 4 ∧
      doubleAt ecc ((descNext (s.live.dc c).desc) + 8 * i) = true))) ∧
    (∃ (s : State) (c : Fin 32), awake s.live = true ∧ (s.live.dc c).fetching = true) ∧
    (∃ (s : State) (c : Fin 32) (n : Nat), awake s.live = true ∧ (s.live.dc c).burst = some n ∧ 8 ≤ n ∧ descOp (s.live.dc c).desc ≠ 2) ∧
    (∃ (s : State) (c : Fin 32) (n : Nat), awake s.live = true ∧ (s.live.dc c).burst = some n ∧ 8 ≤ n ∧ descOp (s.live.dc c).desc = 2) ∧
    (∃ (s : State) (c : Fin 32) (conn : Conn), (served conn s.live = true ∧
      writeAbort conn (0x2A00 + c.val) 5 (touch conn s.live) = none) ∧ (s.live.dc c).state ≠ .running ∧ dmaUp s.live = true) ∧
    (∃ (s : State) (c : Fin 32) (conn : Conn), (served conn s.live = true ∧
      writeAbort conn (0x2A00 + c.val) 5 (touch conn s.live) = none) ∧ (s.live.dc c).burst = none) ∧
    (∃ (s : State) (c : Fin 32) (conn : Conn) (n : Nat), (served conn s.live = true ∧
      writeAbort conn (0x2A00 + c.val) 5 (touch conn s.live) = none) ∧ (s.live.dc c).burst = some n) ∧
    (∃ (s : State) (c : Fin 32) (conn : Conn), (served conn s.live = true ∧
      writeAbort conn (0x2A00 + c.val) 5 (touch conn s.live) = none) ∧ (s.live.dc c).state = .halted) ∧
    (∃ (s : State) (c : Fin 32) (conn : Conn), (served conn s.live = true ∧
      writeAbort conn (0x2A00 + c.val) 5 (touch conn s.live) = none) ∧ dmaUp s.live = true) :=
  ⟨⟨on [] (fun l => l.setDc 31 { state := .running, remaining := 8, soft := true }), 31, by decide +kernel⟩,
   ⟨on [] (fun l => l.setDc 31 { burst := some 8, desc := [0xAA, 0x00, 0x00, 0x00, 0x00, 0x00, 0x00, 0x00, 0x00, 0x00, 0x10, 0x00, 0x00, 0x00, 0x00, 0x00, 0x10, 0x00, 0x00, 0x00, 0x01, 0x00, 0x00, 0x00, 0x00, 0x00, 0x00, 0x00, 0x00, 0x00, 0x00, 0x00], dst := 0x00100000, remaining := 16 }), 31, by decide +kernel⟩,
   ⟨on [] (fun l => l.setDc 31 { burst := some 8, desc := [0x00, 0x00, 0x10, 0x00, 0x00, 0x00, 0x00, 0x00, 0x00, 0x01, 0x10, 0x00, 0x00, 0x00, 0x00, 0x00, 0x08, 0x00, 0x00, 0x00, 0x00, 0x00, 0x00, 0x00, 0x00, 0x00, 0x00, 0x00, 0x00, 0x00, 0x00, 0x00], src := 0x00100000, dst := 0x00100100, remaining := 8 }), 31, [(0x00100008, true)], by decide +kernel⟩,
   ⟨on [] (fun l => l.setDc 31 { burst := some 8, desc := [0x00, 0x00, 0x10, 0x00, 0x00, 0x00, 0x00, 0x00, 0x00, 0x01, 0x10, 0x00, 0x00, 0x00, 0x00, 0x00, 0x08, 0x00, 0x00, 0x00, 0x00, 0x00, 0x00, 0x00, 0x00, 0x00, 0x00, 0x00, 0x00, 0x00, 0x00, 0x00], src := 0x00100004, dst := 0x00100100, remaining := 8 }), 31, [(0x00100000, true)], by decide +kernel⟩,
   ⟨on [] (fun l => l.setDc 31 { burst := some 512 }), 31, 512, by decide +kernel⟩,
   ⟨on [] (fun l => l.setDc 31 { fencing := true }), 31, [(0x00100000, false)], by decide +kernel⟩,
   ⟨on [] (fun l => { l.setDc 31 { fetching := true, desc := [0x00, 0x00, 0x10, 0x00, 0x00, 0x00, 0x00, 0x00, 0x00, 0x01, 0x10, 0x00, 0x00, 0x00, 0x00, 0x00, 0x08, 0x00, 0x00, 0x00, 0x00, 0x00, 0x00, 0x00, 0x00, 0x00, 0x10, 0x00, 0x00, 0x00, 0x00, 0x00] } with mem := writeBytes [] 0x00100000 [0x00, 0x00, 0x10, 0x00, 0x00, 0x00, 0x00, 0x00, 0x00, 0x01, 0x10, 0x00, 0x00, 0x00, 0x00, 0x00, 0x08, 0x00, 0x00, 0x00, 0x00, 0x00, 0x00, 0x00, 0x00, 0x00, 0x00, 0x00, 0x00, 0x00, 0x00, 0x00] }), 31, [(0x00100020, true)], by decide +kernel⟩,
   ⟨on [] (fun l => l.setDc 31 { fetching := true, desc := [0x00, 0x00, 0x10, 0x00, 0x00, 0x00, 0x00, 0x00, 0x00, 0x01, 0x10, 0x00, 0x00, 0x00, 0x00, 0x00, 0x08, 0x00, 0x00, 0x00, 0x00, 0x00, 0x00, 0x00, 0x00, 0x00, 0x10, 0x00, 0x00, 0x00, 0x00, 0x00] }), 31, [(0x00100018, true)], by decide +kernel⟩,
   ⟨on [] (fun l => l.setDc 31 { fetching := true }), 31, by decide +kernel⟩,
   ⟨on [] (fun l => l.setDc 31 { burst := some 8 }), 31, 8, by decide +kernel⟩,
   ⟨on [] (fun l => l.setDc 31 { burst := some 8, desc := [0x00, 0x00, 0x10, 0x00, 0x00, 0x00, 0x00, 0x00, 0x00, 0x01, 0x10, 0x00, 0x00, 0x00, 0x00, 0x00, 0x08, 0x00, 0x00, 0x00, 0x02, 0x00, 0x00, 0x00, 0x00, 0x00, 0x00, 0x00, 0x00, 0x00, 0x00, 0x00] }), 31, 8, by decide +kernel⟩,
   ⟨on [] id, 31, .host, by decide +kernel⟩,
   ⟨on [] id, 31, .host, by decide +kernel⟩,
   ⟨on [] (fun l => l.setDc 31 { burst := some 8 }), 31, .host, 8, by decide +kernel⟩,
   ⟨on [] (fun l => l.setDc 31 { state := .halted }), 31, .host, by decide +kernel⟩,
   ⟨on [] id, 31, .host, by decide +kernel⟩⟩

theorem witness_MemoryAndLogComplete :
    (∃ (s : State) (conn : Conn) (data : List Byte), (served conn s.live = true ∧ writeAbort conn 0x2A21 1 (touch conn s.live) = none) ∧
      8 ≤ data.length ∧ (data.length - 8) % 8 = 0 ∧ (data.length - 8) ≤ 65536 ∧ (fieldLE data 0 8) % 8 = 0 ∧
      (inTables (fieldLE data 0 8) (data.length - 8) || inLpddr s.live (fieldLE data 0 8) (data.length - 8)) = true ∧
      (s.live.logOn && inRing s.live (fieldLE data 0 8) (data.length - 8)) = false ∧
      ((inLpddr s.live (fieldLE data 0 8) (data.length - 8) = true → lpddrOpen s.live = true))) ∧
    (∃ (s : State) (r : Fin 9) (offset : BitVec 28), domainUp .mem s.live = true ∧ awake s.live = true ∧
      offset.toNat < regionWords s.live r) ∧
    (∃ (s : State) (r : Fin 9) (offset : BitVec 28), domainUp .mem s.live = true ∧ awake s.live = true ∧
      offset.toNat < regionWords s.live r) ∧
    (∃ (s : State) (u : BitVec 10) (r : LogRec) (rest : _), admitting s.live = true ∧ s.live.log.startDue = none ∧
      nextUnit s.live.log = some u.toNat ∧ s.live.log.waiting.get [] u.toNat = r :: rest ∧ ordinaryUsed s.live.log < ordinaryPlaces ∧
      s.live.log.episode = none) ∧
    (∃ (s : State) (seq : BitVec 32) (r : LogRec) (w : _) (b : _), ringReady s.live = true ∧ s.live.log.staging = [(seq, r, w, b)] ∧
      w + 400 ≤ s.live.now ∧ ringRecords s.live ≠ 0 ∧ ringFull s.live = false) ∧
    (∃ (s : State) (at0 : _) (n : _), admitting s.live = true ∧ s.live.log.startDue = none ∧ s.live.log.episode = some at0 ∧
      s.live.log.nextLoss ≤ s.live.now ∧ s.live.log.counts = { source := 0, staging := n, ring := 0 } ∧ n ≠ 0 ∧
      ordinaryUsed s.live.log < ordinaryPlaces) ∧
    (∃ (s : State) (addr : BitVec 16), hostUp s.live = true ∧ addr.toNat + 16 ≤ 0x10000 ∧ s.live.log.count ≠ 0) ∧
    (∃ (s : State) (conn : Conn), served conn s.live = true ∧ s.live.log.count = 1) ∧
    (∃ (s : State) (conn : Conn), served conn s.live = true ∧ s.live.log.count = 0) ∧
    (∃ (s : State) (conn : Conn), (served conn s.live = true ∧ writeAbort conn 0x2A40 5 (touch conn s.live) = none)) ∧
    (∃ (s : State), s.live.log.flushing = true) ∧
    (∃ (s : State), s.live.log.zeroing = true) :=
  ⟨⟨on [] id, .host, bytesLE 8 0x00100000 ++ List.replicate 8 1, by decide +kernel⟩,
   ⟨on [] id, 8, 0, by decide +kernel⟩,
   ⟨on [] id, 8, 0, by decide +kernel⟩,
   ⟨on [(0x2A40, 1, 1)] (fun l => { l with log := { l.log with waiting := [(591, [⟨0x8000, 0x60, 5, 10⟩]), (590, [⟨0x8000, 0x60, 5, 10⟩])], lastUnit := 590 } }), 591, ⟨0x8000, 0x60, 5, 10⟩, [], by decide +kernel⟩,
   ⟨on [(0x2A40, 1, 1), (0x2A40, 3,
     1)] (fun l => { l with log := { l.log with status := 0x10, staging := [(9, ⟨0x8000, 0x60, 5, 10⟩, 5, false)] } }), 9, ⟨0x8000, 0x60,
     5, 10⟩, 5, false, by decide +kernel⟩,
   ⟨on [(0x2A40, 1, 1)] (fun l => { l with log := { l.log with episode := some 5, nextLoss := 5, counts := { staging := 7 } } }), 5,
     7, by decide +kernel⟩,
   ⟨on [(0x2A40, 1, 1)] (fun l => { l with log := { l.log with count := 1 } }), 0xFFF0, by decide +kernel⟩,
   ⟨on [(0x2A40, 1, 1)] (fun l => { l with log := { l.log with count := 1 } }), .host, by decide +kernel⟩,
   ⟨on [] id, .host, by decide +kernel⟩,
   ⟨on [] id, .host, by decide +kernel⟩,
   ⟨on [(0x2A40, 1, 1)] (fun l => { l with log := { l.log with flushing := true } }), by decide +kernel⟩,
   ⟨on [(0x2A40, 1, 1)] (fun l => { l with log := { l.log with zeroing := true } }), by decide +kernel⟩⟩

theorem witness_InterruptsAndDozeComplete :
    (∃ (s : State) (n : Fin 4) (g : BitVec 6), hostUp s.live = true ∧ vectorGroup (settleGroups (csFall s.live)) n = some g.toNat) ∧
    (∃ (s : State) (n : Fin 4) (g : BitVec 6), hostUp s.live = true ∧ vectorGroup (settleGroups (csFall s.live)) n ≠ some g.toNat) ∧
    (∃ (s : State) (n : Fin 4) (g : BitVec 6), hostUp s.live = true ∧ g.toNat < 40 ∧
      irqTarget (settleGroups (csFall s.live)) g.toNat = n.val ∧ ((settleGroups (csFall s.live)).irqGroup g.toNat).claimed = true) ∧
    (∃ (s : State) (g : Fin 40), (s.live.irqGroup g).state = .held ∧ (s.live.irqGroup g).holdEnd ≤ s.live.now) ∧
    (∃ (s : State) (g : Fin 40), (s.live.irqGroup g).state = .activePending ∧ irqAsserted s.live g = true ∧ irqTimeout s.live g ≠ 0 ∧
      (s.live.irqGroup g).claimAt + irqTimeout s.live g ≤ s.live.now ∧ irqHoldOff s.live g = 0) ∧
    (∃ (s : State), hostUp s.live = true) ∧
    (∃ (s : State) (conn : Conn), (served conn s.live = true ∧ writeAbort conn 0x2000 0x10 (touch conn s.live) = none) ∧
      dozeRefused s.live = false) ∧
    (∃ (s : State), coreUp s.live = true ∧ s.live.doze.requested = true) ∧
    (∃ (s : State) (kind : _), coreUp s.live = true ∧ wakeEnabled kind s.live = true ∧ s.live.doze.asleep = true ∧
      s.live.doze.waking = false) ∧
    (∃ (s : State) (kind : _), coreUp s.live = true ∧ wakeEnabled kind s.live = true ∧ s.live.doze.asleep = false ∧
      s.live.doze.requested = true) ∧
    (∃ (s : State), s.live.doze.asleep = true ∧ s.live.doze.waking = true) :=
  ⟨⟨on [(0x2B07, 1, 1), (0x2B07, 3,
    0)] (fun l => { l with irq := { l.irq with latch := [(7, 1)], groups := [(7, { state := .pending })] } }), 0, 7, by decide +kernel⟩,
   ⟨on [] id, 3, 63, by decide +kernel⟩,
   ⟨on [(0x2B07, 1, 1), (0x2B07, 3,
     0)] (fun l => { l with irq := { l.irq with latch := [(7, 1)], groups := [(7, { state := .active })] } }), 0, 7, by decide +kernel⟩,
   ⟨on [(0x2B07, 1, 1), (0x2B07, 3, 0)] (fun l => { l with irq := { l.irq with latch := [(7, 1)], groups := [(7, { state := .held })] } }),
     7, by decide +kernel⟩,
   ⟨on [(0x2B07, 1, 1), (0x2B07, 5,
     1)] (fun l => { l with irq := { l.irq with latch := [(7, 1)], groups := [(7, { state := .activePending })] } }), 7, by decide +kernel⟩,
   ⟨on [] id, by decide +kernel⟩,
   ⟨on [] (fun l => { l with net := { l.net with nmt := 0x7F } }), .host, by decide +kernel⟩,
   ⟨on [] (fun l => { l with doze := { requested := true } }), by decide +kernel⟩,
   ⟨on [(0x2000, 0x11, 16)] (fun l => { l with doze := { asleep := true } }), .chipSelect, by decide +kernel⟩,
   ⟨on [(0x2000, 0x11, 2)] (fun l => { l with doze := { requested := true } }), .pps, by decide +kernel⟩,
   ⟨on [] (fun l => { l with doze := { asleep := true, waking := true } }), by decide +kernel⟩⟩

theorem witness_DictionaryComplete :
    (∃ (s : State) (conn : Conn) (idx : BitVec 16) (sub : BitVec 8) (bank : Bank), served conn s.live = true ∧
      s.live.rst.sourceDue = none ∧ accessAbort conn false idx.toNat sub.toNat (touch conn s.live) = none ∧
      isPop idx.toNat sub.toNat = false ∧ isProcess idx.toNat sub.toNat = true ∧ s.published = some bank) ∧
    (∃ (s : State) (conn : Conn) (idx : BitVec 16) (sub : BitVec 8), served conn s.live = true ∧ s.live.rst.sourceDue = none ∧
      accessAbort conn false idx.toNat sub.toNat (touch conn s.live) = none ∧ isPop idx.toNat sub.toNat = false ∧
      isProcess idx.toNat sub.toNat = false) ∧
    (∃ (s : State) (bus : Fin 2) (client : BitVec 7), served (.can bus client) s.live = true ∧
      (s.live.connSt (connId (.can bus client))).lastReq + 400000000 ≤ s.live.now) ∧
    (∃ (s : State) (conn : Conn) (k : BitVec 32), (served conn s.live = true ∧ writeAbort conn 0x5FF0 1 (touch conn s.live) = none) ∧
      (s.live.connSt (connId conn)).lockEnd = none ∧ k = s.live.net.key) ∧
    (∃ (s : State) (conn : Conn) (k : BitVec 32), (served conn s.live = true ∧ writeAbort conn 0x5FF0 1 (touch conn s.live) = none) ∧
      (s.live.connSt (connId conn)).lockEnd = none ∧ k ≠ s.live.net.key) ∧
    (∃ (s : State) (conn : Conn), (served conn s.live = true ∧ writeAbort conn 0x5FF0 2 (touch conn s.live) = none) ∧
      (s.live.connSt (connId conn)).lockEnd = none) ∧
    (∃ (s : State) (conn : Conn), (s.live.connSt (connId conn)).unlocked = true ∧
      (s.live.connSt (connId conn)).lastReq + unlockTime ≤ s.live.now) ∧
    (∃ (s : State) (conn : Conn) (e : _), (s.live.connSt (connId conn)).lockEnd = some e ∧ e ≤ s.live.now) :=
  ⟨⟨{ on [] id with published := some ⟨5, 0, base⟩ }, .host, 0x3000, 1, ⟨5, 0, base⟩, by decide +kernel⟩,
   ⟨on [] id, .can 1 127, 0x2000, 9, by decide +kernel⟩,
   ⟨on [] id, 1, 127, by decide +kernel⟩,
   ⟨on [] id, .host, 0, by decide +kernel⟩,
   ⟨on [] id, .host, 7, by decide +kernel⟩,
   ⟨on [] id, .host, by decide +kernel⟩,
   ⟨on [] (fun l => { l.setConnSt 256 { unlocked := true } with time := { l.time with dtime := 240000000000 } }), .host, by decide +kernel⟩,
   ⟨on [] (fun l => l.setConnSt 256 { lockEnd := some 5 }), .host, 5, by decide +kernel⟩⟩

theorem witness_NmtComplete :
    (∃ (s : State) (src : NmtSource), nmtHeard src s.live = true ∧ mayOperate s.live = true ∧ s.live.net.nmt ≠ nmtOp) ∧
    (∃ (s : State) (src : NmtSource), nmtHeard src s.live = true ∧ s.live.net.nmt ≠ nmtStop) ∧
    (∃ (s : State) (src : NmtSource), nmtHeard src s.live = true ∧ s.live.net.nmt ≠ nmtPre) ∧
    (∃ (s : State) (src : NmtSource), nmtHeard src s.live = true ∧ s.live.rst.asserted.getLsbD 10 = false) ∧
    (∃ (s : State) (src : NmtSource), nmtHeard src s.live = true ∧ s.live.rst.asserted.getLsbD 13 = false) :=
  ⟨⟨on [] (fun l => { l with net := { l.net with nmt := 0x7F } }), .can0, by decide +kernel⟩,
   ⟨on [] id, .can0, by decide +kernel⟩,
   ⟨on [] id, .can0, by decide +kernel⟩,
   ⟨on [] id, .can0, by decide +kernel⟩,
   ⟨on [] id, .can0, by decide +kernel⟩⟩

theorem witness_PdoServicesComplete :
    (∃ (s : State) (b : Fin 2), busActive s.live b = true ∧ preOrOp s.live = true ∧ s.live.net.choice.syncBus = b.val ∧ ((∀ g,
      g < 64 → s.live.cfg (0x2C00 + g) 1 ≠ 2))) ∧
    (∃ (s : State) (b : Fin 2) (at0 : _), s.live.net.lastSync = some at0 ∧ commVal s.live 0x1006 0 ≠ 0 ∧ busActive s.live b = true ∧
      preOrOp s.live = true ∧ s.live.net.choice.syncBus = b.val ∧ at0 + commVal s.live 0x1006 0 * 600 ≤ s.live.now) ∧
    (∃ (s : State) (bank : Bank) (p : Fin 16), s.published = some bank ∧ tpdoOpen s.live bank p = true ∧ 254 ≤ pdoType s.live 0x1800 p ∧
      commVal s.live (0x1800 + p.val) 5 ≠ 0 ∧ (s.live.tpdo p).timerFrom + commVal s.live (0x1800 + p.val) 5 * 400000 ≤ s.live.now ∧
      inhibitOver s.live p = true) ∧
    (∃ (s : State) (bank : Bank) (p : Fin 16), s.published = some bank ∧ tpdoOpen s.live bank p = true ∧ (s.live.tpdo p).due = true ∧
      inhibitOver s.live p = true) ∧
    (∃ (s : State) (w : _), s.live.net.window = some w ∧ w ≤ s.live.now) ∧
    (∃ (s : State) (b : Fin 2) (p : Fin 16) (data : List Byte), supervisorUp s.live = true ∧ operational s.live = true ∧ busActive s.live b = true ∧
      rpdoBusOf s.live p = b.val ∧ pdoValid s.live 0x1400 p = true ∧ data.length ≤ 64 ∧ (pdoEntries s.live 0x1600 p) ≠ [] ∧
      data.length < pdoLength (pdoEntries s.live 0x1600 p)) ∧
    (∃ (s : State) (b : Fin 2) (p : Fin 16) (data : List Byte) (g : Nat) (l2 : Live), supervisorUp s.live = true ∧ operational s.live = true ∧
      busActive s.live b = true ∧ rpdoBusOf s.live p = b.val ∧ pdoValid s.live 0x1400 p = true ∧ data.length ≤ 64 ∧
      (pdoEntries s.live 0x1600 p) ≠ [] ∧ pdoLength (pdoEntries s.live 0x1600 p) ≤ data.length ∧
      data.length ≤ frameLength s.live b (pdoLength (pdoEntries s.live 0x1600 p)) ∧
      rpdoGroup (s.live.setRpdo p { lastAt := some s.live.now }) (pdoEntries s.live 0x1600 p) = some g ∧
      rpdoFits (s.live.setRpdo p { lastAt := some s.live.now }) g p = true ∧
      stageAll (rpdoValues (pdoEntries s.live 0x1600 p) data) (groupDisarm g (s.live.setRpdo p { lastAt := some s.live.now })) = some l2 ∧
      (l2.group g).state = .staging ∧ pdoType s.live 0x1400 p ≤ 240) ∧
    (∃ (s : State) (p : Fin 16) (at0 : _), (s.live.rpdo p).lastAt = some at0 ∧ commVal s.live (0x1400 + p.val) 5 ≠ 0 ∧
      operational s.live = true ∧ busActive s.live (rpdoBusOf s.live p) = true ∧
      at0 + commVal s.live (0x1400 + p.val) 5 * 400000 ≤ s.live.now) ∧
    (∃ (s : State) (data : List Byte), 64 < data.length) :=
  ⟨⟨on [] id, 0, by decide +kernel⟩,
   ⟨on [(0x1006, 0, 1000)] (fun l => { l with net := { l.net with lastSync := some 5 } }), 0, 5, by decide +kernel⟩,
   ⟨{ on [(0x180F, 1, 0x201), (0x180F, 2, 254), (0x180F, 5, 1), (0x1A0F, 0, 1), (0x1A0F, 1, 0x30000120)] id with published := some ⟨5, 20, base⟩ }, ⟨5, 20, base⟩, 15, by decide +kernel⟩,
   ⟨{ on [(0x180F, 1, 0x201), (0x180F, 2, 254), (0x180F, 5, 1), (0x1A0F, 0, 1), (0x1A0F, 1, 0x30000120)] (fun l => l.updTpdo 15 (fun x => { x with due := true })) with published := some ⟨5, 20, base⟩ }, ⟨5, 20, base⟩, 15, by decide +kernel⟩,
   ⟨on [] (fun l => { l with net := { l.net with window := some 5 } }), 5, by decide +kernel⟩,
   ⟨on [(0x140F, 1, 0x201), (0x140F, 2, 255), (0x160F, 0, 1), (0x160F, 1, 0x24170320)] id, 0, 15, [1, 2, 3], by decide +kernel⟩,
   ⟨on [(0x140F, 1, 0x201), (0x140F, 2, 0), (0x160F, 0, 1), (0x160F, 1, 0x24170320), (0x2C00, 1, 2)] id, 0, 15, [0, 0, 1, 0], 0,
     (stageAll (rpdoValues (pdoEntries (on [(0x140F, 1, 0x201), (0x140F, 2, 0), (0x160F, 0, 1), (0x160F, 1, 0x24170320), (0x2C00, 1,
     2)] id).live 0x1600 15) [0, 0, 1, 0]) (groupDisarm 0 ((on [(0x140F, 1, 0x201), (0x140F, 2, 0), (0x160F, 0, 1), (0x160F, 1,
     0x24170320), (0x2C00, 1,
     2)] id).live.setRpdo 15 { lastAt := some 10000000000 }))).getD base, by decide +kernel⟩,
   ⟨on [(0x140F, 5, 1)] (fun l => l.setRpdo 15 { lastAt := some 5 }), 15, 5, by decide +kernel⟩,
   ⟨on [] id, List.replicate 65 0, by decide +kernel⟩⟩

theorem witness_BusConditionsComplete :
    (∃ (s : State) (b : Fin 2) (f : Machine.Frame) (r : _), (s.live.bus b).emcyQueue = f :: r ∧ busActive s.live b = true ∧
      preOrOp s.live = true ∧ (s.live.bus b).emcyInhibit ≤ s.live.now) ∧
    (∃ (s : State) (b : Fin 2), busActive s.live b = true ∧ commVal s.live 0x1017 0 ≠ 0 ∧
      (s.live.bus b).lastHb + commVal s.live 0x1017 0 * 400000 ≤ s.live.now) ∧
    (∃ (s : State) (b : Fin 2) (node : Byte) (i : Fin 4), busActive s.live b = true ∧ field (consumerOf s.live b i) 23 16 = node.toNat ∧
      field (consumerOf s.live b i) 15 0 ≠ 0) ∧
    (∃ (s : State) (b : Fin 2) (i : Fin 4), busActive s.live b = true ∧ ((s.live.bus b).consumers.get {} i).armed = true ∧
      field (consumerOf s.live b i) 15 0 ≠ 0 ∧
      ((s.live.bus b).consumers.get {} i).last + field (consumerOf s.live b i) 15 0 * 400000 ≤ s.live.now) ∧
    (∃ (s : State) (b : Fin 2), busActive s.live b = true ∧ busState s.live b = 0) ∧
    (∃ (s : State) (b : Fin 2), busActive s.live b = true ∧ busState s.live b = 1) ∧
    (∃ (s : State) (b : Fin 2), busActive s.live b = true) ∧
    (∃ (s : State) (b : Fin 2), netUp s.live = true ∧ busState s.live b = 2) ∧
    (∃ (s : State) (b : Fin 2), busActive s.live b = true) :=
  ⟨⟨on [] (fun l => l.updBus 1 (fun x => { x with emcyQueue := [⟨0x91, [], none⟩] })), 1, ⟨0x91, [], none⟩, [], by decide +kernel⟩,
   ⟨on [(0x1017, 0, 0xFFFF)] (fun l => { l with time := { l.time with dtime := 30000000000 } }), 1, by decide +kernel⟩,
   ⟨on [(0x1016, 8, 0x050001)] id, 1, 5, 3, by decide +kernel⟩,
   ⟨on [(0x1016, 8, 0x050001)] (fun l => l.updBus 1 (fun x => { x with consumers := [(3, { armed := true, last := 5 })] })), 1,
     3, by decide +kernel⟩,
   ⟨on [] id, 1, by decide +kernel⟩,
   ⟨on [] (fun l => l.updBus 1 (fun x => { x with status := 1 })), 1, by decide +kernel⟩,
   ⟨on [] id, 1, by decide +kernel⟩,
   ⟨on [] (fun l => l.updBus 1 (fun x => { x with status := 2 })), 1, by decide +kernel⟩,
   ⟨on [] id, 1, by decide +kernel⟩⟩

theorem witness_LssComplete :
    (∃ (s : State) (b : Fin 2) (mode : Byte), lssUp s.live b = true ∧ mode.toNat < 2) ∧
    (∃ (s : State) (b : Fin 2) (a : LssAddress), lssUp s.live b = true ∧ ((s.live.bus b).lss).configuration = false ∧
      a.vendor = identityPart 0 ∧ a.product = identityPart 1 ∧ a.revision = identityPart 2 ∧ a.serial = identityPart 3) ∧
    (∃ (s : State) (b : Fin 2) (id : Byte), lssUp s.live b = true ∧ ((s.live.bus b).lss).configuration = true ∧ ((1 ≤ id.toNat ∧
      id.toNat ≤ 127 ∨ id = 0xFF))) ∧
    (∃ (s : State) (b : Fin 2) (entry : Byte), lssUp s.live b = true ∧ ((s.live.bus b).lss).configuration = true ∧ entry.toNat ≤ 4) ∧
    (∃ (s : State) (b : Fin 2) (c : _), lssUp s.live b = true ∧ ((s.live.bus b).lss).configuration = true ∧
      ((s.live.bus b).lss).bitCode = some c) ∧
    (∃ (s : State) (b : Fin 2), lssUp s.live b = true ∧ ((s.live.bus b).lss).configuration = true) ∧
    (∃ (s : State) (b : Fin 2), lssUp s.live b = true ∧ ((s.live.bus b).lss).configuration = true) ∧
    (∃ (s : State) (b : Fin 2), lssUp s.live b = true ∧ ((s.live.bus b).lss).configuration = true) ∧
    (∃ (s : State) (b : Fin 2) (lo : LssAddress) (hi : LssAddress), lssUp s.live b = true ∧ lo.vendor = identityPart 0 ∧
      lo.product = identityPart 1 ∧ lo.revision.toNat ≤ (identityPart 2).toNat ∧ (identityPart 2).toNat ≤ hi.revision.toNat ∧
      lo.serial.toNat ≤ (identityPart 3).toNat ∧ (identityPart 3).toNat ≤ hi.serial.toNat) ∧
    (∃ (s : State) (b : Fin 2), lssUp s.live b = true ∧ unconfigured s.live b = true) ∧
    (∃ (s : State) (b : Fin 2), lssUp s.live b = true ∧ unconfigured s.live b = true ∧ ((s.live.bus b).lss).configuration = false) ∧
    (∃ (s : State) (b : Fin 2) (id : BitVec 32) (bit : Byte) (sub : Byte), lssUp s.live b = true ∧ unconfigured s.live b = true ∧
      ((s.live.bus b).lss).configuration = false ∧ sub.toNat = ((s.live.bus b).lss).scanPart ∧ sub.toNat < 4 ∧ bit.toNat < 32 ∧
      id >>> bit.toNat = identityPart sub.toNat >>> bit.toNat) :=
  ⟨⟨on [] id, 1, 1, by decide +kernel⟩,
   ⟨on [] id, 1, ⟨Config.vendorId, 0x512, 0x10000,
     Config.serialNumber⟩, by and_intros <;> first | decide +kernel | rfl | exact Nat.le_refl _⟩,
   ⟨on [] (fun l => l.updBus 1 (fun x => { x with lss := { configuration := true } })), 1, 127, by decide +kernel⟩,
   ⟨on [] (fun l => l.updBus 1 (fun x => { x with lss := { configuration := true } })), 1, 4, by decide +kernel⟩,
   ⟨on [] (fun l => l.updBus 1 (fun x => { x with lss := { configuration := true, bitCode := some 4 } })), 1, 4, by decide +kernel⟩,
   ⟨on [] (fun l => l.updBus 1 (fun x => { x with lss := { configuration := true } })), 1, by decide +kernel⟩,
   ⟨on [] (fun l => l.updBus 1 (fun x => { x with lss := { configuration := true } })), 1, by decide +kernel⟩,
   ⟨on [] (fun l => l.updBus 1 (fun x => { x with lss := { configuration := true } })), 1, by decide +kernel⟩,
   ⟨on [] id, 1, ⟨Config.vendorId, 0x512, 0x10000, Config.serialNumber⟩, ⟨Config.vendorId, 0x512, 0x10000,
     Config.serialNumber⟩, by and_intros <;> first | decide +kernel | rfl | exact Nat.le_refl _⟩,
   ⟨on [] (fun l => l.updBus 1 (fun x => { x with nodeId := 0xFF })), 1, by decide +kernel⟩,
   ⟨on [] (fun l => l.updBus 1 (fun x => { x with nodeId := 0xFF })), 1, by decide +kernel⟩,
   ⟨on [] (fun l => l.updBus 1 (fun x => { x with lss := { scanPart := 3 }, nodeId := 0xFF })), 1, identityPart 3, 0,
     3, by and_intros <;> first | decide +kernel | rfl | exact Nat.le_refl _⟩⟩

theorem witness_CommObjectsComplete :
    (∃ (s : State) (conn : Conn) (data : List Byte), s.live.rst.sourceDue = none ∧ (served conn s.live = true ∧
      writeAbort conn 0x1017 0 (touch conn s.live) = none) ∧ data.length = 2) ∧
    (∃ (s : State) (conn : Conn) (data : List Byte), s.live.rst.sourceDue = none ∧ (served conn s.live = true ∧
      writeAbort conn 0x1006 0 (touch conn s.live) = none) ∧ data.length = 4) ∧
    (∃ (s : State) (conn : Conn), s.live.rst.sourceDue = none ∧ (served conn s.live = true ∧
      writeAbort conn 0x1003 0 (touch conn s.live) = none)) :=
  ⟨⟨on [] id, .host, [0xE8, 3], by decide +kernel⟩,
   ⟨on [] id, .host, [0xE8, 3, 0, 0], by decide +kernel⟩,
   ⟨on [] id, .host, by decide +kernel⟩⟩

theorem witness_HostPortComplete :
    (∃ (s : State) (addr : BitVec 40) (len : Nat), hostUp s.live = true ∧ addr.toNat + len ≤ 0x10000) ∧
    (∃ (s : State) (addr : BitVec 40) (len : _) (ecc : EccWords), hostUp s.live = true ∧ 0x10000000 ≤ addr.toNat ∧
      addr.toNat + len ≤ 0x110000000 ∧ ((∀ e ∈ ecc, e.2 = false)) ∧ lpddrOk s.live (addr.toNat - 0x10000000) len = true) ∧
    (∃ (s : State) (addr : BitVec 40) (data : List Byte), hostUp s.live = true ∧ 0x10000000 ≤ addr.toNat ∧ addr.toNat < 0x110000000 ∧
      addr.toNat + data.length ≤ 0x110000000 ∧ s.live.rst.life = 2 ∧
      (s.live.logOn && inRing s.live (lpddrBase + (addr.toNat - 0x10000000)) data.length) = false ∧
      lpddrOk s.live (addr.toNat - 0x10000000) data.length = true) ∧
    (∃ (s : State) (addr : BitVec 40) (data : List Byte), hostUp s.live = true ∧ 0x10000000 ≤ addr.toNat ∧ addr.toNat < 0x110000000 ∧
      addr.toNat + data.length ≤ 0x110000000 ∧ s.live.rst.life ≠ 2) ∧
    (∃ (s : State), hostUp s.live = true) ∧
    (∃ (s : State), hostUp s.live = true) :=
  ⟨⟨on [] id, 0xFFF0, 16, by decide +kernel⟩,
   ⟨on [] id, 0x10000000, 16, [(0x10000008, false)], by decide +kernel, by decide +kernel, by decide +kernel, by simp, by decide +kernel⟩,
   ⟨on [] id, 0x10000000, [1, 2, 3, 4], by decide +kernel⟩,
   ⟨on [] (fun l => { l with rst := { l.rst with life := 3 } }), 0x10000000, [1, 2, 3, 4], by decide +kernel⟩,
   ⟨on [] id, by decide +kernel⟩,
   ⟨on [] id, by decide +kernel⟩⟩

theorem witness_MailboxComplete :
    (∃ (s : State) (g : BitVec 16), hostUp s.live = true ∧ g ≠ 0 ∧ g ≠ s.live.mail.session) ∧
    (∃ (s : State), hostUp s.live = true) ∧
    (∃ (s : State) (v : Byte), hostUp s.live = true ∧ modDist 8 v.toNat s.live.mail.reqCons.toNat ≤ 8) ∧
    (∃ (s : State) (v : Byte), hostUp s.live = true ∧ 8 < modDist 8 v.toNat s.live.mail.reqCons.toNat) ∧
    (∃ (s : State), hostUp s.live = true ∧ s.live.mail.aborts = []) ∧
    (∃ (s : State) (d : List Byte), frontIs 1 s.live = true ∧ reqFlags (frontRequest s.live) % 2 = 1 ∧
      reqOffset (frontRequest s.live) = 0 ∧
      ((objectRead .host s.published (reqIndex (frontRequest s.live)) (reqSub (frontRequest s.live)) (takeRequest s.live)).connSt 256).answer = .value d ∧ d.length ≤ messageRoom) ∧
    (∃ (s : State), frontIs 2 s.live = true ∧ reqFlags (frontRequest s.live) = 1 ∧ reqOffset (frontRequest s.live) = 0 ∧
      reqLen (frontRequest s.live) ≤ messageRoom) ∧
    (∃ (s : State), frontIs 3 s.live = true ∧ netUp s.live = true ∧ reqLen (frontRequest s.live) = 1 ∧
      fieldLE (frontRequest s.live) 16 1 = 1 ∧ mayOperate s.live = true ∧ s.live.net.nmt ≠ nmtOp) ∧
    (∃ (s : State), frontIs 4 s.live = true ∧ s.live.conf.resyncStatus ≠ 1 ∧ s.live.snap.copying = false ∧ s.live.snap.waiting = false) ∧
    (∃ (s : State), mayTake s.live = true ∧ reqValid (frontRequest s.live) = false) :=
  ⟨⟨on [] id, 0xFFFF, by decide +kernel⟩,
   ⟨on [] id, by decide +kernel⟩,
   ⟨on [] id, 8, by decide +kernel⟩,
   ⟨on [] id, 9, by decide +kernel⟩,
   ⟨on [] id, by decide +kernel⟩,
   ⟨mailed [1, 1, 0, 0, 0x17, 0x10], [0, 0], by decide +kernel⟩,
   ⟨mailed [2, 1, 4, 0, 3, 0x24, 4, 0, 0, 0, 0, 0, 1, 0, 0, 0, 9, 9, 9, 9], by decide +kernel⟩,
   ⟨mailed [3, 0, 1, 0, 0, 0, 0, 0, 0, 0, 0, 0, 1, 0, 0, 0, 1], by decide +kernel⟩,
   ⟨mailed [4], by decide +kernel⟩,
   ⟨mailed [5], by decide +kernel⟩⟩

set_option maxRecDepth 100000 in
theorem witness_StoresComplete :
    (∃ (s : State) (conn : Conn), (served conn s.live = true ∧ writeAbort conn 0x1010 1 (touch conn s.live) = none) ∧
      s.live.conf.storing = none) ∧
    (∃ (s : State) (conn : Conn), (served conn s.live = true ∧ writeAbort conn 0x1011 1 (touch conn s.live) = none) ∧
      s.live.conf.storing = none) ∧
    (∃ (s : State) (conn : Conn) (data : List Byte), (served conn s.live = true ∧ writeAbort conn 0x2E00 1 (touch conn s.live) = none) ∧
      s.live.conf.storing = none ∧ data.length ≤ 258048 ∧ imageValid data = true) ∧
    (∃ (s : State) (conn : Conn) (data : List Byte), (served conn s.live = true ∧ writeAbort conn 0x2E00 1 (touch conn s.live) = none) ∧
      s.live.conf.storing = none ∧ data.length ≤ 258048 ∧ imageValid data = false) ∧
    (∃ (s : State) (k : StoreKind) (b : List Byte), s.live.conf.storing = some (k, b)) ∧
    (∃ (s : State) (k : StoreKind) (b : List Byte), s.live.conf.storing = some (k, b)) :=
  ⟨⟨on [] id, .host, by decide +kernel⟩,
   ⟨on [] id, .host, by decide +kernel⟩,
   ⟨on [] id, .host, baseImage, by decide +kernel⟩,
   ⟨on [] id, .host, [], by decide +kernel⟩,
   ⟨on [] (fun l => { l with conf := { l.conf with storing := some (.save 256, baseImage) } }), .save 256, baseImage, by decide +kernel⟩,
   ⟨on [] (fun l => { l with conf := { l.conf with storing := some (.save 256, baseImage) } }), .save 256, baseImage, by decide +kernel⟩⟩

theorem witness_OverlaysAndResyncComplete :
    (∃ (s : State) (conn : Conn) (i : Fin 12) (data : List Byte), (served conn s.live = true ∧
      writeAbort conn 0x2E00 (0x11 + i.val) (touch conn s.live) = none) ∧ s.live.conf.active ≠ i.val + 1 ∧
      s.live.conf.pending ≠ some (i.val + 1) ∧ slotImageOk (i.val + 1) data = true) ∧
    (∃ (s : State) (conn : Conn) (slot : BitVec 4), (served conn s.live = true ∧ writeAbort conn 0x2E00 3 (touch conn s.live) = none) ∧
      slot.toNat ≤ 12 ∧ ((slot ≠ 0 → slotUsed s.live slot.toNat = true)) ∧
      (overlayReason slot.toNat (noPending (touch conn s.live))).1 ≠ 0) ∧
    (∃ (s : State) (conn : Conn) (slot : BitVec 4), (served conn s.live = true ∧ writeAbort conn 0x2E00 3 (touch conn s.live) = none) ∧
      slot.toNat ≤ 12 ∧ ((slot ≠ 0 → slotUsed s.live slot.toNat = true)) ∧
      (overlayReason slot.toNat (noPending (touch conn s.live))).1 = 0) ∧
    (∃ (s : State) (conn : Conn) (slot : BitVec 4), (served conn s.live = true ∧ writeAbort conn 0x2E00 3 (touch conn s.live) = none) ∧
      slot.toNat ≤ 12 ∧ ((slot ≠ 0 → slotUsed s.live slot.toNat = true))) ∧
    (∃ (s : State) (conn : Conn), (served conn s.live = true ∧ writeAbort conn 0x2E00 5 (touch conn s.live) = none)) ∧
    (∃ (s : State) (conn : Conn) (data : List Byte), (served conn s.live = true ∧ writeAbort conn 0x2E00 0x21 (touch conn s.live) = none) ∧
      data.length ≤ 65536 ∧ s.live.conf.custOffset + data.length ≤ customerSize) ∧
    (∃ (s : State) (conn : Conn), (served conn s.live = true ∧ writeAbort conn 0x5E00 1 (touch conn s.live) = none) ∧
      s.live.conf.resyncStatus ≠ 1 ∧ s.live.snap.copying = false ∧ s.live.snap.waiting = false) ∧
    (∃ (s : State), supervisorUp s.live = true ∧ s.live.conf.resyncStatus = 1 ∧ s.live.conf.summaryNext ≠ []) :=
  ⟨⟨on [] id, .host, 11, slotImage, by decide +kernel⟩,
   ⟨on [] (fun l => { l with mram := { l.mram with overlays := [(12, [0x50, 0x59, 0x4F, 0x31, 1, 0, 1, 0])] } }), .host,
     12, by decide +kernel⟩,
   ⟨on [] id, .host, 0, by decide +kernel⟩,
   ⟨on [] id, .host, 0, by decide +kernel⟩,
   ⟨on [] id, .host, by decide +kernel⟩,
   ⟨on [] (fun l => { l with conf := { l.conf with custOffset := 622590 } }), .host, [1, 2], by decide +kernel⟩,
   ⟨on [] id, .host, by decide +kernel⟩,
   ⟨on [] (fun l => { l with conf := { l.conf with resyncStatus := 1, summaryNext := [1] } }), by decide +kernel⟩⟩

theorem witness_ResetAndReleaseComplete :
    (∃ (s : State), True) ∧
    (∃ (s : State) (rail : Fin 3), s.live.rst.asserted.getLsbD (1 + rail.val) = false) ∧
    (∃ (s : State), s.live.rst.asserted.getLsbD 4 = false) ∧
    (∃ (s : State), True) ∧
    (∃ (s : State), s.live.rst.asserted.getLsbD 8 = false ∧ coreUp s.live = true) ∧
    (∃ (s : State), True) ∧
    (∃ (s : State) (d : Domain), mayRelease d s.live = true) :=
  ⟨⟨State.reset, by decide +kernel⟩,
   ⟨on [] id, 2, by decide +kernel⟩,
   ⟨on [] id, by decide +kernel⟩,
   ⟨on [] id, by decide +kernel⟩,
   ⟨on [] id, by decide +kernel⟩,
   ⟨on [] id, by decide +kernel⟩,
   ⟨on [] (fun l => { l with rst := { l.rst with held := [.comm] } }), .comm, by decide +kernel⟩⟩

theorem witness_StartUpComplete :
    (∃ (s : State), coreUp s.live = true ∧ s.live.rst.selfTestDue = true) ∧
    (∃ (s : State), coreUp s.live = true ∧ s.live.rst.committed = false ∧ s.live.rst.selfTestDue = false ∧ s.live.snap.copying = false ∧
      s.live.snap.waiting = false) ∧
    (∃ (s : State), s.live.rst.held = [] ∧ s.live.rst.committed = true ∧ s.live.net.nmt = 0 ∧ s.live.net.choice.selfStart = false) :=
  ⟨⟨on [] (fun l => { l with rst := { l.rst with selfTestDue := true } }), by decide +kernel⟩,
   ⟨on [] (fun l => { l with rst := { l.rst with committed := false } }), by decide +kernel⟩,
   ⟨on [] (fun l => { l with net := { l.net with nmt := 0 } }), by decide +kernel⟩⟩

theorem witness_SupervisorCompletes :
    (∃ (s : State), watchdogOut s.live = true ∧ thirdStage s.live = false ∧ s.live.rst.asserted.getLsbD 9 = false) ∧
    (∃ (s : State), watchdogOut s.live = true ∧ thirdStage s.live = true ∧ s.live.rst.asserted.getLsbD 5 = false) ∧
    (∃ (s : State), supervisorUp s.live = false) ∧
    (∃ (s : State) (conn : Conn), (served conn s.live = true ∧ writeAbort conn 0x5E40 1 (touch conn s.live) = none) ∧
      s.live.conf.storing = none ∧ coreUp s.live = true ∧ s.live.rst.asserted.getLsbD 11 = false) ∧
    (∃ (s : State) (conn : Conn) (code : Byte), (served conn s.live = true ∧ writeAbort conn 0x5E40 2 (touch conn s.live) = none) ∧
      (blockSource code.toNat).isSome = true ∧ code ≠ 0x48 ∧ coreUp s.live = true ∧ blockHeld s.live code.toNat = false) ∧
    (∃ (s : State) (conn : Conn) (code : Byte), (served conn s.live = true ∧ writeAbort conn 0x5E40 2 (touch conn s.live) = none) ∧
      (blockSource code.toNat).isSome = true ∧ code ≠ 0x48 ∧ coreUp s.live = true ∧ blockHeld s.live code.toNat = false) ∧
    (∃ (s : State) (conn : Conn) (code : Byte), (served conn s.live = true ∧ writeAbort conn 0x5E40 2 (touch conn s.live) = none) ∧
      (blockSource code.toNat).isSome = true ∧ code ≠ 0x48 ∧ blockHeld s.live code.toNat = true) ∧
    (∃ (s : State) (code : Byte) (u : _), blockHeld s.live code.toNat = true ∧ (code.toNat, u) ∈ s.live.rst.pulses ∧ u ≤ s.live.now) ∧
    (∃ (s : State), domainUp .aon s.live = true) ∧
    (∃ (s : State) (conn : Conn) (new : Byte), (served conn s.live = true ∧ writeAbort conn 0x5E10 2 (touch conn s.live) = none) ∧
      transitionOk s.live.rst.life.toNat new.toNat = true ∧ s.live.pwm.arm ≠ .armed ∧ s.live.net.nmt ≠ nmtOp ∧ storeBusy s.live = false ∧
      coreUp s.live = true ∧ s.live.rst.asserted.getLsbD 6 = false) :=
  ⟨⟨on [] (fun l => { l with rst := { l.rst with supEnd := some 0 } }), by decide +kernel⟩,
   ⟨on [] (fun l => { l with rst := { l.rst with supEnd := some 0, wdStage1 := [9999999999, 9999999998] } }), by decide +kernel⟩,
   ⟨on [] (fun l => { l with rst := { l.rst with supEnd := some 0 } }), by decide +kernel⟩,
   ⟨on [] id, .host, by decide +kernel⟩,
   ⟨on [] id, .host, 0x40, by decide +kernel⟩,
   ⟨on [] id, .host, 0x3F, by decide +kernel⟩,
   ⟨on [] (fun l => { l with rst := { l.rst with blocks := [0x40] } }), .host, 0x40, by decide +kernel⟩,
   ⟨on [] (fun l => { l with rst := { l.rst with blocks := [0x40], pulses := [(0x40, 5)] } }), 0x40, 5, by decide +kernel⟩,
   ⟨on [] id, by decide +kernel⟩,
   ⟨on [] (fun l => { l with net := { l.net with nmt := 0x7F, conns := [(256, { unlocked := true })] }, rst := { l.rst with life := 3 } }),
     .host, 4, by decide +kernel⟩⟩

theorem witness_JournalComplete :
    (∃ (s : State) (e : JournalEntry) (rest : _), s.live.journal.queue = e :: rest ∧ journalReady s.live = true) ∧
    (∃ (s : State) (conn : Conn) (v : Word), (served conn s.live = true ∧ writeAbort conn 0x5E20 1 (touch conn s.live) = none) ∧
      field v.toNat 63 48 = 0 ∧ 1 ≤ field v.toNat 47 32 ∧ field v.toNat 47 32 ≤ 256) ∧
    (∃ (s : State) (conn : Conn), (served conn s.live = true ∧ writeAbort conn 0x5E20 7 (touch conn s.live) = none) ∧
      s.live.rst.life = 2) :=
  ⟨⟨on [] (fun l => { l with journal := { l.journal with queue := [⟨0x8F80, 1, 0, 0, 0, 0, 0, 2⟩] } }), ⟨0x8F80, 1, 0, 0, 0, 0, 0, 2⟩,
    [], by decide +kernel⟩,
   ⟨on [] id, .host, 0x010000000001, by decide +kernel⟩,
   ⟨on [] id, .host, by decide +kernel⟩⟩

/-- The clauses of the generation: a release of CORE with the generation advanced and not yet advanced, a source that asserts alone and beside
another, and the commands that leave it. -/
theorem witness_GenerationAdvances :
    (∃ s : State, mayRelease .core s.live = true ∧ s.live.rst.genDone = false) ∧
    (∃ s : State, mayRelease .core s.live = true ∧ s.live.rst.genDone = true) ∧
    (∃ s : State, s.live.rst.asserted.getLsbD 8 = false ∧ s.live.rst.asserted.getLsbD 4 = false ∧ s.live.rst.sources = 0) ∧
    (∃ s : State, s.live.rst.asserted.getLsbD 8 = false ∧ s.live.rst.asserted.getLsbD 4 = false ∧ s.live.rst.sources ≠ 0) ∧
    (∃ (src : Nat) (l : Live), src < 16 ∧ l.rst.asserted.getLsbD src = false) ∧
    (∃ s t : State, exec (.nmtResetCommunication .can0) s = .next t) ∧
    (∃ s t : State, exec (.blockResetPulse .host 0x3F) s = .next t) :=
  ⟨⟨on [] (fun l => { l with rst := { l.rst with held := [.core, .comm] } }), by decide +kernel⟩,
   ⟨on [] (fun l => { l with rst := { l.rst with held := [.core, .comm], genDone := true } }), by decide +kernel⟩,
   ⟨on [] id, by decide +kernel⟩,
   ⟨on [] (fun l => { l with rst := { l.rst with sources := 1 } }), by decide +kernel⟩,
   ⟨15, base, by decide +kernel⟩,
   ⟨on [] id, exec_next _ _ rfl⟩,
   ⟨on [] id, exec_next _ _ rfl⟩⟩

theorem witness_StepRunsFrontCommand : ∃ (s : State) (c : Instr) (r : List Instr), s.pending = c :: r :=
  ⟨{ on [] id with pending := [.pllLock] }, .pllLock, [], rfl⟩

/-- With the PLL unlocked; and locked, nothing due, with a rate that ATIME can follow. -/
theorem witness_EmptyQueueEndsTclk :
    (∃ s : State, s.pending = [] ∧ s.live.time.pllLocked = false) ∧
    (∃ s : State, s.pending = [] ∧ s.live.time.pllLocked = true ∧ s.live.rst.hostPulseAt = none ∧ s.live.conf.tripDue = none ∧
      domainUp .aon s.live = true ∧ 0 ≤ (atimeFine s.live : Int) + 2 ^ 32 + s.live.time.rate ∧
      (atimeFine s.live : Int) + 2 ^ 32 + s.live.time.rate < 2 ^ 35 * 400000000 * 2 ^ 32 ∧ s.live.dmaPosted = []) :=
  ⟨⟨State.reset, by decide +kernel⟩, ⟨on [] id, by decide +kernel⟩⟩

theorem witness_QueueUntouched : ∃ (c : Instr) (s t : State), exec c s = .next t :=
  ⟨.memoryLoad .host [], on [] id, exec_next _ _ rfl⟩

/-- A device with a published, a filling and a held bank, all coherent, and a command that takes a snapshot. -/
theorem witness_BanksStayCoherent : ∃ s t : State, s.BanksCoherent ∧ s.Settled ∧ step s = .next t := by
  obtain ⟨t, ht⟩ := exec_next (.snapshotTake .host)
    { live := base, published := some ⟨0, 0, base⟩, filling := some ⟨0, 0, base⟩, held := some (⟨0, 0, base⟩, 7), pending := [] } rfl
  refine ⟨{ live := base, published := some ⟨0, 0, base⟩, filling := some ⟨0, 0, base⟩, held := some (⟨0, 0, base⟩, 7),
            pending := [.snapshotTake .host] }, t, ⟨?_, ?_, ?_⟩, ⟨rfl, rfl, rfl⟩, ht⟩
  · rintro b ⟨⟩; exact ⟨rfl, rfl⟩
  · rintro b ⟨⟩; exact ⟨rfl, rfl⟩
  · rintro b t ⟨⟩; exact ⟨rfl, rfl⟩

/-- Every command of the statement, in a state whose memory holds bytes in their canonical form. -/
theorem witness_MemoryStaysCanonical :
    ∀ c ∈ [Instr.logStagingMove, .stagingFlushDone, .memoryLoad .host [], .hostWrite 0x10000000 [1] false, .dmaBurstDone ⟨31, []⟩, .resetN true,
        .warmN true, .brownOut 2],
      ∃ s t : State, Memory.wf s.live.mem = true ∧ s.live.mem ≠ [] ∧ exec c s = .next t := by
  have h : ∀ c ∈ [Instr.logStagingMove, .stagingFlushDone, .memoryLoad .host [], .hostWrite 0x10000000 [1] false, .dmaBurstDone ⟨31, []⟩,
      .resetN true, .warmN true, .brownOut 2], c.wf = true := by decide
  intro c hc
  obtain ⟨t, ht⟩ := exec_next c { live := { base with mem := writeBytes [] 0x00100000 [1, 2, 3] } } (h c hc)
  exact ⟨_, t, by decide +kernel, by decide +kernel, ht⟩

/-- One command of each clause of the statement answers a next state. -/
theorem witness_TimeAndChannelFrames :
    ∀ c ∈ [Instr.referenceRelock, .ppsInEdge 63, .timeReceived 0 0, .atimeSecondBoundary, .matchFire 511, .inputEdge 511 0 true,
      .linkRequest 511 0, .hostCommand .host 511 0, .tpinReadback 191 true],
      ∃ t : State, exec c (on [] id) = .next t := by
  have h : ∀ c ∈ [Instr.referenceRelock, .ppsInEdge 63, .timeReceived 0 0, .atimeSecondBoundary, .matchFire 511, .inputEdge 511 0 true,
    .linkRequest 511 0, .hostCommand .host 511 0, .tpinReadback 191 true], c.wf = true := by decide
  exact fun c hc => exec_next c _ (h c hc)

/-- One command of each clause of the statement answers a next state. -/
theorem witness_EngineFrames :
    ∀ c ∈ [Instr.aluPass 7 3 0 0, .matchaLoad 7 0 63, .routineStart 7, .microwordWait 7, .mcRecoveryDone 7 true true 7],
      ∃ t : State, exec c (on [] id) = .next t := by
  have h : ∀ c ∈ [Instr.aluPass 7 3 0 0, .matchaLoad 7 0 63, .routineStart 7, .microwordWait 7, .mcRecoveryDone 7 true true 7], c.wf = true := by decide
  exact fun c hc => exec_next c _ (h c hc)

/-- One command of each clause of the statement answers a next state. -/
theorem witness_EventAndWheelFrames :
    ∀ c ∈ [Instr.insertWalkDone, .queueFlush .host 15, .eventCancel .host 0, .eventPinSet 15 191 63, .toothEdge 3 ⟨true, 0⟩, .camMissing 3],
      ∃ t : State, exec c (on [] id) = .next t := by
  have h : ∀ c ∈ [Instr.insertWalkDone, .queueFlush .host 15, .eventCancel .host 0, .eventPinSet 15 191 63, .toothEdge 3 ⟨true, 0⟩, .camMissing 3],
    c.wf = true := by decide
  exact fun c hc => exec_next c _ (h c hc)

/-- One command of each clause of the statement answers a next state. -/
theorem witness_PeripheralFrames :
    ∀ c ∈ [Instr.quadratureTransition 7 0 true false, .pwmMidReload 23, .blankLimit 15, .armToggle, .adcFifoRead 3, .stepStart 3, .nop 15],
      ∃ t : State, exec c (on [] id) = .next t := by
  have h : ∀ c ∈ [Instr.quadratureTransition 7 0 true false, .pwmMidReload 23, .blankLimit 15, .armToggle, .adcFifoRead 3, .stepStart 3,
    .nop 15], c.wf = true := by decide
  exact fun c hc => exec_next c _ (h c hc)

/-- One command of each clause of the statement answers a next state. -/
theorem witness_DataPathFrames :
    ∀ c ∈ [Instr.fenceReadDone ⟨31, []⟩, .dmaStart .host 31, .logAdmit 591, .releaseRecords .host 0, .memoryLoad .host [],
      .patrolScrub 8 0 .single, .holdOffEnd 39, .irqClaim 3 63, .dozeEnter],
      ∃ t : State, exec c (on [] id) = .next t := by
  have h : ∀ c ∈ [Instr.fenceReadDone ⟨31, []⟩, .dmaStart .host 31, .logAdmit 591, .releaseRecords .host 0, .memoryLoad .host [],
    .patrolScrub 8 0 .single, .holdOffEnd 39, .irqClaim 3 63, .dozeEnter], c.wf = true := by decide
  exact fun c hc => exec_next c _ (h c hc)

/-- One command of each clause of the statement answers a next state. -/
theorem witness_NetworkFrames :
    ∀ c ∈ [Instr.busOff 1, .tpdoEventTimer 15, .nmtStart .can0, .addMember .host 63 0, .groupDisarm .host 63, .storeAll .host 0,
      .overlaySlotWrite .host 11 [], .powerOn, .journalWrite],
      ∃ t : State, exec c (on [] id) = .next t := by
  have h : ∀ c ∈ [Instr.busOff 1, .tpdoEventTimer 15, .nmtStart .can0, .addMember .host 63 0, .groupDisarm .host 63, .storeAll .host 0,
    .overlaySlotWrite .host 11 [], .powerOn, .journalWrite], c.wf = true := by decide
  exact fun c hc => exec_next c _ (h c hc)

end Sys2Proof.Tests
end

/-! The time unit at a second boundary: what a pending relabelling of the seconds writes, what PPS_OUT leaves alone, and the two
statements about the seconds epoch (R53–R57). -/

namespace Sys2Proof.Machine

open Sys2Proof

/-! ### A word with one bit written -/

theorem putBit_same {w n : Nat} (x : BitVec w) (b : Bool) (h : n < w) : (putBit x n b).getLsbD n = b := by
  cases b
  · exact clrBit_same x
  · exact setBit_same x h

theorem putBit_other {w i n : Nat} (x : BitVec w) (b : Bool) (h : i ≠ n) : (putBit x n b).getLsbD i = x.getLsbD i := by
  cases b
  · exact clrBit_other x h
  · exact setBit_other x h

/-! ### The relabelling of the seconds (R53, R55, R56) -/

/-- Moving the AT keys by the relabelling changes the event table alone (R55). -/
theorem atRelabel_onlyEvents (secs : Int) (l : Live) : OnlyEvents l (atRelabel secs l) := by
  unfold atRelabel
  refine (forAll_onlyEvents (fun e m => ?_) _ l).trans (forAll_onlyEvents (fun q m => ?_) _ _)
  · dsimp only
    split <;> rfl
  · split <;> rfl

/-- The time unit as a second boundary relabels it by an offset: EPOCH_SET is set, EPOCH_PROVISIONAL says whether the state is not
LOCKED. -/
def TimeUnit.relabelled (off : Int) (t : TimeUnit) : TimeUnit :=
  { t with boundary := false, seconds := BitVec.ofInt 35 ((t.seconds.toNat : Int) + off), relabel := none,
           status := putBit (setBit t.status 11) 12 (decide (t.disc ≠ .locked)) }

theorem epochFire_time {l : Live} {off : Int} (h : l.time.relabel = some off) :
    (epochFire { l with time := { l.time with boundary := false } }).time = l.time.relabelled off := by
  have keys := (atRelabel_onlyEvents off { l with time := l.time.relabelled off }).keeps.1
  simpa [epochFire, h, TimeUnit.relabelled] using keys

theorem relabelled_epochSet (off : Int) (t : TimeUnit) : (t.relabelled off).status.getLsbD 11 = true :=
  (putBit_other _ _ (by decide)).trans (setBit_same _ (by decide))

theorem relabelled_epochProvisional (off : Int) (t : TimeUnit) :
    (t.relabelled off).status.getLsbD 12 = decide (t.disc ≠ .locked) :=
  putBit_same _ _ (by decide)

/-- Without a step since the write of a value, the boundary makes that value the seconds count (R54). -/
theorem relabelled_seconds {t : TimeUnit} {value old : Nat} (hv : value < 2 ^ 35) (hs : t.seconds.toNat = old + 1) :
    (t.relabelled ((value : Int) - (old + 1))).seconds.toNat = value := by
  have sum : (t.seconds.toNat : Int) + ((value : Int) - (old + 1)) = value := by omega
  simp only [TimeUnit.relabelled, sum, BitVec.ofInt_natCast, BitVec.toNat_ofNat]
  exact Nat.mod_eq_of_lt hv

/-! ### What PPS_OUT leaves alone (R57–R59) -/

/-- Nothing of the time unit but PPS_OUT, its instants and its skip counter differs. -/
def OnlyPpsOut (t u : TimeUnit) : Prop :=
  u = { t with skipCnt := u.skipCnt, ppsOut := u.ppsOut, ppsHiZ := u.ppsHiZ, ppsWarm := u.ppsWarm, ppsOutDue := u.ppsOutDue,
               ppsOutEarly := u.ppsOutEarly, ppsOutRise := u.ppsOutRise, ppsOutEnd := u.ppsOutEnd }

theorem OnlyPpsOut.trans {a b c : TimeUnit} (h : OnlyPpsOut a b) (k : OnlyPpsOut b c) : OnlyPpsOut a c := by
  unfold OnlyPpsOut at *
  rw [k, h]

theorem OnlyPpsOut.keeps {t u : TimeUnit} (h : OnlyPpsOut t u) :
    u.seconds = t.seconds ∧ u.tick = t.tick ∧ u.frac = t.frac ∧ u.rate = t.rate ∧ u.dtime = t.dtime ∧ u.status = t.status := by
  rw [h]
  exact ⟨rfl, rfl, rfl, rfl, rfl, rfl⟩

theorem ppsOutPulse_onlyPpsOut (rise : Nat) (l : Live) : OnlyPpsOut l.time (ppsOutPulse rise l).time := by
  unfold ppsOutPulse
  dsimp only
  split
  · rfl
  · split <;> rfl

theorem ppsOutResume_onlyPpsOut (l : Live) : OnlyPpsOut l.time (ppsOutResume l).time := by
  unfold ppsOutResume
  split <;> rfl

theorem ppsOutBoundary_onlyPpsOut (rise : Nat) (l : Live) : OnlyPpsOut l.time (ppsOutBoundary rise l).time := by
  unfold ppsOutBoundary
  split
  · rfl
  · split
    · exact ppsOutPulse_onlyPpsOut rise l
    · rfl

/-! ### The second boundary and the seconds-set object (R53, R54) -/

/-- A second boundary with a relabelling pending relabels the seconds; the rest of what it does to the time unit is PPS_OUT's. -/
theorem secondBoundary_relabel {l : Live} {off : Int} (up : timeUp l = true) (reached : l.time.boundary = true)
    (pending : l.time.relabel = some off) :
    OnlyPpsOut (l.time.relabelled off) (secondBoundary l).time := by
  rw [← epochFire_time pending]
  simp only [secondBoundary, up, reached, Bool.not_true, Bool.or_false, Bool.false_eq_true, if_false]
  exact (ppsOutResume_onlyPpsOut _).trans (ppsOutBoundary_onlyPpsOut _ _)

theorem exec_atimeSecondBoundary (s : State) : exec .atimeSecondBoundary s = .next (s.apply secondBoundary) := rfl

theorem exec_secondsSet (conn : Conn) (value : BitVec 40) (s : State) :
    exec (.secondsSet conn value) s = .next (s.apply (onObject conn 0x2000 0x0B (secondsSet value.toNat))) := rfl

/-- Where a second boundary with a relabelling pending completes, the time unit is the relabelled one, but for PPS_OUT. -/
theorem completes_secondBoundary {s : State} {off : Int} {P : State → Prop} (up : timeUp s.live = true)
    (reached : s.live.time.boundary = true) (pending : s.live.time.relabel = some off)
    (h : ∀ t : State, OnlyPpsOut (s.live.time.relabelled off) t.live.time → P t) : Completes .atimeSecondBoundary s P := by
  refine ⟨_, exec_atimeSecondBoundary s, h _ ?_⟩
  rw [(apply_keeps secondBoundary s).1]
  exact secondBoundary_relabel up reached pending

theorem secondsSet_inRange {v : Nat} (h : v < 2 ^ 35) (l : Live) : secondsSet v l =
    ({ l with time := { l.time with relabel := some ((v : Int) - (l.time.seconds.toNat + 1)) } }, 0) :=
  if_neg (Nat.not_le.mpr h)

theorem secondsSet_outOfRange {v : Nat} (h : 2 ^ 35 ≤ v) (l : Live) : secondsSet v l = (l, abRange) := if_pos h

/-- A request aborted by its object's rule is answered with the abort's code. -/
theorem reply_abort_answer (c : Conn) {code : Nat} (h : code ≠ 0) (l : Live) :
    ((reply c code l).connSt (connId c)).answer = .abort (BitVec.ofNat 32 code) := by
  simp [reply, answer, Live.updConnSt, Live.setConnSt, Live.connSt, h]

/-- Settles O3: the write's rule on the touched device, and the boundary by `relabelled_seconds`. -/
theorem secondsSetObject : Obligations.SecondsSetObject := by
  refine ⟨fun s conn value ⟨reaches, accepted⟩ => ⟨fun small => ?_, fun large => ?_⟩,
    fun s value old up reached small pending running => ?_⟩
  · have effect := onObject_reaches (secondsSet value.toNat) reaches accepted
    rw [secondsSet_inRange small] at effect
    refine ⟨_, exec_secondsSet conn value s, ?_, ?_, fun a => ?_⟩
    · simp [effect]
    · simp [AnsweredDone, effect]
    · simp [effect]
  · have effect := onObject_reaches (secondsSet value.toNat) reaches accepted
    rw [secondsSet_outOfRange large] at effect
    refine ⟨_, exec_secondsSet conn value s, ?_, ?_, fun a => ?_⟩
    · simp [effect]
    · rw [apply_connSt, effect]
      exact reply_abort_answer conn (code := abRange) (by decide) _
    · simp [effect]
  · refine completes_secondBoundary up reached pending fun t pps => ?_
    obtain ⟨seconds, tick, frac, rate, dtime, status⟩ := pps.keeps
    refine ⟨?_, tick, frac, rate, dtime, ?_⟩
    · rw [seconds]
      exact relabelled_seconds small running
    · rw [status]
      exact relabelled_epochSet _ _

/-- Settles O4: the bit is the discipline state's at the relabelling (R56; that this instant decides is the model's choice, log entry
52), and PPS_OUT leaves the status alone. -/
theorem epochProvisional : Obligations.EpochProvisional := by
  intro s off up reached pending
  refine completes_secondBoundary up reached pending fun t pps => ?_
  obtain ⟨-, -, -, -, -, status⟩ := pps.keeps
  rw [status, relabelled_epochProvisional]
  exact ⟨fun h => decide_eq_true h, fun h => decide_eq_false (not_not_intro h)⟩

end Sys2Proof.Machine

/-! The stop command of a sequence and the end of the pass it marks (R308): the trip unit and the feedback ports, which a step's results
reach, leave the analogue unit alone, and the results themselves leave the mark of the stop. -/

namespace Sys2Proof.Machine

open Sys2Proof

theorem seq_of_analog {l m : Live} (h : m.analog = l.analog) (j : Nat) : m.seq j = l.seq j := by
  unfold Live.seq
  rw [h]

/-- What every pass of a loop leaves alone, the loop leaves alone. -/
theorem forAll_keeps {α β : Type} (read : Live → β) {f : α → Live → Live} (h : ∀ x l, read (f x l) = read l) (xs : List α) (l : Live) :
    read (forAll f xs l) = read l :=
  forAll_rel (R := fun l m => read m = read l) (fun _ => rfl) (fun _ _ _ ab bc => bc.trans ab) h xs l

/-! ### Trips leave the analogue unit alone (R285, R293, R435) -/

@[simp] theorem tripPair_analog (cause u : Nat) (l : Live) : (tripPair cause u l).analog = l.analog := by
  unfold tripPair
  dsimp only
  split <;> simp

@[simp] theorem tripPairs_analog (mask cause : Nat) (l : Live) : (tripPairs mask cause l).analog = l.analog := by
  unfold tripPairs
  refine forAll_keeps Live.analog (fun u m => ?_) _ l
  split
  · exact tripPair_analog cause u m
  · rfl

@[simp] theorem disarm_analog (cause : Nat) (l : Live) : (disarm cause l).analog = l.analog := by
  unfold disarm
  extract_lets w st w1 w2 noted idle tripped recorded
  have idle_analog : idle.analog = l.analog := forAll_keeps Live.analog (fun u m => by simp) _ noted
  have kept : recorded.analog = l.analog := by simp [recorded, tripped, idle_analog]
  split
  · rfl
  · split <;> simp [kept]

@[simp] theorem watchTrip_analog (l : Live) : (watchTrip l).analog = l.analog := by
  unfold watchTrip
  split <;> rfl

/-! ### Feedback ports leave the analogue unit alone (R250–R264)

Where a condition or a count is itself a choice, `apply_ite` carries the read of the unit through the branches, which the laws of the
operations close. -/

@[simp] theorem fbFault_analog (n code element bit det : Nat) (l : Live) : (fbFault n code element bit det l).analog = l.analog := by
  unfold fbFault
  dsimp only
  split <;> simp

@[simp] theorem setDir_analog (n : Nat) (up : Bool) (l : Live) : (setDir n up l).analog = l.analog := by
  unfold setDir
  dsimp only
  split
  · rfl
  · split <;> simp

@[simp] theorem trackDir_analog (n : Nat) (l : Live) : (trackDir n l).analog = l.analog := by
  simp [trackDir, apply_ite Live.analog]

@[simp] theorem movedObserver_analog (n t : Nat) (d : Int) (l : Live) : (movedObserver n t d l).analog = l.analog := by
  unfold movedObserver
  dsimp only
  split
  · simp
  · simp
  · split <;> simp
  · simp
  · simp

@[simp] theorem tellReferents_analog (n : Nat) (d : Int) (l : Live) : (tellReferents n d l).analog = l.analog := by
  unfold tellReferents
  refine forAll_keeps Live.analog (fun m k => ?_) _ l
  split <;> rfl

@[simp] theorem checkIndexMissing_analog (n : Nat) (l : Live) : (checkIndexMissing n l).analog = l.analog := by
  unfold checkIndexMissing
  dsimp only
  split <;> simp

@[simp] theorem movePosition_analog (n t : Nat) (d : Int) (l : Live) : (movePosition n t d l).analog = l.analog := by
  simp [movePosition, apply_ite Live.analog]

@[simp] theorem portLost_analog (n code : Nat) (l : Live) : (portLost n code l).analog = l.analog := by
  unfold portLost
  dsimp only
  split <;> simp

@[simp] theorem portBad_analog (n code : Nat) (l : Live) : (portBad n code l).analog = l.analog := by
  simp [portBad, uncertain, apply_ite Live.analog]

@[simp] theorem portValid_analog (n : Nat) (l : Live) : (portValid n l).analog = l.analog := by
  unfold portValid
  dsimp only
  split <;> rfl

@[simp] theorem setPosition_analog (n : Nat) (v : BitVec 48) (l : Live) : (setPosition n v l).analog = l.analog := rfl

@[simp] theorem sincosSample_analog (n at_ : Nat) (s0 c0 : Int) (flags : Bool) (l : Live) :
    (sincosSample n at_ s0 c0 flags l).analog = l.analog := by
  unfold sincosSample
  dsimp only
  split
  · rfl
  · split
    · simp [countLine]
    · split <;> simp [captured]

@[simp] theorem sincosStep_analog (s n : Nat) (w : Word) (sampled : Nat) (rs : List AdcSample) (l : Live) :
    (sincosStep s n w sampled rs l).analog = l.analog := by
  unfold sincosStep
  split
  · rfl
  · refine forAll_keeps Live.analog (fun p m => ?_) _ l
    split
    · exact sincosSample_analog _ _ _ _ _ _
    · rfl

/-! ### What a result leaves of the sequences (R309–R317) -/

@[simp] theorem latchLimit_seq (a at_ : Nat) (l : Live) (j : Nat) : (latchLimit a at_ l).seq j = l.seq j := by
  unfold latchLimit
  dsimp only
  rw [seq_of_analog (watchTrip_analog _), seq_of_analog (disarm_analog _ _), seq_of_analog (tripPairs_analog _ _ _)]
  simp

@[simp] theorem inputReport_seq (a code : Nat) (v : Int) (l : Live) (j : Nat) : (inputReport a code v l).seq j = l.seq j := by
  unfold inputReport
  extract_lets x y marked pay
  by_cases due : recordDue l (if code = 1 then x.rec1 else x.rec2) = true
  · rw [if_pos due]
    split <;> simp [marked]
  · rw [if_neg due]

@[simp] theorem checkLimit_seq (a : Nat) (v : Int) (sampled : Nat) (l : Live) (j : Nat) : (checkLimit a v sampled l).seq j = l.seq j := by
  unfold checkLimit
  extract_lets hi lo x checked x1 counted reported
  have kept : reported.seq j = l.seq j := by simp [reported, counted, checked]
  split
  · simp [checked]
  · split <;> simp [kept]

@[simp] theorem checkDrift_seq (code : Nat) (l : Live) (j : Nat) : (checkDrift code l).seq j = l.seq j := by
  unfold checkDrift
  dsimp only
  split
  · simp only [reportFault_acc]
    rfl
  · rfl

@[simp] theorem pushAdc_seq (k : Nat) (e : BitVec 32) (l : Live) (j : Nat) : (pushAdc k e l).seq j = l.seq j := by
  unfold pushAdc fifoReport
  dsimp only
  split <;> simp

/-- A result leaves the mark of a stop. -/
@[simp] theorem oneResult_stopDue (s n : Nat) (w : Word) (sampled k : Nat) (r : AdcSample) (l : Live) :
    ((oneResult s n w sampled k r l).seq s).stopDue = (l.seq s).stopDue := by
  unfold oneResult
  extract_lets sel diff code v inp sat ovr opn lim unc old tag fl reg pass shown e queued drifted
  have shown_stop : (shown.seq s).stopDue = (l.seq s).stopDue := by simp [shown]
  have queued_seq : queued.seq s = shown.seq s := by
    unfold queued
    split <;> simp
  have drifted_seq : drifted.seq s = queued.seq s := by
    unfold drifted
    split <;> simp
  have kept : (drifted.seq s).stopDue = (l.seq s).stopDue := by rw [drifted_seq, queued_seq, shown_stop]
  clear_value drifted opn inp
  cases inp with
  | none => exact kept
  | some a =>
    dsimp only
    rw [checkLimit_seq]
    split
    · simpa using kept
    · exact kept

/-! ### The end of a step (R304, R306, R308) -/

/-- The device with the results of a step that started at a DTIME: the results, the converters free, the samples of the sin/cos ports. -/
def stepTaken (s : Nat) (p : Pass) (start : Nat) (rs : List AdcSample) (l : Live) : Live :=
  let sampled := start + stepAcq p.word * 4
  let results := forAll (fun k l => oneResult s p.step p.word sampled k (rs.getD k ⟨0, false⟩) l) (stepConvs p.word) l
  sincosStep s p.step p.word sampled rs (forAll (fun k l => l.updConv k (fun c => { c with busy := none })) (stepConvs p.word) results)

/-- The results of a step that is due are taken, and then the pass goes on or ends. -/
theorem stepResult_due {s start : Nat} {p : Pass} {l : Live} (rs : List AdcSample) (running : (l.seq s).run = some p)
    (started : p.startedAt = some start) (up : analogUp l = true) (due : start + (stepAcq p.word + 16) * 4 ≤ l.now) :
    stepResult s rs l = afterStep s p (stepTaken s p start rs l) := by
  simp only [stepResult, running, started, up, Nat.not_lt.mpr due, stepTaken, Bool.not_true, decide_false, Bool.or_false,
    Bool.false_eq_true, if_false]

theorem stepTaken_stopDue (s : Nat) (p : Pass) (start : Nat) (rs : List AdcSample) (l : Live) :
    ((stepTaken s p start rs l).seq s).stopDue = (l.seq s).stopDue := by
  unfold stepTaken
  extract_lets sampled results
  have results_stop : (results.seq s).stopDue = (l.seq s).stopDue :=
    forAll_keeps (fun m => (m.seq s).stopDue) (fun k m => oneResult_stopDue s p.step p.word sampled k _ m) _ l
  rw [seq_of_analog (sincosStep_analog _ _ _ _ _ _), forAll_keeps (fun m => m.seq s) (fun k m => by simp), results_stop]

/-- A step of a marked pass ends the pass, be it its last step or not, continuous or not. -/
theorem afterStep_stopped {s : Nat} {l : Live} (p : Pass) (marked : (l.seq s).stopDue = true) :
    ((afterStep s p l).seq s).run = none ∧ ((afterStep s p l).seq s).stopDue = false := by
  by_cases more : p.step + 1 < p.words.length <;> simp [afterStep, marked, more]

theorem exec_stepResult (n : Fin 4) (r0 r1 r2 r3 : AdcSample) (s : State) :
    exec (.stepResult n r0 r1 r2 r3) s = .next (s.apply (stepResult n.val [r0, r1, r2, r3])) := rfl

/-! ### The stop command (R308) -/

theorem exec_sequenceStop (conn : Conn) (n : Fin 4) (s : State) :
    exec (.sequenceStop conn n) s = .next (s.apply (onObject conn (0x2740 + n.val) 3 (done (seqStop n.val)))) := rfl

/-- A stop that reaches its object has the analogue unit as `seqStop` makes it, is answered as done and leaves the memory alone. -/
theorem completes_sequenceStop {s : State} {conn : Conn} {n : Fin 4} {P : State → Prop} (reaches : Reaches conn (0x2740 + n.val) 3 s)
    (h : ∀ t : State, t.live.analog = (seqStop n.val s.live).analog → AnsweredDone conn t → SameMemory s t → P t) :
    Completes (.sequenceStop conn n) s P := by
  obtain ⟨served, accepted⟩ := reaches
  have effect := onObject_done (seqStop n.val) served accepted
  refine ⟨_, exec_sequenceStop conn n s, h _ ?_ ?_ fun a => ?_⟩
  · simp only [apply_keeps, effect, reply_keeps]
    rfl
  · simp [AnsweredDone, effect]
  · simp [effect, seqStop]

theorem seqStop_running {s : Nat} {p : Pass} {l : Live} (running : (l.seq s).run = some p) :
    (seqStop s l).seq s = { l.seq s with stopDue := true, resume := false } := by
  simp [seqStop, running]

/-- A stop of an idle sequence writes the sequence that it finds. -/
theorem seqStop_idle {s : Nat} {l : Live} (idle : (l.seq s).run = none) : seqStop s l = l.setSeq s (l.seq s) := by
  simp [seqStop, Live.updSeq, idle]

theorem setSeq_self (l : Live) (s j : Nat) : (l.setSeq s (l.seq s)).seq j = l.seq j := by
  by_cases same : j = s
  · rw [same, setSeq_same]
  · exact setSeq_ne l _ same

/-- Settles O27: the results of a step leave the mark of the stop (`stepTaken_stopDue`), and a marked pass ends with its step. -/
theorem stopEndsPass : Obligations.StopEndsPass := by
  refine ⟨fun s conn n p reaches running => ?_, fun s n p start r0 r1 r2 r3 running started up due marked => ?_,
    fun s conn n reaches idle => ?_⟩
  · refine completes_sequenceStop reaches fun t analog answered memory => ⟨?_, answered, memory⟩
    rw [seq_of_analog analog, seqStop_running running]
  · refine ⟨_, exec_stepResult n r0 r1 r2 r3 s, ?_⟩
    simp only [apply_seq, stepResult_due _ running started up due]
    exact afterStep_stopped p ((stepTaken_stopDue _ _ _ _ _).trans marked)
  · refine completes_sequenceStop reaches fun t analog answered memory => ?_
    rw [seqStop_idle idle] at analog
    refine ⟨fun m => ?_, ?_, ?_, ?_, answered, memory⟩
    · rw [seq_of_analog analog, setSeq_self]
    all_goals rw [analog]; rfl

end Sys2Proof.Machine

/-! What leaves the reset unit alone: the outputs and units that a BLOCK reset, a COMM reset or a reset of WARM reach returns to their
reset values, and those that take their configuration again when a BLOCK reset is released. -/

namespace Sys2Proof.Machine

open Sys2Proof

/-- A loop leaves the reset unit alone where every pass of it does. -/
theorem forAll_rst {α : Type} {f : α → Live → Live} (h : ∀ x l, (f x l).rst = l.rst) (xs : List α) (l : Live) :
    (forAll f xs l).rst = l.rst :=
  forAll_keeps Live.rst h xs l

/-! ### T-pins and PWM pairs (R109, R285, R293) -/

@[simp] theorem drivePin_rst (n : Nat) (l : Live) : (drivePin n l).rst = l.rst := by
  unfold drivePin
  dsimp only
  split <;> simp

@[simp] theorem goFailsafe_rst (cause c : Nat) (l : Live) : (goFailsafe cause c l).rst = l.rst := by
  simp [goFailsafe, forAll_rst]

@[simp] theorem endFailsafe_rst (c : Nat) (l : Live) : (endFailsafe c l).rst = l.rst := by
  unfold endFailsafe
  split
  · rfl
  · simp [forAll_rst]

@[simp] theorem drivePins_rst (c : Nat) (l : Live) : (drivePins c l).rst = l.rst := forAll_rst drivePin_rst _ l

@[simp] theorem tripPair_rst (cause u : Nat) (l : Live) : (tripPair cause u l).rst = l.rst := by
  unfold tripPair
  dsimp only
  split <;> simp

@[simp] theorem tripPairs_rst (mask cause : Nat) (l : Live) : (tripPairs mask cause l).rst = l.rst := by
  unfold tripPairs
  refine forAll_rst (fun u m => ?_) _ l
  split
  · exact tripPair_rst cause u m
  · rfl

@[simp] theorem disarm_rst (cause : Nat) (l : Live) : (disarm cause l).rst = l.rst := by
  unfold disarm
  extract_lets w st w1 w2 noted idle tripped recorded
  have kept : recorded.rst = l.rst := by simp [recorded, tripped, idle, noted, forAll_rst]
  split
  · rfl
  · split <;> simp [kept]

@[simp] theorem pairsIdle_rst (l : Live) : (pairsIdle l).rst = l.rst := by
  simp [pairsIdle, forAll_rst]

@[simp] theorem pwmBlockReset_rst (l : Live) : (pwmBlockReset l).rst = l.rst := by
  simp [pwmBlockReset]

@[simp] theorem leaveOperational_rst (l : Live) : (leaveOperational l).rst = l.rst := by
  unfold leaveOperational
  split <;> simp

@[simp] theorem loadShadows_rst (l : Live) : (loadShadows l).rst = l.rst := by
  simp [loadShadows, forAll_rst]

/-! ### Analogue inputs (R309, R318) -/

@[simp] theorem watchTrip_rst (l : Live) : (watchTrip l).rst = l.rst := by
  unfold watchTrip
  split <;> rfl

@[simp] theorem latchLimit_rst (a at_ : Nat) (l : Live) : (latchLimit a at_ l).rst = l.rst := by
  simp [latchLimit]

@[simp] theorem uncheck_rst (a : Nat) (l : Live) : (uncheck a l).rst = l.rst := by
  unfold uncheck
  split
  · rfl
  · split <;> simp

@[simp] theorem noCheck_rst (l : Live) : (noCheck l).rst = l.rst := by
  simp [noCheck, forAll_rst]

@[simp] theorem analogReset_rst (l : Live) : (analogReset l).rst = l.rst := by
  simp [analogReset, stopPasses, forAll_rst]

/-! ### Trackers, feedback ports and pin engines -/

@[simp] theorem wheelReset_rst (w : Nat) (l : Live) : (wheelReset w l).rst = l.rst := by
  simp [wheelReset]

@[simp] theorem wheelState_rst (w : Nat) (new : WheelState) (code : Nat) (l : Live) : (wheelState w new code l).rst = l.rst := by
  simp [wheelState]

@[simp] theorem wheelStructural_rst (w : Nat) (l : Live) : (wheelStructural w l).rst = l.rst := by
  unfold wheelStructural
  dsimp only
  split <;> simp

@[simp] theorem portReset_rst (n : Nat) (l : Live) : (portReset n l).rst = l.rst := rfl

@[simp] theorem setPosition_rst (n : Nat) (v : BitVec 48) (l : Live) : (setPosition n v l).rst = l.rst := rfl

@[simp] theorem portStart_rst (n : Nat) (l : Live) : (portStart n l).rst = l.rst := by
  simp [portStart, apply_ite Live.rst]

@[simp] theorem peReset_rst (wipe : Bool) (e : Nat) (l : Live) : (peReset wipe e l).rst = l.rst := rfl

@[simp] theorem peStart_rst (e : Nat) (l : Live) : (peStart e l).rst = l.rst := rfl

@[simp] theorem peRelease_rst (e : Nat) (l : Live) : (peRelease e l).rst = l.rst := by
  unfold peRelease
  dsimp only
  split <;> rfl

/-! ### Channels and clusters (R121, R170–R175) -/

@[simp] theorem dropRoutine_rst (c : Nat) (l : Live) : (dropRoutine c l).rst = l.rst := rfl

@[simp] theorem forgetTurn_rst (c : Nat) (l : Live) : (forgetTurn c l).rst = l.rst := rfl

@[simp] theorem raiseReq_rst (c : Nat) (mask : Byte) (l : Live) : (raiseReq c mask l).rst = l.rst := rfl

@[simp] theorem startNow_rst (c : Nat) (l : Live) : (startNow c l).rst = l.rst := by
  unfold startNow
  dsimp only
  split <;> simp

@[simp] theorem startChannel_rst (sets : Bool) (c : Nat) (l : Live) : (startChannel sets c l).rst = l.rst := by
  unfold startChannel
  split <;> simp

@[simp] theorem enableChannel_rst (c : Nat) (l : Live) : (enableChannel c l).rst = l.rst := by
  simp [enableChannel]

@[simp] theorem stopChannel_rst (c : Nat) (l : Live) : (stopChannel c l).rst = l.rst := by
  unfold stopChannel
  dsimp only
  split
  · split <;> simp
  · simp

@[simp] theorem enableCommit_rst (c : Nat) (l : Live) : (enableCommit c l).rst = l.rst := by
  simp [enableCommit, apply_ite Live.rst]

@[simp] theorem modeCommit_rst (c : Nat) (l : Live) : (modeCommit c l).rst = l.rst := rfl

@[simp] theorem inputCommit_rst (c : Nat) (l : Live) : (inputCommit c l).rst = l.rst := rfl

@[simp] theorem restartChannel_rst (c : Nat) (l : Live) : (restartChannel c l).rst = l.rst := by
  simp [restartChannel]

@[simp] theorem restartCluster_rst (k : Nat) (l : Live) : (restartCluster k l).rst = l.rst := by
  simp [restartCluster, apply_ite Live.rst, forAll_rst]

@[simp] theorem clusterReset_rst (k : Nat) (l : Live) : (clusterReset k l).rst = l.rst := by
  simp [clusterReset, forAll_rst]

/-! ### Interrupts, the host port and the start of DMA -/

@[simp] theorem dropClaim_rst (g : Nat) (l : Live) : (dropClaim g l).rst = l.rst := by
  unfold dropClaim
  dsimp only
  split
  · split <;> rfl
  · split <;> rfl
  · rfl

@[simp] theorem hostReset_rst (l : Live) : (hostReset l).rst = l.rst := by
  simp [hostReset, forAll_rst]

@[simp] theorem dmaAutostart_rst (l : Live) : (dmaAutostart l).rst = l.rst := by
  unfold dmaAutostart
  refine forAll_rst (fun c m => ?_) _ l
  split <;> rfl

/-- A block that starts again takes its configuration and leaves the reset unit (R456). -/
@[simp] theorem blockStart_rst (code : Nat) (l : Live) : (blockStart code l).rst = l.rst := by
  simp [blockStart, apply_ite Live.rst]

/-! ### COMM reach (R396–R399, R446) -/

@[simp] theorem commReset_rst (l : Live) : (commReset l).rst = l.rst := by
  simp [commReset]

@[simp] theorem startFlush_rst (l : Live) : (startFlush l).rst = l.rst := by
  unfold startFlush loseWaiting
  dsimp only
  split
  · rw [lose_only]
  · rfl

@[simp] theorem wipeEvents_rst (l : Live) : (wipeEvents l).rst = l.rst := rfl

@[simp] theorem freshCycles_rst (l : Live) : (freshCycles l).rst = l.rst := by
  simp [freshCycles, forAll_rst]

end Sys2Proof.Machine

/-! The reset generation and the mark that the running reset has advanced it: what a DMA burst cut short by a reset can change of the
reset unit is not these (R24, R356, R358). -/

namespace Sys2Proof.Machine

open Sys2Proof

/-- The reset generation, and whether the running reset has advanced it (R449). -/
def ResetUnit.generation (r : ResetUnit) : BitVec 16 × Bool := (r.gen, r.genDone)

/-- A loop keeps the generation where every pass of it does. -/
theorem forAll_generation {α : Type} {f : α → Live → Live} (h : ∀ x l, (f x l).rst.generation = l.rst.generation) (xs : List α)
    (l : Live) : (forAll f xs l).rst.generation = l.rst.generation :=
  forAll_keeps (fun l => l.rst.generation) h xs l

/-! ### Memory errors (R24, R439) -/

theorem reportMemory_generation (src offset : Nat) (l : Live) :
    (reportMemory src offset l).rst.generation = l.rst.generation := by
  simp only [reportMemory, reportFault_keeps]
  rfl

theorem doubleBit_generation (a : Nat) (l : Live) : (doubleBit a l).rst.generation = l.rst.generation := by
  unfold doubleBit
  split
  · exact reportMemory_generation _ _ l
  · rfl

theorem singleBit_generation (a : Nat) (l : Live) : (singleBit a l).rst.generation = l.rst.generation := by
  unfold singleBit
  split <;> rfl

theorem readErrors_generation (es : EccWords) (a n : Nat) (l : Live) :
    (readErrors es a n l).rst.generation = l.rst.generation := by
  unfold readErrors
  refine forAll_generation (fun e m => ?_) _ l
  split
  · exact doubleBit_generation _ m
  · exact singleBit_generation _ m

/-! ### What a fabric read can do -/

@[simp] theorem drawFree_rst (l : Live) : (drawFree l).2.rst = l.rst := rfl

@[simp] theorem popAdcEntry_rst (k : Nat) (l : Live) : (popAdcEntry k l).2.rst = l.rst := by
  unfold popAdcEntry
  dsimp only
  split
  · simp
  · simp [fifoReport]

@[simp] theorem popAdcBeat_rst (k : Nat) (l : Live) : (popAdcBeat k l).2.rst = l.rst := by
  simp [popAdcBeat]

@[simp] theorem rxdRead_rst (e : Nat) (l : Live) : (rxdRead e l).2.rst = l.rst := by
  unfold rxdRead
  dsimp only
  split <;> rfl

@[simp] theorem peReadReg_rst (e r : Nat) (whole : Bool) (l : Live) : (peReadReg e r whole l).2.rst = l.rst := by
  unfold peReadReg
  split
  · split <;> simp
  · rfl
  · rfl

@[simp] theorem peReadRegs_rst (o n : Nat) : ∀ (f i : Nat) (l : Live), (peReadRegs o n f i l).2.rst = l.rst
  | 0, _, _ => rfl
  | f + 1, i, l => by
    simp only [peReadRegs, peReadRegs_rst o n f]
    split <;> simp

@[simp] theorem peReadAt_rst (o n : Nat) (l : Live) : (peReadAt o n l).2.rst = l.rst := peReadRegs_rst _ _ _ _ l

theorem periRead_rst {a : Nat} {w : Word} {l m : Live} (h : periRead a l = some (w, m)) : m.rst = l.rst := by
  simp only [periRead] at h
  split at h
  · obtain ⟨-, read⟩ := Option.ite_none_right_eq_some.mp h
    have kept := popAdcBeat_rst ((a - 0x00850000) / 64) l
    rwa [Option.some.inj read] at kept
  · split at h
    · obtain ⟨-, read⟩ := Option.ite_none_right_eq_some.mp h
      rw [← (Prod.mk.inj (Option.some.inj read)).2]
    · simp only [Option.ite_none_right_eq_some, Option.some.injEq, Prod.mk.injEq] at h
      obtain ⟨-, -, -, read⟩ := h
      rw [← read, peReadAt_rst]

theorem fabricRead_rst {a : Nat} {w : Word} {l m : Live} (h : fabricRead a l = some (w, m)) : m.rst = l.rst := by
  unfold fabricRead at h
  split at h
  · rw [← (Prod.mk.inj (Option.some.inj h)).2]
  · split at h
    · have kept := drawFree_rst l
      rwa [Option.some.inj h] at kept
    · split at h
      · rw [← (Prod.mk.inj (Option.some.inj h)).2]
      · exact periRead_rst h

theorem beatRead_generation (es : EccWords) (a : Nat) (l : Live) : (beatRead es a l).2.rst.generation = l.rst.generation := by
  unfold beatRead
  split
  · exact readErrors_generation es a 8 l
  · split
    · rename_i w m h
      rw [readErrors_generation, fabricRead_rst h]
    · rfl

/-! ### What a fabric write can do -/

@[simp] theorem pwmRecord_rst (u code payload : Nat) (l : Live) : (pwmRecord u code payload l).rst = l.rst := by
  simp [pwmRecord, apply_ite Live.rst]

@[simp] theorem streamBeat_rst (u : Nat) (beat : Word) (l : Live) : (streamBeat u beat l).rst = l.rst := by
  simp [streamBeat, apply_ite Live.rst]

@[simp] theorem peNote_rst (e bit : Nat) (l : Live) : (peNote e bit l).rst = l.rst := rfl

@[simp] theorem peRecord_rst (e code element detail : Nat) (l : Live) : (peRecord e code element detail l).rst = l.rst := by
  simp [peRecord, apply_ite Live.rst]

@[simp] theorem txdWrite_rst (e : Nat) (w : BitVec 32) (l : Live) : (txdWrite e w l).rst = l.rst := by
  simp [txdWrite, apply_ite Live.rst]

@[simp] theorem peW1c_rst (e w : Nat) (l : Live) : (peW1c e w l).rst = l.rst := by
  unfold peW1c
  dsimp only
  split <;> rfl

@[simp] theorem peSetFlags_rst (e : Nat) (m : Byte) (l : Live) : (peSetFlags e m l).rst = l.rst := by
  unfold peSetFlags
  split <;> rfl

@[simp] theorem peClearFlags_rst (e : Nat) (m : Byte) (l : Live) : (peClearFlags e m l).rst = l.rst := by
  unfold peClearFlags
  split <;> rfl

@[simp] theorem peFlush_rst (e : Nat) (l : Live) : (peFlush e l).rst = l.rst := by
  unfold peFlush
  split <;> rfl

@[simp] theorem peForceSwap_rst (e : Nat) (l : Live) : (peForceSwap e l).rst = l.rst := by
  unfold peForceSwap
  dsimp only
  split <;> simp

@[simp] theorem peCtl_rst (e v : Nat) (l : Live) : (peCtl e v l).rst = l.rst := by
  simp [peCtl, apply_ite Live.rst]

@[simp] theorem peWriteReg_rst (e r v : Nat) (l : Live) : (peWriteReg e r v l).rst = l.rst := by
  unfold peWriteReg
  split
  · rfl
  · split <;> simp

@[simp] theorem peWriteAt_rst (o : Nat) (b : List Byte) (l : Live) : (peWriteAt o b l).rst = l.rst := by
  simp [peWriteAt, forAll_rst]

theorem periWrite_rst {a : Nat} {w : Word} {l m : Live} (h : periWrite a w l = some m) : m.rst = l.rst := by
  unfold periWrite at h
  dsimp only at h
  split at h
  · split at h
    · cases h
      simp
    · cases h
  · split at h
    · split at h
      · cases h
        simp
      · cases h
    · split at h
      · cases h
        rfl
      · cases h

theorem fabricWrite_rst {a : Nat} {w : Word} {l m : Live} (h : fabricWrite a w l = some m) : m.rst = l.rst := by
  unfold fabricWrite at h
  split at h
  · cases h
    rfl
  · exact periWrite_rst h

/-! ### Beats and bursts (R348–R356) -/

theorem dmaBeat_generation (es : EccWords) (c : Nat) (l : Live) : (dmaBeat es c l).2.rst.generation = l.rst.generation := by
  unfold dmaBeat
  extract_lets x ok
  have moved (m : Live) : (ok m).2.rst = m.rst := rfl
  have source := beatRead_generation es x.src l
  clear_value ok
  split
  · split
    · rename_i m h
      rwa [h] at source
    · rename_i w m h
      rw [h] at source
      split
      · exact source
      · rename_i n written
        rw [moved, fabricWrite_rst written, source]
  · split
    · rfl
    · rename_i n written
      rw [moved, fabricWrite_rst written]
  · split
    · rename_i m h
      rwa [h] at source
    · rename_i a m h
      rw [h] at source
      have target := beatRead_generation es x.dst m
      split
      · rename_i n k
        rw [k] at target
        exact target.trans source
      · rename_i b n k
        rw [k] at target
        split
        · rw [moved, target, source]
        · exact target.trans source

theorem dmaBeats_generation (c n : Nat) (es : EccWords) (l : Live) :
    (dmaBeats c n es l).2.rst.generation = l.rst.generation := by
  induction n generalizing es l with
  | zero => rfl
  | succ n ih =>
    have beat := dmaBeat_generation es c l
    unfold dmaBeats
    split
    · rename_i m h
      rw [ih, ← beat, h]
    · exact beat

theorem dmaCutBurst_generation (c : Nat) (l : Live) : (dmaCutBurst c l).rst.generation = l.rst.generation := by
  unfold dmaCutBurst
  split
  · rfl
  · rw [dmaBeats_generation, drawFree_rst]

/-- A reset of the DMA unit cuts the bursts in flight: their beats may report memory errors, and keep the generation. -/
theorem dmaReset_generation (l : Live) : (dmaReset l).rst.generation = l.rst.generation := by
  unfold dmaReset
  refine forAll_generation (fun c m => ?_) _ _
  simp only [setDc_keeps, dmaCutBurst_generation]

end Sys2Proof.Machine

/-! Resets and the generation (R442–R449): a source that asserts opens a reset or joins the one that runs, the release of CORE advances
the generation once, and COMM and BLOCK resets leave it unchanged. -/

namespace Sys2Proof.Machine

open Sys2Proof

/-! ### BLOCK resets (R456) -/

theorem blockEffect_generation (code : Nat) (l : Live) : (blockEffect code l).rst.generation = l.rst.generation := by
  simp [blockEffect, apply_ite Live.rst, apply_ite ResetUnit.generation, dmaReset_generation]

theorem blockRecord_generation (src code : Nat) (l : Live) : (blockRecord src code l).rst.generation = l.rst.generation := by
  simp only [blockRecord, writeRecord_keeps]
  rfl

theorem assertBlock_generation (code : Nat) (l : Live) : (assertBlock code l).rst.generation = l.rst.generation := by
  unfold assertBlock
  split
  · rename_i src _
    split
    · rfl
    · rw [← blockEffect_generation code l, ← blockRecord_generation src code (blockEffect code l)]
      rfl
  · rfl

theorem releaseBlock_generation (code : Nat) (l : Live) : (releaseBlock code l).rst.generation = l.rst.generation := by
  unfold releaseBlock
  split
  · rfl
  · simp only [blockStart_rst]
    rfl

theorem pulseBlock_generation (code : Nat) (l : Live) : (pulseBlock code l).rst.generation = l.rst.generation := by
  unfold pulseBlock
  split
  · rfl
  · exact assertBlock_generation code l

theorem pulseEnd_generation (code : Nat) (l : Live) : (pulseEnd code l).rst.generation = l.rst.generation := by
  unfold pulseEnd
  split
  · exact releaseBlock_generation code l
  · rfl

/-- Every action of the block-reset object keeps the generation, the host port's pulse with it. -/
theorem blockObject_generation (v : Nat) (l : Live) : (blockObject v l).1.rst.generation = l.rst.generation := by
  unfold blockObject
  dsimp only
  split
  · rfl
  · split
    · split <;> rfl
    · split
      · exact assertBlock_generation _ l
      · split
        · exact releaseBlock_generation _ l
        · exact pulseBlock_generation _ l

theorem onObject_generation (c : Conn) (idx sub : Nat) {f : Live → Live × Nat}
    (h : ∀ l, (f l).1.rst.generation = l.rst.generation) (l : Live) :
    (onObject c idx sub f l).rst.generation = l.rst.generation := by
  unfold onObject
  split
  · rfl
  · dsimp only
    split
    · simp
    · simp only [reply_keeps, h, touch_keeps]

/-! ### The state that a reset leaves (R444–R446) -/

theorem coldLive_generation (total : Bool) (l : Live) : (coldLive total l).rst.generation = l.rst.generation := by
  cases total <;> rfl

theorem warmUnits_generation (l : Live) : (warmUnits l).rst.generation = l.rst.generation := by
  simp [warmUnits, dmaReset_generation, forAll_rst (peReset_rst true), forAll_rst wheelReset_rst, forAll_rst portReset_rst]

theorem warmRst_generation (r : ResetUnit) : (warmRst r).generation = r.generation := rfl

theorem warmLive_generation (l : Live) : (warmLive l).rst.generation = l.rst.generation := by
  simp [warmLive, warmRst_generation, warmUnits_generation]

theorem holdDomains_generation (ds : List Domain) (l : Live) : (holdDomains ds l).rst.generation = l.rst.generation := rfl

/-! ### Assertion of a source (R449, R450) -/

/-- The first source of a reset opens it with the mark cleared; a further one leaves the mark; neither advances the generation. -/
theorem noteSource_generation (src : Nat) (l : Live) :
    (noteSource src l).rst.generation = (l.rst.gen, if l.rst.sources = 0 then false else l.rst.genDone) := by
  by_cases fresh : l.rst.sources = 0
  · simp only [noteSource, if_pos fresh, ResetUnit.generation]
  · simp only [noteSource, if_neg fresh, ResetUnit.generation]

theorem assertSource_asserted {src : Nat} {l : Live} (h : l.rst.asserted.getLsbD src = true) : assertSource src l = l := by
  simp [assertSource, h]

/-- Whatever its reach, a source that asserts does to the generation what its record does. -/
theorem assertSource_generation {src : Nat} {l : Live} (h : l.rst.asserted.getLsbD src = false) :
    (assertSource src l).rst.generation = (l.rst.gen, if l.rst.sources = 0 then false else l.rst.genDone) := by
  rw [← noteSource_generation src l]
  unfold assertSource
  rw [if_neg (by simp [h])]
  dsimp only
  split
  · exact coldLive_generation _ _
  · split
    · rfl
    · rw [holdDomains_generation]
      split
      · exact warmLive_generation _
      · rw [commReset_rst]

/-- A source that asserts opens a reset or joins the one that runs (R449). -/
def OpensOrJoins (r t : ResetUnit) : Prop :=
  t.gen = r.gen ∧ (r.sources = 0 → t.genDone = false) ∧ (r.sources ≠ 0 → t.genDone = r.genDone)

theorem assertSource_opensOrJoins {src : Nat} {l : Live} (h : l.rst.asserted.getLsbD src = false) :
    OpensOrJoins l.rst (assertSource src l).rst := by
  obtain ⟨gen, mark⟩ := Prod.mk.inj (assertSource_generation h)
  exact ⟨gen, fun fresh => by rw [mark, if_pos fresh], fun joins => by rw [mark, if_neg joins]⟩

theorem assertSource_gen (src : Nat) (l : Live) : (assertSource src l).rst.gen = l.rst.gen := by
  by_cases h : l.rst.asserted.getLsbD src = true
  · rw [assertSource_asserted h]
  · exact (assertSource_opensOrJoins (eq_false_of_ne_true h)).1

theorem nmtResetComm_gen (src : NmtSource) (l : Live) : (nmtResetComm src l).rst.gen = l.rst.gen := by
  unfold nmtResetComm nmtRecord
  split
  · simp only [writeRecord_keeps]
    exact assertSource_gen 13 l
  · rfl

/-! ### Release of CORE (R447, R449) -/

/-- The generation advances where the running reset has not advanced it yet. -/
theorem advanceReset_generation (l : Live) :
    (advanceReset l).rst.generation = (if l.rst.genDone then l.rst.gen else l.rst.gen + 1, true) := by
  unfold advanceReset
  by_cases advanced : l.rst.genDone = true <;> simp [advanced, ResetUnit.generation]

theorem dueEmcy_generation (code src payload : Nat) (l : Live) : (dueEmcy code src payload l).rst.generation = l.rst.generation := by
  simp [dueEmcy, ResetUnit.generation]

theorem noteSources_generation (l : Live) : (noteSources l).rst.generation = l.rst.generation := by
  unfold noteSources
  extract_lets srcs pay unit uncommanded brownOuts
  have first : uncommanded.rst.generation = l.rst.generation := by
    unfold uncommanded
    split <;> rfl
  have rest : brownOuts.rst.generation = uncommanded.rst.generation :=
    forAll_generation (fun s m => by split <;> rfl) srcs uncommanded
  split <;> exact rest.trans first

theorem wipeMram_generation (l : Live) : (wipeMram l).rst.generation = l.rst.generation := by
  unfold wipeMram
  split
  · rfl
  · dsimp only
    split <;> rfl

@[simp] theorem readRecord_rst (l : Live) : (readRecord l).rst = l.rst := by
  simp [readRecord, forAll_rst]

@[simp] theorem scanJournal_rst (l : Live) : (scanJournal l).rst = l.rst := by
  simp [scanJournal, apply_ite Live.rst]

@[simp] theorem logStart_rst (reach : Nat) (l : Live) : (logStart reach l).rst = l.rst := rfl

theorem journalSource_rst (src : Nat) (l : Live) : (journalSource src l).rst = l.rst := by
  unfold journalSource
  split
  · rfl
  · dsimp only
    split
    · rw [journalAt_only]
    · rw [emcy_only, journalAt_only]

theorem recordSource_generation (src : Nat) (l : Live) : (recordSource src l).rst.generation = l.rst.generation := by
  unfold recordSource
  split
  · rfl
  · dsimp only
    rw [journalSource_rst, writeRecordAt_only]
    rfl

theorem recordSources_generation (l : Live) : (recordSources l).rst.generation = l.rst.generation :=
  forAll_generation recordSource_generation _ l

theorem reportMissing_generation (k : Nat) (l : Live) : (reportMissing k l).rst.generation = l.rst.generation := by
  simp [reportMissing, dueEmcy_generation]

@[simp] theorem loadStore_rst (copy : Byte) (k : Nat) (l : Live) : (loadStore copy k l).rst = l.rst := rfl

theorem loadMicrocode_generation (l : Live) : (loadMicrocode l).rst.generation = l.rst.generation := by
  simp [loadMicrocode, apply_ite Live.rst, apply_ite ResetUnit.generation, forAll_generation reportMissing_generation,
    forAll_rst (loadStore_rst _)]

theorem postAborts_rst (n : Nat) (l : Live) : (postAborts n l).rst = l.rst := by
  induction n generalizing l with
  | zero => rfl
  | succ n ih =>
    unfold postAborts
    split
    · rfl
    · split
      · simp [ih, post, noteMail, updMail]
      · rfl

@[simp] theorem discardRequests_rst (l : Live) : (discardRequests l).rst = l.rst := rfl

/-- The fields of the reset unit that the release of CORE writes itself are not the generation's. -/
theorem generation_selfTestDue (r : ResetUnit) (due : Bool) : { r with selfTestDue := due }.generation = r.generation := rfl

theorem generation_watchdog (r : ResetUnit) (last : Nat) (first : Bool) (stop : Option Nat) :
    { r with wdLast := last, wdFirst := first, supEnd := stop }.generation = r.generation := rfl

/-- Nothing of the start-up at the release of CORE but its first step touches the generation. -/
theorem coreRelease_generation (l : Live) : (coreRelease l).rst.generation = (advanceReset l).rst.generation := by
  simp only [coreRelease, postAborts_rst, discardRequests_rst, generation_selfTestDue, loadMicrocode_generation,
    recordSources_generation, apply_ite Live.rst, logStart_rst, scanJournal_rst, readRecord_rst, ite_self, wipeMram_generation,
    generation_watchdog, noteSources_generation]

theorem domainRelease_core_generation {l : Live} (h : mayRelease .core l = true) :
    (domainRelease .core l).rst.generation = (if l.rst.genDone then l.rst.gen else l.rst.gen + 1, true) := by
  unfold domainRelease
  rw [if_pos h, onRelease, coreRelease_generation, advanceReset_generation]

/-! ### The commands -/

/-- The reset unit after a command that runs an effect is the effect's. -/
theorem ran_rst {f : Live → Live} {s t : State} (h : ran f s = .next t) : t.live.rst = (f s.live).rst := by
  cases h
  simp

theorem completes_ran {c : Instr} {f : Live → Live} {s : State} {P : State → Prop} (run : exec c s = ran f s)
    (h : ∀ t : State, t.live.rst = (f s.live).rst → P t) : Completes c s P :=
  ⟨s.apply f, run, h _ (ran_rst rfl)⟩

/-- The release of CORE advances the generation once per reset. -/
theorem completes_coreRelease {s : State} (may : mayRelease .core s.live = true) : Completes (.domainRelease .core) s fun t =>
    t.live.rst.gen = (if s.live.rst.genDone then s.live.rst.gen else s.live.rst.gen + 1) ∧ t.live.rst.genDone = true :=
  completes_ran (f := domainRelease .core) rfl fun t h => by
    rw [h]
    exact Prod.mk.inj (domainRelease_core_generation may)

/-- Settles O48: by `completes_coreRelease` at the release of CORE, `assertSource_opensOrJoins` at a source's assertion, and the
laws of COMM and BLOCK resets. -/
theorem generationAdvances : Obligations.GenerationAdvances := by
  refine ⟨fun s may => ⟨fun due => ?_, fun advanced => ?_⟩, fun s low => ?_, fun s low => ?_, fun src l _ h => ?_,
    fun s t src run => ?_, fun s t conn code c listed run => ?_⟩
  · simpa [due] using completes_coreRelease may
  · simpa [advanced] using completes_coreRelease may
  · refine completes_ran (f := warmN true) rfl fun t h => ?_
    rw [h]
    exact assertSource_opensOrJoins (src := 8) (l := { s.live with rst := { s.live.rst with warmLow := true } }) low
  · refine completes_ran (f := resetN true) rfl fun t h => ?_
    rw [h]
    exact assertSource_opensOrJoins (src := 4) (l := { s.live with rst := { s.live.rst with resetLow := true } }) low
  · exact assertSource_opensOrJoins h
  · rw [ran_rst (f := nmtResetComm src) run]
    exact nmtResetComm_gen src s.live
  · have kept {f : Live → Live} (effect : ∀ l, (f l).rst.generation = l.rst.generation) (h : ran f s = .next t) :
        t.live.rst.gen = s.live.rst.gen := by
      rw [ran_rst h]
      exact (Prod.mk.inj (effect s.live)).1
    have object (v : Nat) := onObject_generation conn 0x5E40 2 (blockObject_generation v)
    simp only [List.mem_cons, List.not_mem_nil, or_false] at listed
    obtain rfl | rfl | rfl | rfl := listed
    · exact kept (object _) run
    · exact kept (object _) run
    · exact kept (object _) run
    · exact kept (pulseEnd_generation code.toNat) run

end Sys2Proof.Machine

/-! The whole machine: what the answer of a command can be, the coherence of the banks and the service of requests that every answer
keeps (R64–R72), the state at reset, and the form of a summary (R438). -/

namespace Sys2Proof.Machine

open Sys2Proof

/-! ### The banks under `State.apply` (R64–R72) -/

theorem noBank_coherent (b : Bank) (h : none = some b) : b.Coherent := (Option.some_ne_none b h.symm).elim

theorem noHold_coherent (b : Bank) (t : Nat) (h : none = some (b, t)) : b.Coherent := (Option.some_ne_none (b, t) h.symm).elim

/-- Coherence says nothing of the live device. -/
theorem State.BanksCoherent.withLive {s : State} (h : s.BanksCoherent) (l : Live) : { s with live := l }.BanksCoherent := h

theorem wipeBanks_coherent {s : State} (h : s.BanksCoherent) : (wipeBanks s).BanksCoherent := by
  unfold wipeBanks
  split
  · exact ⟨noBank_coherent, noBank_coherent, noHold_coherent⟩
  · exact h

/-- A hold takes the published bank. -/
theorem settleHold_coherent {s : State} (h : s.BanksCoherent) : (settleHold s).BanksCoherent := by
  obtain ⟨published, filling, held⟩ := h
  unfold settleHold
  dsimp only
  split
  · rename_i b _ shown
    refine ⟨published, filling, fun c t e => ?_⟩
    rw [← (Prod.mk.inj (Option.some.inj e)).1]
    exact published b shown
  · exact ⟨published, filling, noHold_coherent⟩
  · exact ⟨published, filling, held⟩
  · exact ⟨published, filling, held⟩

/-- The snapshot taken shows its own number and freeze instant, whatever it freezes (R66, R68). -/
theorem takeSnap_coherent (pre : Live) {s : State} (h : s.BanksCoherent) : (takeSnap pre s).BanksCoherent := by
  obtain ⟨published, -, held⟩ := h
  refine ⟨published, fun b e => ?_, held⟩
  rw [← Option.some.inj e]
  exact ⟨rfl, rfl⟩

theorem settleSnap_coherent (pre : Live) {s : State} (h : s.BanksCoherent) : (settleSnap pre s).BanksCoherent := by
  unfold settleSnap
  split
  · exact h
  · split
    · exact h
    · split
      · exact h
      · exact takeSnap_coherent pre h

theorem apply_coherent (f : Live → Live) {s : State} (h : s.BanksCoherent) : (s.apply f).BanksCoherent :=
  settleSnap_coherent _ (settleHold_coherent (wipeBanks_coherent (h.withLive _)))

@[simp] theorem snapFlags_served (m : Nat) (l : Live) :
    (snapFlags m l).snap.want = l.snap.want ∧ (snapFlags m l).snap.hold = l.snap.hold ∧ (snapFlags m l).snap.wipe = l.snap.wipe :=
  ⟨rfl, rfl, rfl⟩

theorem seqWrap_served (l : Live) : (seqWrap l).snap.hold = l.snap.hold ∧ (seqWrap l).snap.wipe = l.snap.wipe := by
  unfold seqWrap
  split <;> simp

theorem wipeBanks_wipe (s : State) : (wipeBanks s).live.snap.wipe = false := by
  unfold wipeBanks
  split
  · rfl
  · rename_i h
    simpa using h

theorem settleHold_served (s : State) :
    (settleHold s).live.snap.hold = none ∧ (settleHold s).live.snap.wipe = s.live.snap.wipe := by
  unfold settleHold
  dsimp only
  split
  · exact ⟨rfl, rfl⟩
  · exact ⟨rfl, rfl⟩
  · exact ⟨rfl, rfl⟩
  · rename_i none
    exact ⟨none, rfl⟩

theorem takeSnap_settled (pre : Live) {s : State} (hold : s.live.snap.hold = none) (wipe : s.live.snap.wipe = false) :
    (takeSnap pre s).Settled := by
  obtain ⟨kept_hold, kept_wipe⟩ := seqWrap_served s.live
  exact ⟨rfl, kept_hold.trans hold, kept_wipe.trans wipe⟩

theorem settleSnap_settled (pre : Live) {s : State} (hold : s.live.snap.hold = none) (wipe : s.live.snap.wipe = false) :
    (settleSnap pre s).Settled := by
  unfold settleSnap
  split
  · rename_i idle
    exact ⟨by simpa using idle, hold, wipe⟩
  · split
    · exact ⟨rfl, hold, wipe⟩
    · split
      · exact ⟨rfl, hold, wipe⟩
      · exact takeSnap_settled pre hold wipe

/-- Applying an effect serves every request of the effect, whatever the effect. -/
theorem apply_settled (f : Live → Live) (s : State) : (s.apply f).Settled := by
  obtain ⟨hold, wipe⟩ := settleHold_served (wipeBanks { s with live := settle s.live (f s.live) })
  exact settleSnap_settled _ hold (wipe.trans (wipeBanks_wipe _))

/-! ### What a command can answer -/

/-- What a command's answer can be: the state with an effect applied; that state with the filled bank published; or, at the start-up
commit, the state with two effects applied, between which a TCLK starts. -/
inductive Answers (s : State) : State → Prop
  | applied (f : Live → Live) : Answers s (s.apply f)
  | copied (f : Live → Live) (b : Bank) (filled : s.filling = some b) : Answers s { s.apply f with published := some b, filling := none }
  | committed (f g : Live → Live) : Answers s ((beginTclk (s.apply f)).apply g)
  | unchanged : Answers s s

theorem copyDone_answers (s : State) : Answers s (copyDone s) := by
  unfold copyDone
  split
  · rename_i b filled
    split
    · exact .copied _ b filled
    · exact .unchanged
  · exact .unchanged

theorem holdExpired_answers (s : State) : Answers s (holdExpired s) := by
  unfold holdExpired
  split
  · split
    · exact .applied _
    · exact .unchanged
  · exact .unchanged

theorem withBank_answers {f : Bank → Live → Live} {s t : State} (h : withBank f s = .next t) : Answers s t := by
  unfold withBank at h
  split at h <;> cases h <;> exact .applied _

theorem startUpCommit_answers {s t : State} (h : execStartUpCommit s = .next t) : Answers s t := by
  unfold execStartUpCommit at h
  split at h
  · cases h
    exact .committed _ _
  · cases h
    exact .applied _

/-- Every command but those of the banks runs one effect. -/
theorem exec_answers {c : Instr} {s t : State} (h : exec c s = .next t) : Answers s t := by
  cases c
  case snapshotCopyDone => cases h; exact copyDone_answers s
  case holdExpired => cases h; exact holdExpired_answers s
  case rpdoReceived b p data =>
    change (if wfFrame data then _ else _) = _ at h
    split at h
    · cases h; exact .applied _
    · cases h
  case tpdoEventTimer p => exact withBank_answers h
  case tpdoInhibitEnd p => exact withBank_answers h
  case startUpCommit => exact startUpCommit_answers h
  all_goals
    cases h
    exact .applied _

theorem Answers.coherent {s t : State} (a : Answers s t) (h : s.BanksCoherent) : t.BanksCoherent := by
  cases a with
  | applied f => exact apply_coherent f h
  | copied f b filled =>
    obtain ⟨-, -, held⟩ := apply_coherent f h
    refine ⟨fun c e => ?_, noBank_coherent, held⟩
    rw [← Option.some.inj e]
    exact h.2.1 b filled
  | committed f g => exact apply_coherent g (apply_coherent f h)
  | unchanged => exact h

theorem Answers.settled {s t : State} (a : Answers s t) (h : s.Settled) : t.Settled := by
  cases a with
  | applied f => exact apply_settled f s
  | copied f b filled => exact apply_settled f s
  | committed f g => exact apply_settled g _
  | unchanged => exact h

theorem Answers.pending {s t : State} (a : Answers s t) : t.pending = s.pending := by
  cases a with
  | applied f => exact apply_pending f s
  | copied f b filled => exact apply_pending f s
  | committed f g => exact (apply_pending g _).trans (apply_pending f s)
  | unchanged => rfl

theorem takeDeferred_coherent {s : State} (h : s.BanksCoherent) : (takeDeferred s).BanksCoherent := by
  unfold takeDeferred
  split
  · exact takeSnap_coherent s.start (h.withLive _)
  · exact h

theorem tick_coherent {s : State} (h : s.BanksCoherent) : (tick s).BanksCoherent := by
  unfold tick
  split
  · exact apply_coherent openTclk (takeDeferred_coherent (s := beginTclk _) (apply_coherent (fun l => advance (closeTclk l)) h))
  · exact h

theorem tick_settled {s : State} (h : s.Settled) : (tick s).Settled := by
  unfold tick
  split
  · exact apply_settled openTclk _
  · exact h

/-- Settles O52: the end of a TCLK by `tick_coherent`, a command by what its answer can be (`exec_answers`). -/
theorem banksStayCoherent : Obligations.BanksStayCoherent := by
  intro s t coherent settled run
  unfold step at run
  split at run
  · cases run
    exact ⟨tick_coherent coherent, tick_settled settled⟩
  · exact ⟨(exec_answers run).coherent coherent, (exec_answers run).settled settled⟩

/-- Settles O51: every answer of a command keeps the queue (`Answers.pending`). -/
theorem queueUntouched : Obligations.QueueUntouched := fun _ _ _ run => (exec_answers run).pending

/-- Settles O49: with the command at the front, the rest of the queue is the state's own. -/
theorem stepRunsFrontCommand : Obligations.StepRunsFrontCommand := fun _ _ => rfl

/-- Settles O53: every conjunct is a field of the state as delivered; no bank exists and no request waits. -/
theorem resetHolds : Obligations.ResetHolds :=
  ⟨rfl, rfl, rfl, rfl, rfl, rfl, rfl, rfl, rfl, rfl, fun _ => rfl, fun _ => show PairState.idle ≠ .running by decide, reset_memory_wf,
    ⟨noBank_coherent, noBank_coherent, noHold_coherent⟩, rfl, rfl, rfl⟩


/-! ### The form of a summary (R438) -/

@[simp] theorem bytesLE_length (n : Nat) : ∀ v, (bytesLE n v).length = n := by
  induction n with
  | zero => exact fun _ => rfl
  | succ n ih => exact fun v => by rw [bytesLE, List.length_cons, ih]

theorem ofBytesLE_bytesLE (n : Nat) : ∀ v, ofBytesLE (bytesLE n v) = v % 256 ^ n := by
  induction n with
  | zero => exact fun v => (Nat.mod_one v).symm
  | succ n ih =>
    intro v
    rw [bytesLE, ofBytesLE, ih, BitVec.toNat_ofNat, Nat.mod_mod, pow_succ', Nat.mod_mul]

@[simp] theorem each_length (n count : Nat) (f : Nat → Nat) : (each n count f).length = count * n := by
  simp [each, List.length_flatMap]

theorem summaryHead_length (seq dtime : Nat) (f : Live) : (summaryHead seq dtime f).length = 88 := by
  simp only [summaryHead, List.length_append, List.length_cons, List.length_nil, bytesLE_length, each_length]

theorem summaryUnits_length (f : Live) : (summaryUnits f).length = 168 := by
  simp only [summaryUnits, List.length_append, List.length_cons, List.length_nil, bytesLE_length, each_length, List.length_flatMap,
    List.map_const', List.sum_replicate, List.length_range, smul_eq_mul]

theorem summaryEngines_length (f : Live) : (summaryEngines f).length = 156 := by
  simp only [summaryEngines, List.length_append, List.length_cons, List.length_nil, bytesLE_length, each_length]

theorem summaryTail_length (f : Live) : (summaryTail f).length = 96 := by
  simp only [summaryTail, List.length_append, List.length_cons, List.length_nil, bytesLE_length, each_length]

@[simp] theorem withCrc_length (b : List Byte) : (withCrc b).length = b.length + 4 := by
  rw [withCrc, List.length_append, bytesLE_length]

/-- A word whose last bytes are another's: the field that they make up reads them. -/
theorem fieldLE_append (a b : List Byte) : fieldLE (a ++ b) a.length b.length = ofBytesLE b := by
  simp [fieldLE, slice]

/-- The last four bytes of a text closed by its CRC read as the CRC of the bytes before. -/
theorem withCrc_closes (b : List Byte) : fieldLE (withCrc b) b.length 4 = (crc32c ((withCrc b).take b.length)).toNat := by
  have crc := fieldLE_append b (bytesLE 4 (crc32c b).toNat)
  rw [bytesLE_length] at crc
  rw [withCrc, crc, ofBytesLE_bytesLE, List.take_left']
  · exact Nat.mod_eq_of_lt (crc32c b).isLt
  · rfl

/-- Settles O43: the four parts have 508 bytes, and `withCrc` closes them. -/
theorem summaryForm : Obligations.SummaryForm := by
  intro b
  have parts : (summaryHead b.seq.toNat b.dtime.toNat b.frozen ++ summaryUnits b.frozen ++ summaryEngines b.frozen
      ++ summaryTail b.frozen).length = 508 := by
    simp only [List.length_append, summaryHead_length, summaryUnits_length, summaryEngines_length, summaryTail_length]
  refine ⟨?_, ?_⟩
  · rw [summaryOf, withCrc_length, parts]
  · rw [← parts]
    exact withCrc_closes _

end Sys2Proof.Machine

/-! Readers that show all of the device but the parts that a group of operations may change: an operation of the group leaves the reader
alone, one equation per operation, and every part that the reader shows is kept with it. -/

namespace Sys2Proof.Machine

open Sys2Proof

/-! ### The reporting units without what a report changes -/

/-- A bus without the frames it sends or queues. -/
def Bus.silent (x : Bus) : Bus := { x with tx := [], emcyQueue := [], emcyInhibit := 0, emcyDropCnt := 0, status := clrBit x.status 6 }

/-- The network unit without its buses, its error list and register. -/
def NetUnit.silent (n : NetUnit) : NetUnit := { n with buses := [], errors := [], sticky := 0, errReg := 0 }

/-- The log without the records waiting and the losses. -/
def LogUnit.silent (g : LogUnit) : LogUnit :=
  { g with waiting := [], lost := 0, lossCnt := 0, status := clrBit g.status 0, episode := none, nextLoss := 0, counts := {} }

/-- The journal without its queue. -/
def JournalUnit.silent (j : JournalUnit) : JournalUnit := { j with queue := [], status := 0, lossCnt := 0 }

/-- The device without what records, EMCYs, journal entries and notes of flags change (R84, R360–R365, R407, R462). -/
def Live.silent (l : Live) : Live × (Nat → Bus) :=
  ({ l with log := l.log.silent, net := l.net.silent, journal := l.journal.silent, flagsNow := [] }, fun b => (l.bus b).silent)

theorem clrBit_congr {w n : Nat} {x y : BitVec w} (h : ∀ i, i ≠ n → y.getLsbD i = x.getLsbD i) : clrBit y n = clrBit x n := by
  refine BitVec.eq_of_getLsbD_eq fun i _ => ?_
  rw [clrBit_getLsbD, clrBit_getLsbD]
  by_cases e : i = n
  · simp [e]
  · rw [h i e]

theorem getLsbD_of_clrBit {w n : Nat} {x y : BitVec w} (h : clrBit y n = clrBit x n) {i : Nat} (e : i ≠ n) :
    y.getLsbD i = x.getLsbD i := by
  rw [← clrBit_other y e, h, clrBit_other x e]

theorem busReports_iff {x y : Bus} : BusReports x y ↔ y.silent = x.silent := by
  constructor
  · rintro ⟨same, bits⟩
    unfold Bus.silent
    rw [clrBit_congr bits, same]
  · intro h
    refine ⟨?_, fun i e => getLsbD_of_clrBit (congrArg Bus.status h) e⟩
    cases x
    cases y
    simp_all [Bus.silent]

theorem netReports_iff {n m : NetUnit} : NetReports n m ↔ m.silent = n.silent := by
  cases n
  cases m
  simp [NetReports, NetUnit.silent]

theorem logReports_iff {n m : LogUnit} : LogReports n m ∧ (∀ i, i ≠ 0 → m.status.getLsbD i = n.status.getLsbD i) ↔
    m.silent = n.silent := by
  constructor
  · rintro ⟨same, bits⟩
    unfold LogUnit.silent
    rw [clrBit_congr bits, same]
  · intro h
    refine ⟨?_, fun i e => getLsbD_of_clrBit (congrArg LogUnit.status h) e⟩
    cases n
    cases m
    simp_all [LogReports, LogUnit.silent]

theorem journalReports_iff {n m : JournalUnit} : JournalReports n m ↔ m.silent = n.silent := by
  cases n
  cases m
  simp [JournalReports, JournalUnit.silent]

/-- Reports leave the silent device alone. -/
theorem silent_of_reports {l m : Live} (h : OnlyReports l m) (k : PartReports l m) : m.silent = l.silent := by
  have net := netReports_iff.mp k.net
  have log := logReports_iff.mp ⟨k.log, k.logStatus⟩
  have journal := journalReports_iff.mp k.journal
  have buses : (fun b => (m.bus b).silent) = fun b => (l.bus b).silent := funext fun b => busReports_iff.mp (k.bus b)
  unfold Live.silent
  rw [buses, net, log, journal, h]

/-- Where the silent device is as before, the reporting units have done no more than report. -/
theorem partReports_of_silent {l m : Live} (h : m.silent = l.silent) : PartReports l m := by
  obtain ⟨live, buses⟩ := Prod.mk.inj h
  obtain ⟨log, bits⟩ := logReports_iff.mpr (congrArg Live.log live)
  exact ⟨netReports_iff.mpr (congrArg Live.net live), log, bits, journalReports_iff.mpr (congrArg Live.journal live),
    fun b => busReports_iff.mpr (congrFun buses b)⟩

/-! ### The device but for what a microengine changes -/

/-- What the microengines, their channels and pins and the disarm by a trap leave alone. -/
def Live.offEngines (l : Live) : Live × (Nat → Bus) :=
  ({ l with clusters := [], channels := [], tpins := [], events := {}, irq := {}, pairs := [], pwm := {}, freeIdx := 0 } : Live).silent

theorem offEngines_of_reports {l m : Live} (h : OnlyReports l m) (k : PartReports l m) : m.offEngines = l.offEngines := by
  refine silent_of_reports ?_ ⟨k.net, k.log, k.logStatus, k.journal, k.bus⟩
  unfold OnlyReports at h ⊢
  rw [h]

/-- A loop leaves them alone where every pass of it does. -/
theorem forAll_offEngines {α : Type} {f : α → Live → Live} (h : ∀ x l, (f x l).offEngines = l.offEngines) (xs : List α) (l : Live) :
    (forAll f xs l).offEngines = l.offEngines := forAll_keeps Live.offEngines h xs l

@[simp] theorem writeRecordAt_offEngines (dt src kind payload : Nat) (l : Live) :
    (writeRecordAt dt src kind payload l).offEngines = l.offEngines :=
  offEngines_of_reports (by unfold OnlyReports; rw [writeRecordAt_only]) (writeRecordAt_parts _ _ _ _ _)

@[simp] theorem writeRecord_offEngines (src kind payload : Nat) (l : Live) : (writeRecord src kind payload l).offEngines = l.offEngines :=
  writeRecordAt_offEngines _ _ _ _ _

@[simp] theorem emcy_offEngines (code src payload : Nat) (l : Live) : (emcy code src payload l).offEngines = l.offEngines :=
  offEngines_of_reports (emcy_reports _ _ _ _) (emcy_parts _ _ _ _)

@[simp] theorem journalEntry_offEngines (src kind payload code : Nat) (l : Live) :
    (journalEntry src kind payload code l).offEngines = l.offEngines :=
  offEngines_of_reports (journalEntry_only _ _ _ _ _) (journalEntry_parts _ _ _ _ _)

@[simp] theorem reportFault_offEngines (src kind payload code : Nat) (l : Live) :
    (reportFault src kind payload code l).offEngines = l.offEngines :=
  offEngines_of_reports (reportFault_only _ _ _ _ _) (reportFault_parts _ _ _ _ _)

@[simp] theorem reportJournal_offEngines (src kind payload : Nat) (l : Live) :
    (reportJournal src kind payload l).offEngines = l.offEngines :=
  offEngines_of_reports (reportJournal_only _ _ _ _) (reportJournal_parts _ _ _ _)

@[simp] theorem noteFlags_offEngines (k m : Nat) (l : Live) : (noteFlags k m l).offEngines = l.offEngines := (rfl)
@[simp] theorem noteBit_offEngines (idx sub b : Nat) (l : Live) : (noteBit idx sub b l).offEngines = l.offEngines := (rfl)
@[simp] theorem setChan_offEngines (l : Live) (i : Nat) (x : Channel) : (l.setChan i x).offEngines = l.offEngines := (rfl)
@[simp] theorem updChan_offEngines (l : Live) (i : Nat) (f : Channel → Channel) : (l.updChan i f).offEngines = l.offEngines := (rfl)
@[simp] theorem setTpin_offEngines (l : Live) (i : Nat) (x : TPin) : (l.setTpin i x).offEngines = l.offEngines := (rfl)
@[simp] theorem updTpin_offEngines (l : Live) (i : Nat) (f : TPin → TPin) : (l.updTpin i f).offEngines = l.offEngines := (rfl)
@[simp] theorem setCluster_offEngines (l : Live) (i : Nat) (x : Cluster) : (l.setCluster i x).offEngines = l.offEngines := (rfl)
@[simp] theorem updCluster_offEngines (l : Live) (i : Nat) (f : Cluster → Cluster) : (l.updCluster i f).offEngines = l.offEngines := (rfl)
@[simp] theorem setEntry_offEngines (l : Live) (i : Nat) (x : EvEntry) : (l.setEntry i x).offEngines = l.offEngines := (rfl)
@[simp] theorem updQueue_offEngines (l : Live) (i : Nat) (f : EvQueue → EvQueue) : (l.updQueue i f).offEngines = l.offEngines := (rfl)
@[simp] theorem setPair_offEngines (l : Live) (i : Nat) (x : Pair) : (l.setPair i x).offEngines = l.offEngines := (rfl)
@[simp] theorem updPair_offEngines (l : Live) (i : Nat) (f : Pair → Pair) : (l.updPair i f).offEngines = l.offEngines := (rfl)
@[simp] theorem offEngines_events (l : Live) (u : EventUnit) : ({ l with events := u } : Live).offEngines = l.offEngines := (rfl)
@[simp] theorem offEngines_pwm (l : Live) (u : PwmUnit) : ({ l with pwm := u } : Live).offEngines = l.offEngines := (rfl)
@[simp] theorem offEngines_irq (l : Live) (u : IrqUnit) : ({ l with irq := u } : Live).offEngines = l.offEngines := (rfl)
@[simp] theorem drawFree_offEngines (l : Live) : (drawFree l).2.offEngines = l.offEngines := (rfl)

@[simp] theorem tripPair_offEngines (cause u : Nat) (l : Live) : (tripPair cause u l).offEngines = l.offEngines := by
  simp [tripPair, apply_ite Live.offEngines]

@[simp] theorem tripPairs_offEngines (mask cause : Nat) (l : Live) : (tripPairs mask cause l).offEngines = l.offEngines := by
  unfold tripPairs
  exact forAll_offEngines (fun u m => by simp [apply_ite Live.offEngines]) _ l

@[simp] theorem disarm_offEngines (cause : Nat) (l : Live) : (disarm cause l).offEngines = l.offEngines := by
  unfold disarm
  extract_lets w st w1 w2 noted idle tripped recorded
  have kept : recorded.offEngines = l.offEngines := by simp [recorded, tripped, idle, noted, forAll_offEngines]
  split
  · rfl
  · split <;> simp [kept]

@[simp] theorem raiseReq_offEngines (c : Nat) (mask : Byte) (l : Live) : (raiseReq c mask l).offEngines = l.offEngines := (rfl)

@[simp] theorem latchLink_offEngines (c : Nat) (data : Word) (l : Live) : (latchLink c data l).offEngines = l.offEngines := by
  simp [latchLink, apply_ite Live.offEngines]

@[simp] theorem sendLink_offEngines (c : Nat) (one : Option Nat) (data : Word) (l : Live) :
    (sendLink c one data l).offEngines = l.offEngines := by
  cases one <;> simp [sendLink, apply_ite Live.offEngines, forAll_offEngines]

@[simp] theorem drivePin_offEngines (n : Nat) (l : Live) : (drivePin n l).offEngines = l.offEngines := by
  simp [drivePin, apply_ite Live.offEngines]

@[simp] theorem drivePins_offEngines (c : Nat) (l : Live) : (drivePins c l).offEngines = l.offEngines :=
  forAll_offEngines drivePin_offEngines _ l

@[simp] theorem goFailsafe_offEngines (cause c : Nat) (l : Live) : (goFailsafe cause c l).offEngines = l.offEngines := by
  simp [goFailsafe, forAll_offEngines]

@[simp] theorem endFailsafe_offEngines (c : Nat) (l : Live) : (endFailsafe c l).offEngines = l.offEngines := by
  simp [endFailsafe, apply_ite Live.offEngines, forAll_offEngines]

@[simp] theorem pinAction_offEngines (c fine writer : Nat) (a : PinAct) (l : Live) :
    (pinAction c fine writer a l).offEngines = l.offEngines := by
  simp [pinAction, apply_ite Live.offEngines]

@[simp] theorem popFifo_offEngines (c : Nat) (l : Live) : (popFifo c l).2.offEngines = l.offEngines := by
  unfold popFifo
  dsimp only
  split <;> rfl

@[simp] theorem queueFault_offEngines (q bit : Nat) (l : Live) : (queueFault q bit l).offEngines = l.offEngines := (rfl)

@[simp] theorem insertFault_offEngines (q reason : Nat) (l : Live) : (insertFault q reason l).offEngines = l.offEngines := by
  simp [insertFault]

@[simp] theorem insertDrop_offEngines (q reason : Nat) (l : Live) : (insertDrop q reason l).offEngines = l.offEngines := by
  simp [insertDrop]

@[simp] theorem joinFifo_offEngines (e : Nat) (reins : Bool) (l : Live) : (joinFifo e reins l).offEngines = l.offEngines := by
  unfold joinFifo
  dsimp only
  split <;> rfl

@[simp] theorem postEvent_offEngines (x6 x7 : Word) (l : Live) : (postEvent x6 x7 l).offEngines = l.offEngines := by
  have drawn := drawFree_offEngines l
  unfold postEvent allocEntry
  dsimp only
  split
  · simp
  · split
    · simp
    · split
      · rename_i m taken
        rw [(Prod.mk.inj taken).2] at drawn
        simp [drawn]
      · rename_i e m taken
        rw [(Prod.mk.inj taken).2] at drawn
        simp [drawn]

@[simp] theorem dropRoutine_offEngines (c : Nat) (l : Live) : (dropRoutine c l).offEngines = l.offEngines := (rfl)

@[simp] theorem forgetTurn_offEngines (c : Nat) (l : Live) : (forgetTurn c l).offEngines = l.offEngines := (rfl)

@[simp] theorem startNow_offEngines (c : Nat) (l : Live) : (startNow c l).offEngines = l.offEngines := by
  unfold startNow
  dsimp only
  split <;> simp

@[simp] theorem setRun_offEngines (k : Nat) (r : Routine) (l : Live) : (setRun k r l).offEngines = l.offEngines := (rfl)

@[simp] theorem updRun_offEngines (k : Nat) (f : Routine → Routine) (l : Live) : (updRun k f l).offEngines = l.offEngines := (rfl)

@[simp] theorem enterRunaway_offEngines (k reason : Nat) (l : Live) : (enterRunaway k reason l).offEngines = l.offEngines := by
  unfold enterRunaway
  split <;> simp

@[simp] theorem popMany_offEngines (c n : Nat) (l : Live) : (popMany c n l).offEngines = l.offEngines := by
  induction n generalizing l with
  | zero => rfl
  | succ n ih => rw [popMany, ih, popFifo_offEngines]

@[simp] theorem applyFx_offEngines (c : Nat) (fx : StagedFx) (l : Live) : (applyFx c fx l).offEngines = l.offEngines := by
  simp [applyFx, apply_ite Live.offEngines, forAll_offEngines]

@[simp] theorem commitRun_offEngines (k : Nat) (l : Live) : (commitRun k l).offEngines = l.offEngines := by
  unfold commitRun
  split
  · simp [apply_ite Live.offEngines]
  · rfl

@[simp] theorem takeFx_offEngines (k : Nat) (f : Live → Routine → StagedFx → Option StagedFx) (l : Live) :
    (takeFx k f l).offEngines = l.offEngines := by
  unfold takeFx
  split
  · split
    · split <;> simp
    · split <;> simp
  · rfl

@[simp] theorem tableStart_offEngines (k : Nat) (v : Word) (l : Live) : (tableStart k v l).offEngines = l.offEngines := (rfl)

@[simp] theorem endRun_offEngines (k naddr : Nat) (l : Live) : (endRun k naddr l).offEngines = l.offEngines := by
  unfold endRun
  dsimp only
  split
  · simp
  · split
    · simp [apply_ite Live.offEngines]
    · simp

@[simp] theorem goTo_offEngines (k addr : Nat) (l : Live) : (goTo k addr l).offEngines = l.offEngines := (rfl)

@[simp] theorem actWord_offEngines (k : Nat) (w : Microword) (waited c' : Bool) (a b : Word) (l : Live) :
    (actWord k w waited c' a b l).offEngines = l.offEngines := by
  unfold actWord
  split
  · rfl
  · simp [apply_ite Live.offEngines]

@[simp] theorem divEnd_offEngines (k : Nat) (l : Live) : (divEnd k l).offEngines = l.offEngines := by
  unfold divEnd
  split
  · split
    · simp [apply_ite Live.offEngines]
    · rfl
  · rfl

end Sys2Proof.Machine

/-! Clocks and time (02): the events of the time unit, and the discipline by PPS_IN. -/

namespace Sys2Proof.Machine

open Sys2Proof

/-! ### A command that runs one effect -/

/-- An effect that leaves the fabric memory alone keeps every byte of it. -/
theorem sameMemory_apply {f : Live → Live} {s : State} (h : (f s.live).mem = s.live.mem) : SameMemory s (s.apply f) := fun a => by
  simp [h]

theorem apply_time (f : Live → Live) (s : State) : (s.apply f).live.time = (f s.live).time := by simp

theorem apply_rst (f : Live → Live) (s : State) : (s.apply f).live.rst = (f s.live).rst := by simp

/-- A command that runs one effect completes with it. -/
theorem completes_apply {c : Instr} {f : Live → Live} {s : State} {P : State → Prop} (run : exec c s = ran f s) (h : P (s.apply f)) :
    Completes c s P :=
  ⟨s.apply f, run, h⟩

/-- The time unit after a command that runs one effect which keeps memory. -/
theorem completes_time {c : Instr} {f : Live → Live} {s : State} {u : TimeUnit} (run : exec c s = ran f s)
    (mem : (f s.live).mem = s.live.mem) (h : (f s.live).time = u) : Completes c s fun t => t.live.time = u ∧ SameMemory s t :=
  ⟨s.apply f, run, (apply_time f s).trans h, sameMemory_apply mem⟩

theorem offEngines_time {l m : Live} (h : m.offEngines = l.offEngines) : m.time = l.time := congrArg (·.1.time) h

theorem offEngines_mem {l m : Live} (h : m.offEngines = l.offEngines) : m.mem = l.mem := congrArg (·.1.mem) h

@[simp] theorem disarm_time (cause : Nat) (l : Live) : (disarm cause l).time = l.time := offEngines_time (disarm_offEngines _ _)

@[simp] theorem disarm_mem (cause : Nat) (l : Live) : (disarm cause l).mem = l.mem := offEngines_mem (disarm_offEngines _ _)

@[simp] theorem tripPair_pwm (cause u : Nat) (l : Live) : (tripPair cause u l).pwm = l.pwm := by
  simp [tripPair, apply_ite Live.pwm]

@[simp] theorem tripPairs_pwm (mask cause : Nat) (l : Live) : (tripPairs mask cause l).pwm = l.pwm := by
  unfold tripPairs
  exact forAll_keeps Live.pwm (fun u m => by simp [apply_ite Live.pwm]) _ l

/-- After a disarm the device is disarmed (R291). -/
@[simp] theorem disarm_arm (cause : Nat) (l : Live) : (disarm cause l).pwm.arm = .disarmed := by
  unfold disarm
  extract_lets w st w1 w2 noted idle tripped recorded
  have idle_pwm : idle.pwm = w2 := forAll_keeps Live.pwm (fun u m => by simp) _ noted
  have kept : recorded.pwm.arm = .disarmed := by simp [recorded, tripped, idle_pwm, w2, w1]
  split
  · assumption
  · split <;> simp [kept]

/-! ### Clock events (R27, R29, R38, R42, R57–R59) -/

/-- The loss of the reference in the time unit (R29). -/
theorem refLost_time {l : Live} (up : timeUp l = true) (held : l.time.status.getLsbD 10 = true) :
    (refLost l).time = { l.time with status := clrBit (setBit (setBit l.time.status 8) 9) 10, freeRun := true,
                                     refLossCnt := l.time.refLossCnt + 1 } ∧
      (refLost l).pwm.arm = .disarmed ∧ (refLost l).mem = l.mem := by
  have flags : l.time.status ||| 0x300#16 = setBit (setBit l.time.status 8) 9 := by
    simp [setBit, BitVec.or_assoc]
  unfold refLost
  rw [if_neg (by rw [up, held]; decide)]
  simp [timeFlags, noteFlags, flags]

/-- Without a relabelling pending, a second boundary is PPS_OUT's alone. -/
theorem secondBoundary_plain {l : Live} (up : timeUp l = true) (reached : l.time.boundary = true) (pending : l.time.relabel = none) :
    secondBoundary l = ppsOutBoundary (ppsOutInstant l) (ppsOutResume { l with time := { l.time with boundary := false } }) := by
  simp [secondBoundary, epochFire, up, reached, pending]

/-- PPS_OUT changes the time unit alone. -/
theorem ppsOutResume_keeps (l : Live) : ppsOutResume l = { l with time := (ppsOutResume l).time } := by
  unfold ppsOutResume
  split <;> rfl

theorem ppsOutBoundary_mem (rise : Nat) (l : Live) : (ppsOutBoundary rise l).mem = l.mem := by
  unfold ppsOutBoundary ppsOutPulse
  simp [apply_ite Live.mem]

theorem secondBoundary_mem (l : Live) : (secondBoundary l).mem = l.mem := by
  have relabelled (m : Live) : (epochFire m).mem = m.mem := by
    unfold epochFire
    split
    · rfl
    · have keys (o : Int) (n : Live) : (atRelabel o n).mem = n.mem := by
        simp only [(atRelabel_onlyEvents o n).keeps]
      simp [keys]
  unfold secondBoundary
  split
  · rfl
  · rw [ppsOutBoundary_mem, ppsOutResume_keeps, relabelled]

/-- A rise permitted and far enough from the last starts the pulse (R57, R58). -/
theorem ppsOutPulse_starts {rise : Nat} {l : Live} (permitted : ppsOutPermitted l = true) (first : l.time.ppsOutRise = none) :
    ppsOutPulse rise l = { l with time := { l.time with
      ppsOut := true, ppsHiZ := false, ppsWarm := false, ppsOutRise := some rise, ppsOutEnd := rise + l.cfg 0x2000 8 * 25600 } } := by
  simp [ppsOutPulse, ppsOutTooSoon, permitted, first]

/-- PPS_OUT back at its level, where it was held back, is nothing more to a pulse that starts or an instant that lies ahead. -/
theorem ppsOutResume_permitted (l : Live) (due : Bool) :
    ppsOutPermitted (ppsOutResume { l with time := { l.time with boundary := due } }) = ppsOutPermitted l := by
  unfold ppsOutResume
  split <;> rfl

/-- The boundary starts the pulse whose instant it has reached (R57, R58). -/
theorem secondBoundary_pulse {l : Live} (up : timeUp l = true) (reached : l.time.boundary = true) (plain : l.time.relabel = none)
    (permitted : ppsOutPermitted l = true) (first : l.time.ppsOutRise = none) (early : l.time.ppsOutEarly = false)
    (due : ppsOutInstant l < (l.now + 1) * 64) :
    (secondBoundary l).time = { l.time with
      boundary := false, ppsOut := true, ppsHiZ := false, ppsWarm := false, ppsOutRise := some (ppsOutInstant l),
      ppsOutEnd := ppsOutInstant l + l.cfg 0x2000 8 * 25600 } := by
  rw [secondBoundary_plain up reached plain]
  have may := (ppsOutResume_permitted l false).trans permitted
  unfold ppsOutBoundary
  rw [if_neg (by unfold ppsOutResume; split <;> simp [early]),
    if_pos (by unfold ppsOutResume; split <;> exact decide_eq_true due),
    ppsOutPulse_starts may (by unfold ppsOutResume; split <;> exact first)]
  unfold ppsOutResume
  split <;> rfl

/-- An instant that lies ahead is kept (R57). -/
theorem secondBoundary_waits {l : Live} (up : timeUp l = true) (reached : l.time.boundary = true) (plain : l.time.relabel = none)
    (early : l.time.ppsOutEarly = false) (cold : l.time.ppsWarm = false) (ahead : (l.now + 1) * 64 ≤ ppsOutInstant l) :
    (secondBoundary l).time = { l.time with boundary := false, ppsOutDue := some (ppsOutInstant l) } := by
  rw [secondBoundary_plain up reached plain]
  have resumed : ppsOutResume { l with time := { l.time with boundary := false } } = { l with time := { l.time with boundary := false } } := by
    simp [ppsOutResume, cold]
  rw [resumed]
  unfold ppsOutBoundary
  rw [if_neg (by simp [early])]
  split
  · rename_i due
    exact absurd (of_decide_eq_true due) (Nat.not_lt.mpr ahead)
  · rfl

/-- With every other source of the clock domain released, the lock releases the reference's (R27). -/
theorem pllLock_releases {l : Live} (unlocked : l.time.pllLocked = false) (released : ∀ k, k < 7 → l.rst.asserted.getLsbD k = false) :
    pllLock l = releaseSource 7
      { l with time := { l.time with pllLocked := true, freeRun := false, dtime := 0, refsel := l.time.refselPin } } := by
  have others : (bitsOf l.rst.asserted).any (fun s => s ≠ 7 && (domainsOf (reachOf s)).contains .clk) = false := by
    rw [List.any_eq_false]
    intro k listed
    have set : l.rst.asserted.getLsbD k = true := (List.mem_filter.mp listed).2
    have far : 7 ≤ k := by
      by_contra near
      rw [released k (by omega)] at set
      exact Bool.false_ne_true set
    by_cases own : k = 7
    · simp [own]
    · have reach : (domainsOf (reachOf k)).contains .clk = false := by
        unfold reachOf
        split_ifs <;> first | omega | rfl
      rw [reach, Bool.and_false]
      exact Bool.false_ne_true
  unfold pllLock
  dsimp only
  rw [if_neg (by rw [unlocked, others]; decide)]

/-- The assertion of a source of the cold resets stands in the asserted sources, whatever it resets (R443). -/
theorem assertSource_asserts {src : Nat} (cold : src ≤ 7) (l : Live) : (assertSource src l).rst.asserted.getLsbD src = true := by
  have reach : reachOf src ≤ 1 := by
    unfold reachOf
    split_ifs <;> omega
  have noted : (noteSource src l).rst.asserted.getLsbD src = true := by
    have set : (noteSource src l).rst.asserted = setBit l.rst.asserted src := by
      simp only [noteSource]
      split <;> rfl
    rw [set, setBit_same _ (by omega)]
  unfold assertSource
  split
  · assumption
  · dsimp only
    rw [if_pos reach]
    refine Eq.trans (congrArg (BitVec.getLsbD · src) ?_) noted
    unfold coldLive coldRst
    dsimp only
    split <;> rfl

/-- Settles O1: the boundary by `secondBoundary_plain` and `secondBoundary_relabel`, the loss of the reference by `refLost_time`, the rest
by the effect's definition. The instant of PPS_OUT is the model's (log entry 107). -/
theorem clockEventsComplete : Obligations.ClockEventsComplete := by
  refine ⟨fun s unlocked released => ?_, fun s unlocked => ?_, fun s up held => ?_, fun s up free => ?_, fun s up wrap later => ?_,
    fun s up reached plain permitted first early due => ?_, fun s up reached plain early cold ahead => ?_,
    fun s off up reached pending => ?_, fun s on past => ?_⟩
  · have effect := pllLock_releases unlocked released
    refine ⟨s.apply pllLock, rfl, ?_⟩
    refine ⟨?_, ?_, ?_, sameMemory_apply ?_⟩ <;> simp [effect, releaseSource]
  · have effect : referenceHold s.live = _ := if_neg (by rw [unlocked]; decide)
    refine ⟨s.apply referenceHold, rfl, ?_, ?_⟩
    · rw [apply_rst, effect]
      exact setBit_same _ (by decide)
    · simp [effect]
      exact assertSource_asserts (by decide) s.live
  · obtain ⟨time, arm, mem⟩ := refLost_time up held
    refine ⟨s.apply refLost, rfl, ?_, ?_, sameMemory_apply mem⟩
    · rw [apply_time, time]
    · simp [arm]
  · refine ⟨s.apply referenceRelock, rfl, ?_⟩
    have effect : referenceRelock s.live = _ := if_neg (by rw [up, free]; decide)
    refine ⟨?_, ?_, ?_, sameMemory_apply ?_⟩ <;> simp [effect]
  · have effect : stampWrap s.live = _ := if_neg (by simp [up, wrap, show s.live.time.dtime ≠ 0#64 from later])
    refine ⟨s.apply stampWrap, rfl, ?_⟩
    refine ⟨?_, ?_, sameMemory_apply ?_⟩ <;> simp [effect, timeFlags, setBit, noteFlags]
  · exact completes_time (f := secondBoundary) rfl (secondBoundary_mem _) (secondBoundary_pulse up reached plain permitted first early due)
  · exact completes_time (f := secondBoundary) rfl (secondBoundary_mem _) (secondBoundary_waits up reached plain early cold ahead)
  · have pps := secondBoundary_relabel up reached pending
    obtain ⟨seconds, tick, frac, rate, dtime, status⟩ := pps.keeps
    refine ⟨_, exec_atimeSecondBoundary s, ?_⟩
    refine ⟨?_, ?_, ?_, ?_, ?_, ?_, ?_, sameMemory_apply (secondBoundary_mem _)⟩ <;> rw [apply_time]
    · rw [seconds]; rfl
    · rw [tick]; rfl
    · rw [frac]; rfl
    · rw [rate]; rfl
    · rw [dtime]; rfl
    · rw [pps]; rfl
    · rw [status]; exact relabelled_epochSet _ _
  · have effect : ppsOutWidthEnd s.live = _ := if_pos (by simp [on, past])
    exact completes_time (f := ppsOutWidthEnd) rfl (by rw [effect]) (by rw [effect])

/-! ### The discipline by PPS_IN (R44–R53) -/

/-- Leaving a state for HOLDOVER in the time unit (R52). -/
theorem setDisc_holdover {l : Live} (other : l.time.disc ≠ .holdover) :
    (setDisc .holdover l).time.disc = .holdover ∧ (setDisc .holdover l).time.freq = l.time.freq ∧
      (setDisc .holdover l).time.status.getLsbD 1 = true ∧ (setDisc .holdover l).time.holdoverSince = some l.now ∧
      (setDisc .holdover l).mem = l.mem := by
  have marked : ∀ b, (l.time.status ||| BitVec.ofNat 16 (b2n b + 2)).getLsbD 1 = true := by
    intro b
    cases b <;> simp [b2n]
  have held (m : Live) : holdPpsOut m = { m with time := { m.time with ppsOut := m.time.ppsOut && ppsOutPermitted m } } := by
    unfold holdPpsOut
    split <;> simp_all
  unfold setDisc
  rw [if_neg other.symm]
  simp only [held, writeRecord_keeps, timeFlags, noteFlags, if_true]
  exact ⟨trivial, trivial, marked _, trivial, trivial⟩

/-- A new rate is the value within its limits; the rest is a flag and the event table's (R40, R41). -/
theorem setRate_time (r : Int) (l : Live) :
    (setRate r l).time.rate = clampInt (-rateLimit) rateLimit r ∧ (setRate r l).time.disc = l.time.disc ∧
      (setRate r l).time.holdoverSince = l.time.holdoverSince ∧
      (l.time.status.getLsbD 1 = true → (setRate r l).time.status.getLsbD 1 = true) ∧ (setRate r l).mem = l.mem := by
  have retimed (m : Live) : (atRetime m).time = m.time ∧ (atRetime m).mem = m.mem := by
    have events : OnlyEvents m (atRetime m) := forAll_onlyEvents (fun e n => by dsimp only; split <;> [split <;> rfl; rfl]) _ m
    exact ⟨events.keeps.1, by simp only [events.keeps]⟩
  have limited (m : Live) : slewLimit r m = { m with flagsNow := (slewLimit r m).flagsNow, time := { m.time with
      status := (slewLimit r m).time.status } } ∧ (m.time.status.getLsbD 1 = true → (slewLimit r m).time.status.getLsbD 1 = true) := by
    unfold slewLimit
    split
    · exact ⟨rfl, fun h => by simp [timeFlags, noteFlags, h]⟩
    · exact ⟨rfl, id⟩
  obtain ⟨same, bit⟩ := limited l
  unfold setRate
  dsimp only
  split
  · rename_i equal
    rw [same] at equal ⊢
    exact ⟨equal.symm, rfl, rfl, bit, rfl⟩
  · rw [(retimed _).1, (retimed _).2]
    rw [same]
    exact ⟨rfl, rfl, rfl, bit, rfl⟩

/-- In ACQUIRE the first edge of a pair is kept (R48, R50). -/
theorem ppsProcess_first {l : Live} (up : timeUp l = true) (edge : l.time.pps.toProcess = true)
    (lasted : l.time.pps.edgeDtime + 400 ≤ l.now) (acquiring : l.time.disc = .acquire) (first : l.time.pps.pairFirst = none) :
    (ppsProcess l).time = { l.time with
      phaseError := phasePs (phaseRaw l),
      lastPps := BitVec.ofNat 64 (l.time.pps.edgeDtime % 2 ^ 48 * 64 + l.time.pps.edgeFine),
      pps := { l.time.pps with toProcess := false, pairFirst := some (trueEdge l) } } ∧ (ppsProcess l).mem = l.mem := by
  unfold ppsProcess
  dsimp only
  rw [if_neg (by simp [up, edge, lasted])]
  split
  · rename_i off
    exact absurd (acquiring.symm.trans off) (by decide)
  · rw [first]
    exact ⟨rfl, rfl⟩
  · rename_i other
    exact absurd acquiring other

/-- Settles O2: the judging of a pulse by its length, the first edge of a pair in ACQUIRE, and HOLDOVER by `setDisc_holdover` and
`setRate_time`. The rounding of the phase is the model's (log entry 5). -/
theorem disciplineComplete : Obligations.DisciplineComplete := by
  refine ⟨fun s fine up idle => ?_, fun s up active fresh short => ?_, fun s up active fresh long few => ?_,
    fun s up edge lasted acquiring first => ?_, fun s x up edge locked late => ?_, fun s days ms active operational on bit => ?_⟩
  · have effect : ppsInEdge fine.toNat s.live = _ := if_neg (by rw [up, idle]; decide)
    exact completes_time (f := ppsInEdge fine.toNat) rfl (by rw [effect]) (by rw [effect])
  · have effect : ppsLevelEnd s.live = _ := if_neg (by rw [up, active]; decide)
    dsimp only at effect
    rw [if_neg (by rw [fresh]; decide), if_pos short] at effect
    exact completes_time (f := ppsLevelEnd) rfl (by rw [effect]; rfl) (by rw [effect]; rfl)
  · have effect : ppsLongPulse s.live = judgeLong s.live := if_pos (by simp [up, active, fresh, long])
    have judged : judgeLong s.live = _ := if_pos (by omega)
    exact completes_time (f := ppsLongPulse) rfl (by rw [effect, judged]) (by rw [effect, judged])
  · obtain ⟨time, mem⟩ := ppsProcess_first up edge lasted acquiring first
    exact completes_time (f := ppsProcess) rfl mem time
  · have effect : holdoverTimeout s.live = setRate s.live.time.freq (setDisc .holdover s.live) := by
      unfold holdoverTimeout
      dsimp only
      rw [edge]
      exact if_pos (by rw [up, decide_eq_true late]; simp [locked])
    have other : s.live.time.disc ≠ .holdover := by
      rcases locked with h | h <;> rw [h] <;> decide
    obtain ⟨disc, freq, bit, since, mem⟩ := setDisc_holdover other
    obtain ⟨rate, disc', since', bit', mem'⟩ := setRate_time s.live.time.freq (setDisc .holdover s.live)
    refine completes_apply (f := holdoverTimeout) rfl ?_
    rw [apply_time, effect]
    exact ⟨disc'.trans disc, rate, bit' bit, since'.trans since, sameMemory_apply (by rw [effect, mem', mem])⟩
  · have effect : timeReceived days.toNat ms.toNat s.live = _ := if_pos (by simp [active, operational, on, bit])
    refine completes_apply (f := timeReceived days.toNat ms.toNat) rfl ?_
    rw [apply_time, effect]
    exact ⟨rfl, rfl, rfl, sameMemory_apply (by rw [effect])⟩

end Sys2Proof.Machine

/-! Requests of a connection that their object takes, and snapshots and groups (03). -/

namespace Sys2Proof.Machine

open Sys2Proof

/-! ### A request that its object takes (R69, R390–R394) -/

@[simp] theorem touch_acc (c : Conn) (l : Live) :
    (∀ j, (touch c l).chan j = l.chan j) ∧ (∀ j, (touch c l).tpin j = l.tpin j) ∧ (∀ j, (touch c l).cluster j = l.cluster j) ∧
    (∀ j, (touch c l).group j = l.group j) ∧ (∀ j, (touch c l).entry j = l.entry j) ∧ (∀ j, (touch c l).queue j = l.queue j) ∧
    (∀ j, (touch c l).wheel j = l.wheel j) ∧ (∀ j, (touch c l).port j = l.port j) ∧ (∀ j, (touch c l).pair j = l.pair j) ∧
    (∀ j, (touch c l).trip j = l.trip j) ∧ (∀ j, (touch c l).anIn j = l.anIn j) ∧ (∀ j, (touch c l).conv j = l.conv j) ∧
    (∀ j, (touch c l).seq j = l.seq j) ∧ (∀ j, (touch c l).pe j = l.pe j) ∧ (∀ j, (touch c l).dc j = l.dc j) ∧
    (∀ j, (touch c l).irqGroup j = l.irqGroup j) ∧ (∀ j, (touch c l).bus j = l.bus j) ∧
    (∀ j, (touch c l).baseVal j = l.baseVal j) ∧ (∀ j, (touch c l).val j = l.val j) ∧
    (touch c l).now = l.now ∧ (∀ j k, (touch c l).cfg j k = l.cfg j k) ∧ (∀ j k, (touch c l).flag j k = l.flag j k) := by
  simp [touch]

@[simp] theorem reply_acc (c : Conn) (code : Nat) (l : Live) :
    (∀ j, (reply c code l).chan j = l.chan j) ∧ (∀ j, (reply c code l).tpin j = l.tpin j) ∧
    (∀ j, (reply c code l).cluster j = l.cluster j) ∧ (∀ j, (reply c code l).group j = l.group j) ∧
    (∀ j, (reply c code l).entry j = l.entry j) ∧ (∀ j, (reply c code l).queue j = l.queue j) ∧
    (∀ j, (reply c code l).wheel j = l.wheel j) ∧ (∀ j, (reply c code l).port j = l.port j) ∧
    (∀ j, (reply c code l).pair j = l.pair j) ∧ (∀ j, (reply c code l).trip j = l.trip j) ∧
    (∀ j, (reply c code l).anIn j = l.anIn j) ∧ (∀ j, (reply c code l).conv j = l.conv j) ∧
    (∀ j, (reply c code l).seq j = l.seq j) ∧ (∀ j, (reply c code l).pe j = l.pe j) ∧ (∀ j, (reply c code l).dc j = l.dc j) ∧
    (∀ j, (reply c code l).irqGroup j = l.irqGroup j) ∧ (∀ j, (reply c code l).bus j = l.bus j) ∧
    (∀ j, (reply c code l).baseVal j = l.baseVal j) ∧ (∀ j, (reply c code l).val j = l.val j) ∧
    (reply c code l).now = l.now ∧ (∀ j k, (reply c code l).cfg j k = l.cfg j k) ∧
    (∀ j k, (reply c code l).flag j k = l.flag j k) := by
  simp [reply, answer]

/-- Where two effects agree on the live device, so do the states they leave. -/
theorem apply_congr {f g : Live → Live} {s : State} (h : f s.live = g s.live) : s.apply f = s.apply g := by
  unfold State.apply
  rw [h]

/-- A request that the object's rule takes is answered as done, with the rule's effect on the device that has noted the request. -/
theorem completes_object {c : Instr} {conn : Conn} {idx sub : Nat} {f : Live → Live × Nat} {s : State} {m : Live} {P : State → Prop}
    (run : exec c s = ran (onObject conn idx sub f) s) (reaches : Reaches conn idx sub s) (effect : f (touch conn s.live) = (m, 0))
    (h : P (s.apply fun _ => reply conn 0 m)) : Completes c s P := by
  refine completes_apply run ?_
  rw [apply_congr (g := fun _ => reply conn 0 m) (by rw [onObject_reaches f reaches.1 reaches.2, effect])]
  exact h

theorem answeredDone_reply (conn : Conn) (m : Live) (s : State) : AnsweredDone conn (s.apply fun _ => reply conn 0 m) := by
  simp [AnsweredDone]

theorem sameMemory_reply {conn : Conn} {m : Live} {s : State} (h : m.mem = s.live.mem) :
    SameMemory s (s.apply fun _ => reply conn 0 m) := sameMemory_apply (by simp [h])

/-! ### Snapshots (R64–R70) -/

theorem wipeBanks_snap (s : State) : (wipeBanks s).live.snap = { s.live.snap with wipe := false } := by
  unfold wipeBanks
  split
  · rfl
  · rename_i kept
    rw [← Bool.eq_false_of_not_eq_true kept]

theorem settleHold_snap (s : State) :
    (settleHold s).live.snap = { s.live.snap with hold := none, status := (settleHold s).live.snap.status } := by
  unfold settleHold
  dsimp only
  split
  · rfl
  · rfl
  · rfl
  · rename_i none
    rw [← none]

theorem seqWrap_snap (l : Live) : (seqWrap l).snap = { l.snap with status := (seqWrap l).snap.status } ∧
    ∀ i, i ≠ 2 → (seqWrap l).snap.status.getLsbD i = l.snap.status.getLsbD i := by
  unfold seqWrap
  split
  · simp only [writeRecord_keeps, snapFlags, noteFlags]
    exact ⟨trivial, fun i other => setBit_other (n := 2) l.snap.status other⟩
  · exact ⟨rfl, fun _ _ => rfl⟩

theorem OnlySettled.time {l m : Live} (h : OnlySettled l m) : m.time = l.time := by
  unfold OnlySettled at h
  rw [h]

/-- A request for a snapshot, with no copy in progress, is served: the bank being filled shows the values the TCLK started with, under the
next number and the freeze instant (R64, R66, R68). -/
theorem apply_takes {f : Live → Live} {s : State} (want : (f s.live).snap.want = true) (idle : (f s.live).snap.copying = false)
    (free : (f s.live).snap.waiting = false) :
    (s.apply f).filling = some ⟨nextSeq (f s.live).snap, (f s.live).time.dtime,
      { s.start with snap := { s.start.snap with seq := nextSeq (f s.live).snap, dtime := (f s.live).time.dtime } }⟩ ∧
    (s.apply f).live.snap.copying = true ∧ (s.apply f).live.snap.seq = nextSeq (f s.live).snap ∧
    (s.apply f).live.snap.nextPeriodic = (f s.live).snap.nextPeriodic := by
  obtain ⟨x, hx⟩ : ∃ x, x = settleHold (wipeBanks { s with live := settle s.live (f s.live) }) := ⟨_, rfl⟩
  have settled : (settle s.live (f s.live)).snap = (f s.live).snap := (settle_only _ _).keeps.2.1
  have snap : x.live.snap = { (f s.live).snap with wipe := false, hold := none, status := x.live.snap.status } := by
    rw [hx, settleHold_snap, wipeBanks_snap, settled]
  have time : x.live.time = (f s.live).time := by
    rw [hx, (settleHold_live _).time, (wipeBanks_live _).time]
    exact (settle_only _ _).keeps.1
  have wrapped := (seqWrap_snap x.live).1
  have wrapped_time : (seqWrap x.live).time = (f s.live).time := (seqWrap_live _).time.trans time
  have seq : nextSeq (seqWrap x.live).snap = nextSeq (f s.live).snap := by rw [wrapped, snap]; rfl
  have taken : s.apply f = takeSnap s.start x := by
    unfold State.apply
    rw [← hx]
    unfold settleSnap snapNow snapDeferred snapNow
    rw [snap]
    simp [want, idle, free]
  rw [taken]
  unfold takeSnap
  dsimp only
  rw [seq, wrapped_time]
  refine ⟨rfl, rfl, rfl, ?_⟩
  rw [wrapped, snap]

/-- Serving the requests leaves every bit of the status but SEQ_WRAP as the hold left it, and the bank held too. -/
theorem settleSnap_status (pre : Live) (s : State) : (settleSnap pre s).held = s.held ∧
    ∀ i, i ≠ 2 → (settleSnap pre s).live.snap.status.getLsbD i = s.live.snap.status.getLsbD i := by
  unfold settleSnap
  split
  · exact ⟨rfl, fun _ _ => rfl⟩
  · split
    · exact ⟨rfl, fun _ _ => rfl⟩
    · split
      · exact ⟨rfl, fun _ _ => rfl⟩
      · exact ⟨rfl, (seqWrap_snap s.live).2⟩

/-- A request for the hold keeps the published bank from this instant (R70). -/
theorem apply_holds {f : Live → Live} {s : State} {b : Bank} (hold : (f s.live).snap.hold = some true) (bank : s.published = some b)
    (kept : (f s.live).snap.wipe = false) :
    (s.apply f).held = some (b, (f s.live).now) ∧ (s.apply f).live.snap.status.getLsbD 3 = true := by
  have settled : (settle s.live (f s.live)).snap = (f s.live).snap := (settle_only _ _).keeps.2.1
  have now : (settle s.live (f s.live)).now = (f s.live).now := by
    unfold Live.now
    rw [(settle_only _ _).keeps.1]
  obtain ⟨held, status⟩ := settleSnap_status s.start (settleHold (wipeBanks { s with live := settle s.live (f s.live) }))
  have unwiped : wipeBanks { s with live := settle s.live (f s.live) } = { s with live := settle s.live (f s.live) } := by
    unfold wipeBanks
    rw [if_neg (by simp [settled, kept])]
  unfold State.apply
  rw [held, status 3 (by decide), unwiped]
  unfold settleHold
  dsimp only
  rw [settled, hold, bank, now]
  exact ⟨rfl, setBit_same _ (by decide)⟩

/-- A release ends the hold (R70). -/
theorem apply_releases {f : Live → Live} {s : State} (hold : (f s.live).snap.hold = some false) :
    (s.apply f).held = none ∧ (s.apply f).live.snap.status.getLsbD 3 = false ∧
      (s.apply f).live.snap.status.getLsbD 1 = (f s.live).snap.status.getLsbD 1 := by
  have settled : (settle s.live (f s.live)).snap = (f s.live).snap := (settle_only _ _).keeps.2.1
  obtain ⟨x, hx⟩ : ∃ x, x = wipeBanks { s with live := settle s.live (f s.live) } := ⟨_, rfl⟩
  have snap : x.live.snap = { (f s.live).snap with wipe := false } := by rw [hx, wipeBanks_snap, settled]
  obtain ⟨held, status⟩ := settleSnap_status s.start (settleHold x)
  unfold State.apply
  rw [← hx, held, status 3 (by decide), status 1 (by decide)]
  unfold settleHold
  dsimp only
  rw [snap, hold]
  exact ⟨rfl, clrBit_same _, clrBit_other _ (by decide)⟩

/-! ### Groups (R74–R77) -/

theorem admitWaiting_onlyEvents (l : Live) : OnlyEvents l (admitWaiting l) := by
  unfold admitWaiting
  split
  · split <;> rfl
  · rfl

theorem unlist_onlyEvents (e : Nat) (l : Live) : OnlyEvents l (unlist e l) :=
  OnlyEvents.trans (b := { l.updQueue (l.entry e).queue (fun x => { x with order := x.order.filter (· ≠ e) }) with
    events := _ }) rfl (admitWaiting_onlyEvents _)

theorem freeEntry_onlyEvents (e : Nat) (l : Live) : OnlyEvents l (freeEntry e l) := by
  unfold freeEntry
  dsimp only
  split
  · rfl
  · split
    · exact (unlist_onlyEvents e l).trans rfl
    · exact (unlist_onlyEvents e l).trans rfl

theorem discardEvents_onlyEvents (g : Nat) (l : Live) : OnlyEvents l (discardEvents g l) := by
  refine forAll_onlyEvents (fun e m => ?_) _ l
  split
  · split
    · exact freeEntry_onlyEvents e m
    · rfl
  · split
    · exact freeEntry_onlyEvents e m
    · rfl
  · rfl

/-- Nothing but the groups differs, and of a group nothing but what is staged and its state. -/
structure OnlyStaged (l m : Live) : Prop where
  same : m = { l with groups := m.groups }
  members : ∀ j, (m.group j).members = (l.group j).members

theorem OnlyStaged.refl (l : Live) : OnlyStaged l l := ⟨rfl, fun _ => rfl⟩

theorem OnlyStaged.trans {a b c : Live} (h : OnlyStaged a b) (k : OnlyStaged b c) : OnlyStaged a c :=
  ⟨by rw [k.same, h.same], fun j => (k.members j).trans (h.members j)⟩

theorem updGroup_onlyStaged {g : Nat} {f : Group → Group} (h : ∀ x, (f x).members = x.members) (l : Live) :
    OnlyStaged l (l.updGroup g f) := by
  refine ⟨rfl, fun j => ?_⟩
  by_cases e : j = g
  · rw [e, updGroup_same, h]
  · rw [updGroup_ne l f e]

theorem moveStagedValue_onlyStaged (a b : Nat) (k : Key) (l : Live) : OnlyStaged l (moveStagedValue a b k l) := by
  have unstaged (e : Key) (m : Live) : OnlyStaged m (unstage a e m) := by
    unfold unstage
    dsimp only
    split
    · exact (updGroup_onlyStaged (fun _ => by rfl) m).trans (updGroup_onlyStaged (fun _ => by rfl) _)
    · exact updGroup_onlyStaged (fun _ => by rfl) m
  have begun (m : Live) : OnlyStaged m (beginStaging b m) := updGroup_onlyStaged (fun x => by split <;> rfl) m
  have staged (e : Key) (v : Val) (m : Live) : OnlyStaged m (stageIn b e v m) :=
    (updGroup_onlyStaged (fun _ => by rfl) m).trans (begun _)
  unfold moveStagedValue
  split
  · exact (unstaged _ l).trans (staged _ _ _)
  · exact .refl l

/-- A group takes an object that no group has and no rule bars (R76). -/
theorem addMember_takes {l : Live} {g v : Nat} {k : Key} (named : memberKey v = some k) (proper : g ≠ 0) (may : admissible k = true)
    (open_ : membershipLocked l g k = false) (free : ownerOf l k = 0) (room : (l.group g).members.length < 512) :
    ∃ m, addMember g v l = (m, 0) ∧ m.conf = l.conf ∧ m.mem = l.mem ∧ (m.group g).members = (l.group g).members ++ [k] := by
  obtain ⟨same, members⟩ := moveStagedValue_onlyStaged 0 g k (l.updGroup g (fun x => { x with members := x.members ++ [k] }))
  refine ⟨_, ?_, ?_, ?_, (members g).trans (by rw [updGroup_same])⟩
  · unfold addMember
    rw [named]
    simp [proper, proper.symm, may, open_, free, Nat.not_le.mpr room]
  · rw [same]
    simp
  · rw [same]
    simp

/-- The group that has an object gives it up (R76). -/
theorem removeMember_takes {l : Live} {g v : Nat} {k : Key} (named : memberKey v = some k) (proper : g ≠ 0)
    (open_ : membershipLocked l g k = false) (own : ownerOf l k = g) :
    ∃ m, removeMember g v l = (m, 0) ∧ m.conf = l.conf ∧ m.mem = l.mem ∧
      (m.group g).members = (l.group g).members.filter (fun m => storeKey m ≠ storeKey k) := by
  obtain ⟨same, members⟩ := moveStagedValue_onlyStaged g 0 k l
  refine ⟨(moveStagedValue g 0 k l).updGroup g (fun x => { x with members := x.members.filter (fun m => storeKey m ≠ storeKey k) }),
    ?_, ?_, ?_, ?_⟩
  · unfold removeMember
    rw [named]
    simp [proper, open_, own]
  · simp only [updGroup_keeps]
    rw [same]
  · simp only [updGroup_keeps]
    rw [same]
  · rw [updGroup_same]
    simp only [members]

/-- Settles O5: snapshots by `apply_takes`, `apply_holds` and `apply_releases`, members by `addMember_takes` and `removeMember_takes`. -/
theorem snapshotsAndGroupsComplete : Obligations.SnapshotsAndGroupsComplete := by
  refine ⟨fun s conn reaches idle free => ?_, fun s conn b reaches bank kept => ?_, fun s conn reaches => ?_,
    fun s up on due idle free => ?_, fun s b filled copying => ?_, fun s b h held due => ?_, fun s conn g reaches staging later => ?_,
    fun s conn g reaches armed => ?_, fun s conn g reaches busy => ?_,
    fun s conn g entry k reaches named proper may open_ free room => ?_, fun s conn g entry k reaches named proper open_ own => ?_⟩
  · refine completes_object (f := snapRequest 1) rfl reaches rfl ?_
    obtain ⟨filling, copying, seq, -⟩ := apply_takes (s := s) (f := fun _ => reply conn 0 (wantSnapshot (touch conn s.live)))
      (by simp [wantSnapshot]) (by simpa [wantSnapshot] using idle) (by simpa [wantSnapshot] using free)
    refine ⟨?_, copying, ?_, answeredDone_reply _ _ _, sameMemory_reply (by simp [wantSnapshot])⟩
    · rw [filling]
      simp [wantSnapshot, nextSeq]
    · rw [seq]
      simp [wantSnapshot, nextSeq]
  · refine completes_object (f := snapRequest 2)
      (m := { touch conn s.live with snap := { (touch conn s.live).snap with hold := some true } }) rfl reaches rfl ?_
    obtain ⟨held, status⟩ := apply_holds (s := s) (b := b)
      (f := fun _ => reply conn 0 { touch conn s.live with snap := { (touch conn s.live).snap with hold := some true } })
      (by simp) bank (by simpa using kept)
    refine ⟨?_, status, answeredDone_reply _ _ _, sameMemory_reply (by simp)⟩
    rw [held]
    simp [Live.now]
  · refine completes_object (f := snapRequest 3)
      (m := { touch conn s.live with snap := { (touch conn s.live).snap with hold := some false } }) rfl reaches rfl ?_
    obtain ⟨held, status, -⟩ := apply_releases (s := s)
      (f := fun _ => reply conn 0 { touch conn s.live with snap := { (touch conn s.live).snap with hold := some false } }) (by simp)
    exact ⟨held, status, answeredDone_reply _ _ _, sameMemory_reply (by simp)⟩
  · have effect : periodicSnapshot s.live = _ := if_pos (by simp [up, on, due])
    obtain ⟨filling, -, -, next⟩ := apply_takes (s := s) (f := periodicSnapshot) (by rw [effect]; rfl) (by rw [effect]; exact idle)
      (by rw [effect]; exact free)
    refine completes_apply (f := periodicSnapshot) rfl ⟨?_, ?_, sameMemory_apply (by rw [effect]; rfl)⟩
    · rw [filling, effect]
      rfl
    · rw [next, effect]
      rfl
  · refine ⟨copyDone s, rfl, ?_⟩
    unfold copyDone
    rw [filled]
    dsimp only
    rw [if_pos copying]
    exact ⟨rfl, rfl⟩
  · refine ⟨holdExpired s, rfl, ?_⟩
    unfold holdExpired
    rw [held]
    dsimp only
    rw [if_pos due]
    obtain ⟨held, active, expired⟩ := apply_releases (s := s)
      (f := fun l => snapFlags 2 { l with snap := { l.snap with hold := some false } }) rfl
    exact ⟨held, expired.trans (setBit_same (n := 1) s.live.snap.status (by decide)), active, sameMemory_apply rfl⟩
  · have effect : groupArm g (touch conn s.live) = ((touch conn s.live).updGroup g (fun x => { x with state := .armed }), 0) := by
      simp [groupArm, staging, later]
    refine completes_object (f := groupArm g) rfl reaches effect ⟨?_, ?_, answeredDone_reply _ _ _, sameMemory_reply ?_⟩ <;>
      simp [Live.updGroup, Live.setGroup]
  · have effect : groupDisarm g (touch conn s.live) =
        (touch conn s.live).updGroup g (fun x => { x with state := .staging, armedBy := none }) := by
      simp [groupDisarm, Live.updGroup, armed]
    refine completes_object (f := done (groupDisarm g)) rfl reaches (Prod.ext effect rfl)
      ⟨?_, ?_, answeredDone_reply _ _ _, sameMemory_reply ?_⟩ <;>
      simp
  · have effect : groupDiscard g (touch conn s.live) =
        (discardEvents g (touch conn s.live)).updGroup g (fun x => { x with state := .idle, staged := {}, armedBy := none }) := by
      simp [groupDiscard, busy]
    have events := (discardEvents_onlyEvents g (touch conn s.live)).keeps
    refine completes_object (f := done (groupDiscard g)) rfl reaches (Prod.ext effect rfl)
      ⟨?_, ?_, answeredDone_reply _ _ _, sameMemory_reply ?_⟩ <;>
      simp [Live.group, events]
  · obtain ⟨m, effect, conf, mem, members⟩ := addMember_takes (l := touch conn s.live) named proper may open_ free (by simpa using room)
    refine completes_object (f := addMember g entry.toNat) rfl reaches effect ⟨?_, ?_, answeredDone_reply _ _ _, sameMemory_reply ?_⟩
    · simpa using members
    · simpa using conf
    · simpa using mem
  · obtain ⟨m, effect, conf, mem, members⟩ := removeMember_takes (l := touch conn s.live) named proper open_ own
    refine completes_object (f := removeMember g entry.toNat) rfl reaches effect ⟨?_, ?_, answeredDone_reply _ _ _, sameMemory_reply ?_⟩
    · simpa using members
    · simpa using conf
    · simpa using mem

end Sys2Proof.Machine

/-! The microengines' operations on a running routine (05): the ALU, staged effects. -/

namespace Sys2Proof.Machine

open Sys2Proof

/-! ### Effects on a running routine -/

theorem onRun_running {l : Live} {k : Nat} {r : Routine} (h : running l k = some r) (f : Routine → Live → Live) :
    onRun k f l = f r l := by
  simp [onRun, h]

theorem setRun_run (k : Nat) (r : Routine) (l : Live) : ((setRun k r l).cluster k).run = some r := by
  simp [setRun]

@[simp] theorem setRun_keeps (k : Nat) (r : Routine) (l : Live) :
    (setRun k r l).channels = l.channels ∧ (setRun k r l).tpins = l.tpins ∧ (setRun k r l).irq = l.irq ∧
    (setRun k r l).events = l.events ∧ (setRun k r l).mem = l.mem := by
  simp [setRun]

/-! ### The ALU (R135–R138) -/

/-- A routine holds the value an ALU operation gave, cut to the width, and its flags; no channel and no byte of memory differs. -/
def AluDone (s : State) (k : Nat) (r : Routine) (w v : Nat) (z c ah div0 : Bool) (t : State) : Prop :=
  (t.live.cluster k).run = some { r with result := BitVec.ofNat 64 (v % 2 ^ w), z := z, n := (v % 2 ^ w).testBit (w - 1), c := c,
                                         ah := ah, div0 := div0 } ∧
    t.live.channels = s.live.channels ∧ SameMemory s t

/-- An operation gives its value at the width, and the flags that its code says. -/
theorem completes_alu {i : Instr} {s : State} {k op : Nat} {r : Routine} {wid : BitVec 2} {a b : Word} {sel : Routine → Live → Bool}
    (run : exec i s = ran (aluStep k op wid a b sel) s) (h : running s.live k = some r) {v : Nat} {z c ah div0 : Bool}
    (value : aluValue op (widBits wid.toNat) (a.toNat % 2 ^ widBits wid.toNat) (b.toNat % 2 ^ widBits wid.toNat) (sel r s.live) = v)
    (flags : (alu op wid.toNat a b (sel r s.live)).z = z ∧ (alu op wid.toNat a b (sel r s.live)).c = c ∧
      (alu op wid.toNat a b (sel r s.live)).ah = ah ∧ (alu op wid.toNat a b (sel r s.live)).div0.getD r.div0 = div0) :
    Completes i s (AluDone s k r (widBits wid.toNat) v z c ah div0) := by
  obtain ⟨rfl, rfl, rfl, rfl⟩ := flags
  have effect : aluStep k op wid a b sel s.live = _ := onRun_running h _
  refine completes_apply run ⟨?_, ?_, sameMemory_apply ?_⟩
  · rw [apply_cluster, effect, setRun_run]
    simp only [alu, value, bitOf]
  · simp [effect]
  · simp [effect]

/-- The value and the flags of SEL under its condition. -/
theorem aluValue_sel (bits x y : Nat) (c : Bool) : aluValue 0xE bits x y c = if c then x else y := rfl

theorem alu_sel_flags (wid : Nat) (a b : Word) (c : Bool) (kept : Bool) :
    (alu 0xE wid a b c).z = decide ((if c then a.toNat % 2 ^ widBits wid else b.toNat % 2 ^ widBits wid) % 2 ^ widBits wid = 0) ∧
      (alu 0xE wid a b c).c = false ∧ (alu 0xE wid a b c).ah = false ∧ (alu 0xE wid a b c).div0.getD kept = kept :=
  ⟨rfl, rfl, rfl, rfl⟩

/-- Settles O10: each operation by `completes_alu`, its value and flags by their definition. That CPOL inverts inside the condition of SEL
is the model's reading (log entry 31). -/
theorem aluResults : Obligations.AluResults := by
  intro s k r wid a b h
  refine ⟨completes_alu (op := 0x0) rfl h rfl ⟨rfl, rfl, rfl, rfl⟩, completes_alu (op := 0x1) rfl h rfl ⟨rfl, rfl, rfl, rfl⟩,
    completes_alu (op := 0x2) rfl h rfl ⟨rfl, rfl, rfl, rfl⟩, completes_alu (op := 0x3) rfl h rfl ⟨rfl, rfl, rfl, rfl⟩,
    completes_alu (op := 0x4) rfl h rfl ⟨rfl, rfl, rfl, rfl⟩, completes_alu (op := 0x5) rfl h rfl ⟨rfl, rfl, rfl, rfl⟩,
    completes_alu (op := 0x6) rfl h rfl ⟨rfl, rfl, rfl, rfl⟩, completes_alu (op := 0x7) rfl h rfl ⟨rfl, rfl, rfl, rfl⟩,
    completes_alu (op := 0x8) rfl h rfl ⟨rfl, rfl, rfl, rfl⟩, completes_alu (op := 0x9) rfl h rfl ⟨rfl, rfl, rfl, rfl⟩,
    fun divisor => ?_, fun divisor => ?_, completes_alu (op := 0xB) rfl h rfl ⟨rfl, rfl, rfl, rfl⟩,
    completes_alu (op := 0xC) rfl h rfl ⟨rfl, rfl, rfl, rfl⟩, ?_,
    fun cond cpol => completes_alu (op := 0xE) (sel := selCond k b cond cpol) rfl h (aluValue_sel _ _ _ _)
      (alu_sel_flags wid.toNat a b (selCond k b cond cpol r s.live) r.div0),
    completes_alu (op := 0xF) rfl h rfl ⟨rfl, rfl, rfl, rfl⟩⟩
  · have value : aluValue 0xA (widBits wid.toNat) (a.toNat % 2 ^ widBits wid.toNat) (b.toNat % 2 ^ widBits wid.toNat) false = _ :=
      if_neg divisor
    refine completes_alu (op := 0xA) rfl h value ⟨?_, rfl, rfl, decide_eq_false divisor⟩
    simp only [alu, value]
    rfl
  · have value : aluValue 0xA (widBits wid.toNat) (a.toNat % 2 ^ widBits wid.toNat) (b.toNat % 2 ^ widBits wid.toNat) false = _ :=
      if_pos divisor
    refine completes_alu (op := 0xA) rfl h value ⟨?_, rfl, rfl, decide_eq_true divisor⟩
    simp only [alu, value]
    rfl
  · refine completes_alu (op := 0xD) rfl h (ite_eq_right_iff.mpr fun zero => ?_) ⟨rfl, rfl, rfl, rfl⟩
    rw [zero, List.find?_eq_none.mpr (by simp)]
    rfl

/-! ### Staged effects (R142, R144, R146–R150) -/

/-- A running routine's cluster holds it. -/
theorem cluster_run_of_running {l : Live} {k : Nat} {r : Routine} (h : running l k = some r) : (l.cluster k).run = some r := by
  unfold running at h
  dsimp only at h
  split at h
  · rename_i q held
    rw [held]
    split at h
    · exact h
    · exact absurd h (Option.some_ne_none r).symm
  · exact absurd h (Option.some_ne_none r).symm

/-- Before its commit a routine stages an effect that its lists have room for. -/
theorem takeFx_stages {l : Live} {k : Nat} {r : Routine} {f : Live → Routine → StagedFx → Option StagedFx} {fx : StagedFx}
    (h : running l k = some r) (uncommitted : r.committed = false) (room : f l r r.staged = some fx) :
    takeFx k f l = setRun k { r with staged := fx } l := by
  simp [takeFx, cluster_run_of_running h, uncommitted, room]

/-- A routine holds the staged effects given; nothing that they will act on has changed. -/
def StagesOnly (s : State) (k : Nat) (r : Routine) (fx : StagedFx) (t : State) : Prop :=
  (t.live.cluster k).run = some { r with staged := fx } ∧ t.live.channels = s.live.channels ∧ t.live.tpins = s.live.tpins ∧
    t.live.irq = s.live.irq ∧ t.live.events = s.live.events ∧ SameMemory s t

section

variable {i : Instr} {s : State} {k : Nat} {r : Routine} {fx : StagedFx}

theorem completes_setRun {f : Live → Live} (run : exec i s = ran f s) (effect : f s.live = setRun k { r with staged := fx } s.live) :
    Completes i s (StagesOnly s k r fx) := by
  refine completes_apply run ⟨?_, ?_, ?_, ?_, ?_, sameMemory_apply ?_⟩
  · rw [apply_cluster, effect, setRun_run]
  all_goals simp [effect]

theorem completes_effect {g : Nat → Live → Routine → StagedFx → Option StagedFx} (h : running s.live k = some r)
    (uncommitted : r.committed = false) (run : exec i s = ran (effect k g) s) (room : g (runChan k r) s.live r r.staged = some fx) :
    Completes i s (StagesOnly s k r fx) :=
  completes_setRun run ((onRun_running h _).trans (takeFx_stages h uncommitted room))

end

theorem clrMask_zero {w : Nat} (x : BitVec w) : clrMask x 0#w = x := by
  simp [clrMask]

/-- A list with room takes one entry more. -/
theorem addLimited_room {α : Type} {n : Nat} {x : α} {xs : List α} (h : xs.length < n) : addLimited n x xs = some (xs ++ [x]) := by
  simp [addLimited, h]

/-- Settles O11: every effect by `completes_effect`. Arming and disarming merge with a staged load of the same match (the model's choice,
log entry 50), and a LINK place is taken without a target too (log entry 109). -/
theorem effectsAreStaged : Obligations.EffectsAreStaged := by
  intro s k r h fresh
  refine ⟨fun v fine => ?_, fun v fine => ?_, fun v => ?_, fun v => ?_, ?_, ?_, ?_, ?_, ?_, fun some few => ?_, fun v => ?_,
    fun room fine => ⟨?_, ?_, ?_, fun v => ?_, fun b => ?_⟩, fun m => ?_, fun m => ?_, fun room v => ⟨?_, fun n => ?_⟩, ?_, ?_,
    fun room => ?_, fun room v => ?_, fun i v result room => ?_⟩
  · exact completes_effect h fresh rfl (by simp [fxTimer, fxLoad])
  · exact completes_effect h fresh rfl (by simp [fxTimer, fxLoad])
  · exact completes_effect h fresh rfl rfl
  · exact completes_effect h fresh rfl rfl
  · exact completes_effect h fresh rfl rfl
  · exact completes_effect h fresh rfl rfl
  · exact completes_effect h fresh rfl rfl
  · exact completes_effect h fresh rfl rfl
  · exact completes_effect h fresh rfl rfl
  · exact completes_effect h fresh rfl (by simp [fxTimer, fxPop, Nat.not_le.mpr some, few])
  · exact completes_effect h fresh rfl rfl
  · exact completes_effect h fresh rfl (by simp [fxPact, fxPin, addLimited_room room])
  · exact completes_effect h fresh rfl (by simp [fxPact, fxPin, addLimited_room room])
  · exact completes_effect h fresh rfl (by simp [fxPact, fxPin, addLimited_room room])
  · exact completes_effect h fresh rfl (by simp [fxPact, fxPin, addLimited_room room, levelAct])
  · exact completes_effect h fresh rfl (by simp [fxPact, fxPin, addLimited_room room, levelAct])
  · exact completes_effect h fresh rfl (by simp [fxFlags, clrMask_zero])
  · exact completes_effect h fresh rfl (by simp [fxFlags, clrMask_zero])
  · exact completes_effect h fresh rfl (by simp [fxLinkField, fxLink, addLimited_room room])
  · exact completes_effect h fresh rfl (by simp [fxLinkField, fxLink, addLimited_room room, show ¬8 + n.toNat = 1 by omega])
  · exact completes_effect h fresh rfl rfl
  · exact completes_effect h fresh rfl rfl
  · exact completes_effect h fresh rfl (by simp [fxPost, addLimited_room room])
  · exact completes_effect h fresh rfl (by simp [fxLog, addLimited_room room])
  · refine completes_setRun (f := wordWrite k i.toNat v) rfl ((onRun_running h _).trans (takeFx_stages h fresh ?_))
    unfold fxWord
    dsimp only
    rw [if_neg (by rcases result with high | result <;> simp [*]), addLimited_room room]
    rfl

end Sys2Proof.Machine

/-! Channels and their pins (04): matches, edges, requests, links and the readback of T-pins. -/

namespace Sys2Proof.Machine

open Sys2Proof

/-! ### A channel but for its output pin, and a channel but for its state words -/

/-- A channel without its output and without the failsafe bits of its status: what a pin action leaves alone (R99, R101). -/
def Channel.lessPin (x : Channel) : Channel :=
  { x with out := false, outTclk := 0, outBase := false, outActs := [], outSince := 0, cstat := clrMask x.cstat 0x0780 }

/-- A channel without its state words: what the functions COUNT and FREQ leave alone. -/
def Channel.lessWords (x : Channel) : Channel := { x with sw := [] }

@[simp] theorem drivePin_channels (n : Nat) (l : Live) : (drivePin n l).channels = l.channels := by
  simp [drivePin, apply_ite Live.channels]

@[simp] theorem drivePin_now (n : Nat) (l : Live) : (drivePin n l).now = l.now := by
  simp [drivePin, apply_ite Live.now]

theorem chan_of_channels {l m : Live} (h : m.channels = l.channels) (c : Nat) : m.chan c = l.chan c := by
  unfold Live.chan
  rw [h]

@[simp] theorem drivePins_channels (c : Nat) (l : Live) : (drivePins c l).channels = l.channels :=
  forAll_keeps Live.channels drivePin_channels _ l

theorem clrMask_clrMask {w : Nat} (x m : BitVec w) : clrMask (clrMask x m) m = clrMask x m := by
  simp [clrMask, BitVec.and_assoc]

theorem endFailsafe_lessPin (c : Nat) (l : Live) (d : Nat) : ((endFailsafe c l).chan d).lessPin = (l.chan d).lessPin := by
  unfold endFailsafe
  split
  · rfl
  · dsimp only
    rw [chan_of_channels (forAll_keeps Live.channels (fun n m => by simp) _ _)]
    by_cases e : d = c
    · rw [e, updChan_same]
      simp [Channel.lessPin, clrMask_clrMask]
    · rw [updChan_ne _ _ e]

theorem endFailsafe_other (c : Nat) (l : Live) {d : Nat} (e : d ≠ c) : (endFailsafe c l).chan d = l.chan d := by
  unfold endFailsafe
  split
  · rfl
  · dsimp only
    rw [chan_of_channels (forAll_keeps Live.channels (fun n m => by simp) _ _), updChan_ne _ _ e]

/-- A pin action changes its channel's output, and lifts a failsafe that is over (R99–R101). -/
theorem pinAction_lessPin (c fine writer : Nat) (a : PinAct) (l : Live) (d : Nat) :
    ((pinAction c fine writer a l).chan d).lessPin = (l.chan d).lessPin := by
  unfold pinAction
  extract_lets x same base acts out y z m
  have lifted (k : Nat) : (m.chan k).lessPin = (l.chan k).lessPin := by
    unfold m
    split
    · exact endFailsafe_lessPin c l k
    · rfl
  rw [chan_of_channels (drivePins_channels _ _)]
  by_cases e : d = c
  · rw [e, setChan_same]
    have word : clrMask (m.chan c).cstat 0x0780 = clrMask x.cstat 0x0780 := congrArg Channel.cstat (lifted c)
    have kept : z.lessPin = x.lessPin := by
      unfold z
      split <;> rfl
    calc ({ z with cstat := (m.chan c).cstat } : Channel).lessPin
        = { z.lessPin with cstat := clrMask (m.chan c).cstat 0x0780 } := rfl
      _ = x.lessPin := by rw [word, kept]; rfl
  · rw [setChan_ne _ _ e, lifted d]

/-! ### A match that fires (R97–R100) -/

/-- A channel with requests raised (R102). -/
def Channel.raised (mask : Byte) (x : Channel) : Channel :=
  { x with req := x.req ||| mask, fresh := x.fresh ||| mask, thread := if x.thread = .idle then .ready else x.thread }

theorem raiseReq_chan (c : Nat) (mask : Byte) (l : Live) : (raiseReq c mask l).chan c = (l.chan c).raised mask := by
  simp [raiseReq, Channel.raised]

theorem raiseReq_chan_ne {c d : Nat} (mask : Byte) (l : Live) (h : d ≠ c) : (raiseReq c mask l).chan d = l.chan d := updChan_ne _ _ h

/-- A channel as one of its matches fires, before the pin action. -/
def Channel.afterFire (l : Live) (isB : Bool) (x : Channel) : Channel :=
  let m := if isB then x.mb else x.ma
  let y := if isB then { x with mb := m.fired l } else { x with ma := m.fired l }
  let y := { y with cstat := setBit y.cstat (b2n isB) }
  let y := if (m.atStart l.now).late then { y with cstat := setBit y.cstat 5, lateCnt := y.lateCnt + 1 } else y
  y.raised (if isB then 0x02 else 0x01)

theorem fireOne_lessPin (c : Nat) (isB : Bool) (l : Live) :
    ((fireOne c isB l).chan c).lessPin = ((l.chan c).afterFire l isB).lessPin := by
  unfold fireOne
  dsimp only
  split
  · rw [pinAction_lessPin, raiseReq_chan, setChan_same]
    rfl
  · rw [raiseReq_chan, setChan_same]
    rfl

/-- Without a pin action, a match that fires changes its channel alone. -/
theorem fireOne_plain {c : Nat} {isB : Bool} {l : Live} (h : matchAct (if isB then (l.chan c).mode.mbact else (l.chan c).mode.maact) = none) :
    (fireOne c isB l).chan c = (l.chan c).afterFire l isB ∧ (∀ d, d ≠ c → (fireOne c isB l).chan d = l.chan d) ∧
      (fireOne c isB l).tpins = l.tpins := by
  unfold fireOne
  extract_lets x m v x1 x2 x3 noted raised
  have mode : x3.mode = (l.chan c).mode := by
    unfold x3 x2 x1 x
    split <;> split <;> rfl
  rw [mode, h]
  refine ⟨?_, fun d other => ?_, rfl⟩
  · exact (raiseReq_chan _ _ _).trans (congrArg _ (setChan_same _ _ _))
  · exact (raiseReq_chan_ne _ _ other).trans (setChan_ne _ _ other)

@[simp] theorem fireOne_offEngines (c : Nat) (isB : Bool) (l : Live) : (fireOne c isB l).offEngines = l.offEngines := by
  unfold fireOne
  dsimp only
  split <;> simp

/-- The status bits below those of the failsafe are seen without the pin. -/
theorem lessPin_cstat {x y : Channel} (h : x.lessPin = y.lessPin) {i : Nat} (low : i < 7) : x.cstat.getLsbD i = y.cstat.getLsbD i := by
  have word : (clrMask x.cstat 0x0780).getLsbD i = (clrMask y.cstat 0x0780).getLsbD i :=
    congrArg (fun z : Channel => z.cstat.getLsbD i) h
  have kept (w : BitVec 16) : (clrMask w 0x0780).getLsbD i = w.getLsbD i := by
    unfold clrMask
    rw [BitVec.getLsbD_and, BitVec.getLsbD_not]
    interval_cases i <;> simp
  rw [← kept, word, kept]

theorem setBit_keeps {w n i : Nat} (x : BitVec w) (h : x.getLsbD i = true) : (setBit x n).getLsbD i = true := by
  simp [setBit, h]

/-- What the firing of a match writes into its channel (R97–R100). -/
theorem afterFire_fields (l : Live) (isB : Bool) (x : Channel) :
    let y := x.afterFire l isB
    let late := ((if isB then x.mb else x.ma).atStart l.now).late
    y.ma = (if isB then x.ma else x.ma.fired l) ∧ y.mb = (if isB then x.mb.fired l else x.mb) ∧
      y.cstat = setBit x.cstat (b2n isB) ||| (if late then 0x20 else 0) ∧
      y.req = x.req ||| (if isB then 0x02 else 0x01) ∧
      y.lateCnt = (if late then x.lateCnt + 1 else x.lateCnt) ∧
      y.capa = x.capa ∧ y.capb = x.capb ∧ y.ecnt = x.ecnt ∧ y.mode = x.mode := by
  cases isB
  · by_cases late : (x.ma.atStart l.now).late = true <;> simp [Channel.afterFire, Channel.raised, late, setBit]
  · by_cases late : (x.mb.atStart l.now).late = true <;> simp [Channel.afterFire, Channel.raised, late, setBit]

/-- What a match that fires leaves in its channel, whatever its pin action (R97–R100). -/
theorem fireOne_chan (c : Nat) (isB : Bool) (l : Live) :
    let x := l.chan c
    let y := (fireOne c isB l).chan c
    let late := ((if isB then x.mb else x.ma).atStart l.now).late
    y.ma = (if isB then x.ma else x.ma.fired l) ∧ y.mb = (if isB then x.mb.fired l else x.mb) ∧
      y.cstat.getLsbD (b2n isB) = true ∧ y.req.getLsbD (b2n isB) = true ∧
      (late = true → y.cstat.getLsbD 5 = true) ∧ (∀ i, i < 7 → x.cstat.getLsbD i = true → y.cstat.getLsbD i = true) ∧
      (∀ i, x.req.getLsbD i = true → y.req.getLsbD i = true) ∧
      y.lateCnt = (if late then x.lateCnt + 1 else x.lateCnt) ∧
      y.capa = x.capa ∧ y.capb = x.capb ∧ y.ecnt = x.ecnt ∧ y.mode = x.mode := by
  extract_lets x y late
  have h : y.lessPin = (x.afterFire l isB).lessPin := fireOne_lessPin c isB l
  obtain ⟨ma, mb, cstat, req, lateCnt, capa, capb, ecnt, mode⟩ := afterFire_fields l isB x
  have small : b2n isB < 7 := by cases isB <;> decide
  have req' : y.req = _ := (congrArg Channel.req h).trans req
  refine ⟨(congrArg Channel.ma h).trans ma, (congrArg Channel.mb h).trans mb, ?_, ?_, fun isLate => ?_, fun i low set => ?_,
    fun i set => ?_, (congrArg Channel.lateCnt h).trans lateCnt, (congrArg Channel.capa h).trans capa,
    (congrArg Channel.capb h).trans capb, (congrArg Channel.ecnt h).trans ecnt, (congrArg Channel.mode h).trans mode⟩
  · rw [lessPin_cstat h small, cstat, BitVec.getLsbD_or, setBit_same _ (by omega), Bool.true_or]
  · rw [req']
    cases isB <;> simp [b2n]
  · rw [lessPin_cstat h (by decide), cstat, BitVec.getLsbD_or]
    have bit : late = true := isLate
    simp only [late] at bit
    simp [bit]
  · rw [lessPin_cstat h low, cstat, BitVec.getLsbD_or, setBit_keeps _ set, Bool.true_or]
  · rw [req', BitVec.getLsbD_or, set, Bool.true_or]

theorem fireOne_now (c : Nat) (isB : Bool) (l : Live) : (fireOne c isB l).now = l.now := by
  unfold Live.now
  rw [offEngines_time (fireOne_offEngines c isB l)]

/-- When a match is changed and what it then is depend on the time alone. -/
theorem fired_of_now {l m : Live} (h : m.now = l.now) (x : MatchReg) : x.fired m = x.fired l := by
  unfold MatchReg.fired
  rw [h]

theorem matchFire_up {c : Nat} {l : Live} (up : clusterUp l (c / 64) = true) : matchFire c l =
    if (l.chan c).mb.fires l then fireOne c true (if (l.chan c).ma.fires l then fireOne c false l else l)
    else if (l.chan c).ma.fires l then fireOne c false l else l := by
  simp [matchFire, up]

theorem matchFire_offEngines (c : Nat) (l : Live) : (matchFire c l).offEngines = l.offEngines := by
  simp [matchFire, apply_ite Live.offEngines]

/-- The pin action of a match that fires first in its TCLK sets the output (R99, R101). -/
theorem pinAction_out (c fine writer : Nat) (l : Live) (h : (l.chan c).outTclk ≠ l.now) :
    ((pinAction c fine writer .set l).chan c).out = true := by
  unfold pinAction
  extract_lets x same base acts out y z m
  have once : ¬same := h
  have set : out = true := by simp [out, acts, once, insertAct, applyAct]
  rw [chan_of_channels (drivePins_channels _ _), setChan_same]
  show z.out = true
  unfold z
  split <;> exact set

/-- The first match fires alone and sets the output (R96, R99). -/
theorem fireOne_sets {c : Nat} {l : Live} (act : (l.chan c).mode.maact = 1) (first : (l.chan c).outTclk ≠ l.now) :
    ((fireOne c false l).chan c).out = true := by
  unfold fireOne
  extract_lets x m v x1 x2 x3 noted raised
  have mode : x3.mode = (l.chan c).mode := by
    unfold x3 x2 x1 x
    split <;> split <;> rfl
  have tclk : (raised.chan c).outTclk = (l.chan c).outTclk := by
    unfold raised
    rw [raiseReq_chan, setChan_same]
    unfold x3 x2 x1 x
    split <;> split <;> rfl
  simp only [mode, act, Bool.false_eq_true, if_false]
  exact pinAction_out _ _ _ _ (fun e => first (tclk.symm.trans e))

/-- Settles O8: `fireOne_chan` once for each match that fires, the second on the device that the first leaves. -/
theorem matchFires : Obligations.MatchFires := by
  refine ⟨fun s c up => ?_, fun s c up fires other => ⟨fun act onTime => ?_, fun act first => ?_⟩⟩
  · extract_lets x a b late
    have mem : SameMemory s (s.apply (matchFire c)) := sameMemory_apply (offEngines_mem (matchFire_offEngines _ _))
    refine completes_apply (f := matchFire c) rfl ?_
    extract_lets y
    have chan : y = (matchFire c s.live).chan c := apply_chan _ _ _
    rw [matchFire_up up] at chan
    by_cases hb : b = true
    · rw [if_pos hb] at chan
      by_cases ha : a = true
      · rw [if_pos ha] at chan
        obtain ⟨ma', mb', bit', req', late5', bits', reqs', -, capa', capb', ecnt', mode'⟩ := fireOne_chan c false s.live
        obtain ⟨ma, mb, bit, req, late5, bits, reqs, -, capa, capb, ecnt, mode⟩ := fireOne_chan c true (fireOne c false s.live)
        rw [← chan] at ma mb bit req late5 bits reqs capa capb ecnt mode
        have now := fireOne_now c false s.live
        refine ⟨?_, ?_, fun _ => ⟨bits 0 (by decide) bit', reqs 0 req'⟩, fun _ => ⟨bit, req⟩, fun h => ?_,
          fun _ h => absurd hb (by rw [h]; decide), fun h => absurd ha (by rw [h]; decide),
          capa.trans capa', capb.trans capb', ecnt.trans ecnt', mode.trans mode', mem⟩
        · rw [if_pos ha]; exact ma.trans ma'
        · rw [if_pos hb]; exact mb.trans ((fired_of_now now _).trans (congrArg _ mb'))
        · have either : (x.ma.atStart s.live.now).late = true ∨ (x.mb.atStart s.live.now).late = true := by
            simpa [late, ha, hb] using h
          rcases either with h | h
          · exact bits 5 (by decide) (late5' h)
          · refine late5 ?_
            rw [now]
            exact (congrArg (fun z : MatchReg => (z.atStart s.live.now).late) mb').trans h
      · rw [if_neg ha] at chan
        obtain ⟨ma, mb, bit, req, late5, bits, reqs, -, capa, capb, ecnt, mode⟩ := fireOne_chan c true s.live
        rw [← chan] at ma mb bit req late5 bits reqs capa capb ecnt mode
        refine ⟨?_, ?_, fun h => absurd h ha, fun _ => ⟨bit, req⟩, fun h => late5 ?_, fun h => absurd h ha,
          fun _ h => absurd hb (by rw [h]; decide), capa, capb, ecnt, mode, mem⟩
        · rw [if_neg ha]; exact ma
        · rw [if_pos hb]; exact mb
        · simpa [late, ha, hb] using h
    · rw [if_neg hb] at chan
      by_cases ha : a = true
      · rw [if_pos ha] at chan
        obtain ⟨ma, mb, bit, req, late5, bits, reqs, count, capa, capb, ecnt, mode⟩ := fireOne_chan c false s.live
        rw [← chan] at ma mb bit req late5 bits reqs count capa capb ecnt mode
        have isLate : late = (x.ma.atStart s.live.now).late := by simp [late, ha, hb]
        refine ⟨?_, ?_, fun _ => ⟨bit, req⟩, fun h => absurd h hb, fun h => late5 (isLate ▸ h), fun _ _ h => ?_, fun h => ?_,
          capa, capb, ecnt, mode, mem⟩
        · rw [if_pos ha]; exact ma
        · rw [if_neg hb]; exact mb
        · exact count.trans (if_pos (isLate ▸ h))
        · exact absurd ha (by rw [h]; decide)
      · rw [if_neg ha] at chan
        have effect : matchFire c s.live = s.live := by rw [matchFire_up up, if_neg hb, if_neg ha]
        have same : y = x := chan
        refine ⟨?_, ?_, fun h => absurd h ha, fun h => absurd h hb, fun h => ?_, fun h => absurd h ha, fun _ _ => ?_, ?_, ?_, ?_, ?_, mem⟩
        · rw [if_neg ha, same]
        · rw [if_neg hb, same]
        · simp [late, ha, hb] at h
        · simp [effect]
        all_goals rw [same]
  · refine completes_apply (f := matchFire c) rfl ?_
    have effect := matchFire_up up
    rw [fires, other] at effect
    have none : matchAct (if false then (s.live.chan c).mode.mbact else (s.live.chan c).mode.maact) = none := by rw [act]; rfl
    obtain ⟨chan, others, tpins⟩ := fireOne_plain none
    have effect' : matchFire c s.live = fireOne c false s.live := effect
    refine ⟨?_, fun d h => ?_, ?_, sameMemory_apply (offEngines_mem (matchFire_offEngines _ _))⟩
    · rw [apply_chan, effect', chan]
      simp [Channel.afterFire, Channel.raised, onTime, b2n]
    · rw [apply_chan, effect', others d h]
    · rw [← tpins, ← effect']
      simp
  · refine completes_apply (f := matchFire c) rfl ?_
    have effect := matchFire_up up
    rw [fires, other] at effect
    have effect' : matchFire c s.live = fireOne c false s.live := effect
    refine ⟨?_, ?_, sameMemory_apply (offEngines_mem (matchFire_offEngines _ _))⟩
    · rw [apply_chan, effect']
      exact fireOne_sets act first
    · rw [apply_chan, effect']
      exact (fireOne_chan c false s.live).2.2.2.1

end Sys2Proof.Machine

/-! Edges, requests, links and readback of channels and their pins (04). -/

namespace Sys2Proof.Machine

open Sys2Proof

/-! ### The functions COUNT and FREQ write state words alone (R153) -/

/-- Nothing differs but state words of channels. -/
structure OnlyWords (l m : Live) : Prop where
  offEngines : m.offEngines = l.offEngines
  tpins : m.tpins = l.tpins
  chan : ∀ d, (m.chan d).lessWords = (l.chan d).lessWords

theorem OnlyWords.refl (l : Live) : OnlyWords l l := ⟨rfl, rfl, fun _ => rfl⟩

theorem OnlyWords.trans {a b c : Live} (h : OnlyWords a b) (k : OnlyWords b c) : OnlyWords a c :=
  ⟨k.offEngines.trans h.offEngines, k.tpins.trans h.tpins, fun d => (k.chan d).trans (h.chan d)⟩

theorem setChan_onlyWords {l : Live} {c : Nat} {x : Channel} (h : x.lessWords = (l.chan c).lessWords) : OnlyWords l (l.setChan c x) := by
  refine ⟨setChan_offEngines _ _ _, rfl, fun d => ?_⟩
  by_cases e : d = c
  · rw [e, setChan_same, h]
  · rw [setChan_ne _ _ e]

theorem gateEdge_onlyWords (pin : Nat) (was : Bool) (stamp : Stamp) (c : Nat) (l : Live) : OnlyWords l (gateEdge pin was stamp c l) := by
  unfold gateEdge
  dsimp only
  split
  · exact .refl l
  · split
    · exact setChan_onlyWords rfl
    · split
      · exact .refl l
      · exact setChan_onlyWords rfl

theorem countEdge_onlyWords (c : Nat) (l : Live) : OnlyWords l (countEdge c l) := by
  unfold countEdge
  dsimp only
  split
  · exact setChan_onlyWords rfl
  · exact .refl l

theorem freqEdge_onlyWords (c : Nat) (stamp : Stamp) (l : Live) : OnlyWords l (freqEdge c stamp l) := by
  unfold freqEdge
  dsimp only
  split
  · exact setChan_onlyWords rfl
  · exact .refl l

/-! ### Captures (R103–R105) -/

/-- A channel has captured an edge: the stamp in CAPA, the level, the count and the request (R103). -/
def Channel.Edged (stamp : Stamp) (rising : Bool) (n : BitVec 16) (y : Channel) : Prop :=
  y.capa = stamp ∧ y.input = rising ∧ y.ecnt = n ∧ y.req.getLsbD 2 = true ∧ y.cstat.getLsbD 2 = true

theorem Channel.Edged.ofWords {stamp : Stamp} {rising : Bool} {n : BitVec 16} {x y : Channel} (h : x.Edged stamp rising n)
    (k : y.lessWords = x.lessWords) : y.Edged stamp rising n := by
  obtain ⟨capa, input, ecnt, req, cstat⟩ := h
  exact ⟨(congrArg Channel.capa k).trans capa, (congrArg Channel.input k).trans input, (congrArg Channel.ecnt k).trans ecnt,
    (congrArg (fun z : Channel => z.req.getLsbD 2) k).trans req, (congrArg (fun z : Channel => z.cstat.getLsbD 2) k).trans cstat⟩

theorem loadCapA_edged (c : Nat) (rising : Bool) (stamp : Stamp) (l : Live) :
    ((loadCapA c rising stamp l).chan c).Edged stamp (l.chan c).input ((l.chan c).ecnt + 1) := by
  unfold loadCapA
  extract_lets x x1 n cnt x2 lost
  have fifo : x1.input = x.input ∧ x1.ecnt = x.ecnt := by
    unfold x1
    split
    · exact ⟨rfl, rfl⟩
    · split <;> exact ⟨rfl, rfl⟩
  rw [raiseReq_chan, (noteFlags_acc _ _ _).1, setChan_same]
  refine ⟨rfl, fifo.1, ?_, ?_, setBit_same _ (by decide)⟩
  · show x1.ecnt + 1 = x.ecnt + 1
    rw [fifo.2]
  · simp only [Channel.raised, BitVec.getLsbD_or]
    split <;> simp

theorem loadCapB_edged {c : Nat} {stamp' stamp : Stamp} {rising : Bool} {n : BitVec 16} {l : Live} (h : (l.chan c).Edged stamp rising n) :
    ((loadCapB c stamp' l).chan c).Edged stamp rising n := by
  obtain ⟨capa, input, ecnt, req, cstat⟩ := h
  unfold loadCapB
  rw [raiseReq_chan, updChan_same, (noteBit_acc _ _ _ _).1]
  exact ⟨capa, input, ecnt, by simp only [Channel.raised, BitVec.getLsbD_or, req, Bool.true_or], setBit_keeps _ cstat⟩

@[simp] theorem loadCapA_keeps (c : Nat) (rising : Bool) (stamp : Stamp) (l : Live) :
    (loadCapA c rising stamp l).tpins = l.tpins ∧ (loadCapA c rising stamp l).mem = l.mem := by
  simp [loadCapA, raiseReq]

@[simp] theorem loadCapB_keeps (c : Nat) (stamp : Stamp) (l : Live) :
    (loadCapB c stamp l).tpins = l.tpins ∧ (loadCapB c stamp l).mem = l.mem := by
  simp [loadCapB, raiseReq]

/-- An edge of a selected kind at a channel whose pin is a ball (R103–R105). -/
theorem inputEdge_captures {c : Nat} {stamp : Stamp} {rising : Bool} {l : Live} (up : clusterUp l (c / 64) = true)
    (ball : l.cfg (0x2200 + c) 4 < 192) (edge : (l.chan c).input = !rising) (selected : edgeSel (l.chan c).mode.caedge rising = true) :
    ((inputEdge c stamp rising l).chan c).Edged stamp rising ((l.chan c).ecnt + 1) ∧
      ((inputEdge c stamp rising l).tpin (l.cfg (0x2200 + c) 4)).level = (rising != l.flag (0x2200 + c) 6) ∧
      (inputEdge c stamp rising l).mem = l.mem := by
  unfold inputEdge
  extract_lets pin x was seenAt m1 m2 m3 m4
  have gated : OnlyWords m2 m3 := by
    unfold m3
    split
    · exact .refl _
    · exact forAll_rel OnlyWords.refl (fun _ _ _ => OnlyWords.trans) (fun e m => gateEdge_onlyWords pin was stamp e m) _ _
  have seen : (m3.chan c).lessWords = ({ x with input := rising } : Channel).lessWords := by
    rw [gated.chan c]
    exact congrArg Channel.lessWords (setChan_same _ _ _)
  have loaded := loadCapA_edged c rising stamp m3
  rw [show (m3.chan c).input = rising from congrArg Channel.input seen,
    show (m3.chan c).ecnt = x.ecnt from (congrArg Channel.ecnt seen :)] at loaded
  have words := (countEdge_onlyWords c (loadCapA c rising stamp m3)).trans (freqEdge_onlyWords c stamp _)
  have fourth : m4 = freqEdge c stamp (countEdge c (loadCapA c rising stamp m3)) := if_pos selected
  have edged : (m4.chan c).Edged stamp rising (x.ecnt + 1) := fourth ▸ loaded.ofWords (words.chan c)
  have tpins : m4.tpins = m1.tpins := by
    rw [fourth, words.tpins, (loadCapA_keeps _ _ _ _).1, gated.tpins]
    rfl
  have mem : m4.mem = l.mem := by
    rw [fourth, offEngines_mem words.offEngines, (loadCapA_keeps _ _ _ _).2, offEngines_mem gated.offEngines]
    rfl
  have level (m : Live) (h : m.tpins = m1.tpins) : (m.tpin pin).level = seenAt := by
    unfold Live.tpin
    rw [h]
    exact congrArg TPin.level (updTpin_same l pin (fun t => { t with level := seenAt }))
  have low : ¬192 ≤ pin := Nat.not_le.mpr ball
  have other : ¬x.input = rising := by
    rw [show x.input = !rising from edge]
    cases rising <;> decide
  rw [if_neg (by simp [up, low, other])]
  split
  · refine ⟨loadCapB_edged edged, level _ ?_, ?_⟩
    · rw [(loadCapB_keeps _ _ _).1, tpins]
    · rw [(loadCapB_keeps _ _ _).2, mem]
  · exact ⟨edged, level _ tpins, mem⟩


/-! ### Links, and the readback of T-pins (R106, R110, R293) -/

/-- A link request that a channel receives (R106). -/
theorem latchLink_takes {c : Nat} {data : Word} {l : Live} (small : c < 512) (up : clusterUp l (c / 64) = true) :
    ((latchLink c data l).chan c).lnkd = data ∧ ((latchLink c data l).chan c).req = (l.chan c).req ||| 0x10 ∧
      ((latchLink c data l).chan c).linkCnt =
        (if (l.chan c).req.getLsbD 4 && !(l.chan c).linkSampled then (l.chan c).linkCnt + 1 else (l.chan c).linkCnt) := by
  unfold latchLink
  rw [if_neg (by simp [up, Nat.not_le.mpr small])]
  extract_lets x ovr x1 noted
  rw [raiseReq_chan, setChan_same]
  unfold x1
  by_cases h : ovr = true
  · rw [if_pos h, if_pos h]
    exact ⟨rfl, rfl, rfl⟩
  · rw [if_neg h, if_neg h]
    exact ⟨rfl, rfl, rfl⟩

theorem drivePin_tpin (n : Nat) (l : Live) : (drivePin n l).tpin n =
    if pinTarget l n = (l.tpin n).driven then l.tpin n
    else { l.tpin n with driven := pinTarget l n, edgeAt := l.now, checkDue := (pinTarget l n).isSome,
                         level := (pinTarget l n).getD (l.tpin n).level } := by
  unfold drivePin
  dsimp only
  split
  · rfl
  · rw [setTpin_same]

theorem drivePin_status (n : Nat) (l : Live) :
    ((drivePin n l).tpin n).status = (l.tpin n).status ∧ ((drivePin n l).tpin n).shortCnt = (l.tpin n).shortCnt := by
  rw [drivePin_tpin]
  split <;> exact ⟨rfl, rfl⟩

/-- A pin in short is in high impedance (R110). -/
theorem drivePin_short {n : Nat} {l : Live} (short : (l.tpin n).status.getLsbD 2 = true) : ((drivePin n l).tpin n).driven = none := by
  have target : pinTarget l n = none := by simp [pinTarget, short]
  rw [drivePin_tpin, target]
  split
  · rename_i h
    exact h.symm
  · rfl

@[simp] theorem tripPair_tpins (cause u : Nat) (l : Live) : (tripPair cause u l).tpins = l.tpins := by
  simp [tripPair, apply_ite Live.tpins]

@[simp] theorem tripPairs_tpins (mask cause : Nat) (l : Live) : (tripPairs mask cause l).tpins = l.tpins := by
  unfold tripPairs
  exact forAll_keeps Live.tpins (fun u m => by simp [apply_ite Live.tpins]) _ l

@[simp] theorem disarm_tpins (cause : Nat) (l : Live) : (disarm cause l).tpins = l.tpins := by
  unfold disarm
  extract_lets w st w1 w2 noted idle tripped recorded
  have idle_tpins : idle.tpins = l.tpins := forAll_keeps Live.tpins (fun u m => by simp) _ noted
  have kept : recorded.tpins = l.tpins := by simp [recorded, tripped, idle_tpins]
  split
  · rfl
  · split <;> simp [kept]

theorem tpin_of_tpins {l m : Live} (h : m.tpins = l.tpins) (n : Nat) : m.tpin n = l.tpin n := by
  unfold Live.tpin
  rw [h]

/-- The third mismatch in a row (R110, R293). -/
theorem tpinReadback_short {n : Nat} {level : Bool} {l : Live} (due : (l.tpin n).checkDue = true)
    (now : l.now = (l.tpin n).edgeAt + 8) (wrong : (l.tpin n).driven = some (!level)) (third : 2 ≤ (l.tpin n).mismatches) :
    ((tpinReadback n level l).tpin n).status = setBit (setBit (l.tpin n).status 1) 2 ∧
      ((tpinReadback n level l).tpin n).shortCnt = (l.tpin n).shortCnt + 1 ∧ ((tpinReadback n level l).tpin n).driven = none ∧
      (tpinReadback n level l).pwm.arm = .disarmed ∧ (tpinReadback n level l).mem = l.mem := by
  unfold tpinReadback
  extract_lets t st t1 src
  rw [if_neg (by simp [t, due, now]), if_pos wrong, if_pos third]
  generalize hs : noteBit (0x3D00 + n) 1 1 (l.setTpin n { t1 with level := level }) = short
  have pin : short.tpin n = { t1 with level := level } := hs ▸ setTpin_same _ _ _
  have shown : (disarm 4 (reportJournal src 0x52 (2 * 2 ^ 24) (drivePin n short))).tpin n = (drivePin n short).tpin n :=
    tpin_of_tpins (by simp) n
  have kept := drivePin_status n short
  refine ⟨?_, ?_, ?_, disarm_arm _ _, ?_⟩
  · rw [shown, kept.1, pin]
  · rw [shown, kept.2, pin]
  · rw [shown]
    refine drivePin_short ?_
    rw [pin]
    exact setBit_same _ (by decide)
  · rw [disarm_mem]
    have driven : (drivePin n short).mem = short.mem := offEngines_mem (drivePin_offEngines _ _)
    simp only [reportJournal_keeps, driven]
    simp [← hs]

/-- Settles O9: edges by `inputEdge_captures`, links by `latchLink_takes`, the short by `tpinReadback_short`. The level at a ball is the last
driven, read back or accepted (the model's choice, log entry 18). -/
theorem channelCommandsComplete : Obligations.ChannelCommandsComplete := by
  refine ⟨fun s c stamp rising up pin edge selected => ?_, fun s conn c e r taken queued => ?_, fun s conn c value reaches => ?_,
    fun s c data up => ?_, fun s n level due now right => ?_, fun s conn n reaches may => ?_, fun s n level due now wrong third => ?_⟩
  · obtain ⟨⟨capa, input, ecnt, req, cstat⟩, level, mem⟩ := inputEdge_captures (stamp := stamp) up pin edge selected
    refine completes_apply (f := inputEdge c stamp rising) rfl ?_
    rw [apply_chan, apply_tpin]
    exact ⟨capa, input, ecnt, req, cstat, level, sameMemory_apply mem⟩
  · have popped : popFifo c (touch conn s.live) =
        (setBit e 63, (touch conn s.live).setChan c { s.live.chan c with fifo := r, fifoLast := e }) := by
      simp [popFifo, queued]
    refine ⟨_, rfl, ?_, ?_, sameMemory_apply ?_⟩ <;> simp [taken, popped, answer]
  · refine completes_object (f := done (raiseReq c 0x20)) rfl reaches rfl ⟨?_, answeredDone_reply _ _ _, sameMemory_reply ?_⟩
    · simp [raiseReq_chan, Channel.raised]
    · simp [raiseReq]
  · obtain ⟨lnkd, req, count⟩ := latchLink_takes (data := data) c.isLt up
    refine completes_apply (f := latchLink c data) rfl ?_
    rw [apply_chan]
    exact ⟨lnkd, req, count, sameMemory_apply (offEngines_mem (latchLink_offEngines _ _ _))⟩
  · have effect : tpinReadback n level s.live = s.live.setTpin n { s.live.tpin n with mismatches := 0, checkDue := false, level := level } := by
      simp [tpinReadback, due, now, right]
    refine completes_apply (f := tpinReadback n level) rfl ⟨?_, ?_, sameMemory_apply ?_⟩ <;> simp [effect]
  · have effect : done (clearTpinShort n) (touch conn s.live) =
        (drivePin n ((touch conn s.live).updTpin n (fun t => { t with status := clrBit (clrBit t.status 1) 2 })), 0) :=
      Prod.ext (if_neg may) rfl
    refine completes_object rfl reaches effect
      ⟨?_, answeredDone_reply _ _ _, sameMemory_reply ?_⟩
    · rw [apply_tpin, (reply_acc _ _ _).2.1, (drivePin_status _ _).1, updTpin_same, (touch_acc _ _).2.1]
    · rw [offEngines_mem (drivePin_offEngines _ _)]
      simp
  · obtain ⟨status, count, driven, arm, mem⟩ := tpinReadback_short due now wrong third
    refine completes_apply (f := tpinReadback n level) rfl ?_
    rw [apply_tpin]
    refine ⟨status, count, driven, ?_, sameMemory_apply mem⟩
    simpa using arm

end Sys2Proof.Machine

/-! Wheel trackers (08): accepted edges and deadlines. -/

namespace Sys2Proof.Machine

open Sys2Proof

/-! ### What the steps of a tracker leave of it -/

@[simp] theorem startTooth_now (w at_ k : Nat) (toBase : Bool) (l : Live) : (startTooth w at_ k toBase l).now = l.now := by
  unfold startTooth
  dsimp only
  rw [predictAfresh_now]
  split <;> simp

/-- The clock of the next tooth (R217–R219): base, instant, span and number; of the rest of the tracker the lane and its marks. -/
theorem startTooth_wheel (w at_ k : Nat) (toBase : Bool) (l : Live) :
    let x := l.wheel w
    let y := (startTooth w at_ k toBase l).wheel w
    y = { x with prevBase := x.base, prevAt := x.baseAt, base := (x.base + x.span) % x.cyc, baseAt := at_, span := toothSpan l w k,
                 tooth := k, lane := y.lane, sinceRef := y.sinceRef, status := y.status, catching := y.catching } ∧
      ∀ i, i ≠ 9 → i ≠ 10 → y.status.getLsbD i = x.status.getLsbD i := by
  unfold startTooth
  extract_lets x nb atEnd x1 x2 x3 m n y
  have shown : y = x3 := by
    unfold y n m
    rw [predictAfresh_wheel]
    split <;> simp
  have moved : x2 = { x1 with lane := x2.lane, sinceRef := x2.sinceRef } := by
    unfold x2
    split <;> rfl
  rw [shown]
  refine ⟨?_, fun i nine ten => ?_⟩
  · unfold x3 Wheel.marks
    rw [moved]
  · unfold x3 Wheel.marks
    rw [putBit_other _ _ ten, putBit_other _ _ nine, moved]

@[simp] theorem startTooth_mem (w at_ k : Nat) (toBase : Bool) (l : Live) : (startTooth w at_ k toBase l).mem = l.mem := by
  unfold startTooth
  dsimp only
  split <;> simp

/-- Without a pending reference stamp a tooth measures nothing (R224). -/
theorem measureIfDue_none {w : Nat} {l : Live} (h : (l.wheel w).refEdge = none) : measureIfDue w l = l := by
  simp [measureIfDue, h]

/-! ### A reference edge and the other trackers (R224–R226) -/

/-- Another tracker and the fabric memory: what a change of one tracker leaves alone. -/
def KeepsWheel (v : Nat) (l m : Live) : Prop := m.wheel v = l.wheel v ∧ m.mem = l.mem

theorem KeepsWheel.refl (v : Nat) (l : Live) : KeepsWheel v l l := ⟨rfl, rfl⟩

theorem KeepsWheel.trans {v : Nat} {a b c : Live} (h : KeepsWheel v a b) (k : KeepsWheel v b c) : KeepsWheel v a c :=
  ⟨k.1.trans h.1, k.2.trans h.2⟩

section

variable {v w : Nat} (other : v ≠ w)

include other

theorem setWheel_keepsWheel (x : Wheel) (l : Live) : KeepsWheel v l (l.setWheel w x) := ⟨setWheel_ne _ _ other, by simp⟩

theorem setLane_keepsWheel (cyc new : Nat) (l : Live) : KeepsWheel v l (setLane w cyc new l) := by
  unfold setLane
  extract_lets x base s y
  exact (setWheel_keepsWheel other y l).trans ⟨laneSet_wheel _ _ _ _ _, by simp⟩

theorem wheelState_keepsWheel (new : WheelState) (code : Nat) (l : Live) : KeepsWheel v l (wheelState w new code l) :=
  ⟨wheelState_ne _ _ _ _ other, wheelState_mem _ _ _ _⟩

theorem measurePhase_keepsWheel (tref : Nat) (l : Live) : KeepsWheel v l (measurePhase w tref l) := by
  unfold measurePhase
  extract_lets x s den off phi x1 x2 rev old m off' m1
  have stored : KeepsWheel v l m := setWheel_keepsWheel other _ l
  split
  · split
    · refine .trans (.trans ?_ (setLane_keepsWheel other _ _ _)) (wheelState_keepsWheel other _ _ _)
      exact stored.trans ⟨by simp [m1, setWheel_ne _ _ other], by simp [m1]⟩
    · exact stored
  · split
    · refine .trans (.trans ?_ (setLane_keepsWheel other _ _ _)) (wheelState_keepsWheel other _ _ _)
      exact stored.trans (setWheel_keepsWheel other _ m)
    · exact stored
  · exact stored

theorem measureIfDue_keepsWheel (l : Live) : KeepsWheel v l (measureIfDue w l) := by
  unfold measureIfDue
  dsimp only
  split
  · split
    · exact measurePhase_keepsWheel other _ l
    · exact .refl v l
  · exact .refl v l

theorem referenceEdge_keepsWheel (tref : Nat) (l : Live) : KeepsWheel v l (referenceEdge tref w l) := by
  unfold referenceEdge
  dsimp only
  split
  · exact (setWheel_keepsWheel other _ l).trans (measureIfDue_keepsWheel other _)
  · exact setWheel_keepsWheel other _ l

end

/-- Tooth 0 of a tracker changes the trackers that name it, not itself (R224). -/
theorem tellPartners_keepsWheel (w tref : Nat) (l : Live) : KeepsWheel w l (tellPartners w tref l) := by
  refine forAll_rel (KeepsWheel.refl w) (fun _ _ _ => KeepsWheel.trans) (fun v m => ?_) _ l
  split
  · rename_i named
    exact referenceEdge_keepsWheel (by simp at named; omega) tref m
  · exact .refl w m

/-! ### Accepted edges (R211–R217) -/

theorem enter_seeking_edges (code : Nat) (x : Wheel) : (x.enter .seeking code).edges = x.edges ∧
    (x.enter .seeking code).lastEdge = x.lastEdge := ⟨rfl, rfl⟩

section

variable {l : Live} {w e : Nat}

theorem activeEdge_first (first : (l.wheel w).lastEdge = none) (stopped : (l.wheel w).state = .stopped) :
    ((activeEdge w e l).wheel w).state = .seeking ∧ ((activeEdge w e l).wheel w).lastEdge = some e ∧
      ((activeEdge w e l).wheel w).edges = 1 ∧ ((activeEdge w e l).wheel w).lane = (l.wheel w).lane ∧
      (activeEdge w e l).mem = l.mem := by
  have effect : activeEdge w e l = wheelState w .seeking 11 (l.setWheel w { (l.wheel w).stamped e with edges := 1 }) := by
    simp [activeEdge, first, stopped]
  rw [effect, wheelState_same, setWheel_same, wheelState_mem]
  exact ⟨rfl, rfl, rfl, rfl, by simp⟩

variable {t : Nat} (before : (l.wheel w).lastEdge = some t)

include before

/-- The second edge gives the first period (R212). -/
theorem activeEdge_second (none : (l.wheel w).refNum = 0) (slow : 2048 ≤ e - t) :
    activeEdge w e l = l.setWheel w ((newPeriod l w (e - t) 1 ((l.wheel w).stats (e - t) 1)).stamped e) := by
  simp [activeEdge, before, none, Nat.not_lt.mpr slow]

theorem activeEdge_noise (some : (l.wheel w).refNum ≠ 0)
    (close : ratioBelow (l.wheel w) (e - t) 1 (ratioLimit l w 0x20) = true) : activeEdge w e l = noiseEdge w l := by
  simp [activeEdge, before, some, close]

theorem activeEdge_sorted (some : (l.wheel w).refNum ≠ 0)
    (far : ratioBelow (l.wheel w) (e - t) 1 (ratioLimit l w 0x20) = false) :
    activeEdge w e l = if (l.wheel w).state.runs then syncedEdge w e (e - t) l else seekEdge w e (e - t) l := by
  simp [activeEdge, before, some, far]

end

/-- A noise edge is counted and flagged, and nothing more (R213, R229). -/
theorem noiseEdge_wheel (w : Nat) (l : Live) :
    (noiseEdge w l).wheel w = { l.wheel w with
      status := setBit (l.wheel w).status 2, noiseCnt := (l.wheel w).noiseCnt + 1, sinceNoise := ((noiseEdge w l).wheel w).sinceNoise } ∧
      (noiseEdge w l).events = l.events ∧ (noiseEdge w l).mem = l.mem := by
  unfold noiseEdge
  dsimp only
  split <;> simp

/-- The new period and its statistics leave the rest of the tracker alone (R217, R223). -/
theorem newPeriod_wheel (l : Live) (w num div : Nat) (x : Wheel) :
    newPeriod l w num div x = { x with prevNum := x.refNum, prevDiv := x.refDiv, refNum := num, refDiv := div, toothNum := num, toothDiv := div,
                                       tickLen := (newPeriod l w num div x).tickLen, period := (newPeriod l w num div x).period } := rfl

theorem enterPre_wheel (w e code : Nat) (l : Live) :
    let y := (enterPre w e code l).wheel w
    y.state = .preSync ∧ y.lane = 0 ∧ y.tooth = 0 ∧ y.base = 0 ∧ y.baseAt = e * 65536 ∧ y.refNum = (l.wheel w).refNum ∧
      y.refDiv = (l.wheel w).refDiv ∧ (enterPre w e code l).mem = l.mem := by
  simp [enterPre, Wheel.marks]


theorem toothSpan_of_cfg {l m : Live} (h : ∀ i j, m.cfg i j = l.cfg i j) (w k : Nat) : toothSpan m w k = toothSpan l w k := by
  unfold toothSpan wheelN wheelM
  rw [h, h]

/-- A tooth that is accepted without a pending reference stamp (R213, R216, R217). -/
theorem acceptTooth_wheel {l : Live} {w e d pos : Nat} (plain : (l.wheel w).refEdge = none) :
    let x := l.wheel w
    let y := (acceptTooth w e d pos l).wheel w
    let enters := closesGap l w && x.state = .preSync
    y.state = (if enters then .sync else x.state) ∧ y.tooth = (if closesGap l w then 0 else x.tooth + 1) ∧
      y.base = (x.base + x.span) % x.cyc ∧ y.baseAt = e * 65536 ∧ y.span = toothSpan l w y.tooth ∧ y.refNum = d ∧ y.refDiv = pos ∧
      y.run = (if pos = 1 then x.run + 1 else 0) ∧ y.lastEdge = some e ∧ (enters = true → y.status.getLsbD 0 = true) ∧
      (acceptTooth w e d pos l).mem = l.mem := by
  extract_lets x y enters
  obtain ⟨k, hk⟩ : ∃ k, k = if closesGap l w then 0 else x.tooth + 1 := ⟨_, rfl⟩
  obtain ⟨x1, hx1⟩ : ∃ x1, x1 = { (newPeriod l w d pos (x.stats d pos)).stamped e with run := if pos = 1 then x.run + 1 else 0, virt := false } :=
    ⟨_, rfl⟩
  obtain ⟨m, hm⟩ : ∃ m, m = if enters then wheelState w .sync 8 (l.setWheel w x1) else l.setWheel w x1 := ⟨_, rfl⟩
  have m_wheel : m.wheel w = { x1 with state := (if enters then .sync else x.state), status := (m.wheel w).status } := by
    rw [hm]
    split
    · rw [wheelState_same, setWheel_same]
      rfl
    · rw [setWheel_same, hx1]
      rfl
  have m_bit : enters = true → (m.wheel w).status.getLsbD 0 = true := by
    intro h
    rw [hm, if_pos h, wheelState_same]
    exact setBit_same _ (by decide)
  have m_span : toothSpan m w k = toothSpan l w k := toothSpan_of_cfg (fun i j => by rw [hm]; split <;> simp) w k
  have m_mem : m.mem = l.mem := by
    rw [hm]
    split <;> simp
  obtain ⟨started, kept⟩ := startTooth_wheel w (e * 65536) k true m
  obtain ⟨n, hn⟩ : ∃ n, n = if closesGap l w then tellPartners w e (startTooth w (e * 65536) k true m) else startTooth w (e * 65536) k true m :=
    ⟨_, rfl⟩
  have told : KeepsWheel w (startTooth w (e * 65536) k true m) n := by
    rw [hn]
    split
    · exact tellPartners_keepsWheel w e _
    · exact .refl w _
  have quiet : (n.wheel w).refEdge = none := by
    rw [told.1, started, m_wheel, hx1]
    exact plain
  have result : acceptTooth w e d pos l = n := by
    refine Eq.trans ?_ (measureIfDue_none quiet)
    rw [hn, hk, hm, hx1]
    rfl
  have shown : y = (startTooth w (e * 65536) k true m).wheel w := by
    unfold y
    rw [result, told.1]
  rw [shown, result, told.2, startTooth_mem, m_mem]
  refine ⟨?_, ?_, ?_, ?_, ?_, ?_, ?_, ?_, ?_, fun h => (kept 0 (by decide) (by decide)).trans (m_bit h), rfl⟩
  · rw [started, m_wheel]
  · rw [started, hk]
  · rw [started, m_wheel, hx1]
    rfl
  · rw [started]
  · rw [started]
    exact m_span
  · rw [started, m_wheel, hx1]
    rfl
  · rw [started, m_wheel, hx1]
    rfl
  · rw [started, m_wheel, hx1]
  · rw [started, m_wheel, hx1]
    rfl

/-- A gap candidate in SEEKING begins PRE-SYNC (R215). -/
theorem seekEdge_candidate {l : Live} {w e d : Nat} (slow : 2048 ≤ d) (candidate : gapCandidate l w d = true) :
    seekEdge w e d l = enterPre w e 10
      (l.setWheel w ((newPeriod l w d (wheelM l w + 1) ((l.wheel w).stats d (wheelM l w + 1))).stamped e)) := by
  simp [seekEdge, Nat.not_lt.mpr slow, candidate]

/-- The edge that closes a gap of the right length is accepted (R213, R216). -/
theorem syncedEdge_gap {l : Live} {w e d : Nat} (gap : closesGap l w = true) (slow : 2048 * (wheelM l w + 1) ≤ d)
    (notShort : ratioBelow (l.wheel w) d (wheelM l w + 1) (ratioLimit l w 0x21) = false)
    (notLong : ratioAbove (l.wheel w) d (wheelM l w + 1) (ratioLimit l w 0x22) = false) :
    syncedEdge w e d l = acceptTooth w e d (wheelM l w + 1) l := by
  have real : (l.wheel w).virt = false := by
    unfold closesGap at gap
    simp at gap
    exact gap.2
  have sorted : sortEdge l w d = (wheelM l w + 1, 0) := by
    simp [sortEdge, real, gap, notShort, notLong, Nat.not_lt.mpr slow]
  simp [syncedEdge, gap, sorted]

/-- An edge away from the gap, within the limit of a missed tooth, is accepted (R213, R217). -/
theorem syncedEdge_tooth {l : Live} {w e d : Nat} (real : (l.wheel w).virt = false) (inside : closesGap l w = false)
    (short : ratioBelow (l.wheel w) d 1 (ratioLimit l w 0x23) = true) (slow : 2048 ≤ d) :
    syncedEdge w e d l = acceptTooth w e d 1 l := by
  have sorted : sortEdge l w d = (1, 0) := by
    simp [sortEdge, real, inside, short, Nat.not_lt.mpr slow]
  simp [syncedEdge, short, sorted]

/-! ### The edge that a tracker takes -/

/-- The device as a tracker sees an edge that it takes: the settings of this instant held (R227). -/
def atEdge (w : Nat) (l : Live) : Live := l.updWheel w (fun x => { x with held := heldNow l w })

theorem atEdge_wheel (w : Nat) (l : Live) : (atEdge w l).wheel w = { l.wheel w with held := heldNow l w } := updWheel_same _ _ _

@[simp] theorem atEdge_keeps (w : Nat) (l : Live) : (∀ i j, (atEdge w l).cfg i j = l.cfg i j) ∧ (atEdge w l).events = l.events ∧
    (atEdge w l).mem = l.mem := by
  simp [atEdge]

theorem atEdge_ratioLimit (w v sub : Nat) (l : Live) : ratioLimit (atEdge w l) v sub = ratioLimit l v sub := rfl

theorem atEdge_closesGap (w : Nat) (l : Live) : closesGap (atEdge w l) w = closesGap l w := by
  unfold closesGap
  rw [atEdge_wheel]
  rfl

theorem atEdge_gapCandidate (w d : Nat) (l : Live) : gapCandidate (atEdge w l) w d = gapCandidate l w d := by
  unfold gapCandidate
  rw [atEdge_wheel]
  rfl

theorem completes_toothEdge {s : State} {w : Fin 4} {rising : Bool} {stamp : Stamp} {m : Live} {P : State → Prop}
    (takes : takesEdge s.live w rising stamp = true) (effect : activeEdge w (s.live.widen stamp) (atEdge w s.live) = m)
    (h : P (s.apply fun _ => m)) : Completes (.toothEdge w ⟨rising, stamp⟩) s P := by
  refine completes_apply (f := toothEdge w rising stamp) rfl ?_
  rw [apply_congr (f := toothEdge w rising stamp) (g := fun _ => m) ((if_pos takes).trans effect)]
  exact h

/-- Settles O19: the branch of `activeEdge` that the edge takes, on the device with the settings of the edge held. -/
theorem toothEdgesComplete : Obligations.ToothEdgesComplete := by
  intro s w stamp rising takes x e d k
  have seen : (atEdge w s.live).wheel w = { x with held := heldNow s.live w } := atEdge_wheel w s.live
  have kept := (atEdge_keeps w s.live).2.2
  refine ⟨fun first stopped => ?_, fun before none slow => ?_, fun before some close => ?_,
    fun before some far seeking slow candidate => ?_, fun before some far pre quiet gap notShort notLong slow => ?_,
    fun before some far runs quiet real inside short slow => ?_⟩
  · refine completes_toothEdge takes rfl ?_
    obtain ⟨state, last, edges, lane, mem⟩ := activeEdge_first (l := atEdge w s.live) (w := w) (e := e)
      (by rw [seen]; exact first) (by rw [seen]; exact stopped)
    rw [apply_wheel]
    refine ⟨state, last, edges, ?_, sameMemory_apply (mem.trans kept)⟩
    rw [lane, seen]
  all_goals obtain ⟨t, before⟩ := Option.isSome_iff_exists.mp before
  all_goals have gone : d = e - t := by simp only [d, before, Option.getD_some]
  all_goals have last : ((atEdge w s.live).wheel w).lastEdge = .some t := by rw [seen]; exact before
  · have effect := activeEdge_second last (e := e) (by rw [seen]; exact none) (by omega)
    refine completes_toothEdge takes effect ?_
    rw [apply_wheel, setWheel_same, seen, ← gone]
    exact ⟨rfl, rfl, rfl, rfl, rfl, sameMemory_apply (by simp)⟩
  · have effect := activeEdge_noise last (e := e) (by rw [seen]; exact some) (by rw [seen, ← gone]; exact close)
    refine completes_toothEdge takes effect ?_
    obtain ⟨wheel, events, mem⟩ := noiseEdge_wheel w (atEdge w s.live)
    rw [apply_wheel, wheel, seen]
    exact ⟨rfl, rfl, rfl, rfl, rfl, rfl, by simp [events], sameMemory_apply (mem.trans kept)⟩
  · have effect := activeEdge_sorted last (e := e) (by rw [seen]; exact some) (by rw [seen, ← gone]; exact far)
    rw [if_neg (by rw [seen]; simp [seeking, WheelState.runs]), ← gone,
      seekEdge_candidate slow ((atEdge_gapCandidate _ _ _).trans candidate)] at effect
    refine completes_toothEdge takes effect ?_
    obtain ⟨state, lane, tooth, base, baseAt, refNum, refDiv, mem⟩ := enterPre_wheel w e 10
      ((atEdge w s.live).setWheel w ((newPeriod (atEdge w s.live) w d k (((atEdge w s.live).wheel w).stats d k)).stamped e))
    rw [setWheel_same] at refNum refDiv
    rw [apply_wheel]
    exact ⟨state, lane, tooth, base, baseAt, refNum, refDiv, sameMemory_apply (mem.trans (by simp))⟩
  · have effect := activeEdge_sorted last (e := e) (by rw [seen]; exact some) (by rw [seen, ← gone]; exact far)
    rw [if_pos (by rw [seen]; simp [pre, WheelState.runs]), ← gone, syncedEdge_gap ((atEdge_closesGap _ _).trans gap) slow
      (by rw [seen]; exact notShort) (by rw [seen]; exact notLong)] at effect
    refine completes_toothEdge takes effect ?_
    obtain ⟨state, tooth, base, baseAt, span, refNum, refDiv, run, lastEdge, bit, mem⟩ :=
      acceptTooth_wheel (l := atEdge w s.live) (w := w) (e := e) (d := d) (pos := k) (by rw [seen]; exact quiet)
    have enters : (closesGap (atEdge w s.live) w && decide (((atEdge w s.live).wheel w).state = .preSync)) = true := by
      rw [atEdge_closesGap, gap, seen]
      exact decide_eq_true pre
    rw [apply_wheel]
    refine ⟨state.trans (if_pos enters), bit enters, tooth.trans ?_, baseAt, lastEdge, sameMemory_apply (mem.trans kept)⟩
    rw [atEdge_closesGap, gap]
    rfl
  · have effect := activeEdge_sorted last (e := e) (by rw [seen]; exact some) (by rw [seen, ← gone]; exact far)
    rw [if_pos (by rw [seen]; exact runs), ← gone, syncedEdge_tooth (by rw [seen]; exact real) ((atEdge_closesGap _ _).trans inside)
      (by rw [seen]; exact short) slow] at effect
    refine completes_toothEdge takes effect ?_
    obtain ⟨state, tooth, base, baseAt, span, refNum, refDiv, run, lastEdge, bit, mem⟩ :=
      acceptTooth_wheel (l := atEdge w s.live) (w := w) (e := e) (d := d) (pos := 1) (by rw [seen]; exact quiet)
    rw [atEdge_closesGap, inside, seen] at state tooth
    rw [seen] at base run
    rw [apply_wheel]
    refine ⟨state, tooth, base, baseAt, ?_, refNum, refDiv, run, lastEdge, sameMemory_apply (mem.trans kept)⟩
    rw [span, tooth]
    rfl

/-! ### Deadlines (R213, R215, R218–R220, R225) -/

/-- The marks of the lane stand in bits 9 and 10 of the status (R231). -/
theorem marks_status (x : Wheel) (holding catching : Bool) :
    (x.marks holding catching).status.getLsbD 9 = holding ∧ (x.marks holding catching).status.getLsbD 10 = catching ∧
      ∀ i, i ≠ 9 → i ≠ 10 → (x.marks holding catching).status.getLsbD i = x.status.getLsbD i := by
  refine ⟨?_, putBit_same _ _ (by decide), fun i nine ten => ?_⟩
  · exact (putBit_other _ _ (by decide)).trans (putBit_same _ _ (by decide))
  · exact (putBit_other _ _ ten).trans (putBit_other _ _ nine)

/-- A virtual tooth without a pending reference stamp (R220). -/
theorem insertVirtual_wheel {w : Nat} {l : Live} (quiet : (l.wheel w).refEdge = none) :
    let x := l.wheel w
    let y := (insertVirtual w l).wheel w
    y.missedCnt = x.missedCnt + 1 ∧ y.virt = true ∧ y.tooth = (x.tooth + 1) % (wheelN l w - wheelM l w) ∧
      y.baseAt = x.lastEdge.getD 0 * 65536 + x.period ∧ y.state = x.state ∧ y.status.getLsbD 3 = true ∧
      (insertVirtual w l).mem = l.mem := by
  unfold insertVirtual
  extract_lets x k x1 m y
  have stored : m.wheel w = x1 := by simp [m]
  obtain ⟨started, kept⟩ := startTooth_wheel w (x1.lastEdge.getD 0 * 65536 + x1.period) k false m
  have still : measureIfDue w (startTooth w (x1.lastEdge.getD 0 * 65536 + x1.period) k false m) =
      startTooth w (x1.lastEdge.getD 0 * 65536 + x1.period) k false m := by
    refine measureIfDue_none ?_
    rw [started, stored]
    exact quiet
  have shown : y = (startTooth w (x1.lastEdge.getD 0 * 65536 + x1.period) k false m).wheel w := congrArg (Live.wheel · w) still
  have bit : (m.wheel w).status.getLsbD 3 = true := by
    rw [stored]
    exact setBit_same _ (by decide)
  have bit' := (kept 3 (by decide) (by decide)).trans bit
  rw [shown, still, startTooth_mem]
  refine ⟨?_, ?_, ?_, ?_, ?_, bit', by simp [m]⟩ <;> rw [started] <;> rw [stored]

theorem loseSync_wheel (w cause : Nat) (l : Live) (plain : cause ≠ 4) :
    (loseSync w cause l).wheel w = (l.wheel w).enter (if (l.wheel w).state = .preSync then .seeking else .lost) cause ∧
      (loseSync w cause l).mem = l.mem := by
  simp [loseSync, plain]

/-- A tracker that stops for want of edges (R215). -/
theorem enter_stopped_stall (x : Wheel) :
    (x.enter .stopped 6).refNum = 0 ∧ (x.enter .stopped 6).lastEdge = none ∧ (x.enter .stopped 6).hist = [] ∧
      (x.enter .stopped 6).status.getLsbD 8 = (x.status.getLsbD 8 || decide (x.state ≠ .seeking)) := by
  have marked : (x.marks false false).status.getLsbD 8 = x.status.getLsbD 8 := (marks_status x false false).2.2 8 (by decide) (by decide)
  unfold Wheel.enter
  dsimp only [WheelState.runs]
  by_cases h : x.state = .seeking
  · rw [if_neg (by simp [h])]
    exact ⟨rfl, rfl, rfl, by simpa [h] using marked⟩
  · rw [if_pos ⟨rfl, h⟩]
    refine ⟨rfl, rfl, rfl, ?_⟩
    rw [decide_eq_true h, Bool.or_true]
    exact setBit_same _ (by decide)

/-- Settles O20: each deadline's guard holds, and its effect is the law of its step. -/
theorem trackerDeadlinesComplete : Obligations.TrackerDeadlinesComplete := by
  intro s w up
  refine ⟨fun synced real quiet inside reached => ?_, fun synced inside reached => ?_, fun runs gap reached => ?_,
    fun e moving last stalled => ?_, fun runs atEnd passed => ?_, fun catching reached => ?_, fun cycle missing => ?_⟩
  · have effect : virtualTooth w s.live = insertVirtual w s.live := if_pos (by simp [up, synced, real, inside, reached])
    obtain ⟨missed, virt, tooth, baseAt, state, bit, mem⟩ := insertVirtual_wheel quiet
    refine completes_apply (f := virtualTooth w) rfl ?_
    rw [apply_wheel, effect]
    exact ⟨missed, virt, tooth, baseAt, state, bit, sameMemory_apply (by rw [effect, mem])⟩
  · have effect : toothTimeout w s.live = loseSync w 3 s.live := if_pos (by simp [up, synced, inside, reached])
    obtain ⟨wheel, mem⟩ := loseSync_wheel w 3 s.live (by decide)
    have other : (s.live.wheel w).state ≠ .preSync := fun h => by rw [h] at synced; exact Bool.false_ne_true synced
    refine completes_apply (f := toothTimeout w) rfl ?_
    rw [apply_wheel, effect, wheel, if_neg other]
    exact ⟨rfl, rfl, rfl, rfl, sameMemory_apply (by rw [effect, mem])⟩
  · have effect : gapLate w s.live = loseSync w 2 s.live := if_pos (by simp [up, runs, gap, reached])
    obtain ⟨wheel, mem⟩ := loseSync_wheel w 2 s.live (by decide)
    refine completes_apply (f := gapLate w) rfl ?_
    rw [apply_wheel, effect, wheel]
    refine ⟨Wheel.enter_state _ _ _, ?_, Wheel.enter_lane _ _ _, sameMemory_apply (by rw [effect, mem])⟩
    split <;> rfl
  · have effect : trackerStall w s.live = predictAfresh w (wheelState w .stopped 6 s.live) := by
      simp [trackerStall, last, up, moving, stalled]
    refine completes_apply (f := trackerStall w) rfl ?_
    rw [apply_wheel, effect, predictAfresh_wheel, wheelState_same]
    obtain ⟨refNum, lastEdge, hist, bit⟩ := enter_stopped_stall (s.live.wheel w)
    exact ⟨Wheel.enter_state _ _ _, refNum, lastEdge, hist, Wheel.enter_lane _ _ _, bit, sameMemory_apply (by simp [effect])⟩
  · have effect : laneHold w s.live = _ := if_pos (by simp [up, runs, atEnd, passed])
    refine completes_apply (f := laneHold w) rfl ?_
    rw [apply_wheel, effect, predictAfresh_wheel, setWheel_same]
    exact ⟨(marks_status _ _ _).1, rfl, rfl, sameMemory_apply (by simp [effect])⟩
  · have effect : catchupEnd w s.live = _ := if_pos (by simp [catching, reached])
    refine completes_apply (f := catchupEnd w) rfl ?_
    rw [apply_wheel, effect, predictAfresh_wheel, setWheel_same]
    exact ⟨rfl, (marks_status _ _ _).2.1, rfl, sameMemory_apply (by simp [effect])⟩
  · have effect : camMissing w s.live = _ := if_pos (by simp [up, cycle, missing])
    refine completes_apply (f := camMissing w) rfl ⟨?_, ?_, sameMemory_apply ?_⟩ <;> simp [effect]

end Sys2Proof.Machine

/-! Feedback ports (09): counts and sets, index, Hall, SSI, probe, observer and readback. -/

namespace Sys2Proof.Machine

open Sys2Proof

/-! ### What the steps that follow a count or a frame leave of a port -/

/-- A port without what faults, the observer, the direction, the wiring check, the error limit and the capture register keep of it:
what is left is the position with its instant, the lines, the index, the frame and the probe. -/
def Port.fixed (p : Port) : Port :=
  { p with state := .off, status := 0, moveAt := 0, obs := .fresh, pHat := 0, vHat := 0, aHat := 0, extreme := 0, sets := [], dir := false,
           dirCnt := 0, missingDone := false, lastFault := 0, recent := [], moved := 0, refMoved := 0, disagree := 0, bad := 0, lineCnt := 0,
           frameCnt := 0, refFaultCnt := 0, stuck := 0, capReq := false, capValid := false, capTag := 0, meas := none, rawPrev := 0,
           absPrev := none, countDiff := 0, indexErr := 0 }

/-- A field that `Port.fixed` keeps. -/
theorem of_fixed {α : Type} (read : Port → α) (kept : ∀ r : Port, read r.fixed = read r) {p q : Port} (h : p.fixed = q.fixed) :
    read p = read q := by
  rw [← kept p, ← kept q, h]

section

variable {p q : Port} (h : p.fixed = q.fixed)

include h

theorem fixed_pos : p.pos = q.pos := of_fixed Port.pos (fun _ => rfl) h
theorem fixed_posDtime : p.posDtime = q.posDtime := of_fixed Port.posDtime (fun _ => rfl) h
theorem fixed_lines : p.lines = q.lines := of_fixed Port.lines (fun _ => rfl) h
theorem fixed_illegalCnt : p.illegalCnt = q.illegalCnt := of_fixed Port.illegalCnt (fun _ => rfl) h
theorem fixed_idxPos : p.idxPos = q.idxPos := of_fixed Port.idxPos (fun _ => rfl) h
theorem fixed_idxDtime : p.idxDtime = q.idxDtime := of_fixed Port.idxDtime (fun _ => rfl) h
theorem fixed_ssi : p.ssi = q.ssi := of_fixed Port.ssi (fun _ => rfl) h
theorem fixed_rawFrame : p.rawFrame = q.rawFrame := of_fixed Port.rawFrame (fun _ => rfl) h
theorem fixed_rawTag : p.rawTag = q.rawTag := of_fixed Port.rawTag (fun _ => rfl) h
theorem fixed_rawValid : p.rawValid = q.rawValid := of_fixed Port.rawValid (fun _ => rfl) h
theorem fixed_ckRise : p.ckRise = q.ckRise := of_fixed Port.ckRise (fun _ => rfl) h

end

/-- What is left of the port is as before, and so is the fabric memory. -/
structure Steady (n : Nat) (l m : Live) : Prop where
  port : (m.port n).fixed = (l.port n).fixed
  mem : m.mem = l.mem

theorem Steady.refl (n : Nat) (l : Live) : Steady n l l := ⟨rfl, rfl⟩

theorem Steady.trans {n : Nat} {a b c : Live} (h : Steady n a b) (k : Steady n b c) : Steady n a c :=
  ⟨k.port.trans h.port, k.mem.trans h.mem⟩

theorem setPort_steady {n : Nat} {l : Live} {p : Port} (h : p.fixed = (l.port n).fixed) : Steady n l (l.setPort n p) :=
  ⟨by rw [setPort_same, h], by simp⟩

theorem updPort_steady {n : Nat} {l : Live} {f : Port → Port} (h : (f (l.port n)).fixed = (l.port n).fixed) : Steady n l (l.updPort n f) :=
  setPort_steady h

/-- A report keeps every port. -/
theorem steady_of_reports {n : Nat} {l m : Live} (h : OnlyReports l m) : Steady n l m := by
  constructor
  · unfold Live.port
    simp only [h.keeps]
  · simp only [h.keeps]

theorem steady_of_events {n : Nat} {l m : Live} (h : OnlyEvents l m) : Steady n l m := by
  constructor
  · unfold Live.port
    simp only [h.keeps]
  · simp only [h.keeps]

section

variable (n : Nat) (l : Live)

theorem fbFault_port (code element bit det : Nat) : (fbFault n code element bit det l).port n =
    { l.port n with status := setBit (l.port n).status bit, lastFault := BitVec.ofNat 32 (code * 2 ^ 24 + det % 2 ^ 24) } := by
  unfold fbFault
  dsimp only
  split <;> simp

theorem fbFault_steady (code element bit det : Nat) : Steady n l (fbFault n code element bit det l) := by
  refine ⟨by rw [fbFault_port]; rfl, ?_⟩
  unfold fbFault
  dsimp only
  split <;> simp

theorem setDir_steady (up : Bool) : Steady n l (setDir n up l) := by
  unfold setDir
  extract_lets p st m
  split
  · exact setPort_steady rfl
  · have turned : Steady n l m := ⟨by simp [m]; rfl, by simp [m]⟩
    split
    · exact turned.trans (steady_of_reports (writeRecord_reports _ _ _ _))
    · exact turned

theorem trackDir_steady : Steady n l (trackDir n l) := by
  unfold trackDir
  dsimp only
  split
  · split
    · exact setPort_steady rfl
    · split
      · exact setDir_steady n l _
      · exact .refl n l
  · split
    · exact setPort_steady rfl
    · split
      · exact setDir_steady n l _
      · exact .refl n l

theorem movedObserver_steady (t : Nat) (d : Int) : Steady n l (movedObserver n t d l) := by
  unfold movedObserver
  extract_lets p0 p up start
  have started (m : Live) : Steady n m (start m) := by
    unfold start
    refine Steady.trans ?_ (setDir_steady n _ up)
    exact setPort_steady rfl
  have stored : Steady n l (l.setPort n p) := setPort_steady rfl
  split
  · exact stored.trans (started _)
  · exact stored.trans (started _)
  · split
    · refine Steady.trans ?_ (trackDir_steady n _)
      exact setPort_steady rfl
    · exact stored.trans (started _)
  · exact stored.trans (trackDir_steady n _)
  · exact stored

theorem tellReferents_steady (d : Int) : Steady n l (tellReferents n d l) := by
  refine forAll_rel (Steady.refl n) (fun _ _ _ => Steady.trans) (fun m k => ?_) _ l
  split
  · rename_i named
    have other : n ≠ m := by
      simp at named
      exact fun e => named.2 e.symm
    exact ⟨by rw [updPort_ne _ _ other], by simp⟩
  · exact .refl n k

theorem checkIndexMissing_steady : Steady n l (checkIndexMissing n l) := by
  unfold checkIndexMissing
  dsimp only
  split
  · refine Steady.trans ?_ (fbFault_steady n _ _ _ _ _)
    exact setPort_steady rfl
  · exact .refl n l

theorem uncertain_steady : Steady n l (uncertain n l) := updPort_steady rfl

theorem certain_steady : Steady n l (certain n l) := updPort_steady rfl

theorem portLost_steady (code : Nat) : Steady n l (portLost n code l) := by
  unfold portLost
  dsimp only
  split
  · exact .refl n l
  · refine Steady.trans ?_ (fbFault_steady n _ _ _ _ _)
    exact setPort_steady rfl

theorem portBad_steady (code : Nat) : Steady n l (portBad n code l) := by
  unfold portBad
  dsimp only
  have stored : Steady n l (l.setPort n { l.port n with bad := (l.port n).bad + 1 }) := setPort_steady rfl
  split
  · exact stored
  · split
    · exact stored.trans (uncertain_steady n _)
    · split
      · exact stored.trans (portLost_steady n _ code)
      · exact stored

theorem portValid_steady : Steady n l (portValid n l) := by
  unfold portValid
  dsimp only
  split
  · exact setPort_steady rfl
  · exact setPort_steady rfl
  · exact .refl n l

theorem lineStuck_steady (line : Nat) : Steady n l (lineStuck n line l) := by
  unfold lineStuck
  refine Steady.trans (Steady.trans ?_ (uncertain_steady n _)) (fbFault_steady n _ _ _ _ _)
  exact updPort_steady rfl

/-! ### Movements and sets (R233, R256) -/

/-- A movement by a signed count that is not 0. -/
theorem movePosition_moves (t : Nat) {d : Int} (moves : d ≠ 0) :
    let by_ := if l.flag (0x2500 + n) 2 then -d else d
    ((movePosition n t d l).port n).fixed =
      ({ l.port n with pos := addPos (l.port n).pos by_, posDtime := BitVec.ofNat 64 t } : Port).fixed ∧
      (movePosition n t d l).mem = l.mem := by
  intro by_
  have by_ne : by_ ≠ 0 := by
    unfold by_
    split <;> omega
  unfold movePosition
  extract_lets m p new keepFrom recent m1 m2
  rw [if_neg by_ne]
  have m_port : p = { l.port n with posDtime := BitVec.ofNat 64 t } := updPort_same _ _ _
  have stored : (m1.port n).fixed = ({ l.port n with pos := addPos (l.port n).pos by_, posDtime := BitVec.ofNat 64 t } : Port).fixed := by
    unfold m1
    rw [setPort_same]
    unfold new
    rw [m_port]
    rfl
  have after : Steady n m1 (checkIndexMissing n (movedObserver n t by_ m2)) :=
    (((steady_of_events (portMoved_onlyEvents _ _ _ _)).trans (tellReferents_steady n _ _)).trans (movedObserver_steady n _ _ _)).trans
      (checkIndexMissing_steady n _)
  exact ⟨after.port.trans stored, after.mem.trans (by simp [m1, m])⟩

/-- A set of the position leaves everything but the position and the observer of the port alone. -/
theorem setPosition_port (v : BitVec 48) :
    (setPosition n v l).port n = { l.port n with
      pos := v, extreme := v, sets := ((setPosition n v l).port n).sets, pHat := ((setPosition n v l).port n).pHat,
      obs := ((setPosition n v l).port n).obs } := by
  unfold setPosition
  rw [updPort_same]
  dsimp only
  split <;> rfl

theorem setPosition_mem (v : BitVec 48) : (setPosition n v l).mem = l.mem := rfl

end

/-! ### Quadrature and Hall (R235–R241) -/

section

variable {l : Live} {n : Nat} {stamp : Stamp}

/-- The port, the mode and the filter let a transition of the lines through (R235). -/
theorem quadTransition_open (on : portOn l n = true) (mode : fbMode l n = 1 ∨ fbMode l n = 3)
    (late : settled l (l.cfg (0x2500 + n) 3) stamp = true) :
    ¬(!portOn l n || !(decide (fbMode l n = 1) || decide (fbMode l n = 3)) || !settled l (l.cfg (0x2500 + n) 3) stamp) = true := by
  rcases mode with m | m <;> simp [on, late, m]

/-- A transition of one line is a count of 1 (R235). -/
theorem quadTransition_counts {a b : Bool} {d : Int} (on : portOn l n = true) (mode : fbMode l n = 1 ∨ fbMode l n = 3)
    (late : settled l (l.cfg (0x2500 + n) 3) stamp = true) (moves : d ≠ 0)
    (count : quadCount ((l.port n).lines.getLsbD 0) ((l.port n).lines.getLsbD 1) a b = some d) :
    let q := (quadTransition n stamp a b l).port n
    q.pos = addPos (l.port n).pos (if l.flag (0x2500 + n) 2 then -d else d) ∧
      q.lines = putBit (putBit (l.port n).lines 0 a) 1 b ∧ q.posDtime = BitVec.ofNat 64 (l.widen stamp) ∧
      q.illegalCnt = (l.port n).illegalCnt ∧ (quadTransition n stamp a b l).mem = l.mem := by
  unfold quadTransition
  rw [if_neg (quadTransition_open on mode late)]
  dsimp only
  rw [count]
  dsimp only
  rw [if_neg moves]
  generalize hp : (if decide ((l.port n).lines.getLsbD 0 ≠ a) = true then _ else _ : Port) = p
  have lines : p.lines = putBit (putBit (l.port n).lines 0 a) 1 b ∧ p.pos = (l.port n).pos ∧ p.illegalCnt = (l.port n).illegalCnt := by
    rw [← hp]
    split <;> exact ⟨rfl, rfl, rfl⟩
  obtain ⟨port, mem⟩ := movePosition_moves n (l.setPort n p) (l.widen stamp) moves
  rw [setPort_same] at port
  have after (m : Live) (h : Steady n (movePosition n (l.widen stamp) d (l.setPort n p)) m) :
      (m.port n).pos = addPos (l.port n).pos (if l.flag (0x2500 + n) 2 then -d else d) ∧
        (m.port n).lines = putBit (putBit (l.port n).lines 0 a) 1 b ∧ (m.port n).posDtime = BitVec.ofNat 64 (l.widen stamp) ∧
        (m.port n).illegalCnt = (l.port n).illegalCnt ∧ m.mem = l.mem := by
    have fixed := h.port.trans port
    refine ⟨(fixed_pos fixed).trans ?_, (fixed_lines fixed).trans lines.1, fixed_posDtime fixed,
      (fixed_illegalCnt fixed).trans lines.2.2, (h.mem.trans mem).trans (by simp)⟩
    show addPos p.pos _ = _
    rw [lines.2.1]
    rfl
  split
  · exact after _ (lineStuck_steady n _ 1)
  · split
    · exact after _ (lineStuck_steady n _ 0)
    · exact after _ (.refl n _)

/-- A transition of both lines is illegal: counted, not a movement (R236). -/
theorem quadTransition_illegal {a b : Bool} (on : portOn l n = true) (mode : fbMode l n = 1 ∨ fbMode l n = 3)
    (late : settled l (l.cfg (0x2500 + n) 3) stamp = true)
    (count : quadCount ((l.port n).lines.getLsbD 0) ((l.port n).lines.getLsbD 1) a b = none) :
    let q := (quadTransition n stamp a b l).port n
    q.pos = (l.port n).pos ∧ q.illegalCnt = (l.port n).illegalCnt + 1 ∧ q.status.getLsbD 18 = true ∧
      q.lines = putBit (putBit (l.port n).lines 0 a) 1 b ∧ (quadTransition n stamp a b l).mem = l.mem := by
  unfold quadTransition
  rw [if_neg (quadTransition_open on mode late)]
  dsimp only
  rw [count]
  dsimp only
  rw [fbFault_port, (fbFault_steady n _ _ _ _ _).mem]
  simp only [uncertain, countIllegal, updPort_same, setPort_same]
  exact ⟨trivial, trivial, setBit_keeps _ (setBit_same _ (by decide)), trivial, by simp⟩

/-- A Hall port in LOST, or that an invalid state takes there (R241, R252). -/
theorem hallInvalid_port (n : Nat) (lines : BitVec 3) (l : Live) :
    ((hallInvalid n lines l).port n).state = .lost ∧ ((hallInvalid n lines l).port n).lineCnt = (l.port n).lineCnt + 1 ∧
      ((hallInvalid n lines l).port n).fixed = (l.port n).fixed ∧ (hallInvalid n lines l).mem = l.mem := by
  unfold hallInvalid
  generalize hm : fbFault n 10 0 11 lines.toNat (countLine n l) = m
  have counted : (m.port n).lineCnt = (l.port n).lineCnt + 1 := by
    rw [← hm, fbFault_port]
    simp [countLine]
  have steady : Steady n l m := by
    rw [← hm]
    exact .trans (b := countLine n l) (updPort_steady rfl) (fbFault_steady n _ _ _ _ _)
  have lost := steady.trans (portLost_steady n m 10)
  refine ⟨?_, ?_, lost.port, lost.mem⟩ <;> unfold portLost <;> dsimp only <;> split
  · assumption
  · rw [fbFault_port, setPort_same]
  · exact counted
  · rw [fbFault_port, setPort_same]
    exact counted

/-- The port with the lines that it now sees. -/
def seesLines (n : Nat) (lines : BitVec 3) (l : Live) : Live := l.setPort n { l.port n with lines := lines }

theorem seesLines_port (n : Nat) (lines : BitVec 3) (l : Live) : (seesLines n lines l).port n = { l.port n with lines := lines } :=
  setPort_same _ _ _

theorem seesLines_mem (n : Nat) (lines : BitVec 3) (l : Live) : (seesLines n lines l).mem = l.mem := by
  simp [seesLines]

/-- The change that the port takes from its Hall lines. -/
theorem hallChange_open {lines : BitVec 3} (on : portOn l n = true) (mode : fbMode l n = 4)
    (late : settled l (l.cfg (0x2500 + n) 3) stamp = true) (running : (l.port n).state ≠ .starting) (moved : (l.port n).lines ≠ lines) :
    hallChange n stamp lines l =
      (if hallSector lines = 0xFF then hallInvalid n lines (seesLines n lines l)
       else if (l.port n).state = .lost then portValid n (seesLines n lines l)
       else if hallSector (l.port n).lines = 0xFF then seesLines n lines l
       else if (hallSector lines + 6 - hallSector (l.port n).lines) % 6 = 1 then
        movePosition n (l.widen stamp) 1 (seesLines n lines l)
       else if (hallSector lines + 6 - hallSector (l.port n).lines) % 6 = 5 then
        movePosition n (l.widen stamp) (-1) (seesLines n lines l)
       else fbFault n 1 0 2 ((l.port n).lines.toNat * 8 + lines.toNat) (uncertain n (countIllegal n (seesLines n lines l)))) := by
  have quiet : (l.port n).state ≠ .off := by
    unfold portOn at on
    simp at on
    exact on.2
  unfold hallChange
  dsimp only
  rw [if_neg (by simp [moved, late]), if_neg (by simp [running, quiet]), if_neg (by simp [on, mode])]
  rfl

theorem hallChange_moves {lines : BitVec 3} (on : portOn l n = true) (mode : fbMode l n = 4)
    (late : settled l (l.cfg (0x2500 + n) 3) stamp = true) (running : (l.port n).state = .running)
    (old : hallSector (l.port n).lines ≠ 0xFF) (new : hallSector lines ≠ 0xFF)
    (step : (hallSector lines + 6 - hallSector (l.port n).lines) % 6 = 1) :
    let q := (hallChange n stamp lines l).port n
    q.pos = addPos (l.port n).pos (if l.flag (0x2500 + n) 2 then -1 else 1) ∧ q.lines = lines ∧
      (hallChange n stamp lines l).mem = l.mem := by
  have moved : (l.port n).lines ≠ lines := by
    intro same
    rw [same] at step
    omega
  rw [hallChange_open on mode late (by rw [running]; decide) moved, if_neg new, if_neg (by rw [running]; decide), if_neg old,
    if_pos step]
  obtain ⟨port, mem⟩ := movePosition_moves n (seesLines n lines l) (l.widen stamp) (d := 1) (by decide)
  rw [seesLines_port] at port
  exact ⟨fixed_pos port, fixed_lines port, mem.trans (seesLines_mem _ _ _)⟩

theorem hallChange_invalid {lines : BitVec 3} (on : portOn l n = true) (mode : fbMode l n = 4)
    (late : settled l (l.cfg (0x2500 + n) 3) stamp = true) (running : (l.port n).state ≠ .starting) (moved : (l.port n).lines ≠ lines)
    (bad : hallSector lines = 0xFF) :
    let q := (hallChange n stamp lines l).port n
    q.state = .lost ∧ q.pos = (l.port n).pos ∧ q.lines = lines ∧ q.lineCnt = (l.port n).lineCnt + 1 ∧
      (hallChange n stamp lines l).mem = l.mem := by
  rw [hallChange_open on mode late running moved, if_pos bad]
  obtain ⟨state, count, fixed, mem⟩ := hallInvalid_port n lines (seesLines n lines l)
  rw [seesLines_port] at count fixed
  exact ⟨state, fixed_pos (q := { l.port n with lines := lines }) fixed, fixed_lines fixed, count, mem.trans (seesLines_mem _ _ _)⟩

/-- A port that does not count yet only sees its lines (log entry 115). -/
theorem hallChange_starting {lines : BitVec 3} (up : portUp l n = true) (mode : fbMode l n = 4)
    (late : settled l (l.cfg (0x2500 + n) 3) stamp = true) (starting : (l.port n).state = .starting) :
    (hallChange n stamp lines l).port n = { l.port n with lines := lines } ∧ (hallChange n stamp lines l).mem = l.mem := by
  unfold hallChange
  dsimp only
  by_cases same : (l.port n).lines = lines
  · rw [if_pos (by simp [same]), ← same]
    exact ⟨rfl, rfl⟩
  · rw [if_neg (by simp [same, late]), if_pos (by simp [up, starting, mode]), setPort_same]
    exact ⟨rfl, by simp⟩

/-! ### Index and preset (R234, R238, R239) -/

theorem fixed_indexErr (p : Port) (e : Int) : ({ p with indexErr := e } : Port).fixed = p.fixed := rfl

theorem checkIndex_steady (n : Nat) (l : Live) : Steady n l (checkIndex n l) ∧
    ((checkIndex n l).port n).status.getLsbD 17 = (l.port n).status.getLsbD 17 := by
  unfold checkIndex
  extract_lets p cpr e m
  have marked : Steady n l m ∧ (m.port n).status.getLsbD 17 = (l.port n).status.getLsbD 17 := by
    constructor
    · refine Steady.trans (Steady.trans (b := l.setPort n { p with indexErr := e }) (setPort_steady (fixed_indexErr p e)) ?_) (uncertain_steady n _)
      exact updPort_steady rfl
    · simp only [m, uncertain, countRef, updPort_same, setPort_same]
      exact setBit_other _ (by decide)
  split
  · exact ⟨.refl n l, rfl⟩
  · split
    · refine ⟨marked.1.trans (fbFault_steady n _ _ _ _ _), ?_⟩
      rw [fbFault_port]
      exact (setBit_other _ (by decide)).trans marked.2
    · exact ⟨.refl n l, rfl⟩

theorem fbFault_conf (n code element bit det : Nat) (l : Live) : (fbFault n code element bit det l).conf = l.conf := by
  unfold fbFault
  dsimp only
  split
  · simp only [(reportFault_only _ _ _ _ _).keeps]
    rfl
  · simp only [(writeRecord_reports _ _ _ _).keeps]
    rfl

/-- The values in force are those of the configuration. -/
theorem cfg_of_conf {l m : Live} (h : m.conf = l.conf) (i j : Nat) : m.cfg i j = l.cfg i j := by
  unfold Live.cfg Live.val Live.baseVal
  rw [h]

theorem checkIndex_conf (n : Nat) (l : Live) : (checkIndex n l).conf = l.conf := by
  unfold checkIndex
  dsimp only
  split
  · rfl
  · split
    · rw [fbFault_conf]
      rfl
    · rfl

/-- An edge of Z that the gate accepts (R238). -/
theorem indexEdge_accepted {rising : Bool} (on : portOn l n = true) (mode : fbMode l n = 1 ∨ fbMode l n = 5)
    (late : settled l (l.cfg (0x2500 + n) 3) stamp = true) (edge : rising = decide (l.cfg (0x2500 + n) 6 = 0))
    (gate : l.cfg (0x2500 + n) 7 = 0 ∨
      l.cfg (0x2500 + n) 7 = b2n ((l.port n).lines.getLsbD 0) * 2 + b2n ((l.port n).lines.getLsbD 1) + 1) :
    let kind := l.cfg (0x2500 + n) 5
    let p := l.port n
    let q := (indexEdge n rising stamp l).port n
    q.pos = (if kind = 1 ∨ kind = 2 ∧ p.status.getLsbD 17 = true then BitVec.ofNat 48 (l.cfg (0x2500 + n) 8) else p.pos) ∧
      (kind = 2 → q.status.getLsbD 17 = false) ∧ q.idxPos = p.pos ∧ q.idxDtime = BitVec.ofNat 64 (l.widen stamp) ∧
      q.idxSeen = true ∧ q.pLast = q.pos ∧ (indexEdge n rising stamp l).mem = l.mem := by
  unfold indexEdge
  extract_lets kind p gate' ab chosen m1 m2 kind' q reset m3 m4 q'
  have taken : chosen = true := by
    rcases gate with g | g <;> simp [chosen, gate', ab, p, edge, g]
  have may : ¬(!portOn l n || !(decide (fbMode l n = 1) || decide (fbMode l n = 5)) || !chosen ||
      !settled l (l.cfg (0x2500 + n) 3) stamp) = true := by
    rcases mode with m | m <;> simp [on, taken, late, m]
  unfold q'
  rw [if_neg may]
  obtain ⟨checked, window⟩ := checkIndex_steady n m1
  have m1_port : m1.port n = { p with idxPos := p.pos, idxDtime := BitVec.ofNat 64 (l.widen stamp) } := setPort_same _ _ _
  have m2_fixed : (m2.port n).fixed = ({ p with idxPos := p.pos, idxDtime := BitVec.ofNat 64 (l.widen stamp) } : Port).fixed :=
    checked.port.trans (congrArg Port.fixed m1_port)
  have m2_window : q.status.getLsbD 17 = p.status.getLsbD 17 := window.trans (congrArg (fun r => r.status.getLsbD 17) m1_port)
  have m2_mem : m2.mem = l.mem := checked.mem.trans (by simp [m1])
  have m2_cfg (i j : Nat) : m2.cfg i j = l.cfg i j := cfg_of_conf (checkIndex_conf _ _) i j
  have resets : reset = true ↔ kind = 1 ∨ kind = 2 ∧ p.status.getLsbD 17 = true := by
    have kind_eq : kind' = kind := m2_cfg _ _
    simp [reset, kind_eq, bitOf, -BitVec.getLsbD_eq_getElem, m2_window, BitVec.testBit_toNat]
  have set : (m3.port n).fixed =
      ({ m2.port n with pos := if reset = true then BitVec.ofNat 48 (l.cfg (0x2500 + n) 8) else (m2.port n).pos } : Port).fixed ∧
      m3.mem = m2.mem := by
    unfold m3
    split
    · refine ⟨(certain_steady n _).port.trans ?_, (certain_steady n _).mem⟩
      rw [setPosition_port, m2_cfg]
      rfl
    · exact ⟨rfl, rfl⟩
  have cleared : Steady n m3 m4 ∧ (kind = 2 → (m4.port n).status.getLsbD 17 = false) := by
    unfold m4
    rw [show kind' = kind from m2_cfg _ _]
    split
    · refine ⟨updPort_steady rfl, fun _ => ?_⟩
      rw [updPort_same]
      exact clrBit_same _
    · rename_i h
      exact ⟨.refl n _, fun k => absurd k h⟩
  have fixed := cleared.1.port.trans set.1
  have pos := fixed_pos fixed
  rw [updPort_same]
  refine ⟨pos.trans ?_, cleared.2, (fixed_idxPos fixed).trans (fixed_idxPos m2_fixed), (fixed_idxDtime fixed).trans (fixed_idxDtime m2_fixed),
    rfl, rfl, ?_⟩
  · show (if reset = true then _ else (m2.port n).pos) = _
    rw [fixed_pos m2_fixed]
    simp only [resets]
  · simp [cleared.1.mem, set.2, m2_mem]

/-- A preset of the position (R234). -/
theorem presetPosition_sets (up : portUp l n = true) (v : BitVec 48) :
    let q := (presetPosition n v l).port n
    q.pos = v ∧ q.extreme = v ∧ q.dir = (l.port n).dir ∧ q.state = (l.port n).state ∧
      ((fbMode l n = 1 ∨ 3 ≤ fbMode l n ∧ fbMode l n ≤ 5) → q.status.getLsbD 18 = false) ∧ (presetPosition n v l).mem = l.mem := by
  have set := setPosition_port n l v
  unfold presetPosition
  dsimp only
  rw [if_neg (by simp [up])]
  split
  · rw [show (certain n (setPosition n v l)).port n = _ from updPort_same _ _ _, set]
    exact ⟨rfl, rfl, rfl, rfl, fun _ => clrBit_same _, rfl⟩
  · rename_i other
    rw [set]
    refine ⟨rfl, rfl, rfl, rfl, fun mode => absurd ?_ other, rfl⟩
    simp
    omega

/-! ### Probe, observer and readback (R256–R262) -/

theorem captured_port (n : Nat) (l : Live) : (captured n l).port n =
    { l.port n with capReq := true, capValid := true, capTag := (l.port n).capTag + 1 } := updPort_same _ _ _

/-- A request for a frame changes the frame of the port alone, and what a dropped request notes (R247). -/
theorem ssiRequest_port (n : Nat) (l : Live) :
    let q := (ssiRequest n l).port n
    q = { l.port n with ssi := q.ssi, held := q.held, frame := q.frame, frameAt := q.frameAt, ckRise := q.ckRise, reqAt := q.reqAt,
                        dropCnt := q.dropCnt, status := q.status, lastFault := q.lastFault } ∧ (ssiRequest n l).mem = l.mem := by
  unfold ssiRequest
  extract_lets p busy p' q
  unfold q
  split
  · exact ⟨rfl, rfl⟩
  · split
    · rw [setPort_same]
      exact ⟨rfl, by simp⟩
    · split
      · rw [setPort_same]
        exact ⟨rfl, by simp⟩
      · rw [fbFault_port, (fbFault_steady n _ _ _ _ _).mem, setPort_same]
        exact ⟨rfl, by simp⟩

/-- A selected probe edge (R259, R260). -/
theorem probeEdge_takes {rising : Bool} (on : portOn l n = true) (chosen : probeSel l n rising = true)
    (late : settled l (l.cfg (0x2500 + n) 0x10) stamp = true) :
    let p := l.port n
    let q := (probeEdge n rising stamp l).port n
    q.probeCount = positionThen p (l.widen stamp) ∧ q.probeValid = true ∧ q.probeDtime = BitVec.ofNat 64 (l.widen stamp) ∧
      q.probeTag = p.probeTag + 1 ∧ q.probeCnt = p.probeCnt + 1 ∧ q.capReq = true ∧ q.pos = p.pos ∧
      (probeEdge n rising stamp l).mem = l.mem := by
  unfold probeEdge
  extract_lets p t c p1 p2 recorded taken q
  unfold q
  rw [if_neg (by simp [on, chosen, late])]
  have taken_port : taken.port n = { p2 with capReq := true, capValid := true, capTag := p2.capTag + 1 } := by
    have kept : recorded.port n = p2 := by
      unfold recorded Live.port
      simp only [(writeRecord_reports _ _ _ _).keeps]
      exact setPort_same _ _ _
    rw [show taken.port n = _ from captured_port _ _, kept]
  have taken_mem : taken.mem = l.mem := by simp [taken, recorded, captured]
  split
  · obtain ⟨port, mem⟩ := ssiRequest_port n taken
    rw [port, mem, taken_port]
    exact ⟨rfl, rfl, rfl, rfl, rfl, rfl, rfl, taken_mem⟩
  · rw [taken_port]
    exact ⟨rfl, rfl, rfl, rfl, rfl, rfl, rfl, taken_mem⟩

/-- The check of the wiring leaves the observer alone (R261). -/
theorem wiringCheck_port (n : Nat) (l : Live) :
    let q := (wiringCheck n l).port n
    q = { l.port n with moved := q.moved, refMoved := q.refMoved, disagree := q.disagree, refFaultCnt := q.refFaultCnt,
                        status := q.status, lastFault := q.lastFault } ∧ (wiringCheck n l).mem = l.mem := by
  unfold wiringCheck
  extract_lets p has cleared same q
  unfold q
  have cleared_port : cleared.port n = { p with moved := 0, refMoved := 0 } := setPort_same _ _ _
  have cleared_mem : cleared.mem = l.mem := by simp [cleared]
  split
  · exact ⟨rfl, rfl⟩
  · split
    · rw [cleared_port]
      exact ⟨rfl, cleared_mem⟩
    · split
      · rw [updPort_same, cleared_port]
        exact ⟨rfl, by simp [cleared_mem]⟩
      · split
        · rw [updPort_same, cleared_port]
          exact ⟨rfl, by simp [cleared_mem]⟩
        · rw [fbFault_port, (fbFault_steady n _ _ _ _ _).mem, countRef, updPort_same, updPort_same, cleared_port]
          exact ⟨rfl, by simp [cleared_mem]⟩

/-- The update of the observer every 160 TCLK (R253). -/
theorem observerUpdate_steps (on : portOn l n = true) (due : l.now % 160 = 0) :
    let p := l.port n
    let q := (observerUpdate n l).port n
    q.obsAt = l.now ∧ (p.obs = .running → q.pHat = (obsStep l n p).pHat ∧ q.vHat = (obsStep l n p).vHat) ∧
      (p.obs ≠ .running → q.pHat = p.pHat ∧ q.vHat = p.vHat) ∧ (observerUpdate n l).mem = l.mem := by
  unfold observerUpdate
  extract_lets p stepped q q'
  unfold q'
  rw [if_neg (by simp [on, due])]
  obtain ⟨port, mem⟩ := wiringCheck_port n (l.setPort n q)
  rw [port, mem, setPort_same]
  refine ⟨rfl, fun running => ?_, fun other => ?_, by simp⟩
  · have is_step : stepped = obsStep l n p := by
      unfold stepped
      rw [running]
    unfold q
    rw [is_step]
    exact ⟨rfl, rfl⟩
  · have is_p : stepped = p := by
      unfold stepped
      split
      · contradiction
      · rfl
    unfold q
    rw [is_p]
    exact ⟨rfl, rfl⟩

/-- The SSI clock has a level wherever it has an edge (R262). -/
theorem ckLevel_of_ckEdge {t : Nat} {level : Bool} (driven : (l.port n).ckReleased = false) (edge : ckEdge l n t = some level) :
    (ckLevel l n).isSome = true := by
  have enabled : deLevel l n = true := by
    cases off : deLevel l n with
    | true => rfl
    | false => simp [ckEdge, off] at edge
  unfold ckLevel
  dsimp only
  rw [if_neg (by simp [enabled, driven])]
  split <;> rfl

theorem fbReadback_ck {level read : Bool} (driven : (l.port n).ckReleased = false) (late : 8 ≤ l.now)
    (edge : ckEdge l n (l.now - 8) = some level) :
    fbReadback n false read l =
      if (if level = read then 0 else (l.port n).ckRun + 1) < 3 then
        l.setPort n { l.port n with ckRun := if level = read then 0 else (l.port n).ckRun + 1 }
      else disarm 4 (fbFault n 15 4 16 0 (l.setPort n { l.port n with ckRun := 0, ckReleased := true })) := by
  unfold fbReadback
  dsimp only
  rw [if_neg (by omega), if_neg (by decide), if_pos (ckLevel_of_ckEdge driven edge), edge]
  rfl

/-- The third mismatch releases the clock and disarms the device (R262, R293). -/
theorem fbReadback_short {level : Bool} (driven : (l.port n).ckReleased = false) (late : 8 ≤ l.now)
    (edge : ckEdge l n (l.now - 8) = some level) (third : 2 ≤ (l.port n).ckRun) :
    let m := fbReadback n false (!level) l
    (m.port n).ckReleased = true ∧ (m.port n).status.getLsbD 16 = true ∧ m.pwm.arm = .disarmed ∧ m.mem = l.mem := by
  have miss : (if level = !level then 0 else (l.port n).ckRun + 1) = (l.port n).ckRun + 1 := if_neg (by cases level <;> decide)
  rw [fbReadback_ck driven late edge, miss, if_neg (by omega)]
  generalize hm : fbFault n 15 4 16 0 _ = m
  have mem : m.mem = l.mem := by
    rw [← hm, (fbFault_steady n _ _ _ _ _).mem]
    rfl
  have ports : (disarm 4 m).ports = m.ports := congrArg (fun x => x.1.ports) (disarm_offEngines 4 m)
  have port : (disarm 4 m).port n =
      { l.port n with ckRun := 0, ckReleased := true, status := setBit (l.port n).status 16,
                      lastFault := BitVec.ofNat 32 (15 * 2 ^ 24 + 0 % 2 ^ 24) } := by
    unfold Live.port
    rw [ports]
    show m.port n = _
    rw [← hm, fbFault_port, setPort_same]
    rfl
  refine ⟨by rw [port], ?_, disarm_arm _ _, (disarm_mem _ _).trans mem⟩
  rw [port]
  exact setBit_same _ (by decide)

theorem startingToRunning_open (on : portOn l n = true) (starting : (l.port n).state = .starting)
    (mode : fbMode l n = 1 ∨ fbMode l n = 4) (still : (l.port n).moveAt < l.now) :
    startingToRunning n l =
      if (decide (fbMode l n = 4) && decide (hallSector (l.port n).lines = 0xFF)) = true then
        hallInvalid n (l.port n).lines (l.setPort n { l.port n with state := .running })
      else l.setPort n { l.port n with state := .running } := by
  refine if_pos ?_
  rcases mode with m | m <;> simp [on, starting, still, m]

end

theorem touch_fbMode (conn : Conn) (l : Live) (n : Nat) : fbMode (touch conn l) n = fbMode l n := by
  simp [fbMode]

theorem touch_portUp (conn : Conn) (l : Live) (n : Nat) : portUp (touch conn l) n = portUp l n := by
  rfl

theorem indexCommand_open {l : Live} {n : Nat} (mode : fbMode l n = 1 ∨ fbMode l n = 5) (up : portUp l n = true) (arm : Bool) :
    indexCommand n arm l = (l.updPort n (fun p => { p with status := putBit p.status 17 arm }), 0) := by
  unfold indexCommand
  rw [if_pos (by rcases mode with m | m <;> simp [m]), if_pos up]

/-- Settles O21: counts by `quadTransition_counts` and `quadTransition_illegal`, the index by `indexEdge_accepted`, Hall steps by
`hallChange_open`, the probe by `probeEdge_takes`, the observer by `observerUpdate_steps`, the readback by `fbReadback_ck`. A change of the
Hall lines in STARTING counts nothing, and the probe count is the position at the stamp (the model's choice, log entry 115). -/
theorem feedbackPortsComplete : Obligations.FeedbackPortsComplete := by
  intro s n p m inv
  refine ⟨fun stamp a b d on mode late moves count => ?_, fun stamp a b on mode late count => ?_,
    fun stamp rising on mode late edge gate => ?_, fun conn reaches mode up => ?_, fun conn v reaches up => ?_,
    fun stamp lines on mode late running old new step => ?_, fun stamp lines up mode late starting => ?_,
    fun stamp lines on mode late running moved bad => ?_, fun stamp rising on chosen late => ?_, fun on due => ?_,
    fun on due still obs held => ?_, fun level driven late edge => ?_, fun on starting mode still => ?_,
    fun on starting mode bad still => ?_⟩
  · obtain ⟨pos, lines, dtime, illegal, mem⟩ := quadTransition_counts on mode late moves count
    refine completes_apply (f := quadTransition n stamp a b) rfl ?_
    rw [apply_port]
    exact ⟨pos, lines, dtime, illegal, sameMemory_apply mem⟩
  · obtain ⟨pos, illegal, status, lines, mem⟩ := quadTransition_illegal on mode late count
    refine completes_apply (f := quadTransition n stamp a b) rfl ?_
    rw [apply_port]
    exact ⟨pos, illegal, status, lines, sameMemory_apply mem⟩
  · obtain ⟨pos, window, idxPos, idxDtime, seen, last, mem⟩ := indexEdge_accepted on mode late edge gate
    refine completes_apply (f := indexEdge n rising stamp) rfl ?_
    rw [apply_port]
    exact ⟨pos, window, idxPos, idxDtime, seen, last, sameMemory_apply mem⟩
  · have command (arm : Bool) : indexCommand n arm (touch conn s.live) = _ :=
      indexCommand_open (by rwa [touch_fbMode]) (by rwa [touch_portUp]) arm
    constructor
    · refine completes_object (f := indexCommand n true) rfl reaches (command true)
        ⟨?_, answeredDone_reply _ _ _, sameMemory_reply (by simp)⟩
      simp [p]
    · refine completes_object (f := indexCommand n false) rfl reaches (command false)
        ⟨?_, answeredDone_reply _ _ _, sameMemory_reply (by simp)⟩
      simp [p]
  · obtain ⟨pos, extreme, dir, state, valid, mem⟩ := presetPosition_sets (l := touch conn s.live) (n := n) (by rwa [touch_portUp]) v
    refine completes_object (f := done (presetPosition n v)) rfl reaches rfl ?_
    have port : (s.apply fun _ => reply conn 0 (presetPosition n v (touch conn s.live))).live.port n =
        (presetPosition n v (touch conn s.live)).port n := by simp
    rw [port]
    rw [touch_fbMode] at valid
    exact ⟨pos, extreme, by simpa using dir, by simpa using state, valid, answeredDone_reply _ _ _, sameMemory_reply (by simpa using mem)⟩
  · obtain ⟨pos, seen, mem⟩ := hallChange_moves on mode late running old new step
    refine completes_apply (f := hallChange n stamp lines) rfl ?_
    rw [apply_port]
    exact ⟨pos, seen, sameMemory_apply mem⟩
  · obtain ⟨port, mem⟩ := hallChange_starting (lines := lines) up mode late starting
    refine completes_apply (f := hallChange n stamp lines) rfl ?_
    rw [apply_port]
    exact ⟨port, sameMemory_apply mem⟩
  · obtain ⟨state, pos, seen, count, mem⟩ := hallChange_invalid on mode late running moved bad
    refine completes_apply (f := hallChange n stamp lines) rfl ?_
    rw [apply_port]
    exact ⟨state, pos, seen, count, sameMemory_apply mem⟩
  · obtain ⟨count, valid, dtime, tag, cnt, req, pos, mem⟩ := probeEdge_takes on chosen late
    refine completes_apply (f := probeEdge n rising stamp) rfl ?_
    rw [apply_port]
    exact ⟨count, valid, dtime, tag, cnt, req, pos, sameMemory_apply mem⟩
  · obtain ⟨at_, running, other, mem⟩ := observerUpdate_steps on due
    refine completes_apply (f := observerUpdate n) rfl ?_
    rw [apply_port]
    exact ⟨at_, running, other, sameMemory_apply mem⟩
  · have effect : Machine.standstill n s.live = s.live.setPort n { p with
        obs := .standstill, vHat := 0, aHat := 0, pHat := obsPos p.pos, status := setBit (setBit p.status 19) 21 } :=
      if_pos (by simp [on, due, show (s.live.port n).moveAt + standTime s.live n < s.live.now from still,
        show (s.live.port n).obs ≠ _ from obs, show (s.live.port n).obs ≠ _ from held])
    refine completes_apply (f := Machine.standstill n) rfl ?_
    rw [apply_port, effect, setPort_same]
    exact ⟨rfl, sameMemory_apply (by simp [effect])⟩
  · constructor
    · have effect := fbReadback_ck (read := level) driven late edge
      rw [if_pos rfl, if_pos (by decide)] at effect
      refine completes_apply (f := fbReadback n false level) rfl ?_
      rw [apply_port, effect, setPort_same]
      exact ⟨rfl, by simp [effect], sameMemory_apply (by simp [effect])⟩
    · intro third
      obtain ⟨released, short, arm, mem⟩ := fbReadback_short driven late edge third
      refine completes_apply (f := fbReadback n false (!level)) rfl ?_
      rw [apply_port]
      exact ⟨released, short, by simpa using arm, sameMemory_apply mem⟩
  · have effect := startingToRunning_open on starting (mode.imp_right And.left) still
    rw [if_neg ?_] at effect
    · refine completes_apply (f := Machine.startingToRunning n) rfl ?_
      rw [apply_port, effect, setPort_same]
      exact ⟨rfl, sameMemory_apply (by simp [effect])⟩
    · rcases mode with quad | ⟨_, valid⟩
      · simp [show fbMode s.live n = 1 from quad]
      · simp [show hallSector (s.live.port n).lines ≠ 0xFF from valid]
  · have effect := startingToRunning_open on starting (.inr mode) still
    rw [if_pos (by simp [show fbMode s.live n = 4 from mode, show hallSector (s.live.port n).lines = 0xFF from bad])] at effect
    obtain ⟨state, count, -, mem⟩ := hallInvalid_port n p.lines (s.live.setPort n { p with state := .running })
    refine completes_apply (f := Machine.startingToRunning n) rfl ?_
    rw [apply_port, effect]
    refine ⟨state, count.trans (by simp), sameMemory_apply ?_⟩
    rw [effect]
    exact mem.trans (by simp)

end Sys2Proof.Machine

/-! The SSI master (09): frames, their evaluation and the recovery time (R242–R248). -/

namespace Sys2Proof.Machine

open Sys2Proof

/-- No more than `Steady`, but for the position of the port and its instant. -/
structure Moves (n : Nat) (l m : Live) : Prop where
  port : ∃ pos dtime, (m.port n).fixed = ({ l.port n with pos := pos, posDtime := dtime } : Port).fixed
  mem : m.mem = l.mem

theorem Steady.moves {n : Nat} {l m : Live} (h : Steady n l m) : Moves n l m := ⟨⟨(l.port n).pos, (l.port n).posDtime, h.port⟩, h.mem⟩

/-- A port that is as before but for its position. -/
theorem moves_of_port {n : Nat} {l m : Live} {pos : BitVec 48} {dtime : Word}
    (h : (m.port n).fixed = ({ l.port n with pos := pos, posDtime := dtime } : Port).fixed) (mem : m.mem = l.mem) : Moves n l m :=
  ⟨⟨pos, dtime, h⟩, mem⟩

theorem fixed_at {p q : Port} (h : p.fixed = q.fixed) (pos : BitVec 48) (dtime : Word) :
    ({ p with pos := pos, posDtime := dtime } : Port).fixed = ({ q with pos := pos, posDtime := dtime } : Port).fixed :=
  congrArg (fun r : Port => { r with pos := pos, posDtime := dtime }) h

theorem Moves.trans {n : Nat} {a b c : Live} (h : Moves n a b) (k : Moves n b c) : Moves n a c := by
  obtain ⟨⟨pos, dtime, port⟩, mem⟩ := h
  obtain ⟨⟨pos', dtime', port'⟩, mem'⟩ := k
  exact ⟨⟨pos', dtime', port'.trans (fixed_at port pos' dtime')⟩, mem'.trans mem⟩

theorem setPosition_moves (n : Nat) (l : Live) (v : BitVec 48) : Moves n l (setPosition n v l) := by
  refine moves_of_port (pos := v) (dtime := (l.port n).posDtime) ?_ (setPosition_mem n l v)
  rw [setPosition_port]
  rfl

theorem movePosition_only (n t : Nat) (d : Int) (l : Live) : Moves n l (movePosition n t d l) := by
  by_cases still : d = 0
  · subst still
    refine moves_of_port (pos := (l.port n).pos) (dtime := BitVec.ofNat 64 t) ?_ ?_
    · unfold movePosition
      dsimp only
      rw [if_pos (by simp), updPort_same]
    · simp [movePosition]
  · obtain ⟨port, mem⟩ := movePosition_moves n l t still
    exact moves_of_port port mem

theorem ssiPosition_moves (n tL v : Nat) (l : Live) : Moves n l (ssiPosition n tL v l) := by
  unfold ssiPosition
  extract_lets p t w first raw moved q
  have kept : Moves n l raw := (setPort_steady (p := { p with rawPrev := v }) rfl).moves
  have placed : Moves n raw moved := by
    unfold moved
    split
    · refine Moves.trans (b := raw.updPort n fun p => { p with posDtime := BitVec.ofNat 64 t }) ?_
        ((setPosition_moves n _ _).trans (portValid_steady n _).moves)
      exact moves_of_port (by rw [updPort_same]) (by simp)
    · exact movePosition_only _ _ _ _
  have stored : Steady n moved (moved.setPort n { q with meas := some (obsPos q.pos, t) }) := setPort_steady rfl
  exact kept.trans (placed.trans (stored.trans (certain_steady n _)).moves)

theorem ssiReference_moves (n tL v : Nat) (l : Live) : Moves n l (ssiReference n tL v l) := by
  unfold ssiReference
  extract_lets p t sh bits a diff refD own p' wasUncertain valid
  have kept : Steady n l valid := .trans (setPort_steady (p := p') rfl) (portValid_steady n _)
  split
  · exact kept.moves.trans ((setPosition_moves n _ _).trans (certain_steady n _).moves)
  · split
    · have counted : Steady n valid (countRef n valid) := updPort_steady rfl
      exact (kept.trans (counted.trans ((uncertain_steady n _).trans (fbFault_steady n _ _ _ _ _)))).moves
    · exact kept.moves

/-- A bad frame does not count as a frame, and sets the bits of its own fault. -/
theorem portBad_port (n code : Nat) (l : Live) : ((portBad n code l).port n).frameCnt = (l.port n).frameCnt ∧
    ∀ i, i ≠ 15 → i ≠ 18 → i ≠ 21 → ((portBad n code l).port n).status.getLsbD i = (l.port n).status.getLsbD i := by
  unfold portBad
  extract_lets src p stored
  have stored_port : stored.port n = p := setPort_same _ _ _
  split
  · rw [stored_port]
    exact ⟨rfl, fun _ _ _ _ => rfl⟩
  · split
    · rw [uncertain, updPort_same, stored_port]
      exact ⟨rfl, fun i _ h _ => setBit_other _ h⟩
    · split
      · unfold portLost
        dsimp only
        split
        · rw [stored_port]
          exact ⟨rfl, fun _ _ _ _ => rfl⟩
        · rw [fbFault_port, setPort_same, stored_port]
          refine ⟨rfl, fun i h15 h18 h21 => ?_⟩
          exact (setBit_other _ h15).trans ((clrBit_other _ h21).trans (setBit_other _ h18))
      · rw [stored_port]
        exact ⟨rfl, fun _ _ _ _ => rfl⟩

/-- No start bit within 800 TCLK (R248). -/
theorem ssiStartTimeout_bad {n tL : Nat} {l : Live} (on : portOn l n = true) (waiting : (l.port n).ssi = .waiting tL true)
    (late : tL + 800 ≤ l.now) :
    let q := (ssiStartTimeout n l).port n
    q.ssi = .recovery (l.now + ssiRec l n) ∧ q.ckRise = some l.now ∧ q.frameCnt = (l.port n).frameCnt + 1 ∧
      q.status.getLsbD 6 = true ∧ q.pos = (l.port n).pos ∧ (ssiStartTimeout n l).mem = l.mem := by
  unfold ssiStartTimeout
  dsimp only
  rw [waiting]
  dsimp only
  rw [if_neg (by simp [on, late]), if_pos (by simp)]
  generalize hm : fbFault n 5 9 6 0 (countFrame n (ssiCut n l)) = m
  have port : m.port n = { l.port n with
      ssi := .recovery (l.now + ssiRec l n), ckRise := some l.now, frameCnt := (l.port n).frameCnt + 1,
      status := setBit (l.port n).status 6, lastFault := BitVec.ofNat 32 (5 * 2 ^ 24 + 0 % 2 ^ 24) } := by
    rw [← hm, fbFault_port, countFrame, updPort_same, ssiCut, updPort_same]
  have mem : m.mem = l.mem := by
    rw [← hm, (fbFault_steady n _ _ _ _ _).mem]
    rfl
  have steady := portBad_steady n m 5
  obtain ⟨count, status⟩ := portBad_port n 5 m
  refine ⟨(fixed_ssi steady.port).trans ?_, (fixed_ckRise steady.port).trans ?_, count.trans ?_, ?_, (fixed_pos steady.port).trans ?_,
    steady.mem.trans mem⟩
  · rw [port]
  · rw [port]
  · rw [port]
  · rw [status 6 (by decide) (by decide) (by decide), port]
    exact setBit_same _ (by decide)
  · rw [port]

/-- The raw value of a frame: as sampled, or inverted, the last `length` bits (R243). -/
def frameBits (l : Live) (n : Nat) (raw : BitVec 48) : Nat :=
  (if (l.port n).frame.invert then 2 ^ 48 - 1 - raw.toNat else raw.toNat) % 2 ^ ssiL l n

/-- The port with the evaluated frame in its raw result, in the recovery time. -/
def takenFrame (l : Live) (n tL bits : Nat) (ok : Bool) : Port :=
  { l.port n with
    rawFrame := BitVec.ofNat 48 bits, rawTag := (l.port n).rawTag + 1, rawValid := ok,
    ssi := .recovery (tL + ssiL l n * 2 * ssiHalf l n + ssiHalf l n + ssiRec l n) }

/-- What a valid frame with the position `v0` does. -/
def acceptFrame (n tL w v0 : Nat) (p : Port) (l : Live) : Live :=
  let v := if l.flag (0x2500 + n) 0x16 then grayDecode w v0 else v0
  let l := captured n (l.setPort n { p with bad := 0 })
  if fbMode l n = 2 then ssiPosition n tL v l else ssiReference n tL v l

/-- What an invalid frame does. -/
def rejectFrame (n detail status : Nat) (crcBad masked : Bool) (l : Live) : Live :=
  let l := countFrame n l
  let l := if crcBad then fbFault n 7 9 5 detail l else l
  let l := if masked then fbFault n 8 9 4 status l else l
  portBad n (if masked then 8 else 7) l

/-- The frame that a valid CRC and status bits let through, else what it counts as. -/
def judgeFrame (n tL bits detail status : Nat) (crcBad masked : Bool) (w v0 : Nat) (l : Live) : Live :=
  let ok := !crcBad && !masked
  let p := takenFrame l n tL bits ok
  if ok then acceptFrame n tL w v0 p (l.setPort n p) else rejectFrame n detail status crcBad masked (l.setPort n p)

theorem captured_steady (n : Nat) (l : Live) : Steady n l (captured n l) := by
  refine ⟨?_, rfl⟩
  rw [captured_port]
  rfl

theorem acceptFrame_moves (n tL w v0 : Nat) (p : Port) (l : Live) (h : p = l.port n) : Moves n l (acceptFrame n tL w v0 p l) := by
  subst h
  have stored : Steady n l (captured n (l.setPort n { l.port n with bad := 0 })) :=
    .trans (setPort_steady (p := { l.port n with bad := 0 }) rfl) (captured_steady n _)
  unfold acceptFrame
  dsimp only
  split
  · exact stored.moves.trans (ssiPosition_moves _ _ _ _)
  · exact stored.moves.trans (ssiReference_moves _ _ _ _)

theorem rejectFrame_steady (n detail status : Nat) (crcBad masked : Bool) (l : Live) :
    Steady n l (rejectFrame n detail status crcBad masked l) := by
  have noted (b : Bool) (code bit det : Nat) (m : Live) : Steady n m (if b then fbFault n code 9 bit det m else m) := by
    cases b
    · exact .refl n m
    · exact fbFault_steady n m _ _ _ _
  unfold rejectFrame
  dsimp only
  refine Steady.trans (b := countFrame n l) (updPort_steady rfl) ?_
  exact (noted _ _ _ _ _).trans ((noted _ _ _ _ _).trans (portBad_steady n _ _))

/-- What is left of the port is the taken frame, but for its position. -/
theorem judgeFrame_moves (n tL bits detail status : Nat) (crcBad masked : Bool) (w v0 : Nat) (l : Live) :
    ∃ ok, Moves n (l.setPort n (takenFrame l n tL bits ok)) (judgeFrame n tL bits detail status crcBad masked w v0 l) := by
  refine ⟨!crcBad && !masked, ?_⟩
  unfold judgeFrame
  dsimp only
  split
  · exact acceptFrame_moves _ _ _ _ _ _ (setPort_same _ _ _).symm
  · exact (rejectFrame_steady _ _ _ _ _ _).moves

theorem moves_raw {n : Nat} {l m : Live} (h : Moves n l m) : (m.port n).rawFrame = (l.port n).rawFrame ∧
    (m.port n).rawTag = (l.port n).rawTag ∧ (m.port n).rawValid = (l.port n).rawValid ∧ (m.port n).ssi = (l.port n).ssi := by
  obtain ⟨⟨pos, dtime, port⟩, -⟩ := h
  exact ⟨(fixed_rawFrame port).trans rfl, (fixed_rawTag port).trans rfl, (fixed_rawValid port).trans rfl, (fixed_ssi port).trans rfl⟩

/-- The first valid frame of a port in STARTING is its position, and takes it to RUNNING (R244, R252). -/
theorem ssiPosition_first {n : Nat} {l : Live} (starting : (l.port n).state = .starting) (tL v : Nat) :
    let q := (ssiPosition n tL v l).port n
    q.pos = BitVec.ofNat 48 v ∧ q.state = .running ∧ q.status.getLsbD 18 = false := by
  unfold ssiPosition
  extract_lets p t w first raw moved q q'
  have raw_port : raw.port n = { p with rawPrev := v } := setPort_same _ _ _
  have moved_eq : moved = portValid n (setPosition n (BitVec.ofNat 48 v) (raw.updPort n fun p => { p with posDtime := BitVec.ofNat 64 t })) :=
    if_pos (by simp [first, p, starting])
  generalize hm : setPosition n (BitVec.ofNat 48 v) (raw.updPort n fun p => { p with posDtime := BitVec.ofNat 64 t }) = m at moved_eq
  have set : (m.port n).pos = BitVec.ofNat 48 v ∧ (m.port n).state = .starting := by
    rw [← hm, setPosition_port, updPort_same, raw_port]
    exact ⟨rfl, starting⟩
  have valid : moved.port n = { m.port n with state := .running } := by
    rw [moved_eq]
    unfold portValid
    dsimp only
    rw [set.2]
    exact setPort_same _ _ _
  have result : q' = { q with meas := some (obsPos q.pos, t), status := clrBit q.status 18 } := by
    unfold q' certain
    rw [updPort_same, setPort_same]
  rw [result, show q = _ from valid]
  exact ⟨set.1, rfl, clrBit_same _⟩

section

variable {n tL d : Nat} {l : Live} (on : portOn l n = true) (sampling : (l.port n).ssi = .sampling tL d)
  (late : tL + ssiL l n * 2 * ssiHalf l n + d + 2 ≤ l.now)

include on sampling late

theorem ssiEvaluate_judges (raw : BitVec 48) : ∃ detail status crcBad masked,
    ssiEvaluate n raw l = judgeFrame n tL (frameBits l n raw) detail status crcBad masked (ssiW l n)
      (frameBits l n raw / 2 ^ ssiC l n / 2 ^ ssiF l n) l ∧
    (ssiC l n = 0 → ssiF l n = 0 → crcBad = false ∧ masked = false) := by
  unfold ssiEvaluate
  dsimp only
  split
  next tL' d' phase =>
    rw [sampling] at phase
    obtain ⟨rfl, rfl⟩ := SsiPhase.sampling.inj phase
    rw [if_neg (by simp [on, late])]
    refine ⟨_, _, _, _, rfl, ?_⟩
    intro c f
    simp [c, f, Nat.mod_one]
  next other => exact absurd sampling (other tL d)

/-- An evaluated frame is the raw result, and the recovery time follows (R243, R247). -/
theorem ssiEvaluate_raw (raw : BitVec 48) :
    let q := (ssiEvaluate n raw l).port n
    q.rawFrame = BitVec.ofNat 48 (frameBits l n raw) ∧ q.rawTag = (l.port n).rawTag + 1 ∧
      q.ssi = .recovery (tL + ssiL l n * 2 * ssiHalf l n + ssiHalf l n + ssiRec l n) ∧ (ssiEvaluate n raw l).mem = l.mem := by
  obtain ⟨detail, status, crcBad, masked, judged, -⟩ := ssiEvaluate_judges on sampling late raw
  rw [judged]
  obtain ⟨ok, moves⟩ := judgeFrame_moves n tL (frameBits l n raw) detail status crcBad masked (ssiW l n)
    (frameBits l n raw / 2 ^ ssiC l n / 2 ^ ssiF l n) l
  obtain ⟨frame, tag, -, ssi⟩ := moves_raw moves
  rw [setPort_same] at frame tag ssi
  exact ⟨frame, tag, ssi, moves.mem.trans (by simp)⟩

/-- Without CRC and status bits, the first frame of a port of mode 2 is its position (R244, R252). -/
theorem ssiEvaluate_first (raw : BitVec 48) (mode : fbMode l n = 2) (starting : (l.port n).state = .starting) (crc : ssiC l n = 0)
    (status : ssiF l n = 0) (plain : l.flag (0x2500 + n) 0x16 = false) :
    let q := (ssiEvaluate n raw l).port n
    q.pos = BitVec.ofNat 48 (frameBits l n raw) ∧ q.state = .running ∧ q.rawValid = true ∧ q.status.getLsbD 18 = false ∧
      (ssiEvaluate n raw l).mem = l.mem := by
  obtain ⟨detail, bits, crcBad, masked, judged, clean⟩ := ssiEvaluate_judges on sampling late raw
  obtain ⟨rfl, rfl⟩ := clean crc status
  obtain ⟨taken, htaken⟩ : ∃ p, p = takenFrame l n tL (frameBits l n raw) true := ⟨_, rfl⟩
  have position : ssiEvaluate n raw l =
      ssiPosition n tL (frameBits l n raw) (captured n ((l.setPort n taken).setPort n { taken with bad := 0 })) := by
    rw [judged, crc, status]
    unfold judgeFrame
    dsimp only
    rw [if_pos (by decide)]
    unfold acceptFrame
    dsimp only
    rw [if_pos (by simpa [fbMode, captured] using mode), if_neg (by simp [plain]), htaken]
    simp
  generalize hm : captured n ((l.setPort n taken).setPort n { taken with bad := 0 }) = m at position
  have port : m.port n = { taken with bad := 0, capReq := true, capValid := true, capTag := taken.capTag + 1 } := by
    rw [← hm, captured_port, setPort_same]
  have mem : m.mem = l.mem := by
    rw [← hm]
    rfl
  obtain ⟨pos, state, certain⟩ := ssiPosition_first (n := n) (l := m) (by rw [port, htaken]; exact starting) tL (frameBits l n raw)
  have moves := ssiPosition_moves n tL (frameBits l n raw) m
  rw [position]
  refine ⟨pos, state, (moves_raw moves).2.2.1.trans ?_, certain, moves.mem.trans mem⟩
  rw [port, htaken]
  rfl

end

/-- A request on an idle port starts a frame 4 TCLK later (R242, R247). -/
theorem ssiRequest_idle {n : Nat} {l : Live} (on : portOn l n = true) (mode : ssiMode l n = true) (idle : (l.port n).ssi = .idle)
    (fresh : (l.port n).reqAt ≠ some l.now) :
    ssiRequest n l = l.setPort n (beginFrame l n { l.port n with reqAt := some l.now }) := by
  unfold ssiRequest
  dsimp only
  rw [if_neg (by simp [on, mode, fresh]), idle]
  exact if_pos rfl

/-- Settles O22: the evaluation by `ssiEvaluate_raw` and `ssiEvaluate_first`, a missing start bit by `ssiStartTimeout_bad`. The levels are
those at the pins before the device's inversion (log entry 25). -/
theorem ssiFramesComplete : Obligations.SsiFramesComplete := by
  intro s n on p is
  refine ⟨fun mode period due idle fresh => ?_, fun tL level starting => ?_, fun tL level waiting driven bit early late => ?_,
    fun tL waiting late => ?_, fun tL d raw sampling late => ⟨?_, fun mode starting crc status plain => ?_⟩, fun till recovery late => ?_⟩
  · obtain ⟨m, hm⟩ : ∃ m, m = s.live.setPort n { p with nextReq := p.nextReq + s.live.cfg (0x2500 + n) 0x17 * 400 } := ⟨_, rfl⟩
    have port : m.port n = { p with nextReq := p.nextReq + s.live.cfg (0x2500 + n) 0x17 * 400 } := by rw [hm, setPort_same]
    have on' : portOn m n = true := by
      unfold portOn
      rw [port, hm]
      exact on
    have mode' : ssiMode m n = true := by
      rw [hm]
      exact mode
    have now : m.now = s.live.now := by simp [hm]
    have effect : ssiPeriodic n s.live = ssiRequest n m :=
      (if_pos (by simp [on, period, show (s.live.port n).nextReq ≤ _ from due])).trans (by rw [hm])
    rw [ssiRequest_idle on' mode' (by rw [port]; exact idle) (by rw [port, now]; exact fresh)] at effect
    refine completes_apply (f := ssiPeriodic n) rfl ⟨?_, sameMemory_apply (by simp [effect, hm])⟩
    rw [apply_port, effect, setPort_same, port, now]
    unfold beginFrame
    rw [now, show ssiNow m n = ssiNow s.live n by rw [hm]; rfl]
  · have effect : ssiFrameStart n level s.live = s.live.setPort n { p with ssi := .waiting tL (level != p.frame.invert) } := by
      unfold ssiFrameStart
      dsimp only
      rw [starting]
      exact if_pos on
    refine completes_apply (f := ssiFrameStart n level) rfl ⟨?_, sameMemory_apply (by simp [effect])⟩
    rw [apply_port, effect, setPort_same]
  · have effect : ssiStartBit n level s.live = s.live.setPort n { p with
        ssi := .sampling tL (s.live.now - tL), delay := BitVec.ofNat 16 (s.live.now - tL) } := by
      unfold ssiStartBit
      dsimp only
      rw [waiting]
      dsimp only
      rw [if_neg (by simp [on, early, late, show (s.live.port n).ckReleased = false from driven, bit, p])]
      rfl
    refine completes_apply (f := ssiStartBit n level) rfl ⟨?_, sameMemory_apply (by simp [effect])⟩
    rw [apply_port, effect, setPort_same]
  · obtain ⟨ssi, rise, count, status, pos, mem⟩ := ssiStartTimeout_bad on waiting late
    refine completes_apply (f := ssiStartTimeout n) rfl ?_
    rw [apply_port]
    exact ⟨ssi, rise, count, status, pos, sameMemory_apply mem⟩
  · obtain ⟨frame, tag, ssi, mem⟩ := ssiEvaluate_raw on sampling late raw
    refine completes_apply (f := ssiEvaluate n raw) rfl ?_
    rw [apply_port]
    exact ⟨frame, tag, ssi, sameMemory_apply mem⟩
  · obtain ⟨pos, state, valid, certain, mem⟩ := ssiEvaluate_first on sampling late raw mode starting crc status plain
    refine completes_apply (f := ssiEvaluate n raw) rfl ?_
    rw [apply_port]
    exact ⟨pos, state, valid, certain, sameMemory_apply mem⟩
  · have effect : ssiRecoveryEnd n s.live = s.live.setPort n (if p.held.isSome then beginFrame s.live n p else { p with ssi := .idle }) := by
      unfold ssiRecoveryEnd
      dsimp only
      rw [recovery]
      dsimp only
      rw [if_neg (by simp [on, late])]
      exact (apply_ite (s.live.setPort n) _ _ _).symm
    refine completes_apply (f := ssiRecoveryEnd n) rfl ⟨?_, sameMemory_apply (by simp [effect])⟩
    rw [apply_port, effect, setPort_same]
    rfl

end Sys2Proof.Machine

/-! The pin engines (12): queues, flags, swaps and readback (R335–R341), and their instructions (R330–R333). -/

namespace Sys2Proof.Machine

open Sys2Proof

/-- A report keeps every engine. -/
theorem pe_of_reports {l m : Live} (h : OnlyReports l m) (e : Nat) : m.pe e = l.pe e := by
  unfold Live.pe
  simp only [h.keeps]

theorem peNote_pe (e bit k : Nat) (l : Live) : (peNote e bit l).pe k = l.pe k := rfl

theorem peForceSwap_swaps {e : Nat} {l : Live} (up : unitUp (peUnit e) l = true) (pending : (l.pe e).swapPending = true) :
    (peForceSwap e l).pe e = { (l.pe e).swap with
      sr := 0, count := 0, delay := none, lost := BitVec.ofNat 8 (l.pe e).count, state := .running, stat := setBit (l.pe e).swap.stat 5 } ∧
      (peForceSwap e l).mem = l.mem := by
  unfold peForceSwap
  dsimp only
  rw [if_neg (by simp [up, pending]), pe_of_reports (writeRecord_reports _ _ _ _), peNote_pe, peNote_pe, setPe_same]
  exact ⟨rfl, by simp [peNote]⟩

section

variable {e j : Nat} {level : Bool} {l : Live} (due : ((l.pe e).pins.get {} (peBase l e + j)).checkDue = true)
  (now : l.now = ((l.pe e).pins.get {} (peBase l e + j)).edgeAt + 8)

include due now

/-- The level as driven clears the run of mismatches (R341). -/
theorem peReadback_right (right : ((l.pe e).pins.get {} (peBase l e + j)).driven = some level) :
    peReadback e j level l = l.setPe e { l.pe e with
      pins := (l.pe e).pins.put {} (peBase l e + j) { (l.pe e).pins.get {} (peBase l e + j) with checkDue := false, run := 0 } } := by
  have checked : checkReadback l.now level ((l.pe e).pins.get {} (peBase l e + j)) =
      ({ (l.pe e).pins.get {} (peBase l e + j) with checkDue := false, run := 0 }, false) := by
    unfold checkReadback
    rw [if_pos (by simp [due, now]), if_neg (by rw [right]; simp)]
  unfold peReadback
  dsimp only
  rw [checked]
  rfl

/-- The third mismatch releases the pin (R341). -/
theorem peReadback_short (wrong : ((l.pe e).pins.get {} (peBase l e + j)).driven = some (!level))
    (third : 2 ≤ ((l.pe e).pins.get {} (peBase l e + j)).run) :
    let x := (peReadback e j level l).pe e
    x.stat = setBit (l.pe e).stat 7 ∧ x.shorts = setBit (l.pe e).shorts (peBase l e + j) ∧ x.shortCnt = (l.pe e).shortCnt + 1 ∧
      (x.pins.get {} (peBase l e + j)).driven = none ∧ (peReadback e j level l).mem = l.mem := by
  have checked : checkReadback l.now level ((l.pe e).pins.get {} (peBase l e + j)) =
      ({ (l.pe e).pins.get {} (peBase l e + j) with checkDue := false, run := 0, released := true, driven := none }, true) := by
    unfold checkReadback
    rw [if_pos (by simp [due, now]), if_pos wrong, if_pos third]
  unfold peReadback
  dsimp only
  rw [checked]
  dsimp only
  rw [if_neg (by decide), pe_of_reports (reportFault_only _ _ _ _ _), peNote_pe, setPe_same]
  exact ⟨rfl, rfl, rfl, by simp [PinEngine.raise], by simp [peNote]⟩

end

/-- A read of RXD through the host port. -/
def readRxd (e : Nat) (l : Live) : Live :=
  if !unitUp (peUnit e) l then l
  else { (rxdRead e l).2 with host := { (rxdRead e l).2.host with lastRead := bytesLE 4 (rxdRead e l).1.toNat } }

theorem readRxd_reads {e : Nat} {l : Live} {w : BitVec 32} {x : PinEngine} (up : unitUp (peUnit e) l = true)
    (taken : rxdRead e l = (w, l.setPe e x)) :
    (readRxd e l).pe e = x ∧ (readRxd e l).host.lastRead = bytesLE 4 w.toNat ∧ (readRxd e l).mem = l.mem := by
  unfold readRxd
  rw [if_neg (by simp [up]), taken]
  exact ⟨setPe_same _ _ _, rfl, rfl⟩

/-- Settles O29: `peForceSwap_swaps`, `peReadback_right`, `peReadback_short`, and the queue operations by their own equations. -/
theorem pinEngineCommandsComplete : Obligations.PinEngineCommandsComplete := by
  intro s e up x
  have up' : unitUp (peUnit e) s.live = true := up
  have off {α : Type} (a b : α) : (if (!unitUp (peUnit e) s.live) = true then a else b) = b := if_neg (by simp [up'])
  refine ⟨fun w room => ?_, fun w r queued => ?_, fun empty => ?_, fun m => ?_, fun m fresh => ?_, ?_, fun pending => ?_,
    fun on due => ?_, fun j level due now => ⟨fun right => ?_, fun wrong third => ?_⟩⟩
  · have effect : txdWrite e w s.live = s.live.setPe e { x with tx := x.tx ++ [w] } := (off _ _).trans (if_pos room)
    refine completes_apply (f := txdWrite e w) rfl ⟨?_, sameMemory_apply (by simp [effect])⟩
    rw [apply_pe, effect, setPe_same]
  · have taken : rxdRead e s.live = (w, s.live.setPe e { x with rx := r, lastRx := w, rxv := true }) := by
      unfold rxdRead
      dsimp only
      rw [show (s.live.pe e).rx = _ from queued]
    obtain ⟨port, read, mem⟩ := readRxd_reads up' taken
    refine completes_apply (f := readRxd e) rfl ?_
    rw [apply_pe]
    exact ⟨port, by simpa using read, sameMemory_apply mem⟩
  · have taken : rxdRead e s.live = (x.lastRx, s.live.setPe e { x with rxv := false }) := by
      unfold rxdRead
      dsimp only
      rw [show (s.live.pe e).rx = _ from empty]
    obtain ⟨port, read, mem⟩ := readRxd_reads up' taken
    refine completes_apply (f := readRxd e) rfl ?_
    rw [apply_pe]
    exact ⟨port, by simpa using read, sameMemory_apply mem⟩
  · refine completes_apply (f := peSetFlags e m) rfl ⟨?_, sameMemory_apply ?_⟩ <;> simp [peSetFlags, up', x]
  · refine completes_apply (f := peClearFlags e m) rfl ⟨?_, sameMemory_apply ?_⟩ <;>
      simp [peClearFlags, up', x, clearedFlags, clrMask_zero, show (s.live.pe e).flagSets = none from fresh]
  · refine completes_apply (f := peFlush e) rfl ⟨?_, sameMemory_apply ?_⟩ <;> simp [peFlush, up', x]
  · obtain ⟨swapped, mem⟩ := peForceSwap_swaps (e := e) (l := s.live) up pending
    refine completes_apply (f := peForceSwap e) rfl ?_
    rw [apply_pe, swapped]
    exact ⟨rfl, rfl, rfl, rfl, rfl, rfl, rfl, rfl, rfl, rfl, sameMemory_apply mem⟩
  · have effect : peBankSwap e s.live = peNote e 6 (s.live.updPe e PinEngine.swap) := if_pos (by simp [on, due])
    refine completes_apply (f := peBankSwap e) rfl ⟨?_, sameMemory_apply (by simp [effect, peNote])⟩
    rw [apply_pe, effect, peNote_pe, updPe_same]
    rfl
  · have effect := peReadback_right due now right
    refine completes_apply (f := peReadback e j level) rfl ⟨?_, sameMemory_apply (by simp [effect])⟩
    rw [apply_pe, effect, setPe_same]
  · obtain ⟨stat, shorts, count, driven, mem⟩ := peReadback_short due now wrong third
    refine completes_apply (f := peReadback e j level) rfl ?_
    rw [apply_pe]
    exact ⟨stat, shorts, count, driven, sameMemory_apply mem⟩

/-! ### Instructions (R330–R333) -/

/-- A command that only writes its engine. -/
theorem completes_setPe {s : State} {e : Nat} {c : Instr} {f : Live → Live} {x : PinEngine} (run : exec c s = ran f s)
    (effect : f s.live = s.live.setPe e x) :
    Completes c s fun t => t.live.pe e = x ∧ t.live.channels = s.live.channels ∧ SameMemory s t := by
  refine completes_apply run ⟨?_, ?_, sameMemory_apply (by simp [effect])⟩
  · rw [apply_pe, effect, setPe_same]
  · simp [effect]

section

variable (d : Nat) (x : PinEngine)

theorem ticked_instr : (x.ticked d).instr = x.instr := rfl
theorem ticked_stat : (x.ticked d).stat = x.stat := rfl
theorem ticked_seen : (x.ticked d).seen = x.seen := rfl
theorem ticked_count : (x.ticked d).count = x.count := rfl
theorem ticked_flags : (x.ticked d).flags = x.flags := rfl
theorem ticked_flagSets : (x.ticked d).flagSets = x.flagSets := rfl
theorem ticked_tx : (x.ticked d).tx = x.tx := rfl

theorem ticked_waitHolds (pins : Byte) : waitHolds (x.ticked d) pins = waitHolds x pins := by
  unfold waitHolds
  rw [ticked_instr, ticked_seen, ticked_stat]

theorem ticked_branchHolds (l : Live) (e : Nat) (pins : Byte) : branchHolds l e (x.ticked d) pins = branchHolds l e x pins := by
  unfold branchHolds
  rw [ticked_instr, ticked_seen, ticked_count]

end

/-- The opcode of an engine that is ready for it. -/
theorem peOp_of_ready {l : Live} {e op : Nat} (ready : peReady l e op = true) : peOp (l.pe e).instr = op := by
  unfold peReady at ready
  simp at ready
  tauto

/-- A WAIT that waits for no flag to be consumed leaves the engine as it is (R332). -/
theorem releaseOf_wait (l : Live) (x : PinEngine) (op : peOp x.instr = 0x2) (plain : field x.instr 19 18 ≠ 1 ∨ bitOf x.instr 17 = false) :
    releaseOf l x = x := by
  unfold releaseOf
  dsimp only
  rw [op]
  exact if_neg (by rcases plain with h | h <;> simp [h])

/-- A WAIT consumes the flag that it waited for (R332). -/
theorem releaseOf_flag (l : Live) (x : PinEngine) (op : peOp x.instr = 0x2) (kind : field x.instr 19 18 = 1)
    (level : bitOf x.instr 17 = true) (fresh : x.flagSets = none) :
    releaseOf l x = { x with flags := clrMask x.flags (BitVec.ofNat 8 (2 ^ field x.instr 16 14)) } := by
  unfold releaseOf clearedFlags
  dsimp only
  rw [op, fresh]
  dsimp only
  rw [if_pos (by simp [kind, level]), show ∀ y : Byte, clrMask y 0 = y from clrMask_zero]
  rfl

/-- The word that a FETCH takes (R333). -/
theorem fetchWord_takes {x : PinEngine} {w : BitVec 32} {v r : List (BitVec 32)} (seen : x.seen.tx = w :: v)
    (kept : x.seen.flushed = false) (queued : x.tx = w :: r) : fetchWord x = { x with sr := w, tx := r, count := 0 } := by
  unfold fetchWord
  rw [seen, kept, queued]
  rfl

/-! What the three instructions that drive pins or fail do. -/

theorem peRecord_pe (e code element detail : Nat) (l : Live) :
    let x := (peRecord e code element detail l).pe e
    x = { l.pe e with rec1 := x.rec1, rec2 := x.rec2, rec3 := x.rec3 } ∧ (peRecord e code element detail l).mem = l.mem := by
  unfold peRecord
  extract_lets x last t y q
  unfold q
  split
  · rw [pe_of_reports (writeRecord_reports _ _ _ _), setPe_same]
    refine ⟨?_, by simp⟩
    unfold y
    split
    · rfl
    · split <;> rfl
  · exact ⟨rfl, rfl⟩

section

variable {e : Nat} {l : Live} (pins : Byte)

theorem peDrive_drives (ready : peReady l e 0x3 = true) :
    let x := (l.pe e).ticked (peDivider l e)
    let i := (l.pe e).instr
    let m := BitVec.ofNat 8 (field i 15 8)
    let v := BitVec.ofNat 8 (field i 7 0) &&& m
    let y := (peDrive e l).pe e
    (if bitOf i 16 then y.dirs = clrMask x.dirs m ||| v ∧ y.levels = x.levels
      else y.levels = clrMask x.levels m ||| v ∧ y.dirs = x.dirs) ∧
      y.addr = (x.addr + 1) % 48 ∧ y.sr = x.sr ∧ (peDrive e l).mem = l.mem := by
  unfold peDrive
  dsimp only
  rw [if_pos ready, setPe_same, ticked_instr]
  cases bitOf (l.pe e).instr 16
  · exact ⟨⟨rfl, rfl⟩, rfl, rfl, by simp⟩
  · exact ⟨⟨rfl, rfl⟩, rfl, rfl, by simp⟩

theorem peEmit_emits (ready : peReady l e 0x4 = true) :
    let x := (l.pe e).ticked (peDivider l e)
    let js := maskPins (peSend l e)
    let ins := if bitOf (l.pe e).instr 16 then takeBits (peTake l e) pins else js.map (fun _ => false)
    let r := srMove (peLsb l e) ins x.sr
    let y := (peEmit e pins l).pe e
    y.sr = r.2 ∧ y.levels = emitLevels js r.1 x.levels ∧ y.count = min 32 (x.count + ins.length) ∧ y.addr = (x.addr + 1) % 48 ∧
      (peEmit e pins l).mem = l.mem := by
  unfold peEmit
  dsimp only
  rw [if_pos ready, setPe_same, ticked_instr]
  exact ⟨rfl, rfl, rfl, rfl, by simp⟩

/-- A FETCH from an empty queue that does not stall (R333). -/
theorem peFetch_underrun (ready : peReady l e 0x6 = true) (empty : (l.pe e).seen.tx = []) (runs : bitOf (l.pe e).instr 16 = false) :
    let x := (l.pe e).ticked (peDivider l e)
    let y := (peFetch e l).pe e
    y.sr = 0 ∧ y.underCnt = x.underCnt + 1 ∧ y.stat = setBit x.stat 1 ∧ y.addr = (x.addr + 1) % 48 ∧ y.tx = x.tx ∧
      (peFetch e l).mem = l.mem := by
  unfold peFetch
  dsimp only
  rw [if_pos ready, if_neg (by simp [ticked_seen, empty]), if_neg (by simp [ticked_instr, runs])]
  obtain ⟨port, mem⟩ := peRecord_pe e 1 1
    ({ peNext ((l.pe e).ticked (peDivider l e)) 1 with
       sr := 0, count := 0, underCnt := ((l.pe e).ticked (peDivider l e)).underCnt + 1 } : PinEngine).underCnt.toNat
    (peNote e 1 (l.setPe e (({ peNext ((l.pe e).ticked (peDivider l e)) 1 with
       sr := 0, count := 0, underCnt := ((l.pe e).ticked (peDivider l e)).underCnt + 1 } : PinEngine).raise 1)))
  rw [peNote_pe, setPe_same] at port
  rw [port, mem]
  exact ⟨rfl, rfl, rfl, rfl, rfl, rfl⟩

/-- A DEPOSIT into a full queue that does not stall (R333). -/
theorem peDeposit_overrun (ready : peReady l e 0x7 = true) (full : 8 ≤ (l.pe e).seen.rx) (runs : bitOf (l.pe e).instr 16 = false) :
    let x := (l.pe e).ticked (peDivider l e)
    let y := (peDeposit e l).pe e
    y.sr = 0 ∧ y.rxCnt = x.rxCnt + 1 ∧ y.stat = setBit x.stat 3 ∧ y.addr = (x.addr + 1) % 48 ∧ y.rx = x.rx ∧
      (peDeposit e l).mem = l.mem := by
  unfold peDeposit
  dsimp only
  rw [if_pos ready, if_neg (by simp [ticked_seen]; omega), if_neg (by simp [ticked_instr, runs])]
  obtain ⟨port, mem⟩ := peRecord_pe e 3 2
    ({ peNext ((l.pe e).ticked (peDivider l e)) 1 with
       sr := 0, count := 0, rxCnt := ((l.pe e).ticked (peDivider l e)).rxCnt + 1 } : PinEngine).rxCnt.toNat
    (peNote e 3 (l.setPe e (({ peNext ((l.pe e).ticked (peDivider l e)) 1 with
       sr := 0, count := 0, rxCnt := ((l.pe e).ticked (peDivider l e)).rxCnt + 1 } : PinEngine).raise 3)))
  rw [peNote_pe, setPe_same] at port
  rw [port, mem]
  exact ⟨rfl, rfl, rfl, rfl, rfl, rfl⟩

end

/-- Settles O28: each instruction by its own equation, the release of a stall by `releaseOf_wait`, `releaseOf_flag` and `fetchWord_takes`.
That a tick cannot come early, and sees the engine as of its ECLK, is the model's choice (log entries 68 and 117). -/
theorem pinInstructionsComplete : Obligations.PinInstructionsComplete := by
  intro s e pins now i x is
  refine ⟨fun ready => ?_, fun ready => ?_, fun n up running delayed last => ?_, fun ready no => ?_, fun ready yes plain => ?_,
    fun ready yes kind level fresh => ?_, fun up waiting may yes => ⟨fun op plain => ?_, fun w v r op seen kept queued => ?_, fun op => ?_⟩,
    fun up waiting last no => ?_, fun ready => ?_, fun ready => ?_, fun ready => ?_,
    fun w v r ready seen kept queued => ?_, fun ready empty stalls => ?_, fun ready empty runs => ?_, fun ready room => ?_,
    fun ready full runs => ?_, fun ready => ?_, fun ready => ?_, fun ready => ?_, fun ready => ?_⟩
  · exact completes_setPe rfl (if_pos ready)
  · exact completes_setPe rfl (if_pos ready)
  · refine completes_setPe (f := peDelayEnd e) rfl ?_
    unfold peDelayEnd
    dsimp only
    rw [show (s.live.pe e).delay = _ from delayed]
    exact if_pos (by simp [up, show (s.live.pe e).state = _ from running, show (s.live.pe e).reaches _ = _ from last])
  · refine completes_setPe (f := peWait e pins) rfl ((if_pos ready).trans ?_)
    unfold peTick Live.updPe
    dsimp only
    rw [ticked_waitHolds, if_neg (by simp [show waitHolds (s.live.pe e) pins = _ from no])]
  · refine completes_setPe (f := peWait e pins) rfl ((if_pos ready).trans ?_)
    unfold peTick Live.updPe
    dsimp only
    rw [ticked_waitHolds, if_pos yes, releaseOf_wait _ (PinEngine.ticked _ (s.live.pe e)) (peOp_of_ready ready) plain]
  · refine completes_setPe (f := peWait e pins) rfl ((if_pos ready).trans ?_)
    unfold peTick Live.updPe
    dsimp only
    rw [ticked_waitHolds, if_pos yes, releaseOf_flag _ (PinEngine.ticked _ (s.live.pe e)) (peOp_of_ready ready) kind level fresh]
    rfl
  · refine completes_setPe (f := peWaitRelease e pins) rfl ((if_pos (by simp [up, show (s.live.pe e).state = _ from waiting,
      show (s.live.pe e).releasable = _ from may, show waitHolds (s.live.pe e) pins = _ from yes])).trans ?_)
    rw [releaseOf_wait _ _ op plain]
  · refine completes_setPe (f := peWaitRelease e pins) rfl ((if_pos (by simp [up, show (s.live.pe e).state = _ from waiting,
      show (s.live.pe e).releasable = _ from may, show waitHolds (s.live.pe e) pins = _ from yes])).trans ?_)
    have released : releaseOf s.live (s.live.pe e) = fetchWord (s.live.pe e) := by
      unfold releaseOf
      dsimp only
      rw [show peOp (s.live.pe e).instr = _ from op]
      rfl
    rw [released, fetchWord_takes seen kept queued]
    rfl
  · refine completes_setPe (f := peWaitRelease e pins) rfl ((if_pos (by simp [up, show (s.live.pe e).state = _ from waiting,
      show (s.live.pe e).releasable = _ from may, show waitHolds (s.live.pe e) pins = _ from yes])).trans ?_)
    have released : releaseOf s.live (s.live.pe e) = depositWord (s.live.pe e) := by
      unfold releaseOf
      dsimp only
      rw [show peOp (s.live.pe e).instr = _ from op]
      rfl
    rw [released]
    rfl
  · have stalled : (peUp s.live e && decide (now.state = .waiting) && now.reaches (2 ^ (peTo i + 1) - 1) &&
        !(now.releasable && waitHolds now pins)) = true := by
      rw [up, last, no]
      simp [waiting]
    refine ⟨fun quiet => completes_setPe (f := peWaitTimeout e pins) rfl ((if_pos stalled).trans (if_neg (by simp [quiet]))),
      fun loud => ?_⟩
    have effect : peWaitTimeout e pins s.live = peNote e 4 (s.live.setPe e { x with
        state := .running, waitCnt := x.waitCnt + 1, addr := (x.addr + 2) % 48, stat := setBit x.stat 4 }) :=
      (if_pos stalled).trans (if_pos (by simp [loud]))
    refine completes_apply (f := peWaitTimeout e pins) rfl ⟨?_, ?_, sameMemory_apply (by simp [effect, peNote])⟩
    · rw [apply_pe, effect, peNote_pe, setPe_same]
    · simp [effect, peNote]
  · obtain ⟨pads, addr, sr, mem⟩ := peDrive_drives ready
    refine completes_apply (f := peDrive e) rfl ?_
    rw [apply_pe]
    exact ⟨pads, addr, sr, sameMemory_apply mem⟩
  · obtain ⟨sr, levels, count, addr, mem⟩ := peEmit_emits pins ready
    refine completes_apply (f := peEmit e pins) rfl ?_
    rw [apply_pe]
    exact ⟨sr, levels, count, addr, sameMemory_apply mem⟩
  · exact completes_setPe (f := peSample e pins) rfl (if_pos ready)
  · refine completes_setPe (f := peFetch e) rfl ((if_pos ready).trans ?_)
    dsimp only
    rw [if_pos (by simp [ticked_seen, show (s.live.pe e).seen.tx = _ from seen]), fetchWord_takes (x := (s.live.pe e).ticked _) seen kept queued]
  · refine completes_setPe (f := peFetch e) rfl ((if_pos ready).trans ?_)
    dsimp only
    rw [if_neg (by simp [ticked_seen, show (s.live.pe e).seen.tx = _ from empty]), ticked_instr, if_pos stalls]
  · obtain ⟨sr, count, stat, addr, tx, mem⟩ := peFetch_underrun ready empty runs
    refine completes_apply (f := peFetch e) rfl ?_
    rw [apply_pe]
    exact ⟨sr, count, stat, addr, tx, sameMemory_apply mem⟩
  · refine completes_setPe (f := peDeposit e) rfl ((if_pos ready).trans ?_)
    dsimp only
    rw [ticked_seen, if_pos room]
    rfl
  · obtain ⟨sr, count, stat, addr, rx, mem⟩ := peDeposit_overrun ready full runs
    refine completes_apply (f := peDeposit e) rfl ?_
    rw [apply_pe]
    exact ⟨sr, count, stat, addr, rx, sameMemory_apply mem⟩
  · refine completes_setPe (f := peBranch e pins) rfl ((if_pos ready).trans ?_)
    unfold peTick Live.updPe
    dsimp only
    rw [ticked_branchHolds, ticked_instr]
  · exact completes_setPe (f := peSetlc e) rfl (if_pos ready)
  · exact completes_setPe (f := peLoop e) rfl (if_pos ready)
  · have effect : peSignal e s.live = peNote e 0 (s.live.setPe e ((peNext x 1).raise 0)) := if_pos ready
    refine completes_apply (f := peSignal e) rfl ⟨?_, ?_, sameMemory_apply (by simp [effect, peNote])⟩
    · rw [apply_pe, effect, peNote_pe, setPe_same]
      rfl
    · simp [effect, peNote]

end Sys2Proof.Machine

/-! Interrupt groups and doze (14): claims, completions, hold-off, timeouts, latches; the way into and out of doze (R372–R384). -/

namespace Sys2Proof.Machine

open Sys2Proof

/-! ### Groups follow their lines (R375) -/

theorem settleGroups_read {α : Type} (read : Live → α) (kept : ∀ l g x, read (Live.setIrqGroup l g x) = read l) (l : Live) :
    read (settleGroups l) = read l := by
  unfold settleGroups
  exact forAll_keeps read (fun _ m => kept m _ _) _ l

/-- What the groups' following their lines leaves alone: all but the groups. -/
theorem settleGroups_keeps (l : Live) :
    (settleGroups l).irq.lstat = l.irq.lstat ∧ (settleGroups l).conf = l.conf ∧ (settleGroups l).time = l.time ∧
      (settleGroups l).mem = l.mem :=
  ⟨settleGroups_read (fun m => m.irq.lstat) (fun _ _ _ => rfl) l, settleGroups_read Live.conf (fun _ _ _ => rfl) l,
    settleGroups_read Live.time (fun _ _ _ => rfl) l, settleGroups_read Live.mem (fun _ _ _ => rfl) l⟩

/-- What the fall of the chip select leaves alone: all but the host port. -/
theorem csFall_keeps (l : Live) :
    (csFall l).irq = l.irq ∧ (csFall l).conf = l.conf ∧ (csFall l).time = l.time ∧ (csFall l).mem = l.mem ∧
      (csFall l).flagsNow = l.flagsNow := by
  unfold csFall
  split <;> exact ⟨rfl, rfl, rfl, rfl, rfl⟩

/-- The groups as a host write finds them. -/
theorem hostSettled_keeps (l : Live) :
    (settleGroups (csFall l)).irq.lstat = l.irq.lstat ∧ (settleGroups (csFall l)).conf = l.conf ∧
      (settleGroups (csFall l)).now = l.now ∧ (settleGroups (csFall l)).mem = l.mem := by
  obtain ⟨lstat, conf, time, mem⟩ := settleGroups_keeps (csFall l)
  obtain ⟨irq, conf', time', mem', -⟩ := csFall_keeps l
  refine ⟨by rw [lstat, irq], conf.trans conf', ?_, mem.trans mem'⟩
  unfold Live.now
  rw [time, time']

/-- A host write that the port takes. -/
theorem completes_hostAct {c : Instr} {f : Live → Live} {s : State} {P : State → Prop} (run : exec c s = hostAct f s)
    (up : hostUp s.live = true) (h : P (s.apply fun _ => f (csFall s.live))) : Completes c s P := by
  refine completes_apply run ?_
  rw [apply_congr (f := fun l => if hostUp l then f (csFall l) else l) (g := fun _ => f (csFall s.live)) (if_pos up)]
  exact h

/-! ### Refusals, completions (R376–R378) -/

/-- A counter in the upper bits leaves the bits below it. -/
theorem bumpAt_below {w i lo : Nat} (x : BitVec w) (h : i < lo) : (bumpAt x lo).getLsbD i = x.getLsbD i := by
  have low (a : Nat) : (BitVec.ofNat w (a * 2 ^ lo)).getLsbD i = false := by
    rw [BitVec.getLsbD_ofNat, Nat.testBit_mul_two_pow]
    simp [Nat.not_le.mpr h]
  unfold bumpAt clrMask
  rw [BitVec.getLsbD_or, BitVec.getLsbD_and, BitVec.getLsbD_not, low, low]
  by_cases inside : i < w
  · simp [inside]
  · simp [inside, BitVec.getLsbD_of_ge x i (by omega)]

theorem irqRefuse_notes {n bit lo : Nat} (l : Live) (inside : bit < lo) (narrow : bit < 32) :
    ((irqRefuse n bit lo l).irq.lstat.get 0 n).getLsbD bit = true ∧ (∀ h, (irqRefuse n bit lo l).irqGroup h = l.irqGroup h) ∧
      (irqRefuse n bit lo l).mem = l.mem := by
  refine ⟨?_, fun _ => rfl, rfl⟩
  show ((l.irq.lstat.put 0 n (bumpAt (setBit (l.irq.lstat.get 0 n) bit) lo)).get 0 n).getLsbD bit = true
  rw [SMap.get_put_same, bumpAt_below _ inside]
  exact setBit_same _ narrow

theorem holdOff_of_conf {l m : Live} (h : m.conf = l.conf) (g : Nat) : irqHoldOff m g = irqHoldOff l g := by
  unfold irqHoldOff
  rw [cfg_of_conf h]

/-- The end of a group's claim (R376, R378). -/
theorem completeGroup_group (g : Nat) (l : Live) :
    (completeGroup g l).irqGroup g =
      if irqHoldOff l g = 0 then
        (if (l.irqGroup g).state = .activePending then (l.irqGroup g).pend else { l.irqGroup g with state := .idle })
      else { l.irqGroup g with state := .held, holdEnd := l.now + irqHoldOff l g } := by
  unfold completeGroup IrqGroup.complete
  dsimp only
  rw [setIrqGroup_same]
  by_cases none_ : irqHoldOff l g = 0
  · rw [if_pos none_, if_pos none_]
  · rw [if_neg none_, if_neg none_]

/-- A claim that is not completed in time ends by itself (R379). -/
theorem claimTimeout_ends {g : Nat} {l : Live} (active : (l.irqGroup g).state = .activePending) (on : irqAsserted l g = true)
    (timed : irqTimeout l g ≠ 0) (late : (l.irqGroup g).claimAt + irqTimeout l g ≤ l.now) (free : irqHoldOff l g = 0) :
    (claimTimeout g l).irqGroup g = { (l.irqGroup g).pend with status := setBit (l.irqGroup g).status 0 } ∧ (claimTimeout g l).mem = l.mem := by
  have follows : (settleGroup g l).irqGroup g = l.irqGroup g := by
    unfold settleGroup
    rw [setIrqGroup_same]
    unfold IrqGroup.follow
    rw [active, on]
  have conf : (settleGroup g l).conf = l.conf := rfl
  have timeout : irqTimeout (settleGroup g l) g = irqTimeout l g := by
    unfold irqTimeout
    rw [cfg_of_conf conf]
  obtain ⟨m, hm⟩ : ∃ m, m = noteBit (0x3B00 + g) 4 0 ((settleGroup g l).setIrqGroup g
      { l.irqGroup g with status := setBit (l.irqGroup g).status 0 }) := ⟨_, rfl⟩
  have effect : claimTimeout g l = completeGroup g m := by
    unfold claimTimeout
    dsimp only
    rw [follows, timeout, hm]
    exact if_pos (by simp [IrqGroup.claimed, active, timed, show (l.irqGroup g).claimAt + irqTimeout l g ≤ (settleGroup g l).now from late])
  have group : m.irqGroup g = { l.irqGroup g with status := setBit (l.irqGroup g).status 0 } := by
    rw [hm]
    exact setIrqGroup_same _ _ _
  have holdOff : irqHoldOff m g = 0 := (holdOff_of_conf (by rw [hm]; rfl) g).trans free
  refine ⟨?_, ?_⟩
  · rw [effect, completeGroup_group g m, if_pos holdOff, group, if_pos active]
    rfl
  · rw [effect, hm]
    simp [completeGroup, settleGroup]

/-! ### Doze (R381–R384) -/

theorem touch_dozeRefused (conn : Conn) (l : Live) : dozeRefused (touch conn l) = dozeRefused l := rfl

theorem noteFlags_doze (k v : Nat) (l : Live) : (noteFlags k v l).doze = l.doze := rfl

/-- Settles O32: claims and completions by `irqClaim` after `hostSettled_keeps`, the timeout by `claimTimeout_ends`. That a latch during the
entry cancels it with ABORTED and without a wake DTIME is the model's choice (log entry 54). -/
theorem interruptsAndDozeComplete : Obligations.InterruptsAndDozeComplete := by
  refine ⟨fun s n g up => ?_, fun s g held late => ?_, fun s g active on timed late free => ?_, fun s g mask up => ?_,
    fun s conn reaches may => ?_, fun s up asked => ?_, fun s kind up enabled => ⟨fun asleep fresh => ?_, fun awake asked => ?_⟩,
    fun s asleep waking => ?_⟩
  · intro l
    obtain ⟨lstat, conf, now, mem⟩ := hostSettled_keeps s.live
    refine ⟨fun vector => ?_, fun other => ?_, fun small target claimed => ?_⟩
    · have effect : irqClaim n g.toNat (csFall s.live) = l.setIrqGroup g.toNat { l.irqGroup g.toNat with
          state := .activePending, claimAt := l.now } := if_pos vector
      refine completes_hostAct rfl up ⟨?_, fun h other => ?_, ?_, sameMemory_apply ?_⟩
      · rw [apply_irqGroup, effect, setIrqGroup_same, now]
      · rw [apply_irqGroup, effect, setIrqGroup_ne _ _ other]
      · simpa [effect, Live.setIrqGroup] using lstat
      · simpa [effect] using mem
    · have effect : irqClaim n g.toNat (csFall s.live) = irqRefuse n 0 24 l := if_neg other
      obtain ⟨noted, groups, same⟩ := irqRefuse_notes (n := n) (bit := 0) (lo := 24) l (by decide) (by decide)
      refine completes_hostAct rfl up ⟨?_, fun h => ?_, sameMemory_apply ?_⟩
      · simpa [effect] using noted
      · rw [apply_irqGroup, effect, groups]
      · rw [effect, same]
        exact mem
    · have effect : irqComplete n g.toNat (csFall s.live) = completeGroup g.toNat l := if_pos ⟨small, target, claimed⟩
      refine completes_hostAct rfl up ⟨?_, ?_, sameMemory_apply ?_⟩
      · rw [apply_irqGroup, effect, completeGroup_group, holdOff_of_conf conf, now]
      · simpa [effect, completeGroup, Live.setIrqGroup] using lstat
      · simpa [effect, completeGroup] using mem
  · have effect : holdOffEnd g s.live = s.live.setIrqGroup g (if irqAsserted s.live g then (s.live.irqGroup g).pend
        else { s.live.irqGroup g with state := .idle }) := if_pos ⟨held, late⟩
    refine completes_apply (f := holdOffEnd g) rfl ⟨?_, fun h other => ?_, sameMemory_apply (by simp [effect])⟩
    · rw [apply_irqGroup, effect, setIrqGroup_same]
    · rw [apply_irqGroup, effect, setIrqGroup_ne _ _ other]
  · obtain ⟨group, mem⟩ := claimTimeout_ends active on timed late free
    refine completes_apply (f := claimTimeout g) rfl ?_
    rw [apply_irqGroup]
    exact ⟨group, sameMemory_apply mem⟩
  · obtain ⟨irq, -, -, mem, flags⟩ := csFall_keeps s.live
    have clearable_eq (k v : Nat) : clearable (csFall s.live) k v = clearable s.live k v := by
      unfold clearable
      rw [flags]
    refine completes_hostAct (f := latchClear g mask) rfl up ?_
    by_cases request : g.val < 8
    · have effect : latchClear g mask (csFall s.live) = { csFall s.live with irq := { s.live.irq with
          latch := s.live.irq.latch.put 0 g (clrMask (s.live.irq.latch.get 0 g)
            (BitVec.ofNat 64 (clearable s.live (hostReg (0x208 + 16 * g.val)) mask.toNat))) } } := by
        rw [← irq, ← clearable_eq]
        exact if_pos request
      rw [effect, if_pos request]
      exact ⟨by simp, by simp, sameMemory_apply mem⟩
    · have effect : latchClear g mask (csFall s.live) = csFall s.live := if_neg request
      rw [effect, if_neg request]
      exact ⟨by simp [irq], by simp [irq], sameMemory_apply mem⟩
  · have effect : dozeCommand 1 (touch conn s.live) = ({ touch conn s.live with
        doze := { s.live.doze with requested := true, latches := 0, tpinLatched := none } }, 0) :=
      (if_neg (by decide)).trans (if_neg (by rw [touch_dozeRefused, may]; decide))
    refine completes_object (f := dozeCommand 1) rfl reaches effect ⟨?_, answeredDone_reply _ _ _, sameMemory_reply ?_⟩ <;> simp
  · have effect : dozeEnter s.live = { s.live with doze := { s.live.doze with requested := false, asleep := true } } :=
      if_pos (by simp [up, asked])
    refine completes_apply (f := dozeEnter) rfl ⟨?_, sameMemory_apply ?_⟩ <;> simp [effect]
  · have effect : wakeLatch kind s.live = { s.live with doze := { s.live.doze with
        waking := true, wakeAt := s.live.now, latches := setBit s.live.doze.latches (wakeBit kind),
        tpinLatched := latchTpin kind s.live.doze.tpinLatched } } := by
      unfold wakeLatch
      dsimp only
      rw [if_neg (by simp [up, enabled]), if_pos asleep, if_neg (by simp [fresh])]
    refine completes_apply (f := wakeLatch kind) rfl ⟨?_, ?_, ?_, ?_, sameMemory_apply ?_⟩ <;> simp [effect, asleep]
  · have effect : wakeLatch kind s.live = noteFlags (key 0x3000 0x10) (2 ^ wakeBit kind + 0x80) { s.live with doze := { s.live.doze with
        requested := false, tpin := wakeTpin (latchTpin kind s.live.doze.tpinLatched),
        cause := setBit (setBit s.live.doze.cause (wakeBit kind)) 7 } } := by
      unfold wakeLatch
      dsimp only
      rw [if_neg (by simp [up, enabled]), if_neg (by simp [awake]), if_pos asked]
    refine completes_apply (f := wakeLatch kind) rfl ⟨?_, ?_, sameMemory_apply ?_⟩
    · simp [effect]
    · have aborted : (wakeLatch kind s.live).doze.cause.getLsbD 7 = true := by
        rw [effect]
        exact setBit_same _ (by decide)
      simpa using aborted
    · simp [effect]
  · have effect : wakeComplete s.live = noteFlags (key 0x3000 0x10) s.live.doze.latches.toNat { s.live with doze := { s.live.doze with
        asleep := false, waking := false, cause := s.live.doze.cause ||| s.live.doze.latches, dtime := s.live.time.dtime,
        tpin := wakeTpin s.live.doze.tpinLatched } } := if_pos (by simp [asleep, waking])
    refine completes_apply (f := wakeComplete) rfl ⟨?_, ?_, ?_, ?_, sameMemory_apply ?_⟩ <;> simp [effect]

end Sys2Proof.Machine

/-! The device record (R422) and the dictionary's requests (R69, R390–R401). -/

namespace Sys2Proof.Machine

open Sys2Proof

/-! ### The device record -/

theorem deviceBody_length (n : Nat) (x : Settings) : (deviceBody n x).length = 28 := by
  simp [deviceBody]

/-- A field of a record is the bytes that stand there. -/
theorem fieldLE_middle (a b c : List Byte) : fieldLE (a ++ (b ++ c)) a.length b.length = ofBytesLE b := by
  simp [fieldLE, slice]

theorem deviceBytes_count (n : Nat) (x : Settings) : recordCount (deviceBytes n x) = n % 2 ^ 32 := by
  have field := fieldLE_middle ([0x50, 0x59, 0x44, 0x31] ++ bytesLE 2 1 ++ bytesLE 2 0) (bytesLE 4 n)
    (bytesLE 4 x.key ++ bytesLE 1 (nth 0xFF x.node 0) ++ bytesLE 1 (nth 0xFF x.code 0) ++ bytesLE 1 (nth 0xFF x.node 1)
      ++ bytesLE 1 (nth 0xFF x.code 1) ++ bytesLE 8 0 ++ bytesLE 4 (crc32c (deviceBody n x)).toNat)
  unfold recordCount deviceBytes
  rw [ofBytesLE_bytesLE] at field
  rw [show (2 : Nat) ^ 32 = 256 ^ 4 by norm_num, ← field]
  simp [deviceBody]

theorem deviceBytes_key (n : Nat) (x : Settings) : (recordSettings (deviceBytes n x)).key = x.key % 2 ^ 32 := by
  have field := fieldLE_middle ([0x50, 0x59, 0x44, 0x31] ++ bytesLE 2 1 ++ bytesLE 2 0 ++ bytesLE 4 n) (bytesLE 4 x.key)
    (bytesLE 1 (nth 0xFF x.node 0) ++ bytesLE 1 (nth 0xFF x.code 0) ++ bytesLE 1 (nth 0xFF x.node 1)
      ++ bytesLE 1 (nth 0xFF x.code 1) ++ bytesLE 8 0 ++ bytesLE 4 (crc32c (deviceBody n x)).toNat)
  unfold recordSettings deviceBytes
  rw [ofBytesLE_bytesLE] at field
  dsimp only
  rw [show (2 : Nat) ^ 32 = 256 ^ 4 by norm_num, ← field]
  simp [deviceBody]

theorem deviceBytes_valid (n : Nat) (x : Settings) : recordValid (deviceBytes n x) = true := by
  have crc := fieldLE_append (deviceBody n x) (bytesLE 4 (crc32c (deviceBody n x)).toNat)
  rw [bytesLE_length, deviceBody_length, ofBytesLE_bytesLE,
    Nat.mod_eq_of_lt (lt_of_lt_of_eq (crc32c (deviceBody n x)).isLt (by norm_num))] at crc
  have body : (deviceBytes n x).take 28 = deviceBody n x := List.take_left' (deviceBody_length n x)
  have length : (deviceBytes n x).length = 32 := by
    simp [deviceBytes, deviceBody_length]
  have zeros := fieldLE_middle ([0x50, 0x59, 0x44, 0x31] ++ bytesLE 2 1 ++ bytesLE 2 0 ++ bytesLE 4 n ++ bytesLE 4 x.key
    ++ bytesLE 1 (nth 0xFF x.node 0) ++ bytesLE 1 (nth 0xFF x.code 0) ++ bytesLE 1 (nth 0xFF x.node 1)
    ++ bytesLE 1 (nth 0xFF x.code 1)) (bytesLE 8 0) (bytesLE 4 (crc32c (deviceBody n x)).toNat)
  have zeros' : fieldLE (deviceBytes n x) 20 8 = 0 := by
    rw [ofBytesLE_bytesLE] at zeros
    rw [← Nat.zero_mod (256 ^ 8), ← zeros]
    simp [deviceBytes, deviceBody]
  unfold recordValid
  rw [body, length, zeros', show fieldLE (deviceBytes n x) 28 4 = _ from crc]
  simp [deviceBytes, deviceBody, bytesLE, fieldLE, slice, ofBytesLE]

/-- A count one higher is the newer one. -/
theorem newer32_succ {n : Nat} : newer32 ((n + 1) % 2 ^ 32) n = true ∧ newer32 n ((n + 1) % 2 ^ 32) = false := by
  unfold newer32 aheadAt modDist
  constructor
  · simp
    omega
  · simp
    omega

/-- What is stored is in force: the newer of the two records is the one just written (R422). -/
theorem storeSettings_record (x : Settings) (l : Live) : ∃ n, storedSettings (storeSettings x l) = recordSettings (deviceBytes n x) := by
  unfold storeSettings
  by_cases newest : recordA l = true
  · rw [if_pos newest]
    have old : recordA { l with mram := { l.mram with recB := deviceBytes ((recordCount l.mram.recA + 1) % 2 ^ 32) x } } = false := by
      unfold recordA
      dsimp only
      rw [deviceBytes_valid, deviceBytes_count, Nat.mod_mod, newer32_succ.1]
      simp
    unfold storedSettings
    rw [if_neg (by rw [old]; decide), if_pos (deviceBytes_valid _ _)]
    exact ⟨_, rfl⟩
  · rw [if_neg newest]
    dsimp only
    generalize hn : (if recordValid l.mram.recB = true then (recordCount l.mram.recB + 1) % 2 ^ 32 else 1) = n
    have new : recordA { l with mram := { l.mram with recA := deviceBytes n x } } = true := by
      unfold recordA
      dsimp only
      rw [deviceBytes_valid, deviceBytes_count, ← hn]
      cases valid : recordValid l.mram.recB
      · rfl
      · rw [if_pos rfl, Nat.mod_mod, newer32_succ.2]
        rfl
    unfold storedSettings
    rw [if_pos new]
    exact ⟨n, rfl⟩

theorem storeSettings_key (x : Settings) (l : Live) : (storedSettings (storeSettings x l)).key = x.key % 2 ^ 32 := by
  obtain ⟨n, stored⟩ := storeSettings_record x l
  rw [stored, deviceBytes_key]

theorem storedSettings_of_mram {l m : Live} (h : m.mram = l.mram) : storedSettings m = storedSettings l := by
  unfold storedSettings recordA
  rw [h]

theorem storeSettings_keeps (x : Settings) (l : Live) : (storeSettings x l).net = l.net ∧ (storeSettings x l).mem = l.mem := by
  unfold storeSettings
  split <;> exact ⟨rfl, rfl⟩

/-! ### Requests (R393–R395) -/

theorem touch_connSt (conn : Conn) (l : Live) :
    (touch conn l).connSt (connId conn) = { l.connSt (connId conn) with lastReq := l.now, answer := .none } := updConnSt_same _ _ _

theorem reply_connSt (conn : Conn) (code : Nat) (l : Live) : (reply conn code l).connSt (connId conn) =
    { l.connSt (connId conn) with answer := if code = 0 then .done else .abort (BitVec.ofNat 32 code) } := updConnSt_same _ _ _

/-- The device after an answer to a request. -/
def answered (conn : Conn) (a : Answer) (l : Live) : Live := openTransfer conn (answer (connId conn) a (touch conn l))

theorem answered_connSt (conn : Conn) (a : Answer) (l : Live) : ((answered conn a l).connSt (connId conn)).answer = a ∧
    ((answered conn a l).connSt (connId conn)).lastReq = l.now := by
  unfold answered openTransfer answer
  rw [updConnSt_same, updConnSt_same, touch_connSt]
  exact ⟨rfl, rfl⟩

/-- A read that its object answers changes the connection alone. -/
theorem completes_read {conn : Conn} {idx : BitVec 16} {sub : BitVec 8} {s : State} {d : List Byte} {P : State → Prop}
    (up : served conn s.live = true) (quiet : s.live.rst.sourceDue = none)
    (read : readObject conn s.published idx.toNat sub.toNat (touch conn s.live) = (.value d, touch conn s.live))
    (h : P (s.apply fun _ => answered conn (.value d) s.live)) : Completes (.sdoRequest conn (.read idx sub)) s P := by
  have object : objectRead conn s.published idx.toNat sub.toNat s.live = answer (connId conn) (.value d) (touch conn s.live) := by
    unfold objectRead
    rw [if_neg (by simp [up])]
    dsimp only
    rw [read]
  have due : (answered conn (.value d) s.live).rst.sourceDue = none := quiet
  have effect : carryOut (sdoRequest s.published conn (.read idx sub) s.live) = answered conn (.value d) s.live := by
    show carryOut (openTransfer conn (objectRead conn s.published idx.toNat sub.toNat s.live)) = _
    rw [object]
    unfold carryOut
    rw [show (openTransfer conn (answer (connId conn) (.value d) (touch conn s.live))).rst.sourceDue = none from due]
    rfl
  refine completes_apply (f := fun l => carryOut (sdoRequest s.published conn (.read idx sub) l)) rfl ?_
  rw [apply_congr (f := fun l => carryOut (sdoRequest s.published conn (.read idx sub) l))
    (g := fun _ => answered conn (.value d) s.live) effect]
  exact h

/-- A request that its object's rule answers with a code, done or refused. -/
theorem completes_answer {c : Instr} {conn : Conn} {idx sub code : Nat} {f : Live → Live × Nat} {s : State} {m : Live} {P : State → Prop}
    (run : exec c s = ran (onObject conn idx sub f) s) (reaches : Reaches conn idx sub s) (effect : f (touch conn s.live) = (m, code))
    (h : P (s.apply fun _ => reply conn code m)) : Completes c s P := by
  refine completes_apply run ?_
  rw [apply_congr (g := fun _ => reply conn code m) (by rw [onObject_reaches f reaches.1 reaches.2, effect])]
  exact h

theorem notLocked (conn : Conn) {l : Live} (free : (l.connSt (connId conn)).lockEnd = none) :
    lockedOut (touch conn l) (connId conn) = false := by
  unfold lockedOut
  rw [touch_connSt]
  dsimp only
  rw [free]

theorem notEnded (conn : Conn) {l : Live} (free : (l.connSt (connId conn)).lockEnd = none) :
    endLockout (connId conn) (touch conn l) = touch conn l := by
  unfold endLockout
  rw [touch_connSt]
  dsimp only
  rw [free]

/-- Settles O33: reads by `completes_read`, a new key by `storeSettings_key`. That the objects of 0x5E10, 0x5E20 and 0x5E40 read from the
published bank is the model's choice (log entry 56). -/
theorem dictionaryComplete : Obligations.DictionaryComplete := by
  refine ⟨fun s conn idx sub bank up quiet may plain process published => ?_, fun s conn idx sub up quiet may plain live => ?_,
    fun s bus client up late => ?_, fun s conn k reaches free => ⟨fun right => ?_, fun wrong => ?_⟩, fun s conn k reaches free => ?_,
    fun s conn unlocked late => ?_, fun s conn e locked late => ?_⟩
  · have read : readObject conn s.published idx.toNat sub.toNat (touch conn s.live) =
        (.value (valBytes (key idx.toNat sub.toNat) (readProcess bank.frozen idx.toNat sub.toNat)), touch conn s.live) := by
      unfold readObject
      rw [may, published]
      dsimp only
      rw [if_neg (by simp [plain]), if_pos process]
    refine completes_read up quiet read ⟨?_, ?_, ?_, sameMemory_apply rfl⟩
    · rw [apply_connSt]
      exact (answered_connSt _ _ _).1
    · rw [apply_connSt]
      exact (answered_connSt _ _ _).2
    · simp [answered, openTransfer, answer, touch]
  · have read : readObject conn s.published idx.toNat sub.toNat (touch conn s.live) =
        (.value (valBytes (key idx.toNat sub.toNat) (readLive conn (touch conn s.live) idx.toNat sub.toNat)), touch conn s.live) := by
      unfold readObject
      rw [may]
      dsimp only
      rw [if_neg (by simp [plain]), if_neg (by simp [live])]
    refine completes_read up quiet read ⟨?_, ?_, sameMemory_apply rfl⟩
    · rw [apply_connSt]
      exact (answered_connSt _ _ _).1
    · simp [answered, openTransfer, answer, touch]
  · have effect : sdoTimeout (.can bus client) s.live = answer (connId (.can bus client)) (.abort (BitVec.ofNat 32 abTimeout))
        (s.live.updConnSt (connId (.can bus client)) (fun x => { x with transfer := false })) := if_pos (by simp [up, late])
    refine completes_apply (f := sdoTimeout (.can bus client)) rfl ⟨?_, ?_, sameMemory_apply ?_⟩
    · rw [apply_connSt, effect, answer, updConnSt_same]
      rfl
    · rw [apply_connSt, effect, answer, updConnSt_same, updConnSt_same]
    · simp [effect, answer]
  · have effect : expertKey conn k.toNat (touch conn s.live) =
        ((touch conn s.live).updConnSt (connId conn) (fun x => { x with unlocked := true, wrongKeys := 0 }), 0) := by
      unfold expertKey
      dsimp only
      rw [notLocked conn free, notEnded conn free]
      exact (if_neg (by decide)).trans (if_pos (by rw [right]; rfl))
    refine completes_object (f := expertKey conn k.toNat) rfl reaches effect ⟨?_, ?_, answeredDone_reply _ _ _, sameMemory_reply (by simp)⟩
    · rw [apply_connSt, reply_connSt, updConnSt_same]
    · rw [apply_connSt, reply_connSt, updConnSt_same]
  · have effect : expertKey conn k.toNat (touch conn s.live) =
        ((touch conn s.live).updConnSt (connId conn) (fun x => { x with
          wrongKeys := (s.live.connSt (connId conn)).wrongKeys + 1,
          lockEnd := if 3 ≤ (s.live.connSt (connId conn)).wrongKeys + 1 then some (s.live.now + lockoutTime) else x.lockEnd }), abKey) := by
      unfold expertKey
      dsimp only
      rw [notLocked conn free, notEnded conn free, touch_connSt]
      exact (if_neg (by decide)).trans (if_neg (fun same => wrong (BitVec.eq_of_toNat_eq same)))
    refine completes_answer (f := expertKey conn k.toNat) rfl reaches effect ⟨?_, ?_, ?_, ?_, sameMemory_apply (by simp [reply, answer])⟩
    · rw [apply_connSt, reply_connSt, updConnSt_same]
    · rw [apply_connSt, reply_connSt, updConnSt_same, touch_connSt]
    · rw [apply_connSt, reply_connSt, updConnSt_same, touch_connSt]
      dsimp only
      rw [free]
    · rw [apply_connSt, reply_connSt, updConnSt_same]
      rfl
  · obtain ⟨m, hm⟩ : ∃ m, m = { touch conn s.live with net := { (touch conn s.live).net with key := k } } := ⟨_, rfl⟩
    obtain ⟨r, hr⟩ : ∃ r, r = storeSettings { storedSettings m with key := k.toNat } m := ⟨_, rfl⟩
    have effect : newKey conn k.toNat (touch conn s.live) = (r, 0) := by
      unfold newKey
      dsimp only
      rw [notLocked conn free, BitVec.ofNat_toNat, BitVec.setWidth_eq, ← hm, hr]
      rfl
    obtain ⟨net, mem⟩ := storeSettings_keeps { storedSettings m with key := k.toNat } m
    have stored := storeSettings_key { storedSettings m with key := k.toNat } m
    rw [← hr] at net mem stored
    refine completes_object (f := newKey conn k.toNat) rfl reaches effect ⟨?_, ?_, answeredDone_reply _ _ _, sameMemory_reply ?_⟩
    · have key_eq : r.net.key = k := by rw [net, hm]
      rw [show (s.apply fun _ => reply conn 0 r).live.net.key = (reply conn 0 r).net.key by simp only [apply_parts_keep]]
      exact key_eq
    · rw [storedSettings_of_mram (l := r) (by simp [reply, answer]), stored]
      exact Nat.mod_eq_of_lt k.isLt
    · rw [mem, hm]
      rfl
  · have effect : Machine.unlockTimeout conn s.live = s.live.updConnSt (connId conn) (fun x => { x with unlocked := false }) :=
      if_pos (by simp [unlocked, late])
    refine completes_apply (f := Machine.unlockTimeout conn) rfl ⟨?_, sameMemory_apply (by simp [effect])⟩
    rw [apply_connSt, effect, updConnSt_same]
  · have effect : endLockout (connId conn) s.live = s.live.updConnSt (connId conn) (fun x => { x with lockEnd := none, wrongKeys := 0 }) := by
      unfold endLockout
      rw [locked]
      exact if_pos late
    refine completes_apply (f := endLockout (connId conn)) rfl ⟨?_, sameMemory_apply (by simp [effect])⟩
    rw [apply_connSt, effect, updConnSt_same]

end Sys2Proof.Machine

/-! A reader of the device that the units leave alone: the time unit, the configuration, the reset unit but for its memory errors, MRAM and
the network but for what reports change. Pin engines, DMA and the resets of units keep it. -/

namespace Sys2Proof.Machine

open Sys2Proof

/-- The reset unit without the memory errors that a read may report (R24, R439). -/
def ResetUnit.errorless (r : ResetUnit) : ResetUnit := { r with memError := false, corrected := [] }

/-- What the units of the device leave alone. -/
def Live.clock (l : Live) : TimeUnit × ConfUnit × ResetUnit × Mram × NetUnit :=
  (l.time, l.conf, l.rst.errorless, l.mram, l.net.silent)

theorem clock_of_offEngines {l m : Live} (h : m.offEngines = l.offEngines) : m.clock = l.clock := by
  have shown (x : Live) : x.clock = (fun y : Live => (y.time, y.conf, y.rst.errorless, y.mram, y.net)) x.offEngines.1 := rfl
  rw [shown, shown, h]

theorem clock_of_reports {l m : Live} (h : OnlyReports l m) (k : PartReports l m) : m.clock = l.clock :=
  clock_of_offEngines (offEngines_of_reports h k)

theorem forAll_clock {α : Type} {f : α → Live → Live} (h : ∀ x l, (f x l).clock = l.clock) (xs : List α) (l : Live) :
    (forAll f xs l).clock = l.clock := forAll_keeps Live.clock h xs l

section

variable {l m : Live} (h : m.clock = l.clock)

include h

theorem clock_time : m.time = l.time := congrArg Prod.fst h
theorem clock_conf : m.conf = l.conf := congrArg (fun x => x.2.1) h
theorem clock_errorless : m.rst.errorless = l.rst.errorless := congrArg (fun x => x.2.2.1) h
theorem clock_mram : m.mram = l.mram := congrArg (fun x => x.2.2.2.1) h
theorem clock_net : m.net.silent = l.net.silent := congrArg (fun x => x.2.2.2.2) h

end

/-! ### Reports and free values -/

@[simp] theorem writeRecord_clock (src kind payload : Nat) (l : Live) : (writeRecord src kind payload l).clock = l.clock :=
  clock_of_offEngines (writeRecord_offEngines _ _ _ _)

@[simp] theorem reportFault_clock (src kind payload code : Nat) (l : Live) : (reportFault src kind payload code l).clock = l.clock :=
  clock_of_offEngines (reportFault_offEngines _ _ _ _ _)

@[simp] theorem reportJournal_clock (src kind payload : Nat) (l : Live) : (reportJournal src kind payload l).clock = l.clock :=
  clock_of_offEngines (reportJournal_offEngines _ _ _ _)

@[simp] theorem noteFlags_clock (k m : Nat) (l : Live) : (noteFlags k m l).clock = l.clock := (rfl)
@[simp] theorem noteBit_clock (idx sub b : Nat) (l : Live) : (noteBit idx sub b l).clock = l.clock := (rfl)
@[simp] theorem drawFree_clock (l : Live) : (drawFree l).2.clock = l.clock := (rfl)
@[simp] theorem setPair_clock (l : Live) (i : Nat) (x : Pair) : (l.setPair i x).clock = l.clock := (rfl)
@[simp] theorem updPair_clock (l : Live) (i : Nat) (f : Pair → Pair) : (l.updPair i f).clock = l.clock := (rfl)
@[simp] theorem setPe_clock (l : Live) (i : Nat) (x : PinEngine) : (l.setPe i x).clock = l.clock := (rfl)
@[simp] theorem updPe_clock (l : Live) (i : Nat) (f : PinEngine → PinEngine) : (l.updPe i f).clock = l.clock := (rfl)
@[simp] theorem setConv_clock (l : Live) (i : Nat) (x : Converter) : (l.setConv i x).clock = l.clock := (rfl)
@[simp] theorem setDc_clock (l : Live) (i : Nat) (x : DmaChannel) : (l.setDc i x).clock = l.clock := (rfl)
@[simp] theorem updDc_clock (l : Live) (i : Nat) (f : DmaChannel → DmaChannel) : (l.updDc i f).clock = l.clock := (rfl)
@[simp] theorem setPort_clock (l : Live) (i : Nat) (x : Port) : (l.setPort i x).clock = l.clock := (rfl)
@[simp] theorem setWheel_clock (l : Live) (i : Nat) (x : Wheel) : (l.setWheel i x).clock = l.clock := (rfl)
@[simp] theorem updWheel_clock (l : Live) (i : Nat) (f : Wheel → Wheel) : (l.updWheel i f).clock = l.clock := (rfl)

theorem clock_of_events {l m : Live} (h : OnlyEvents l m) : m.clock = l.clock := by
  unfold Live.clock
  simp only [h.keeps]

@[simp] theorem trackWheel_clock (w : Nat) (l : Live) : (trackWheel w l).clock = l.clock := clock_of_events (trackWheel_onlyEvents w l)

@[simp] theorem disarm_clock (cause : Nat) (l : Live) : (disarm cause l).clock = l.clock := clock_of_offEngines (disarm_offEngines _ _)

@[simp] theorem lose_clock (cause n : Nat) (l : Live) : (lose cause n l).clock = l.clock := by
  rw [lose_only]
  rfl

/-! ### Memory errors (R24, R439) -/

theorem reportMemory_clock (src offset : Nat) (l : Live) : (reportMemory src offset l).clock = l.clock := by
  simp only [reportMemory, reportFault_clock]
  rfl

theorem doubleBit_clock (a : Nat) (l : Live) : (doubleBit a l).clock = l.clock := by
  unfold doubleBit
  split
  · exact reportMemory_clock _ _ l
  · rfl

theorem singleBit_clock (a : Nat) (l : Live) : (singleBit a l).clock = l.clock := by
  unfold singleBit
  split <;> rfl

theorem readErrors_clock (es : EccWords) (a n : Nat) (l : Live) : (readErrors es a n l).clock = l.clock := by
  unfold readErrors
  refine forAll_clock (fun e m => ?_) _ l
  split
  · exact doubleBit_clock _ m
  · exact singleBit_clock _ m

/-! ### What a fabric read can do -/

@[simp] theorem popAdcEntry_clock (k : Nat) (l : Live) : (popAdcEntry k l).2.clock = l.clock := by
  unfold popAdcEntry
  dsimp only
  split
  · simp
  · simp [fifoReport]

@[simp] theorem popAdcBeat_clock (k : Nat) (l : Live) : (popAdcBeat k l).2.clock = l.clock := by
  simp [popAdcBeat]

@[simp] theorem rxdRead_clock (e : Nat) (l : Live) : (rxdRead e l).2.clock = l.clock := by
  unfold rxdRead
  dsimp only
  split <;> rfl

@[simp] theorem peReadReg_clock (e r : Nat) (whole : Bool) (l : Live) : (peReadReg e r whole l).2.clock = l.clock := by
  unfold peReadReg
  split
  · split <;> simp
  · rfl
  · rfl

theorem peReadRegs_clock (o n f i : Nat) (l : Live) : (peReadRegs o n f i l).2.clock = l.clock := by
  induction f generalizing i l with
  | zero => rfl
  | succ f ih =>
    simp only [peReadRegs, ih]
    split <;> simp

@[simp] theorem peReadAt_clock (o n : Nat) (l : Live) : (peReadAt o n l).2.clock = l.clock := peReadRegs_clock _ _ _ _ l

theorem periRead_clock {a : Nat} {w : Word} {l m : Live} (h : periRead a l = some (w, m)) : m.clock = l.clock := by
  simp only [periRead] at h
  split at h
  · obtain ⟨-, read⟩ := Option.ite_none_right_eq_some.mp h
    have kept := popAdcBeat_clock ((a - 0x00850000) / 64) l
    rwa [Option.some.inj read] at kept
  · split at h
    · obtain ⟨-, read⟩ := Option.ite_none_right_eq_some.mp h
      rw [← (Prod.mk.inj (Option.some.inj read)).2]
    · simp only [Option.ite_none_right_eq_some, Option.some.injEq, Prod.mk.injEq] at h
      obtain ⟨-, -, -, read⟩ := h
      rw [← read, peReadAt_clock]

theorem fabricRead_clock {a : Nat} {w : Word} {l m : Live} (h : fabricRead a l = some (w, m)) : m.clock = l.clock := by
  unfold fabricRead at h
  split at h
  · rw [← (Prod.mk.inj (Option.some.inj h)).2]
  · split at h
    · have kept := drawFree_clock l
      rwa [Option.some.inj h] at kept
    · split at h
      · rw [← (Prod.mk.inj (Option.some.inj h)).2]
      · exact periRead_clock h

theorem beatRead_clock (es : EccWords) (a : Nat) (l : Live) : (beatRead es a l).2.clock = l.clock := by
  unfold beatRead
  split
  · exact readErrors_clock es a 8 l
  · split
    · rename_i w m h
      rw [readErrors_clock, fabricRead_clock h]
    · rfl

/-! ### What a fabric write can do -/

@[simp] theorem pwmRecord_clock (u code payload : Nat) (l : Live) : (pwmRecord u code payload l).clock = l.clock := by
  simp [pwmRecord, apply_ite Live.clock]

@[simp] theorem streamBeat_clock (u : Nat) (beat : Word) (l : Live) : (streamBeat u beat l).clock = l.clock := by
  simp [streamBeat, apply_ite Live.clock]

@[simp] theorem peNote_clock (e bit : Nat) (l : Live) : (peNote e bit l).clock = l.clock := (rfl)

@[simp] theorem peRecord_clock (e code element detail : Nat) (l : Live) : (peRecord e code element detail l).clock = l.clock := by
  simp [peRecord, apply_ite Live.clock]

@[simp] theorem txdWrite_clock (e : Nat) (w : BitVec 32) (l : Live) : (txdWrite e w l).clock = l.clock := by
  simp [txdWrite, apply_ite Live.clock]

@[simp] theorem peW1c_clock (e w : Nat) (l : Live) : (peW1c e w l).clock = l.clock := by
  unfold peW1c
  dsimp only
  split <;> rfl

@[simp] theorem peSetFlags_clock (e : Nat) (m : Byte) (l : Live) : (peSetFlags e m l).clock = l.clock := by
  unfold peSetFlags
  split <;> rfl

@[simp] theorem peClearFlags_clock (e : Nat) (m : Byte) (l : Live) : (peClearFlags e m l).clock = l.clock := by
  unfold peClearFlags
  split <;> rfl

@[simp] theorem peFlush_clock (e : Nat) (l : Live) : (peFlush e l).clock = l.clock := by
  unfold peFlush
  split <;> rfl

@[simp] theorem peForceSwap_clock (e : Nat) (l : Live) : (peForceSwap e l).clock = l.clock := by
  unfold peForceSwap
  dsimp only
  split <;> simp

@[simp] theorem peCtl_clock (e v : Nat) (l : Live) : (peCtl e v l).clock = l.clock := by
  simp [peCtl, apply_ite Live.clock]

@[simp] theorem peWriteReg_clock (e r v : Nat) (l : Live) : (peWriteReg e r v l).clock = l.clock := by
  unfold peWriteReg
  split
  · rfl
  · split <;> simp

@[simp] theorem peWriteAt_clock (o : Nat) (b : List Byte) (l : Live) : (peWriteAt o b l).clock = l.clock := by
  simp [peWriteAt, forAll_clock]

theorem fabricWrite_clock {a : Nat} {w : Word} {l m : Live} (h : fabricWrite a w l = some m) : m.clock = l.clock := by
  unfold fabricWrite periWrite at h
  dsimp only at h
  split at h
  · cases h
    rfl
  · split at h
    · obtain ⟨-, written⟩ := Option.ite_none_right_eq_some.mp h
      rw [← Option.some.inj written, streamBeat_clock]
    · split at h
      · obtain ⟨-, written⟩ := Option.ite_none_right_eq_some.mp h
        rw [← Option.some.inj written, peWriteAt_clock]
      · split at h
        · cases h
          rfl
        · cases h

/-! ### Beats and bursts (R348–R356) -/

theorem dmaBeat_clock (es : EccWords) (c : Nat) (l : Live) : (dmaBeat es c l).2.clock = l.clock := by
  unfold dmaBeat
  extract_lets x ok
  have moved (m : Live) : (ok m).2.clock = m.clock := rfl
  have source := beatRead_clock es x.src l
  clear_value ok
  split
  · split
    · rename_i m read
      rwa [read] at source
    · rename_i w m read
      rw [read] at source
      split
      · exact source
      · rename_i n written
        rw [moved, fabricWrite_clock written, source]
  · split
    · rfl
    · rename_i n written
      rw [moved, fabricWrite_clock written]
  · split
    · rename_i m read
      rwa [read] at source
    · rename_i a m read
      rw [read] at source
      have target := beatRead_clock es x.dst m
      split
      · rename_i n second
        rw [second] at target
        exact target.trans source
      · rename_i b n second
        rw [second] at target
        split
        · rw [moved, target, source]
        · exact target.trans source

theorem dmaBeats_clock (c n : Nat) (es : EccWords) (l : Live) : (dmaBeats c n es l).2.clock = l.clock := by
  induction n generalizing es l with
  | zero => rfl
  | succ n ih =>
    have beat := dmaBeat_clock es c l
    unfold dmaBeats
    split
    · rename_i m done_
      rw [ih, ← beat, done_]
    · exact beat

@[simp] theorem dmaCutBurst_clock (c : Nat) (l : Live) : (dmaCutBurst c l).clock = l.clock := by
  unfold dmaCutBurst
  split
  · rfl
  · rw [dmaBeats_clock, drawFree_clock]

/-! ### Resets of units -/

@[simp] theorem dmaReset_clock (l : Live) : (dmaReset l).clock = l.clock := by
  unfold dmaReset
  exact (forAll_clock (fun c m => by simp) _ _).trans rfl

@[simp] theorem peReset_clock (wipe : Bool) (e : Nat) (l : Live) : (peReset wipe e l).clock = l.clock := (rfl)
@[simp] theorem portReset_clock (n : Nat) (l : Live) : (portReset n l).clock = l.clock := (rfl)
@[simp] theorem wipeEvents_clock (l : Live) : (wipeEvents l).clock = l.clock := (rfl)

@[simp] theorem wheelReset_clock (w : Nat) (l : Live) : (wheelReset w l).clock = l.clock := by
  simp [wheelReset]

@[simp] theorem pairsIdle_clock (l : Live) : (pairsIdle l).clock = l.clock := by
  simp [pairsIdle, forAll_clock]

@[simp] theorem leaveOperational_clock (l : Live) : (leaveOperational l).clock = l.clock := by
  unfold leaveOperational
  split <;> simp

@[simp] theorem startFlush_clock (l : Live) : (startFlush l).clock = l.clock := by
  unfold startFlush loseWaiting
  dsimp only
  split
  · rw [lose_only]
    rfl
  · rfl

@[simp] theorem freshCycles_clock (l : Live) : (freshCycles l).clock = l.clock := by
  simp [freshCycles, forAll_clock]

theorem units_clock (l : Live) (groups : SMap Group) (channels : SMap Channel) (tpins : SMap TPin) (clusters : SMap Cluster)
    (micro : MicroUnit) (pairs : SMap Pair) (trips : SMap TripInput) (analog : AnalogUnit) (pwm : PwmUnit) :
    ({ l with groups := groups, channels := channels, tpins := tpins, clusters := clusters, micro := micro, pairs := pairs,
              trips := trips, analog := analog, pwm := pwm } : Live).clock = l.clock := rfl

theorem warmUnits_clock (l : Live) : (warmUnits l).clock = l.clock := by
  have tracked := (forAll_clock wheelReset_clock (List.range 4) _).trans (forAll_clock portReset_clock (List.range 8) l)
  have emptied := (wipeEvents_clock _).trans ((dmaReset_clock _).trans ((forAll_clock (peReset_clock true) (List.range 16) _).trans tracked))
  unfold warmUnits
  exact (units_clock _ _ _ _ _ _ _ _ _ _).trans emptied

end Sys2Proof.Machine

/-! What resets leave: the assertion of a source of WARM or COMM reach (R442–R446), and of TOTAL or COLD reach. -/

namespace Sys2Proof.Machine

open Sys2Proof

/-! ### The reset controller -/

theorem noteSource_rst (src : Nat) (l : Live) :
    (noteSource src l).rst.asserted = setBit l.rst.asserted src ∧ (noteSource src l).rst.sticky = setBit l.rst.sticky src ∧
      (noteSource src l).rst.starting = (l.rst.starting || decide (reachOf src ≤ 2)) ∧ (noteSource src l).rst.held = l.rst.held ∧
      (noteSource src l).rst.status = l.rst.status ∧ (noteSource src l).rst.wdStage1 = l.rst.wdStage1 ∧
      (noteSource src l).rst.life = l.rst.life ∧ (noteSource src l).rst.lifeRecord = l.rst.lifeRecord ∧
      (noteSource src l).rst.wipePending = l.rst.wipePending ∧ (noteSource src l).rst.sourceDue = l.rst.sourceDue ∧
      (noteSource src l).rst.resetLow = l.rst.resetLow ∧ (noteSource src l).rst.warmLow = l.rst.warmLow := by
  unfold noteSource
  dsimp only
  split <;> exact ⟨rfl, rfl, rfl, rfl, rfl, rfl, rfl, rfl, rfl, rfl, rfl, rfl⟩

/-- A held domain is down, every other one as it was. -/
theorem holdDomains_up (ds : List Domain) (l : Live) (d : Domain) : domainUp d (holdDomains ds l) = (domainUp d l && !ds.contains d) := by
  have every : d ∈ allDomains := by cases d <;> decide
  unfold domainUp holdDomains
  rw [← Bool.not_or]
  congr 1
  rw [Bool.eq_iff_iff]
  simp [every]

/-! ### Connections through a reset -/

/-- What a reset keeps of an element that it does not leave in its first state. -/
theorem keepEach_get {α : Type} [DecidableEq α] {d : α} {f : α → α} (first : f d = d) {m : SMap α} {k : Nat} (kept : f (m.get d k) ≠ d) :
    (keepEach d f m).get d k = f (m.get d k) := by
  induction m with
  | nil => exact absurd first kept
  | cons e r ih =>
    obtain ⟨j, x⟩ := e
    by_cases own : k = j
    · have here : (SMap.get d ((j, x) :: r) k) = x := by simp [SMap.get, own]
      rw [here] at kept ⊢
      simp [keepEach, SMap.get, kept, own]
    · have there : (SMap.get d ((j, x) :: r) k) = SMap.get d r k := by simp [SMap.get, own]
      rw [there] at kept ⊢
      rw [← ih kept]
      unfold keepEach
      rw [List.map_cons, List.filter_cons]
      split
      · simp [SMap.get, own]
      · rfl

theorem filter_get {α : Type} {d : α} (m : SMap α) {k n : Nat} (small : k < n) :
    SMap.get d (m.filter (fun e => decide (e.1 < n))) k = m.get d k := by
  induction m with
  | nil => rfl
  | cons e r ih =>
    obtain ⟨j, x⟩ := e
    rw [List.filter_cons]
    by_cases own : k = j
    · subst own
      simp [SMap.get, small]
    · split <;> simp [SMap.get, own, ih]

@[simp] theorem disarm_channels (cause : Nat) (l : Live) : (disarm cause l).channels = l.channels := by
  have trips (mask c : Nat) (m : Live) : (tripPairs mask c m).channels = m.channels := by
    unfold tripPairs
    exact forAll_keeps Live.channels (fun u m => by simp [tripPair, apply_ite Live.channels]) _ m
  unfold disarm
  extract_lets w st w1 w2 noted idle tripped recorded
  have idle_channels : idle.channels = noted.channels := forAll_keeps Live.channels (fun u m => by simp) _ noted
  have kept : recorded.channels = l.channels := by simp [recorded, tripped, trips, idle_channels, noted]
  split
  · rfl
  · split <;> simp [kept]

/-! ### COMM reach (R396–R399) -/

theorem commReset_parts (l : Live) :
    (commReset l).net.nmt = 0 ∧ (commReset l).conf = l.conf ∧ (commReset l).channels = l.channels ∧ (commReset l).mem = l.mem ∧
      (commReset l).time = l.time ∧ (commReset l).mram = l.mram ∧ (commReset l).rst.errorless = l.rst.errorless := by
  have kept := leaveOperational_clock l
  have off : (leaveOperational l).offEngines = l.offEngines := by
    unfold leaveOperational
    split
    · exact disarm_offEngines 6 l
    · rfl
  have channels : (leaveOperational l).channels = l.channels := by
    unfold leaveOperational
    split
    · exact disarm_channels 6 l
    · rfl
  have conf := clock_conf kept
  have mem := offEngines_mem off
  have time := clock_time kept
  have mram := clock_mram kept
  have rst := clock_errorless kept
  exact ⟨rfl, conf, channels, mem, time, mram, rst⟩

/-- An answer that has been given stands. -/
theorem commReset_answer {l : Live} {i : Nat} (which : i ≤ 256) (given : (l.connSt i).answer ≠ .none) :
    ((commReset l).connSt i).answer = (l.connSt i).answer := by
  have conns : (leaveOperational l).net.conns = l.net.conns := by
    have net := congrArg NetUnit.conns (clock_net (leaveOperational_clock l))
    exact net
  unfold commReset
  dsimp only
  unfold Live.connSt
  dsimp only
  rw [conns]
  by_cases host : i = 256
  · subst host
    rw [SMap.get_put_same]
    rfl
  · have bus := filter_get (d := ({} : ConnState)) l.net.conns (show i < 256 by omega)
    rw [SMap.get_put_ne _ _ _ host, keepEach_get (by rfl), bus]
    · rfl
    · rw [bus]
      exact fun first => given (congrArg ConnState.answer first)

theorem commReset_arm (l : Live) (disarmed : l.pwm.arm = .disarmed) : (commReset l).pwm.arm = .disarmed := by
  show (leaveOperational l).pwm.arm = .disarmed
  unfold leaveOperational
  split
  · exact disarm_arm 6 l
  · exact disarmed

/-! ### WARM reach (R444, R446) -/

theorem freshCycles_read {α : Type} (read : Live → α) (kept : ∀ l w f, read (Live.updWheel l w f) = read l) (l : Live) :
    read (freshCycles l) = read l := by
  unfold freshCycles
  exact forAll_keeps read (fun _ m => kept m _ _) _ l

/-- The units before the network, in the order in which a WARM reset takes them. -/
def warmBefore (l : Live) : Live := warmUnits (startFlush (leaveOperational (pairsIdle l)))

theorem warmBefore_clock (l : Live) : (warmBefore l).clock = l.clock := by
  unfold warmBefore
  rw [warmUnits_clock, startFlush_clock, leaveOperational_clock, pairsIdle_clock]

theorem warmUnits_arm (l : Live) : (warmUnits l).pwm.arm = .disarmed := by
  unfold warmUnits
  rfl

/-- The device that a WARM reset leaves, once its units and its network are reset. -/
def warmRest (l : Live) : Live :=
  let c : ConfUnit := { gen := l.conf.gen, refusedCnt := l.conf.refusedCnt, objs := l.conf.objs.filter (fun e => warmKey e.1) }
  let h := l.host.stat &&& 0xFFFF0000
  let time := { l.time with ppsOut := false, ppsHiZ := true, ppsWarm := l.time.ppsWarm || !l.time.ppsHiZ }
  let snap : SnapUnit := { seq := l.snap.seq, taken := l.snap.taken, deferredCnt := l.snap.deferredCnt, wipe := true }
  let irq : IrqUnit :=
    { groups := keepEach {} keepIrq l.irq.groups, lstat := keepEach 0 (fun x => x &&& 0xFFFF0000) l.irq.lstat }
  freshCycles { l with conf := c, time := time, host := { stat := h }, doze := {}, snap := snap, irq := irq, rst := warmRst l.rst,
                       mem := wipeSpan l.mem tableBase (tableBase + tableSize) }

theorem warmLive_eq (l : Live) : warmLive l = warmRest (commReset (warmBefore l)) := by
  unfold warmLive warmRest warmBefore
  rfl

theorem warmRest_parts (l : Live) :
    (warmRest l).time.dtime = l.time.dtime ∧ (warmRest l).rst = warmRst l.rst ∧ (warmRest l).mram = l.mram ∧ (warmRest l).net = l.net ∧
      (warmRest l).pwm = l.pwm ∧ (warmRest l).snap.wipe = true ∧ (warmRest l).snap.want = false ∧ (warmRest l).snap.hold = none := by
  unfold warmRest
  refine ⟨?_, ?_, ?_, ?_, ?_, ?_, ?_, ?_⟩
  · exact freshCycles_read (fun m => m.time.dtime) (fun _ _ _ => rfl) _
  · exact freshCycles_read Live.rst (fun _ _ _ => rfl) _
  · exact freshCycles_read Live.mram (fun _ _ _ => rfl) _
  · exact freshCycles_read Live.net (fun _ _ _ => rfl) _
  · exact freshCycles_read Live.pwm (fun _ _ _ => rfl) _
  · exact freshCycles_read (fun m => m.snap.wipe) (fun _ _ _ => rfl) _
  · exact freshCycles_read (fun m => m.snap.want) (fun _ _ _ => rfl) _
  · exact freshCycles_read (fun m => m.snap.hold) (fun _ _ _ => rfl) _

theorem warmRst_congr {r q : ResetUnit} (h : r.errorless = q.errorless) : (warmRst r).errorless = (warmRst q).errorless := by
  have shown (x : ResetUnit) : (warmRst x).errorless = (warmRst x.errorless).errorless := rfl
  rw [shown, shown q, h]

theorem warmLive_parts (l : Live) :
    (warmLive l).time.dtime = l.time.dtime ∧ (warmLive l).rst.errorless = (warmRst l.rst).errorless ∧ (warmLive l).mram = l.mram ∧
      (warmLive l).net.nmt = 0 ∧ (warmLive l).pwm.arm = .disarmed ∧ (warmLive l).snap.wipe = true ∧ (warmLive l).snap.want = false ∧
      (warmLive l).snap.hold = none := by
  have before := warmBefore_clock l
  have idle : (warmBefore l).pwm.arm = .disarmed := warmUnits_arm _
  rw [warmLive_eq]
  generalize warmBefore l = b at before idle
  obtain ⟨nmt, -, -, -, time, mram, rst⟩ := commReset_parts b
  have arm := commReset_arm b idle
  generalize commReset b = m at nmt time mram rst arm
  obtain ⟨dtime, rst', mram', net, pwm, snap⟩ := warmRest_parts m
  refine ⟨?_, ?_, ?_, ?_, ?_, snap⟩
  · rw [dtime, time, clock_time before]
  · rw [rst', warmRst_congr (rst.trans (clock_errorless before))]
  · rw [mram', mram, clock_mram before]
  · rw [net, nmt]
  · rw [pwm, arm]

theorem connSt_of_conns {l m : Live} (h : m.net.conns = l.net.conns) (i : Nat) : m.connSt i = l.connSt i := by
  unfold Live.connSt
  rw [h]

theorem conns_of_clock {l m : Live} (h : m.clock = l.clock) : m.net.conns = l.net.conns := by
  have shown (n : NetUnit) : n.conns = n.silent.conns := rfl
  rw [shown, shown l.net, clock_net h]

theorem warmLive_answer {l : Live} {i : Nat} (which : i ≤ 256) (given : (l.connSt i).answer ≠ .none) :
    ((warmLive l).connSt i).answer = (l.connSt i).answer := by
  have conns := connSt_of_conns (conns_of_clock (warmBefore_clock l)) i
  rw [warmLive_eq]
  generalize warmBefore l = b at conns
  have kept := commReset_answer (l := b) which (by rwa [conns])
  rw [connSt_of_conns (congrArg NetUnit.conns (warmRest_parts (commReset b)).2.2.2.1), kept, conns]

theorem held_of_errorless {r q : ResetUnit} (h : r.errorless = (warmRst q).errorless) : r.held = q.held := by
  have shown (x : ResetUnit) : x.held = x.errorless.held := rfl
  rw [shown, h]
  rfl

/-- A source of WARM reach that asserts with CORE out of reset. -/
theorem assertSource_warm {src : Nat} {l : Live} (warm : reachOf src = 2) (up : coreUp l = true)
    (fresh : l.rst.asserted.getLsbD src = false) :
    assertSource src l = holdDomains [.prot, .core, .comm] (warmLive (noteSource src l)) := by
  have held : (noteSource src l).rst.held = l.rst.held := (noteSource_rst src l).2.2.2.1
  have new : [Domain.prot, .core, .comm].any (fun d => domainUp d (noteSource src l)) = true := by
    have core : domainUp .core (noteSource src l) = true := by
      unfold domainUp
      rw [held]
      exact up
    simp [core]
  unfold assertSource
  rw [if_neg (by simp [fresh])]
  dsimp only
  rw [warm, if_neg (by decide), show domainsOf 2 = [.prot, .core, .comm] from rfl, if_neg (by rw [new]; decide), if_pos rfl]

/-- The reset unit after the assertion of a source of WARM reach, but for memory errors. -/
structure WarmAsserted (src : Nat) (l m : Live) : Prop where
  rst : m.rst.errorless = { (warmRst (noteSource src l).rst).errorless with held := m.rst.held }
  domains : ∀ d, domainUp d m = (domainUp d l && !([Domain.prot, .core, .comm].contains d))
  dtime : m.time.dtime = l.time.dtime
  mram : m.mram = l.mram
  nmt : m.net.nmt = 0
  arm : m.pwm.arm = .disarmed
  wipe : m.snap.wipe = true ∧ m.snap.want = false ∧ m.snap.hold = none
  answer : ∀ i, i ≤ 256 → (l.connSt i).answer ≠ .none → (m.connSt i).answer = (l.connSt i).answer

theorem assertSource_warmAsserted {src : Nat} {l : Live} (warm : reachOf src = 2) (up : coreUp l = true)
    (fresh : l.rst.asserted.getLsbD src = false) : WarmAsserted src l (assertSource src l) := by
  rw [assertSource_warm warm up fresh]
  obtain ⟨dtime, rst, mram, nmt, arm, wipe, want, hold⟩ := warmLive_parts (noteSource src l)
  have answers (i : Nat) (which : i ≤ 256) (given : (l.connSt i).answer ≠ .none) := warmLive_answer (l := noteSource src l) which given
  generalize warmLive (noteSource src l) = m at dtime rst mram nmt arm wipe want hold answers
  refine ⟨?_, fun d => ?_, dtime, mram, nmt, arm, ⟨wipe, want, hold⟩, answers⟩
  · exact congrArg (fun r : ResetUnit => { r with held := (holdDomains [.prot, .core, .comm] m).rst.held }) rst
  · rw [holdDomains_up]
    congr 1
    have held : m.rst.held = (noteSource src l).rst.held := held_of_errorless rst
    unfold domainUp
    rw [held, (noteSource_rst src l).2.2.2.1]

/-- A request for the wipe of the banks leaves no bank (R71). -/
theorem apply_wipes {f : Live → Live} {s : State} (wipe : (f s.live).snap.wipe = true) (want : (f s.live).snap.want = false)
    (hold : (f s.live).snap.hold = none) : (s.apply f).published = none ∧ (s.apply f).held = none := by
  have settled : (settle s.live (f s.live)).snap = (f s.live).snap := (settle_only _ _).keeps.2.1
  obtain ⟨x, hx⟩ : ∃ x, x = wipeBanks { s with live := settle s.live (f s.live) } := ⟨_, rfl⟩
  have wiped : x.published = none ∧ x.held = none ∧ x.live.snap = { (f s.live).snap with wipe := false } := by
    rw [hx, wipeBanks_snap, settled]
    unfold wipeBanks
    rw [if_pos (by rw [settled, wipe])]
    exact ⟨rfl, rfl, rfl⟩
  obtain ⟨published, held, snap⟩ := wiped
  have still : settleHold x = x := by
    unfold settleHold
    dsimp only
    rw [show x.live.snap.hold = none by rw [snap, ← hold]]
  unfold State.apply
  rw [← hx, still]
  unfold settleSnap
  rw [if_pos (by rw [snap, want]; rfl)]
  exact ⟨published, held⟩

/-- What neither a memory error nor the reset of the units touches of the reset unit is as the record of the source left it. -/
theorem WarmAsserted.read {src : Nat} {l m : Live} (h : WarmAsserted src l m) {α : Type} (read : ResetUnit → α)
    (errors : ∀ r : ResetUnit, read r.errorless = read r) (held : ∀ (r : ResetUnit) ds, read { r with held := ds } = read r)
    (kept : ∀ r, read (warmRst r) = read r) : read m.rst = read (noteSource src l).rst := by
  rw [← errors m.rst, h.rst, held, errors, kept]

theorem WarmAsserted.sticky {src : Nat} {l m : Live} (h : WarmAsserted src l m) : m.rst.sticky = setBit l.rst.sticky src :=
  (h.read (read := ResetUnit.sticky) (fun _ => rfl) (fun _ _ => rfl) (fun _ => rfl)).trans (noteSource_rst src l).2.1

theorem WarmAsserted.asserted {src : Nat} {l m : Live} (h : WarmAsserted src l m) : m.rst.asserted = setBit l.rst.asserted src :=
  (h.read (read := ResetUnit.asserted) (fun _ => rfl) (fun _ _ => rfl) (fun _ => rfl)).trans (noteSource_rst src l).1

theorem WarmAsserted.starting {src : Nat} {l m : Live} (h : WarmAsserted src l m) (warm : reachOf src = 2) : m.rst.starting = true := by
  rw [h.read (read := ResetUnit.starting) (fun _ => rfl) (fun _ _ => rfl) (fun _ => rfl), (noteSource_rst src l).2.2.1, warm]
  exact Bool.or_true _

/-- The domains that a WARM source reaches. -/
theorem WarmAsserted.down {src : Nat} {l m : Live} (h : WarmAsserted src l m) :
    domainUp .prot m = false ∧ domainUp .core m = false ∧ domainUp .comm m = false :=
  ⟨(h.domains _).trans (Bool.and_false _), (h.domains _).trans (Bool.and_false _), (h.domains _).trans (Bool.and_false _)⟩

/-! ### COMM reach of a source -/

/-- Source 13 asserts with COMM out of reset (R442, R444). -/
theorem assertSource_comm {l : Live} (up : domainUp .comm l = true) (fresh : l.rst.asserted.getLsbD 13 = false) :
    assertSource 13 l = holdDomains [.comm] (commReset (noteSource 13 l)) := by
  have held : (noteSource 13 l).rst.held = l.rst.held := (noteSource_rst 13 l).2.2.2.1
  have new : [Domain.comm].any (fun d => domainUp d (noteSource 13 l)) = true := by
    have comm : domainUp .comm (noteSource 13 l) = true := by
      unfold domainUp
      rw [held]
      exact up
    simp [comm]
  unfold assertSource
  rw [if_neg (by rw [fresh]; decide)]
  dsimp only
  rw [show reachOf 13 = 3 from rfl, if_neg (by decide), show domainsOf 3 = [.comm] from rfl, if_neg (by rw [new]; decide), if_neg (by decide)]

end Sys2Proof.Machine

/-! NMT (R396–R399, R442). -/

namespace Sys2Proof.Machine

open Sys2Proof

theorem heard_up {src : NmtSource} {l : Live} (heard : nmtHeard src l = true) : coreUp l = true ∧ domainUp .comm l = true := by
  have up : netUp l = true := by
    unfold nmtHeard busActive at heard
    cases src <;> simp_all
  unfold netUp schedUp at up
  simp at up
  exact ⟨up.1.1.1, up.1.2⟩

/-- A map read at a key is one of its elements at that key, or the default. -/
theorem get_of_all {α : Type} {d : α} {P : α → Prop} (first : P d) {m : SMap α} {k : Nat} (all : ∀ e ∈ m, e.1 = k → P e.2) :
    P (m.get d k) := by
  induction m with
  | nil => exact first
  | cons e r ih =>
    obtain ⟨j, x⟩ := e
    by_cases own : k = j
    · rw [show SMap.get d ((j, x) :: r) k = x by simp [SMap.get, own]]
      exact all (j, x) (List.mem_cons_self ..) own.symm
    · rw [show SMap.get d ((j, x) :: r) k = SMap.get d r k by simp [SMap.get, own]]
      exact ih fun e listed => all e (List.mem_cons_of_mem _ listed)

/-- A transfer ends on every connection of the buses; the host port's goes on (R399). -/
theorem dropTransfers_get (m : SMap ConnState) (i : Nat) (small : i < 256) :
    (SMap.get {} ((m.map (fun e => (e.1, if e.1 < 256 then { e.2 with transfer := false } else e.2))).filter
      (fun e => decide (e.2 ≠ ({} : ConnState)))) i).transfer = false := by
  refine get_of_all (P := fun x : ConnState => x.transfer = false) rfl fun e listed own => ?_
  obtain ⟨x, -, rfl⟩ := List.mem_map.mp (List.mem_filter.mp listed).1
  dsimp only at own ⊢
  rw [if_pos (by omega)]

/-- The tail of a change of the NMT state: what the buses and TPDOs note. -/
def nmtTail (new old : Byte) (src cs : Nat) (l : Live) : Live :=
  let l := forAll (fun b l => (noteBus b 2 l).updBus b (fun x => { x with status := setBit x.status 2 })) [0, 1] l
  let fresh := fun (x : Tpdo) => { x with timerFrom := l.now, syncCount := 0, due := false, wantSync := false, wantNext := false }
  let l := if new = nmtOp then forAll (fun p l => l.updTpdo p fresh) (List.range 16) l else l
  nmtRecord src cs new old l

theorem nmtTail_read {α : Type} (read : Live → α) (noted : ∀ l b f, read (Live.updBus (noteBus b 2 l) b f) = read l)
    (freshened : ∀ l p f, read (Live.updTpdo l p f) = read l) (recorded : ∀ src cs new old l, read (nmtRecord src cs new old l) = read l)
    (new old : Byte) (src cs : Nat) (l : Live) : read (nmtTail new old src cs l) = read l := by
  unfold nmtTail
  dsimp only
  rw [recorded]
  have buses := forAll_keeps read (fun b l => noted l b (fun x => { x with status := setBit x.status 2 })) [0, 1] l
  split
  · rw [forAll_keeps read (fun p l => freshened l p _), buses]
  · exact buses

theorem nmt_of_clock {l m : Live} (h : m.clock = l.clock) : m.net.nmt = l.net.nmt := by
  have shown (n : NetUnit) : n.nmt = n.silent.nmt := rfl
  rw [shown, shown l.net, clock_net h]

/-- The network of a device whose NMT state changes. -/
def nmtNet (new : Byte) (l : Live) : NetUnit :=
  let dropped := l.net.conns.map (fun e => (e.1, if e.1 < 256 then { e.2 with transfer := false } else e.2))
  let n := { l.net with nmt := new, conns := if new = nmtStop then dropped.filter (fun e => decide (e.2 ≠ {})) else l.net.conns }
  let n := if new = nmtOp then { n with opAt := l.now } else n
  if l.net.nmt = nmtPre ∨ l.net.nmt = nmtOp then n else { n with lastSync := some l.now }

theorem nmtGo_eq {new : Byte} {l : Live} (differs : l.net.nmt ≠ new) (src cs : Nat) :
    nmtGo new src cs l = nmtTail new l.net.nmt src cs { leaveOperational l with net := nmtNet new (leaveOperational l) } := by
  have kept : (leaveOperational l).net.nmt = l.net.nmt := nmt_of_clock (leaveOperational_clock l)
  unfold nmtGo
  dsimp only
  rw [if_neg (fun same => differs same.symm)]
  unfold nmtNet nmtTail
  rw [kept]

theorem nmtNet_nmt (new : Byte) (l : Live) : (nmtNet new l).nmt = new := by
  unfold nmtNet
  dsimp only
  split <;> split <;> rfl

theorem nmtNet_opAt (l : Live) : (nmtNet nmtOp l).opAt = l.now := by
  unfold nmtNet
  dsimp only
  rw [if_pos rfl]
  split <;> rfl

theorem nmtNet_conns {new : Byte} (goes : new ≠ nmtStop) (l : Live) : (nmtNet new l).conns = l.net.conns := by
  unfold nmtNet
  dsimp only
  rw [if_neg goes]
  split <;> split <;> rfl

theorem nmtNet_dropped (l : Live) (i : Nat) (small : i < 256) : (SMap.get {} (nmtNet nmtStop l).conns i).transfer = false := by
  unfold nmtNet
  dsimp only
  rw [if_pos rfl, if_neg (show nmtStop ≠ nmtOp by decide)]
  split <;> exact dropTransfers_get _ _ small

section

variable {new : Byte} {l : Live} (differs : l.net.nmt ≠ new) (src cs : Nat)

include differs

theorem nmtGo_nmt : (nmtGo new src cs l).net.nmt = new := by
  rw [nmtGo_eq differs, nmtTail_read (fun m => m.net.nmt) (fun _ _ _ => rfl) (fun _ _ _ => rfl) (fun _ _ _ _ _ => by simp [nmtRecord])]
  exact nmtNet_nmt _ _

theorem nmtGo_conns : (nmtGo new src cs l).net.conns = (nmtNet new (leaveOperational l)).conns := by
  rw [nmtGo_eq differs, nmtTail_read (fun m => m.net.conns) (fun _ _ _ => rfl) (fun _ _ _ => rfl) (fun _ _ _ _ _ => by simp [nmtRecord])]

theorem nmtGo_opAt : (nmtGo new src cs l).net.opAt = (nmtNet new (leaveOperational l)).opAt := by
  rw [nmtGo_eq differs, nmtTail_read (fun m => m.net.opAt) (fun _ _ _ => rfl) (fun _ _ _ => rfl) (fun _ _ _ _ _ => by simp [nmtRecord])]

theorem nmtGo_pwm : (nmtGo new src cs l).pwm = (leaveOperational l).pwm := by
  rw [nmtGo_eq differs, nmtTail_read Live.pwm (fun _ _ _ => rfl) (fun _ _ _ => rfl) (fun _ _ _ _ _ => by simp [nmtRecord])]

theorem nmtGo_mem : (nmtGo new src cs l).mem = l.mem := by
  rw [nmtGo_eq differs, nmtTail_read Live.mem (fun _ _ _ => rfl) (fun _ _ _ => rfl) (fun _ _ _ _ _ => by simp [nmtRecord])]
  unfold leaveOperational
  split
  · exact disarm_mem 6 l
  · rfl

end

theorem leaveOperational_other {l : Live} (other : l.net.nmt ≠ nmtOp) : leaveOperational l = l := if_neg other

theorem leaveOperational_arm {l : Live} (op : l.net.nmt = nmtOp) : (leaveOperational l).pwm.arm = .disarmed := by
  unfold leaveOperational
  rw [if_pos op]
  exact disarm_arm 6 l

theorem apply_domainUp (f : Live → Live) (s : State) (d : Domain) : domainUp d (s.apply f).live = domainUp d (f s.live) := by
  unfold domainUp
  rw [apply_rst]

/-- Settles O34: the three changes of state by `nmtGo_eq`, Reset node by `assertSource_warmAsserted`, Reset communication by
`assertSource_comm`. -/
theorem nmtComplete : Obligations.NmtComplete := by
  intro s src heard
  obtain ⟨core, comm⟩ := heard_up heard
  refine ⟨fun may differs => ?_, fun differs => ?_, fun differs => ?_, fun fresh => ?_, fun fresh => ?_⟩
  · have effect : nmtStart src s.live = nmtGo nmtOp (nmtSource src) 1 s.live := if_pos (by simp [heard, may])
    refine completes_apply (f := nmtStart src) rfl ⟨?_, ?_, ?_, sameMemory_apply (by rw [effect, nmtGo_mem differs])⟩
    · simp only [apply_parts_keep, effect, nmtGo_nmt differs]
    · simp only [apply_parts_keep, effect, nmtGo_opAt differs, nmtNet_opAt, leaveOperational_other differs]
    · simp only [apply_keeps, effect, nmtGo_pwm differs, leaveOperational_other differs]
  · have effect : nmtStopCommand src s.live = nmtGo nmtStop (nmtSource src) 2 s.live := if_pos heard
    refine completes_apply (f := nmtStopCommand src) rfl ⟨?_, fun op => ?_, fun i small => ?_,
      sameMemory_apply (by rw [effect, nmtGo_mem differs])⟩
    · simp only [apply_parts_keep, effect, nmtGo_nmt differs]
    · simp only [apply_keeps, effect, nmtGo_pwm differs, leaveOperational_arm op]
    · rw [apply_connSt, effect]
      unfold Live.connSt
      rw [nmtGo_conns differs]
      exact nmtNet_dropped _ i small
  · have effect : nmtPreOp src s.live = nmtGo nmtPre (nmtSource src) 0x80 s.live := if_pos heard
    refine completes_apply (f := nmtPreOp src) rfl ⟨?_, fun op => ?_, ?_, sameMemory_apply (by rw [effect, nmtGo_mem differs])⟩
    · simp only [apply_parts_keep, effect, nmtGo_nmt differs]
    · simp only [apply_keeps, effect, nmtGo_pwm differs, leaveOperational_arm op]
    · simp only [apply_parts_keep, effect, nmtGo_conns differs, nmtNet_conns (show nmtPre ≠ nmtStop by decide)]
      exact conns_of_clock (leaveOperational_clock s.live)
  · have effect : nmtResetNode src s.live = releaseSource 10 (assertSource 10 s.live) := if_pos heard
    have warm := assertSource_warmAsserted (src := 10) rfl core fresh
    obtain ⟨wipe, want, hold⟩ := warm.wipe
    obtain ⟨prot, core', comm'⟩ := warm.down
    have sticky := warm.sticky
    have starting := warm.starting rfl
    have nmt := warm.nmt
    have arm := warm.arm
    have dtime := warm.dtime
    generalize assertSource 10 s.live = m at effect wipe want hold prot core' comm' sticky starting nmt arm dtime
    obtain ⟨published, held⟩ := apply_wipes (f := nmtResetNode src) (s := s) (by rw [effect]; exact wipe) (by rw [effect]; exact want)
      (by rw [effect]; exact hold)
    refine completes_apply (f := nmtResetNode src) rfl ⟨?_, ?_, ?_, ?_, ?_, ?_, ?_, published, held, ?_⟩
    · simp only [apply_parts_keep, effect]
      exact nmt
    · rw [apply_rst, effect]
      exact starting
    · rw [apply_rst, effect]
      show m.rst.sticky.getLsbD 10 = true
      rw [sticky]
      exact setBit_same _ (by decide)
    · rw [apply_domainUp, effect]
      exact prot
    · rw [apply_domainUp, effect]
      exact core'
    · rw [apply_domainUp, effect]
      exact comm'
    · simp only [apply_keeps, effect]
      exact arm
    · rw [apply_time, effect]
      exact dtime
  · have effect : nmtResetComm src s.live = nmtRecord (nmtSource src) 0x82 0 s.live.net.nmt (releaseSource 13 (assertSource 13 s.live)) :=
      if_pos heard
    rw [assertSource_comm comm fresh] at effect
    obtain ⟨asserted, sticky, -, held, -⟩ := noteSource_rst 13 s.live
    obtain ⟨nmt, conf, channels, mem, -, -, -⟩ := commReset_parts (noteSource 13 s.live)
    have rst : (commReset (noteSource 13 s.live)).rst = (noteSource 13 s.live).rst := commReset_rst _
    generalize commReset (noteSource 13 s.live) = m at effect nmt conf channels mem rst
    have up (d : Domain) : domainUp d (nmtResetComm src s.live) = (domainUp d s.live && !([Domain.comm].contains d)) := by
      have kept : domainUp d (nmtResetComm src s.live) = domainUp d (holdDomains [.comm] m) := by
        rw [effect]
        simp [domainUp, nmtRecord, releaseSource]
      rw [kept, holdDomains_up]
      unfold domainUp
      rw [rst, held]
    refine completes_apply (f := nmtResetComm src) rfl ⟨?_, ?_, ?_, ?_, ?_, ?_, sameMemory_apply ?_⟩
    · simp only [apply_parts_keep, effect]
      simpa [nmtRecord, releaseSource, holdDomains] using nmt
    · rw [apply_domainUp, up]
      exact Bool.and_false _
    · rw [apply_rst, effect]
      have noted : m.rst.sticky = setBit s.live.rst.sticky 13 := by rw [rst, sticky]
      simp only [nmtRecord, writeRecord_keeps, releaseSource, holdDomains]
      rw [noted]
      exact setBit_same _ (by decide)
    · rw [apply_domainUp, up]
      exact Bool.and_true _
    · simp only [apply_keeps, effect]
      simpa [nmtRecord, releaseSource, holdDomains] using show m.conf = s.live.conf from conf
    · simp only [apply_keeps, effect]
      simpa [nmtRecord, releaseSource, holdDomains] using show m.channels = s.live.channels from channels
    · rw [effect]
      simpa [nmtRecord, releaseSource, holdDomains] using show m.mem = s.live.mem from mem

end Sys2Proof.Machine

/-! Reset pins, supplies and the release of domains (R443–R447, R483). -/

namespace Sys2Proof.Machine

open Sys2Proof

/-! ### What a release keeps -/

/-- The domains held and the fabric memory: what a release leaves as it is. -/
def Live.kept (l : Live) : List Domain × Memory := (l.rst.held, l.mem)

theorem forAll_kept {α : Type} {f : α → Live → Live} (h : ∀ x l, (f x l).kept = l.kept) (xs : List α) (l : Live) :
    (forAll f xs l).kept = l.kept := forAll_keeps Live.kept h xs l

theorem kept_of_clock {l m : Live} (h : m.clock = l.clock) (mem : m.mem = l.mem) : m.kept = l.kept := by
  have shown (r : ResetUnit) : r.held = r.errorless.held := rfl
  unfold Live.kept
  rw [mem, shown, shown l.rst, clock_errorless h]

theorem dueEmcy_kept (code src payload : Nat) (l : Live) : (dueEmcy code src payload l).kept = l.kept := rfl

theorem advanceReset_kept (l : Live) : (advanceReset l).kept = l.kept := by
  unfold advanceReset
  dsimp only
  split
  · rfl
  · split <;> rfl

theorem noteSources_kept (l : Live) : (noteSources l).kept = l.kept := by
  unfold noteSources
  extract_lets srcs pay unit uncommanded brownOuts
  have first : uncommanded.kept = l.kept := by
    unfold uncommanded
    split <;> rfl
  have rest : brownOuts.kept = uncommanded.kept := forAll_kept (fun s m => by split <;> rfl) srcs uncommanded
  split <;> exact rest.trans first

theorem wipeMram_kept (l : Live) : (wipeMram l).kept = l.kept := by
  unfold wipeMram
  split
  · rfl
  · dsimp only
    split <;> rfl

theorem readRecord_kept (l : Live) : (readRecord l).kept = l.kept := by
  unfold readRecord
  extract_lets x node
  exact (forAll_kept (f := node) (fun _ _ => rfl) [0, 1] _).trans rfl

theorem scanJournal_kept (l : Live) : (scanJournal l).kept = l.kept := by
  unfold scanJournal
  dsimp only
  split <;> rfl

theorem writeRecordAt_kept (dt src kind payload : Nat) (l : Live) : (writeRecordAt dt src kind payload l).kept = l.kept := by
  rw [writeRecordAt_only]
  rfl

theorem journalEntry_kept (src kind payload code : Nat) (l : Live) : (journalEntry src kind payload code l).kept = l.kept :=
  kept_of_clock (clock_of_offEngines (journalEntry_offEngines _ _ _ _ _)) (offEngines_mem (journalEntry_offEngines _ _ _ _ _))

theorem journalSource_kept (src : Nat) (l : Live) : (journalSource src l).kept = l.kept := by
  unfold journalSource
  split
  · rfl
  · dsimp only
    split
    · rw [journalAt_only]
      rfl
    · rw [emcy_only, journalAt_only]
      rfl

theorem recordSource_kept (src : Nat) (l : Live) : (recordSource src l).kept = l.kept := by
  unfold recordSource
  split
  · rfl
  · dsimp only
    rw [journalSource_kept]
    exact writeRecordAt_kept _ _ _ _ l

theorem recordSources_kept (l : Live) : (recordSources l).kept = l.kept := forAll_kept recordSource_kept _ l

theorem reportMissing_kept (k : Nat) (l : Live) : (reportMissing k l).kept = l.kept := by
  unfold reportMissing
  rw [dueEmcy_kept, journalEntry_kept]
  exact writeRecordAt_kept _ _ _ _ _

theorem micro_kept (l : Live) (u : MicroUnit) : ({ l with micro := u } : Live).kept = l.kept := rfl

theorem loadMicrocode_kept (l : Live) : (loadMicrocode l).kept = l.kept := by
  have stored (c : Byte) (m : Live) : (forAll (loadStore c) (List.range 8) m).kept = m.kept :=
    forAll_kept (f := loadStore c) (fun _ _ => rfl) _ m
  unfold loadMicrocode
  dsimp only
  split
  · rw [forAll_kept reportMissing_kept, micro_kept, stored]
  · rw [micro_kept, stored]

theorem postAborts_kept (n : Nat) (l : Live) : (postAborts n l).kept = l.kept := by
  induction n generalizing l with
  | zero => rfl
  | succ n ih =>
    unfold postAborts
    split
    · rfl
    · split
      · rw [ih]
        rfl
      · rfl

/-- Steps 5 to 7 of the start-up hold no domain and leave the fabric memory alone. -/
theorem coreRelease_kept (l : Live) : (coreRelease l).kept = l.kept := by
  unfold coreRelease
  extract_lets a sup r b c d e t
  have noted : b.kept = l.kept := (noteSources_kept _).trans (advanceReset_kept l)
  have read : c.kept = l.kept := (readRecord_kept _).trans ((wipeMram_kept b).trans noted)
  have scanned : d.kept = l.kept := by
    unfold d
    split
    · exact (scanJournal_kept c).trans read
    · exact read
  have loaded : e.kept = l.kept := by
    refine (loadMicrocode_kept _).trans ((recordSources_kept _).trans ?_)
    split
    · exact scanned
    · exact scanned
  clear_value e
  rw [postAborts_kept]
  exact loaded

theorem restoreComm_kept (l : Live) : (restoreComm l).kept = l.kept := by
  unfold restoreComm
  exact (forAll_kept (fun r m => by split <;> rfl) _ _).trans rfl

theorem commRelease_kept (l : Live) : (commRelease l).kept = l.kept := by
  unfold commRelease
  extract_lets a n b c
  have restored : a.kept = l.kept := by
    unfold a
    split
    · exact restoreComm_kept l
    · rfl
  clear_value a
  exact (recordSources_kept b).trans ((forAll_kept (f := startBus) (fun _ _ => rfl) [0, 1] _).trans restored)

theorem onRelease_kept (d : Domain) (l : Live) : (onRelease d l).kept = l.kept := by
  cases d with
  | mem => rfl
  | core => exact coreRelease_kept l
  | comm => exact commRelease_kept l
  | _ => rfl

/-! ### Sources of TOTAL and COLD reach -/

theorem assertSource_cold {src : Nat} {l : Live} (cold : reachOf src ≤ 1) (fresh : l.rst.asserted.getLsbD src = false) :
    assertSource src l = coldLive (reachOf src = 0) (noteSource src l) := by
  unfold assertSource
  rw [if_neg (by rw [fresh]; decide)]
  exact if_pos cold

theorem coldLive_parts (total : Bool) (l : Live) :
    (coldLive total l).rst.asserted = l.rst.asserted ∧ (coldLive total l).rst.held = allDomains ∧ (coldLive total l).rst.life = l.rst.life ∧
      (coldLive total l).rst.resetLow = l.rst.resetLow := by
  cases total <;> exact ⟨rfl, rfl, rfl, rfl⟩

/-- What a source of TOTAL or COLD reach leaves (R444, R446). -/
theorem assertSource_coldAsserted {src : Nat} {l : Live} (cold : reachOf src ≤ 1) (fresh : l.rst.asserted.getLsbD src = false) :
    let m := assertSource src l
    m.rst.asserted = setBit l.rst.asserted src ∧ m.rst.held = allDomains ∧ m.rst.life = l.rst.life ∧ m.rst.resetLow = l.rst.resetLow ∧
      m.time = { refselPin := l.time.refselPin } ∧ m.mram = l.mram ∧ m.net.nmt = 0 ∧ m.pwm = {} ∧ m.snap = { wipe := true } ∧ m.mem = [] := by
  intro m
  have effect : m = coldLive (reachOf src = 0) (noteSource src l) := assertSource_cold cold fresh
  rw [effect]
  obtain ⟨asserted, held, life, low⟩ := coldLive_parts (reachOf src = 0) (noteSource src l)
  obtain ⟨noted, -, -, -, -, -, life', -, -, -, low', -⟩ := noteSource_rst src l
  exact ⟨asserted.trans noted, held, life.trans life', low.trans low', rfl, rfl, rfl, rfl, rfl, rfl⟩

/-- The state after a command whose effect is the assertion of such a source. -/
theorem apply_cold {f : Live → Live} {s : State} {src : Nat} {l : Live} (effect : f s.live = assertSource src l) (cold : reachOf src ≤ 1)
    (fresh : l.rst.asserted.getLsbD src = false) :
    let t := s.apply f
    t.live.rst.asserted.getLsbD src = true ∧ t.live.rst.held = allDomains ∧ t.live.rst.life = l.rst.life ∧
      t.live.rst.resetLow = l.rst.resetLow ∧ t.live.time.dtime = 0 ∧ t.live.time.pllLocked = false ∧ t.live.mram = l.mram ∧
      t.live.net.nmt = 0 ∧ t.live.pwm.arm = .disarmed ∧ t.published = none ∧ ∀ a, readByte t.live.mem a = 0 := by
  have small : src < 32 := by
    by_contra far
    unfold reachOf at cold
    rw [if_neg (by omega), if_neg (by omega), if_neg (by omega), if_neg (by omega)] at cold
    omega
  obtain ⟨asserted, held, life, low, time, mram, nmt, pwm, snap, mem⟩ := assertSource_coldAsserted cold fresh
  rw [← effect] at asserted held life low time mram nmt pwm snap mem
  obtain ⟨published, -⟩ := apply_wipes (f := f) (s := s) (by rw [snap]) (by rw [snap]) (by rw [snap])
  simp only [apply_keeps, apply_parts_keep, asserted, held, life, low, time, mram, nmt, pwm, mem]
  exact ⟨setBit_same _ small, trivial, trivial, trivial, trivial, trivial, trivial, trivial, trivial, published, fun _ => rfl⟩

/-! ### The release of a domain -/

theorem domainRelease_domains {d : Domain} {l : Live} (may : mayRelease d l = true) :
    (domainRelease d l).rst.held = l.rst.held.filter (fun e => e ≠ d) ∧ (domainRelease d l).mem = l.mem := by
  have effect : domainRelease d l = onRelease d { l with rst := { l.rst with held := l.rst.held.filter (fun e => e ≠ d) } } := if_pos may
  have kept := onRelease_kept d { l with rst := { l.rst with held := l.rst.held.filter (fun e => e ≠ d) } }
  rw [effect]
  exact Prod.mk.inj kept

theorem domainRelease_mem {l : Live} (may : mayRelease .mem l = true) : (domainRelease .mem l).log.zeroing = true := by
  unfold domainRelease
  rw [if_pos may]
  rfl

theorem domainRelease_comm {l : Live} (may : mayRelease .comm l = true) : (domainRelease .comm l).rst.sources = 0 := by
  unfold domainRelease
  rw [if_pos may]
  rfl

/-- Only the released bits of the asserted sources change. -/
theorem powerOn_asserted (l : Live) (i : Nat) :
    (powerOn l).rst.asserted.getLsbD i = (if i < 4 then false else l.rst.asserted.getLsbD i) := by
  show (clrBit (clrBit (clrBit (clrBit l.rst.asserted 0) 1) 2) 3).getLsbD i = _
  simp only [clrBit_getLsbD]
  by_cases low : i < 4
  · rw [if_pos low]
    interval_cases i <;> simp
  · rw [if_neg low]
    simp [show 0 ≠ i by omega, show 1 ≠ i by omega, show 2 ≠ i by omega, show 3 ≠ i by omega]

theorem powerOn_keeps (l : Live) : (powerOn l).rst.held = l.rst.held ∧ (powerOn l).mem = l.mem := by
  have kept : (powerOn l).kept = l.kept := forAll_kept (f := releaseSource) (fun _ _ => rfl) _ l
  exact Prod.mk.inj kept

theorem resetN_high (l : Live) : (resetN false l).rst = { l.rst with resetLow := false, asserted := clrBit l.rst.asserted 4 } ∧
    (resetN false l).mem = l.mem := ⟨rfl, rfl⟩

theorem warmN_high (l : Live) : (warmN false l).rst = { l.rst with warmLow := false, asserted := clrBit l.rst.asserted 8 } ∧
    (warmN false l).mem = l.mem := ⟨rfl, rfl⟩

/-- Settles O44: TOTAL and COLD sources by `assertSource_coldAsserted`, WARM_N by `assertSource_warmAsserted`, releases by
`domainRelease_domains`. That the fabric memory reads 0 from the assertion on is the model's choice (log entry 8). -/
theorem resetAndReleaseComplete : Obligations.ResetAndReleaseComplete := by
  refine ⟨fun s => ?_, fun s rail fresh => ?_, fun s fresh => ?_, fun s => ?_, fun s fresh up => ?_, fun s => ?_, fun s d may => ?_⟩
  · refine completes_apply (f := powerOn) rfl ⟨fun i low => ?_, fun i high => ?_, ?_, sameMemory_apply (powerOn_keeps s.live).2⟩
    · rw [apply_rst, powerOn_asserted, if_pos low]
    · rw [apply_rst, powerOn_asserted, if_neg (by omega)]
    · rw [apply_rst, (powerOn_keeps s.live).1]
  · have total : reachOf (1 + rail.val) ≤ 1 := by
      unfold reachOf
      rw [if_pos (by omega)]
      decide
    obtain ⟨asserted, held, life, -, dtime, lock, mram, nmt, arm, published, mem⟩ :=
      apply_cold (f := brownOut rail) (s := s) (l := s.live) rfl total fresh
    exact completes_apply (f := brownOut rail) rfl ⟨asserted, held, dtime, lock, mram, nmt, arm, life, published, mem⟩
  · obtain ⟨asserted, held, life, low, dtime, -, mram, -, -, -, mem⟩ := apply_cold (f := resetN true) (s := s) (src := 4)
      (l := { s.live with rst := { s.live.rst with resetLow := true } }) rfl (by decide) fresh
    exact completes_apply (f := resetN true) rfl ⟨low, asserted, held, dtime, mram, life, mem⟩
  · refine completes_apply (f := resetN false) rfl ⟨?_, sameMemory_apply (resetN_high s.live).2⟩
    rw [apply_rst, (resetN_high s.live).1]
  · have warm := assertSource_warmAsserted (src := 8) (l := { s.live with rst := { s.live.rst with warmLow := true } }) rfl up fresh
    have effect : warmN true s.live = assertSource 8 { s.live with rst := { s.live.rst with warmLow := true } } := rfl
    obtain ⟨prot, core, comm⟩ := warm.down
    have low : (warmN true s.live).rst.warmLow = true := by
      rw [effect, warm.read (read := ResetUnit.warmLow) (fun _ => rfl) (fun _ _ => rfl) (fun _ => rfl)]
      exact (noteSource_rst 8 _).2.2.2.2.2.2.2.2.2.2.2
    refine completes_apply (f := warmN true) rfl ⟨?_, ?_, ?_, ?_, ?_, ?_, ?_, ?_, ?_, ?_⟩
    · rw [apply_rst, low]
    · rw [apply_rst, effect, warm.asserted]
      exact setBit_same _ (by decide)
    · exact (apply_domainUp _ _ _).trans core
    · exact (apply_domainUp _ _ _).trans prot
    · exact (apply_domainUp _ _ _).trans comm
    · rw [apply_domainUp, effect, warm.domains]
      exact Bool.and_true _
    · rw [apply_domainUp, effect, warm.domains]
      exact Bool.and_true _
    · rw [apply_time, effect, warm.dtime]
    · simp only [apply_parts_keep, effect, warm.nmt]
    · simp only [apply_keeps, effect, warm.arm]
  · refine completes_apply (f := warmN false) rfl ⟨?_, sameMemory_apply (warmN_high s.live).2⟩
    rw [apply_rst, (warmN_high s.live).1]
  · obtain ⟨held, mem⟩ := domainRelease_domains may
    refine completes_apply (f := domainRelease d) rfl ⟨?_, fun e other => ?_, fun is_mem => ?_, fun is_core first => ?_, fun is_comm => ?_,
      sameMemory_apply mem⟩
    · rw [apply_domainUp, domainUp, held]
      simp
    · rw [apply_domainUp, domainUp, held]
      unfold domainUp
      congr 1
      rw [Bool.eq_iff_iff]
      simp [other]
    · subst is_mem
      simpa using domainRelease_mem may
    · subst is_core
      rw [apply_rst]
      have generation := congrArg Prod.fst (domainRelease_core_generation may)
      rw [first] at generation
      exact generation
    · subst is_comm
      rw [apply_rst, domainRelease_comm may]

end Sys2Proof.Machine

/-! The supervisor (R15, R393): a request that a stopped supervisor does not serve. -/

namespace Sys2Proof.Machine

open Sys2Proof

/-- The supervisor has stopped. An answer of 57 bytes on a bus's connection was under way when NMT Stop ended its transfer (R399). -/
def stoppedSupervisor : State :=
  { live := { rst := { supEnd := some 0 }, net := { conns := [(0, { answer := .value (List.replicate 57 0) })] } } }

theorem stoppedSupervisor_down : supervisorUp stoppedSupervisor.live = false := rfl

theorem stoppedSupervisor_ended : (stoppedSupervisor.live.connSt 0).transfer = false := rfl

/-- The request is not served, but the transfer of the last answer counts as open again. -/
theorem stoppedSupervisor_opens :
    ((carryOut (sdoRequest none (.can 0 0) (.read 0 0) stoppedSupervisor.live)).connSt 0).transfer = true := by
  decide

/-- Refutes O46, by the clause on a supervisor that has stopped: `sdoRequest` opens the transfer of the connection's last answer also where
the request is not served, so that one which NMT Stop has ended counts as in progress again. -/
theorem not_supervisorCompletes : ¬ Obligations.SupervisorCompletes := by
  intro h
  obtain ⟨-, -, unserved, -⟩ := h
  obtain ⟨t, run, -, -, same, -⟩ := unserved stoppedSupervisor (.can 0 0) (.read 0 0) stoppedSupervisor_down
  have effect : t = stoppedSupervisor.apply fun l => carryOut (sdoRequest none (.can 0 0) (.read 0 0) l) := by
    cases run
    rfl
  have opened : (t.live.connSt 0).transfer = true := by
    rw [effect, apply_connSt]
    exact stoppedSupervisor_opens
  have ended : (t.live.connSt 0).transfer = false := (congrArg ConnState.transfer same).trans stoppedSupervisor_ended
  exact Bool.false_ne_true (ended.symm.trans opened)

end Sys2Proof.Machine

/-! The fault journal (R462–R466): the write of the oldest entry queued, the read of a range, and the clear. -/

namespace Sys2Proof.Machine

open Sys2Proof

theorem journalRange_of_mram {l m : Live} (h : m.mram = l.mram) (start count : Nat) : journalRange m start count = journalRange l start count := by
  unfold journalRange
  rw [h]

theorem apply_mram (f : Live → Live) (s : State) : (s.apply f).live.mram = (f s.live).mram := by simp

/-- The sequence number of the next entry. -/
def entrySeq (l : Live) : Nat := (l.journal.newest.toNat + 1) % 2 ^ 32

theorem journalWrite_parts {l : Live} {e : JournalEntry} {rest : List JournalEntry} (queue : l.journal.queue = e :: rest) (ready : journalReady l = true) :
    (journalWrite l).journal.newest = BitVec.ofNat 32 (entrySeq l) ∧
    (journalWrite l).mram.journal = l.mram.journal.put [] (entrySeq l % 4096) (entryBytes (entrySeq l) e) ∧ (journalWrite l).mem = l.mem := by
  unfold journalWrite
  rw [queue]
  simp only [ready]
  exact ⟨rfl, rfl, rfl⟩

/-- Settles O47: the slot of the next sequence takes the oldest entry, a range is read from the MRAM as it stands, a clear empties the MRAM's
journal. That the first sequence is 1 is log entry 62. -/
theorem journalComplete : Obligations.JournalComplete := by
  refine ⟨fun s e rest queue ready => ?_, fun s conn v reaches clear some few => ?_, fun s conn reaches life => ?_⟩
  · obtain ⟨newest, slots, mem⟩ := journalWrite_parts queue ready
    refine completes_apply (f := journalWrite) rfl ⟨?_, ?_, fun k other => ?_, sameMemory_apply mem⟩
    · simp only [apply_parts_keep, newest]
      rfl
    · rw [apply_mram, slots]
      exact SMap.get_put_same ([] : List Byte) _ _ _
    · rw [apply_mram, slots]
      exact SMap.get_put_ne ([] : List Byte) _ _ other
  · have effect : journalRead v.toNat (touch conn s.live) = ({ (touch conn s.live) with journal := { (touch conn s.live).journal with
        result := bytesLE 2 (journalRange s.live (field v.toNat 31 0) (field v.toNat 47 32)).length ++ [0, 0] ++
          bytesLE 4 s.live.journal.newest.toNat ++ (journalRange s.live (field v.toNat 31 0) (field v.toNat 47 32)).flatten } }, 0) :=
      if_neg (by omega)
    refine completes_object (f := journalRead v.toNat) rfl reaches effect ⟨?_, ?_, answeredDone_reply _ _ _, sameMemory_reply rfl⟩
    · simp only [apply_parts_keep]
      rfl
    · rw [apply_mram]
      rfl
  · have effect : journalClear (0x6A726C63#32).toNat (touch conn s.live) = ({ (touch conn s.live) with
        journal := { (touch conn s.live).journal with valid := 0 }, mram := { (touch conn s.live).mram with journal := [] } }, 0) :=
      (if_neg (by decide)).trans (if_neg (not_not_intro life))
    refine completes_object (f := journalClear (0x6A726C63#32).toNat) rfl reaches effect ⟨?_, ?_, ?_, answeredDone_reply _ _ _, sameMemory_reply rfl⟩
    · rw [apply_mram]
      rfl
    · simp only [apply_parts_keep]
      rfl
    · simp only [apply_parts_keep]
      rfl

end Sys2Proof.Machine

/-! The host port (R410–R412): reads of the control view, reads and writes of LPDDR4X, an invalid opcode, HPCFG. -/

namespace Sys2Proof.Machine

open Sys2Proof

theorem apply_host (f : Live → Live) (s : State) : (s.apply f).live.host = (f s.live).host := by simp

theorem windowOf_control {a : Nat} (inside : a < 0x10000) : windowOf a = some .control := by
  simp [windowOf, HostWindow.base, HostWindow.size, inside]

theorem windowOf_lpddr {a : Nat} (above : 0x10000000 ≤ a) (below : a < 0x110000000) : windowOf a = some .lpddr := by
  have skip {w : HostWindow} {ws : List HostWindow} (low : w.base + w.size ≤ 0x10000000) :
      (w :: ws).find? (fun w => decide (w.base ≤ a ∧ a < w.base + w.size)) =
        ws.find? (fun w => decide (w.base ≤ a ∧ a < w.base + w.size)) :=
    List.find?_cons_of_neg (by
      rw [decide_eq_true_eq]
      omega)
  unfold windowOf
  rw [skip (by decide), skip (by decide), skip (by decide), skip (by decide), skip (by decide)]
  exact List.find?_cons_of_pos (decide_eq_true ⟨above, below⟩)

theorem apply_irq (f : Live → Live) (s : State) : (s.apply f).live.irq = (f s.live).irq := by simp

/-! ### Reads (R411, R412) -/

theorem padTo_whole {n : Nat} {b : List Byte} (full : b.length = n) : padTo n (b.take n ++ List.replicate (n - n) 0xFF) = b := by
  subst full
  simp [padTo]

/-- A read that lies in its window and comes in time. -/
theorem hostRead_inside {bank : Option Bank} {held : Bool} {addr len : Nat} {es : EccWords} {l : Live} {w : HostWindow}
    (up : hostUp l = true) (window : windowOf addr = some w) (inside : len ≤ w.size - (addr - w.base))
    {r : List Byte × Live} (read : windowRead bank held es w (addr - w.base) len len (csFall l) = r) (full : r.1.length = len) :
    hostRead bank held addr len false none es l = { r.2 with host := { r.2.host with lastRead := r.1 } } := by
  have fits : min len (w.size - (addr - w.base)) = len := Nat.min_eq_left inside
  have timely : (if w.fabric then min len ((none : Option Nat).getD len) else len) = len := by
    simp
  unfold hostRead
  dsimp only
  rw [up, if_neg (by decide)]
  simp only [csLongNote, window, fits, timely, read, padTo_whole full, if_neg (Nat.lt_irrefl len), if_neg Bool.false_ne_true]

theorem freeDoubles_single {es : EccWords} (none : ∀ e ∈ es, e.2 = false) (b : List Byte) : ∀ (a : Nat) (l : Live),
    freeDoubles es a b l = (b, l) := by
  induction b with
  | nil => exact fun _ _ => rfl
  | cons x r ih =>
    intro a l
    have single : doubleAt es a = false := by
      simp only [doubleAt, List.any_eq_false]
      intro e found
      simp [none e found]
    simp only [freeDoubles, single, ih]
    rfl

theorem readErrors_mem (es : EccWords) (a n : Nat) (l : Live) : (readErrors es a n l).mem = l.mem := by
  unfold readErrors
  refine forAll_keeps Live.mem (fun e m => ?_) _ l
  split
  · unfold doubleBit
    split
    · unfold reportMemory
      simp
    · rfl
  · unfold singleBit
    split <;> rfl

theorem lpddrOk_csFall (l : Live) (off n : Nat) : lpddrOk (csFall l) off n = lpddrOk l off n := by
  unfold csFall
  split <;> rfl

theorem lpddrRead_single {es : EccWords} (none : ∀ e ∈ es, e.2 = false) {off n : Nat} {l : Live} (ok : lpddrOk l off n = true) :
    lpddrRead es off n l = (readBytes l.mem (lpddrAt off) n, readErrors es (lpddrAt off) n l) := by
  unfold lpddrRead
  rw [if_pos ok]
  exact freeDoubles_single none _ _ _

/-! ### Writes (R412) -/

theorem readBytes_eq {m : Memory} {b : List Byte} : ∀ {a : Nat}, (∀ i (h : i < b.length), readByte m (a + i) = b[i]) → readBytes m a b.length = b := by
  induction b with
  | nil => exact fun _ => rfl
  | cons x r ih =>
    intro a given
    have first := given 0 (by simp)
    have rest : readBytes m (a + 1) r.length = r := ih fun i h => by
      have next := given (i + 1) (by simpa using h)
      rw [show a + 1 + i = a + (i + 1) by omega]
      simpa using next
    simp only [List.length_cons, readBytes, rest]
    simpa using first

theorem readBytes_writeBytes (m : Memory) (a : Nat) (b : List Byte) : readBytes (writeBytes m a b) a b.length = b :=
  readBytes_eq fun i h => readByte_writeBytes_in b m a i h

theorem hostWrite_inside {addr : Nat} {data : List Byte} {l : Live} {w : HostWindow} (up : hostUp l = true) (window : windowOf addr = some w)
    (inside : data.length ≤ w.size - (addr - w.base)) : hostWrite addr data false l = windowWrite w (addr - w.base) data (csFall l) := by
  have fits : min data.length (w.size - (addr - w.base)) = data.length := Nat.min_eq_left inside
  unfold hostWrite
  dsimp only
  rw [up, if_neg (by decide)]
  simp only [csLongNote, window, fits, List.take_length, if_neg (Nat.lt_irrefl data.length), if_neg Bool.false_ne_true]

/-- What a write of LPDDR4X asks of the device, before and after the fall of the chip select. -/
theorem lpddrRules_csFall (l : Live) (a n : Nat) : (csFall l).rst.life = l.rst.life ∧
    ((csFall l).logOn && inRing (csFall l) a n) = (l.logOn && inRing l a n) ∧ (csFall l).host.stat = l.host.stat ∧ (csFall l).mem = l.mem := by
  unfold csFall
  split <;> exact ⟨rfl, rfl, rfl, rfl⟩

theorem lpddrWrite_stores {off : Nat} {data : List Byte} {l : Live} (life : l.rst.life = 2)
    (ring : (l.logOn && inRing l (lpddrAt off) data.length) = false) (ok : lpddrOk l off data.length = true) :
    lpddrWrite off data (csFall l) = { csFall l with mem := writeBytes (csFall l).mem (lpddrAt off) data } := by
  obtain ⟨life', ring', -, -⟩ := lpddrRules_csFall l (lpddrAt off) data.length
  unfold lpddrWrite
  dsimp only
  rw [life', ring', ring, lpddrOk_csFall, if_neg (by simp [life]), if_pos ok]

theorem apply_memory (f : Live → Live) (s : State) : (s.apply f).live.mem = (f s.live).mem := by simp

/-- Settles O39. -/
theorem hostPortComplete : Obligations.HostPortComplete := by
  have place (a : Nat) : lpddrBase + (a - 0x10000000) = lpddrAt (a - HostWindow.lpddr.base) := rfl
  refine fun s up => ⟨fun addr len ecc inside => ?_, fun addr len ecc above below single ok => ?_,
    fun addr data above start below => ⟨fun life ring ok => ?_, fun life => ?_⟩, fun op => ?_, fun v => ?_⟩
  · have whole (f : Nat → Byte) : (bytesAt f addr.toNat len).length = len := by simp [bytesAt]
    obtain ⟨w, window, fits, read⟩ : ∃ w, windowOf addr.toNat = some w ∧ len ≤ w.size - (addr.toNat - w.base) ∧
        windowRead s.hostBank s.held.isSome ecc w (addr.toNat - w.base) len len (csFall s.live) =
          (bytesAt (byteOf (controlWord (csFall s.live))) addr.toNat len, csFall s.live) := by
      rcases Nat.lt_or_ge addr.toNat 0x10000 with low | high
      · exact ⟨.control, windowOf_control low, by simp only [HostWindow.size, HostWindow.base]; omega, rfl⟩
      · obtain rfl : len = 0 := by omega
        exact ⟨.mailbox, by rw [show addr.toNat = 0x10000 by omega]; decide, Nat.zero_le _, by simp [windowRead, bytesAt]⟩
    have effect := hostRead_inside up window fits read (whole _)
    obtain ⟨irq, -, -, mem, -⟩ := csFall_keeps s.live
    refine completes_apply (f := hostRead s.hostBank s.held.isSome addr.toNat len false none ecc) rfl ⟨?_, ?_, sameMemory_apply ?_⟩
    · rw [apply_host, effect]
    · rw [apply_irq, effect]
      exact irq
    · rw [effect]
      exact mem
  · obtain ⟨-, -, -, mem, -⟩ := csFall_keeps s.live
    rcases Nat.lt_or_ge addr.toNat 0x110000000 with start | past
    next =>
      have window : windowOf addr.toNat = some .lpddr := windowOf_lpddr above start
      rw [place]
      rw [show lpddrOk s.live (addr.toNat - 0x10000000) len = lpddrOk s.live (addr.toNat - HostWindow.lpddr.base) len from rfl] at ok
      have read := lpddrRead_single single (l := csFall s.live) ((lpddrOk_csFall _ _ _).trans ok)
      have effect := hostRead_inside (bank := s.hostBank) (held := s.held.isSome) (es := ecc) up window
        (by simp only [HostWindow.size, HostWindow.base]; omega) read (readBytes_length _ _ _)
      clear read
      generalize lpddrAt (addr.toNat - HostWindow.lpddr.base) = a at effect ⊢
      refine completes_apply (f := hostRead s.hostBank s.held.isSome addr.toNat len false none ecc) rfl ⟨?_, sameMemory_apply ?_⟩
      · rw [apply_host, effect, ← mem]
      · rw [effect]
        exact (readErrors_mem _ _ _ _).trans mem
    next =>
      obtain rfl : len = 0 := by omega
      have window : windowOf addr.toNat = none := by
        rw [show addr.toNat = 0x110000000 by omega]
        decide
      have effect : hostRead s.hostBank s.held.isSome addr.toNat 0 false none ecc s.live =
          addrErr { csFall s.live with host := { (csFall s.live).host with lastRead := [] } } := by
        unfold hostRead
        dsimp only
        rw [up, if_neg (by decide), window]
        rfl
      refine completes_apply (f := hostRead s.hostBank s.held.isSome addr.toNat 0 false none ecc) rfl ⟨?_, sameMemory_apply ?_⟩
      · rw [apply_host, effect]
        rfl
      · rw [effect]
        exact mem
  · have window : windowOf addr.toNat = some .lpddr := windowOf_lpddr above start
    rw [show lpddrOk s.live (addr.toNat - 0x10000000) data.length = lpddrOk s.live (addr.toNat - HostWindow.lpddr.base) data.length from rfl] at ok
    rw [place] at ring ⊢
    have effect : hostWrite addr.toNat data false s.live =
        { csFall s.live with mem := writeBytes (csFall s.live).mem (lpddrAt (addr.toNat - HostWindow.lpddr.base)) data } := by
      rw [hostWrite_inside up window (by simp only [HostWindow.size, HostWindow.base]; omega)]
      exact lpddrWrite_stores life ring ok
    obtain ⟨-, -, stat, mem⟩ := lpddrRules_csFall s.live 0 0
    generalize lpddrAt (addr.toNat - HostWindow.lpddr.base) = a at effect ⊢
    refine completes_apply (f := hostWrite addr.toNat data false) rfl ⟨?_, fun b out => ?_, ?_⟩
    · rw [apply_memory, effect]
      exact readBytes_writeBytes _ _ _
    · rw [apply_memory, effect]
      simp only [mem]
      exact readByte_writeBytes_out _ _ _ _ out
    · rw [apply_host, effect]
      exact stat
  · have window : windowOf addr.toNat = some .lpddr := windowOf_lpddr above start
    obtain ⟨life', -, -, mem⟩ := lpddrRules_csFall s.live 0 0
    have effect : hostWrite addr.toNat data false s.live = hostFlag 2 (csFall s.live) := by
      rw [hostWrite_inside up window (by simp only [HostWindow.size, HostWindow.base]; omega)]
      exact if_pos (by rw [life', decide_eq_true life]; rfl)
    refine completes_apply (f := hostWrite addr.toNat data false) rfl ⟨?_, sameMemory_apply (by rw [effect]; exact mem)⟩
    rw [apply_host, effect]
    exact setBit_same _ (by decide)
  · obtain ⟨-, -, stat, mem⟩ := lpddrRules_csFall s.live 0 0
    refine completes_hostAct (f := hostFlag 1) rfl up ⟨?_, sameMemory_apply mem⟩
    rw [apply_host, ← stat]
    rfl
  · obtain ⟨-, -, -, mem⟩ := lpddrRules_csFall s.live 0 0
    have effect (l : Live) : hpcfgWrite v.toNat l = { l with host := { l.host with cfgNext := some (BitVec.ofNat 8 (v.toNat % 16)) } } := rfl
    refine completes_hostAct (f := hpcfgWrite v.toNat) rfl up ⟨?_, ?_, sameMemory_apply (by simp only [effect]; exact mem)⟩
    · rw [apply_host, effect]
    · rw [apply_host, effect]

end Sys2Proof.Machine

/-! Storing, restoring, writing the base image, and the end of a store (R426–R428). -/

namespace Sys2Proof.Machine

open Sys2Proof

theorem apply_conf (f : Live → Live) (s : State) : (s.apply f).live.conf = (f s.live).conf := by simp

/-- A request whose answer comes later: the object's rule takes it. -/
theorem onObjectLater_taken {conn : Conn} {idx sub : Nat} {f : Live → Live × Nat} {s : State} {m : Live} (reaches : Reaches conn idx sub s)
    (effect : f (touch conn s.live) = (m, 0)) : onObjectLater conn idx sub f s.live = m := by
  unfold onObjectLater
  rw [reaches.1]
  dsimp only
  rw [reaches.2]
  simp [effect]

/-- The object's rule refuses it. -/
theorem onObjectLater_refused {conn : Conn} {idx sub code : Nat} {f : Live → Live × Nat} {s : State} {m : Live} (reaches : Reaches conn idx sub s)
    (effect : f (touch conn s.live) = (m, code)) (refused : code ≠ 0) : onObjectLater conn idx sub f s.live = reply conn code m := by
  unfold onObjectLater
  rw [reaches.1]
  dsimp only
  rw [reaches.2]
  simp [effect, refused]

theorem touch_answer (conn : Conn) (l : Live) : ((touch conn l).connSt (connId conn)).answer = .none := by
  rw [touch_connSt]

/-- A store begins: its image stands ready, and no answer is given yet. -/
theorem completes_store {c : Instr} {conn : Conn} {idx sub : Nat} {f : Live → Live × Nat} {s : State} {u : ConfUnit}
    (run : exec c s = ran (onObjectLater conn idx sub f) s) (reaches : Reaches conn idx sub s)
    (effect : f (touch conn s.live) = ({ touch conn s.live with conf := u }, 0)) : Completes c s fun t =>
      t.live.conf = u ∧ (t.live.connSt (connId conn)).answer = .none ∧ t.live.mram = s.live.mram ∧ SameMemory s t := by
  have taken := onObjectLater_taken reaches effect
  refine completes_apply run ⟨?_, ?_, ?_, sameMemory_apply (by rw [taken]; rfl)⟩
  · rw [apply_conf, taken]
  · rw [apply_connSt, taken]
    exact touch_answer conn s.live
  · rw [apply_mram, taken]
    rfl

/-! ### The end of a store (R426) -/

theorem answerTaken_keeps (flags status : Nat) (d : List Byte) (l : Live) : (answerTaken flags status d l).conf = l.conf ∧
    (answerTaken flags status d l).mram = l.mram ∧ (answerTaken flags status d l).net = l.net ∧ (answerTaken flags status d l).mem = l.mem := by
  unfold answerTaken
  split <;> exact ⟨rfl, rfl, rfl, rfl⟩

/-- The answer to the mailbox request that waited leaves all but the mailbox. -/
theorem mailSettle_keeps (l : Live) : (mailSettle l).conf = l.conf ∧ (mailSettle l).mram = l.mram ∧ (mailSettle l).net = l.net ∧
    (mailSettle l).mem = l.mem := by
  unfold mailSettle
  split
  · split
    · exact ⟨rfl, rfl, rfl, rfl⟩
    · exact answerTaken_keeps _ _ _ l
    · unfold abortTaken
      split
      · exact answerTaken_keeps _ _ _ l
      · exact ⟨rfl, rfl, rfl, rfl⟩
    · exact answerTaken_keeps _ _ _ l
  · exact ⟨rfl, rfl, rfl, rfl⟩

theorem baseCopy_of_mram {l m : Live} (h : m.mram = l.mram) (c : Nat) : baseCopy m c = baseCopy l c := by
  unfold baseCopy
  rw [h]

theorem baseCopy_set {c : Nat} (which : c = 0 ∨ c = 1) (b : List Byte) (l : Live) : baseCopy (setBaseCopy c b l) c = b ∧
    baseCopy (setBaseCopy c b l) (1 - c) = baseCopy l (1 - c) := by
  rcases which with rfl | rfl <;> exact ⟨rfl, rfl⟩

theorem inactiveCopy_which (l : Live) : inactiveCopy l = 0 ∨ inactiveCopy l = 1 := by
  unfold inactiveCopy
  split
  · exact .inr rfl
  · exact .inl rfl

/-- What the end of a store leaves: the copy written, the configuration's state, the answer. -/
theorem storeComplete_parts {k : StoreKind} {b : List Byte} {l : Live} (storing : l.conf.storing = some (k, b)) (ok : Bool) :
    (storeComplete ok l).mram = (setBaseCopy (inactiveCopy l) (if ok then b else []) l).mram ∧
    (storeComplete ok l).conf = (if ok then
      { l.conf with storing := none, imageStatus := k.status ok l.conf.imageStatus, activeCopy := BitVec.ofNat 8 (inactiveCopy l),
                    storeCount := BitVec.ofNat 32 (imageCount b), status := setBit l.conf.status 4 }
      else { l.conf with storing := none, imageStatus := k.status ok l.conf.imageStatus, status := setBit l.conf.status 3 }) ∧
    ((storeComplete ok l).connSt k.conn).answer = .done ∧ (storeComplete ok l).mem = l.mem := by
  have kept (c : Nat) (x : List Byte) : (setBaseCopy c x l).conf = l.conf ∧ (setBaseCopy c x l).mem = l.mem := by
    unfold setBaseCopy
    split <;> exact ⟨rfl, rfl⟩
  obtain ⟨conf, mem⟩ := kept (inactiveCopy l) (if ok then b else [])
  unfold storeComplete
  rw [storing]
  dsimp only
  rw [conf]
  refine ⟨?_, ?_, ?_, mem⟩
  · rfl
  · rfl
  · exact congrArg ConnState.answer (updConnSt_same _ _ _)

/-- Settles O41. That copy A is written where no copy is active, and a failed store's flag, are the model's choice (log entry 90). -/
theorem storesComplete : Obligations.StoresComplete := by
  refine ⟨fun s conn reaches idle => ?_, fun s conn reaches idle => ?_, fun s conn data reaches idle short => ⟨fun valid => ?_, fun invalid => ?_⟩,
    fun s k b storing => ⟨?_, ?_⟩⟩
  · exact completes_store (f := storeAll (connId conn) (0x65766173#32).toNat) rfl reaches
      ((if_neg (by decide)).trans (if_neg (by rw [show (touch conn s.live).conf = s.live.conf from rfl, idle]; decide)))
  · exact completes_store (f := restoreDefaults (connId conn) (0x64616F6C#32).toNat) rfl reaches
      ((if_neg (by decide)).trans (if_neg (by rw [show (touch conn s.live).conf = s.live.conf from rfl, idle]; decide)))
  · obtain ⟨t, run, conf, -, mram, mem⟩ := completes_store (c := .baseImageWrite conn data) (f := baseImageWrite (connId conn) data) rfl reaches
      ((if_neg (Nat.not_lt.mpr short)).trans
        ((if_neg (by rw [show (touch conn s.live).conf = s.live.conf from rfl, idle]; decide)).trans (if_pos valid)))
    exact ⟨t, run, conf, mram, mem⟩
  · have effect : baseImageWrite (connId conn) data (touch conn s.live) =
        ({ touch conn s.live with conf := { (touch conn s.live).conf with imageStatus := 3 } }, abRange) :=
      (if_neg (Nat.not_lt.mpr short)).trans
        ((if_neg (by rw [show (touch conn s.live).conf = s.live.conf from rfl, idle]; decide)).trans (if_neg (by rw [invalid]; decide)))
    have refused := onObjectLater_refused reaches effect (by decide)
    refine completes_apply (f := onObjectLater conn 0x2E00 1 (baseImageWrite (connId conn) data)) rfl ⟨?_, ?_, ?_, sameMemory_apply (by rw [refused]; rfl)⟩
    · rw [apply_conf, refused]
      rfl
    · rw [apply_connSt, refused, reply_connSt]
      rfl
    · rw [apply_mram, refused]
      rfl
  · obtain ⟨mram, conf, answer, mem⟩ := storeComplete_parts storing true
    obtain ⟨conf', mram', net, mem'⟩ := mailSettle_keeps (storeComplete true s.live)
    obtain ⟨written, other⟩ := baseCopy_set (inactiveCopy_which s.live) b s.live
    have copies : (s.apply fun l => mailSettle (storeComplete true l)).live.mram = (setBaseCopy (inactiveCopy s.live) b s.live).mram := by
      rw [apply_mram, mram', mram]
      rfl
    refine completes_apply (f := fun l => mailSettle (storeComplete true l)) rfl ⟨?_, ?_, ?_, ?_, ?_, sameMemory_apply (mem'.trans mem)⟩
    · rw [baseCopy_of_mram copies, written]
    · rw [baseCopy_of_mram copies, other]
    · rw [apply_conf, conf', conf]
      rfl
    · rw [apply_conf, conf', conf]
      rfl
    · rw [apply_connSt, connSt_of_conns (congrArg NetUnit.conns net)]
      exact answer
  · obtain ⟨mram, conf, answer, mem⟩ := storeComplete_parts storing false
    obtain ⟨conf', mram', net, mem'⟩ := mailSettle_keeps (storeComplete false s.live)
    obtain ⟨-, other⟩ := baseCopy_set (inactiveCopy_which s.live) [] s.live
    have copies : (s.apply fun l => mailSettle (storeComplete false l)).live.mram = (setBaseCopy (inactiveCopy s.live) [] s.live).mram := by
      rw [apply_mram, mram', mram]
      rfl
    refine completes_apply (f := fun l => mailSettle (storeComplete false l)) rfl ⟨?_, ?_, ?_, ?_, ?_, sameMemory_apply (mem'.trans mem)⟩
    · rw [apply_conf, conf', conf]
      rfl
    · rw [apply_conf, conf', conf]
      rfl
    · rw [baseCopy_of_mram copies, other]
    · rw [apply_conf, conf', conf]
      exact setBit_same _ (by decide)
    · rw [apply_conf, conf', conf]
      rfl

end Sys2Proof.Machine

/-! What a commit's actions on the units leave alone (R74, R76): the configuration, the groups, the reset unit, MRAM, memory and the network
but for reports. One equation per action, and with them the same for the actions of every commit and of the start-up. -/

namespace Sys2Proof.Machine

open Sys2Proof

/-- The configuration without the watch for the trip overlay (R435), which a limit trip takes up. -/
def ConfUnit.ruled (c : ConfUnit) : ConfUnit := { c with tripWatch := false, tripDue := none }

/-- What the units do not change when they take a configuration. The snapshot unit is shown without the instant of the next periodic
snapshot, the time unit by DTIME alone. -/
def Live.ruled (l : Live) : ConfUnit × SMap Group × ResetUnit × Mram × Memory × NetUnit × SnapUnit × Word × MailUnit :=
  (l.conf.ruled, l.groups, l.rst, l.mram, l.mem, l.net.silent, { l.snap with nextPeriodic := 0 }, l.time.dtime, l.mail)

theorem ruled_of_offEngines {l m : Live} (h : m.offEngines = l.offEngines) : m.ruled = l.ruled := by
  have shown (x : Live) : x.ruled = (fun y : Live => (y.conf.ruled, y.groups, y.rst, y.mram, y.mem, y.net,
      { y.snap with nextPeriodic := 0 }, y.time.dtime, y.mail)) x.offEngines.1 := rfl
  rw [shown, shown, h]

theorem ruled_of_events {l m : Live} (h : OnlyEvents l m) : m.ruled = l.ruled := by
  unfold Live.ruled
  simp only [h.keeps]

theorem forAll_ruled {α : Type} {f : α → Live → Live} (h : ∀ x l, (f x l).ruled = l.ruled) (xs : List α) (l : Live) :
    (forAll f xs l).ruled = l.ruled := forAll_keeps Live.ruled h xs l

section

variable {l m : Live} (h : m.ruled = l.ruled)

include h

theorem ruled_conf : m.conf.ruled = l.conf.ruled := congrArg Prod.fst h
theorem ruled_objs : m.conf.objs = l.conf.objs := congrArg (fun x => x.1.objs) h
theorem ruled_ovl : m.conf.ovl = l.conf.ovl := congrArg (fun x => x.1.ovl) h
theorem ruled_active : m.conf.active = l.conf.active := congrArg (fun x => x.1.active) h
theorem ruled_pending : m.conf.pending = l.conf.pending := congrArg (fun x => x.1.pending) h
theorem ruled_gen : m.conf.gen = l.conf.gen := congrArg (fun x => x.1.gen) h
theorem ruled_lastDtime : m.conf.lastDtime = l.conf.lastDtime := congrArg (fun x => x.1.lastDtime) h
theorem ruled_groups : m.groups = l.groups := congrArg (fun x => x.2.1) h
theorem ruled_rst : m.rst = l.rst := congrArg (fun x => x.2.2.1) h
theorem ruled_mram : m.mram = l.mram := congrArg (fun x => x.2.2.2.1) h
theorem ruled_mem : m.mem = l.mem := congrArg (fun x => x.2.2.2.2.1) h
theorem ruled_net : m.net.silent = l.net.silent := congrArg (fun x => x.2.2.2.2.2.1) h
theorem ruled_snap : { m.snap with nextPeriodic := 0 } = { l.snap with nextPeriodic := 0 } := congrArg (fun x => x.2.2.2.2.2.2.1) h
theorem ruled_dtime : m.time.dtime = l.time.dtime := congrArg (fun x => x.2.2.2.2.2.2.2.1) h
theorem ruled_mail : m.mail = l.mail := congrArg (fun x => x.2.2.2.2.2.2.2.2) h

end

/-! ### Reports and the records of the units -/

@[simp] theorem writeRecord_ruled (src kind payload : Nat) (l : Live) : (writeRecord src kind payload l).ruled = l.ruled :=
  ruled_of_offEngines (writeRecord_offEngines _ _ _ _)

@[simp] theorem reportFault_ruled (src kind payload code : Nat) (l : Live) : (reportFault src kind payload code l).ruled = l.ruled :=
  ruled_of_offEngines (reportFault_offEngines _ _ _ _ _)

@[simp] theorem noteFlags_ruled (k m : Nat) (l : Live) : (noteFlags k m l).ruled = l.ruled := (rfl)
@[simp] theorem noteBit_ruled (idx sub b : Nat) (l : Live) : (noteBit idx sub b l).ruled = l.ruled := (rfl)
@[simp] theorem setChan_ruled (l : Live) (i : Nat) (x : Channel) : (l.setChan i x).ruled = l.ruled := (rfl)
@[simp] theorem updChan_ruled (l : Live) (i : Nat) (f : Channel → Channel) : (l.updChan i f).ruled = l.ruled := (rfl)
@[simp] theorem updTpin_ruled (l : Live) (i : Nat) (f : TPin → TPin) : (l.updTpin i f).ruled = l.ruled := (rfl)
@[simp] theorem setCluster_ruled (l : Live) (i : Nat) (x : Cluster) : (l.setCluster i x).ruled = l.ruled := (rfl)
@[simp] theorem updCluster_ruled (l : Live) (i : Nat) (f : Cluster → Cluster) : (l.updCluster i f).ruled = l.ruled := (rfl)
@[simp] theorem setEntry_ruled (l : Live) (i : Nat) (x : EvEntry) : (l.setEntry i x).ruled = l.ruled := (rfl)
@[simp] theorem updQueue_ruled (l : Live) (i : Nat) (f : EvQueue → EvQueue) : (l.updQueue i f).ruled = l.ruled := (rfl)
@[simp] theorem setWheel_ruled (l : Live) (i : Nat) (x : Wheel) : (l.setWheel i x).ruled = l.ruled := (rfl)
@[simp] theorem updWheel_ruled (l : Live) (i : Nat) (f : Wheel → Wheel) : (l.updWheel i f).ruled = l.ruled := (rfl)
@[simp] theorem setPort_ruled (l : Live) (i : Nat) (x : Port) : (l.setPort i x).ruled = l.ruled := (rfl)
@[simp] theorem updPort_ruled (l : Live) (i : Nat) (f : Port → Port) : (l.updPort i f).ruled = l.ruled := (rfl)
@[simp] theorem setPair_ruled (l : Live) (i : Nat) (x : Pair) : (l.setPair i x).ruled = l.ruled := (rfl)
@[simp] theorem updPair_ruled (l : Live) (i : Nat) (f : Pair → Pair) : (l.updPair i f).ruled = l.ruled := (rfl)
@[simp] theorem updTrip_ruled (l : Live) (i : Nat) (f : TripInput → TripInput) : (l.updTrip i f).ruled = l.ruled := (rfl)
@[simp] theorem updAnIn_ruled (l : Live) (i : Nat) (f : AnInput → AnInput) : (l.updAnIn i f).ruled = l.ruled := (rfl)
@[simp] theorem setAnIn_ruled (l : Live) (i : Nat) (x : AnInput) : (l.setAnIn i x).ruled = l.ruled := (rfl)
@[simp] theorem updConv_ruled (l : Live) (i : Nat) (f : Converter → Converter) : (l.updConv i f).ruled = l.ruled := (rfl)
@[simp] theorem updSeq_ruled (l : Live) (i : Nat) (f : Sequence → Sequence) : (l.updSeq i f).ruled = l.ruled := (rfl)
@[simp] theorem setPe_ruled (l : Live) (i : Nat) (x : PinEngine) : (l.setPe i x).ruled = l.ruled := (rfl)
@[simp] theorem updPe_ruled (l : Live) (i : Nat) (f : PinEngine → PinEngine) : (l.updPe i f).ruled = l.ruled := (rfl)
@[simp] theorem updDc_ruled (l : Live) (i : Nat) (f : DmaChannel → DmaChannel) : (l.updDc i f).ruled = l.ruled := (rfl)
@[simp] theorem analog_ruled (l : Live) (u : AnalogUnit) : ({ l with analog := u } : Live).ruled = l.ruled := (rfl)
@[simp] theorem events_ruled (l : Live) (u : EventUnit) : ({ l with events := u } : Live).ruled = l.ruled := (rfl)

/-! ### Channels, T-pins and clusters (R107–R110, R121, R170–R175) -/

@[simp] theorem disarm_ruled (cause : Nat) (l : Live) : (disarm cause l).ruled = l.ruled := ruled_of_offEngines (disarm_offEngines _ _)
@[simp] theorem drivePin_ruled (n : Nat) (l : Live) : (drivePin n l).ruled = l.ruled := ruled_of_offEngines (drivePin_offEngines _ _)
@[simp] theorem drivePins_ruled (c : Nat) (l : Live) : (drivePins c l).ruled = l.ruled := ruled_of_offEngines (drivePins_offEngines _ _)
@[simp] theorem goFailsafe_ruled (cause c : Nat) (l : Live) : (goFailsafe cause c l).ruled = l.ruled :=
  ruled_of_offEngines (goFailsafe_offEngines _ _ _)
@[simp] theorem endFailsafe_ruled (c : Nat) (l : Live) : (endFailsafe c l).ruled = l.ruled := ruled_of_offEngines (endFailsafe_offEngines _ _)
@[simp] theorem dropRoutine_ruled (c : Nat) (l : Live) : (dropRoutine c l).ruled = l.ruled := (rfl)
@[simp] theorem forgetTurn_ruled (c : Nat) (l : Live) : (forgetTurn c l).ruled = l.ruled := (rfl)
@[simp] theorem startNow_ruled (c : Nat) (l : Live) : (startNow c l).ruled = l.ruled := ruled_of_offEngines (startNow_offEngines _ _)

@[simp] theorem startChannel_ruled (sets : Bool) (c : Nat) (l : Live) : (startChannel sets c l).ruled = l.ruled := by
  simp [startChannel, apply_ite Live.ruled]

@[simp] theorem enableChannel_ruled (c : Nat) (l : Live) : (enableChannel c l).ruled = l.ruled := by
  simp [enableChannel]

@[simp] theorem stopChannel_ruled (c : Nat) (l : Live) : (stopChannel c l).ruled = l.ruled := by
  unfold stopChannel
  dsimp only
  split
  · split <;> simp
  · simp

@[simp] theorem enableCommit_ruled (c : Nat) (l : Live) : (enableCommit c l).ruled = l.ruled := by
  simp [enableCommit, apply_ite Live.ruled]

@[simp] theorem funcCommit_ruled (c : Nat) (l : Live) : (funcCommit c l).ruled = l.ruled := by
  simp [funcCommit, apply_ite Live.ruled]

@[simp] theorem abandonByCommit_ruled (c : Nat) (l : Live) : (abandonByCommit c l).ruled = l.ruled := by
  unfold abandonByCommit
  split
  · split <;> simp
  · rfl

@[simp] theorem modeCommit_ruled (c : Nat) (l : Live) : (modeCommit c l).ruled = l.ruled := (rfl)
@[simp] theorem inputCommit_ruled (c : Nat) (l : Live) : (inputCommit c l).ruled = l.ruled := (rfl)

@[simp] theorem channelHooks_ruled (old : Live) (ks : List Key) (c : Nat) (l : Live) : (channelHooks old ks c l).ruled = l.ruled := by
  simp [channelHooks, apply_ite Live.ruled]

@[simp] theorem clusterStop_ruled (c : Nat) (l : Live) : (clusterStop c l).ruled = l.ruled := by
  simp [clusterStop, apply_ite Live.ruled]

@[simp] theorem clusterCommit_ruled (old : Bool) (k : Nat) (l : Live) : (clusterCommit old k l).ruled = l.ruled := by
  simp [clusterCommit, apply_ite Live.ruled, forAll_ruled]

@[simp] theorem tpinHooks_ruled (n : Nat) (l : Live) : (tpinHooks n l).ruled = l.ruled := by
  unfold tpinHooks
  dsimp only
  split <;> simp [apply_ite Live.ruled]

/-! ### Pairs, trip inputs, feedback ports, trackers, queues and pin engines -/

@[simp] theorem outputModeCommit_ruled (u : Nat) (l : Live) : (outputModeCommit u l).ruled = l.ruled := by
  simp [outputModeCommit, apply_ite Live.ruled]

@[simp] theorem streamStart_ruled (u : Nat) (l : Live) : (streamStart u l).ruled = l.ruled := (rfl)

@[simp] theorem pairEnableCommit_ruled (u : Nat) (old new : Bool) (l : Live) : (pairEnableCommit u old new l).ruled = l.ruled := by
  unfold pairEnableCommit
  dsimp only
  split
  · split <;> rfl
  · split <;> rfl

@[simp] theorem redrivePair_ruled (u : Nat) (l : Live) : (redrivePair u l).ruled = l.ruled := by
  unfold redrivePair
  dsimp only
  split <;> rfl

@[simp] theorem pairHooks_ruled (old : Live) (ks : List Key) (u : Nat) (l : Live) : (pairHooks old ks u l).ruled = l.ruled := by
  simp [pairHooks, apply_ite Live.ruled]

@[simp] theorem tripHooks_ruled (old : Live) (i : Nat) (l : Live) : (tripHooks old i l).ruled = l.ruled := by
  simp [tripHooks, apply_ite Live.ruled]

@[simp] theorem setPosition_ruled (n : Nat) (v : BitVec 48) (l : Live) : (setPosition n v l).ruled = l.ruled := (rfl)

@[simp] theorem portStart_ruled (n : Nat) (l : Live) : (portStart n l).ruled = l.ruled := by
  simp [portStart, apply_ite Live.ruled]

@[simp] theorem ssiPeriodCommit_ruled (n : Nat) (l : Live) : (ssiPeriodCommit n l).ruled = l.ruled := (rfl)

@[simp] theorem portHooks_ruled (ks : List Key) (n : Nat) (l : Live) : (portHooks ks n l).ruled = l.ruled := by
  simp [portHooks, apply_ite Live.ruled]

@[simp] theorem trackWheel_ruled (w : Nat) (l : Live) : (trackWheel w l).ruled = l.ruled := ruled_of_events (trackWheel_onlyEvents w l)
@[simp] theorem predictAfresh_ruled (w : Nat) (l : Live) : (predictAfresh w l).ruled = l.ruled := ruled_of_events (predictAfresh_onlyEvents w l)
@[simp] theorem trackQueue_ruled (q : Nat) (l : Live) : (trackQueue q l).ruled = l.ruled := ruled_of_events (trackQueue_onlyEvents q l)
@[simp] theorem freeEntry_ruled (e : Nat) (l : Live) : (freeEntry e l).ruled = l.ruled := ruled_of_events (freeEntry_onlyEvents e l)

@[simp] theorem wheelState_ruled (w : Nat) (new : WheelState) (code : Nat) (l : Live) : (wheelState w new code l).ruled = l.ruled := by
  simp [wheelState]

@[simp] theorem wheelStructural_ruled (w : Nat) (l : Live) : (wheelStructural w l).ruled = l.ruled := by
  simp [wheelStructural, apply_ite Live.ruled]

@[simp] theorem wheelHooks_ruled (old : Live) (w : Nat) (l : Live) : (wheelHooks old w l).ruled = l.ruled := by
  simp [wheelHooks, apply_ite Live.ruled]

@[simp] theorem queueFlag_ruled (q bit : Nat) (l : Live) : (queueFlag q bit l).ruled = l.ruled := (rfl)

@[simp] theorem rebaseQueue_ruled (q : Nat) (l : Live) : (rebaseQueue q l).ruled = l.ruled := by
  simp [rebaseQueue, forAll_ruled, apply_ite Live.ruled]

@[simp] theorem queueHooks_ruled (old : Live) (ks : List Key) (q : Nat) (l : Live) : (queueHooks old ks q l).ruled = l.ruled := by
  simp [queueHooks, apply_ite Live.ruled]

@[simp] theorem peNote_ruled (e bit : Nat) (l : Live) : (peNote e bit l).ruled = l.ruled := (rfl)

@[simp] theorem peLoad_ruled (e : Nat) (l : Live) : (peLoad e l).ruled = l.ruled := by
  unfold peLoad
  extract_lets x p y z
  split <;> rfl

@[simp] theorem peStart_ruled (e : Nat) (l : Live) : (peStart e l).ruled = l.ruled := (rfl)

@[simp] theorem peStop_ruled (e : Nat) (l : Live) : (peStop e l).ruled = l.ruled := by
  simp [peStop, apply_ite Live.ruled]

@[simp] theorem peRedrive_ruled (e : Nat) (l : Live) : (peRedrive e l).ruled = l.ruled := (rfl)

@[simp] theorem peHooks_ruled (old : Live) (ks : List Key) (e : Nat) (l : Live) : (peHooks old ks e l).ruled = l.ruled := by
  simp [peHooks, apply_ite Live.ruled]

/-! ### Analogue inputs, the log and the time unit -/

@[simp] theorem tripPairs_ruled (mask cause : Nat) (l : Live) : (tripPairs mask cause l).ruled = l.ruled :=
  ruled_of_offEngines (tripPairs_offEngines _ _ _)

@[simp] theorem watchTrip_ruled (l : Live) : (watchTrip l).ruled = l.ruled := by
  unfold watchTrip
  split <;> rfl

@[simp] theorem latchLimit_ruled (a at_ : Nat) (l : Live) : (latchLimit a at_ l).ruled = l.ruled := by
  simp [latchLimit, tripPairs_ruled]

@[simp] theorem uncheck_ruled (a : Nat) (l : Live) : (uncheck a l).ruled = l.ruled := by
  unfold uncheck
  split
  · rfl
  · split <;> simp

@[simp] theorem analogDisable_ruled (l : Live) : (analogDisable l).ruled = l.ruled := by
  simp [analogDisable, stopPasses, noCheck, forAll_ruled]

@[simp] theorem crlLeft_ruled (old : Nat) (l : Live) : (crlLeft old l).ruled = l.ruled := by
  simp [crlLeft, apply_ite Live.ruled]

@[simp] theorem emptyRing_ruled (l : Live) : (emptyRing l).ruled = l.ruled := (rfl)
@[simp] theorem logStart_ruled (reach : Nat) (l : Live) : (logStart reach l).ruled = l.ruled := (rfl)

theorem time_ruled (l : Live) {u : TimeUnit} (h : u.dtime = l.time.dtime) : ({ l with time := u } : Live).ruled = l.ruled := by
  unfold Live.ruled
  rw [← h]

@[simp] theorem timeFlags_ruled (m : Nat) (l : Live) : (timeFlags m l).ruled = l.ruled := (rfl)

@[simp] theorem slewLimit_ruled (r : Int) (l : Live) : (slewLimit r l).ruled = l.ruled := by
  simp [slewLimit, apply_ite Live.ruled]

@[simp] theorem atRetime_ruled (l : Live) : (atRetime l).ruled = l.ruled := by
  unfold atRetime
  refine forAll_ruled (fun e m => ?_) _ l
  dsimp only
  split
  · split <;> rfl
  · rfl

@[simp] theorem setRate_ruled (r : Int) (l : Live) : (setRate r l).ruled = l.ruled := by
  simp [setRate, apply_ite Live.ruled, time_ruled]

@[simp] theorem holdPpsOut_ruled (l : Live) : (holdPpsOut l).ruled = l.ruled := by
  unfold holdPpsOut
  split <;> rfl

@[simp] theorem setDisc_ruled (new : Disc) (l : Live) : (setDisc new l).ruled = l.ruled := by
  unfold setDisc
  extract_lets t flags t1 t2 p1 p2
  split
  · rfl
  · rw [holdPpsOut_ruled, writeRecord_ruled, timeFlags_ruled]
    exact time_ruled l rfl

@[simp] theorem ppsModeCommit_ruled (l : Live) : (ppsModeCommit l).ruled = l.ruled := by
  simp [ppsModeCommit, apply_ite Live.ruled]

@[simp] theorem ppsPolarityCommit_ruled (l : Live) : (ppsPolarityCommit l).ruled = l.ruled := (rfl)

@[simp] theorem manualRateCommit_ruled (l : Live) : (manualRateCommit l).ruled = l.ruled := by
  simp [manualRateCommit, apply_ite Live.ruled]

@[simp] theorem nextPeriodic_ruled (l : Live) (n : Nat) :
    ({ l with snap := { l.snap with nextPeriodic := n } } : Live).ruled = l.ruled := (rfl)

@[simp] theorem deviceHooks_ruled (old : Live) (ks : List Key) (l : Live) : (deviceHooks old ks l).ruled = l.ruled := by
  simp [deviceHooks, apply_ite Live.ruled, forAll_ruled]

/-- The actions of a commit on the units leave what the reader shows (R74, R76). -/
@[simp] theorem commitHooks_ruled (old : Live) (ks : List Key) (l : Live) : (commitHooks old ks l).ruled = l.ruled := by
  simp [commitHooks, forAll_ruled, apply_ite Live.ruled]

@[simp] theorem loadShadow_ruled (late : Bool) (l : Live) (u what v : Nat) : (loadShadow late l u what v).ruled = l.ruled := by
  unfold loadShadow
  extract_lets skip
  split <;> rfl

@[simp] theorem loadMembers_ruled (old : Live) (byBoundary : Bool) (vals : List (Key × Val)) (l : Live) :
    (loadMembers old byBoundary vals l).1.ruled = l.ruled :=
  forAll_ruled (fun _ _ => loadShadow_ruled _ _ _ _ _) _ l

end Sys2Proof.Machine

/-! Month overlays, the customer area and the resync summary (R431–R440). -/

namespace Sys2Proof.Machine

open Sys2Proof

/-! ### The application of an overlay (R432–R436) -/

theorem unstage_keeps (g : Nat) (k : Key) (l : Live) : (unstage g k l).conf = l.conf ∧ (unstage g k l).time = l.time := by
  unfold unstage
  dsimp only
  split <;> exact ⟨rfl, rfl⟩

theorem dropCovered_keeps (vs : List (Key × Val)) (l : Live) : (dropCovered vs l).conf = l.conf ∧ (dropCovered vs l).time = l.time :=
  ⟨forAll_keeps Live.conf (fun _ m => (unstage_keeps _ _ m).1) vs l, forAll_keeps Live.time (fun _ m => (unstage_keeps _ _ m).2) vs l⟩

/-- The fields of the configuration that an application of an overlay sets, and the application that waits for the next PPS. -/
def ConfUnit.applied (c : ConfUnit) : Nat × Word × BitVec 16 × List (Key × Val) × Option Nat :=
  (c.active, c.lastDtime, c.gen, c.ovl, c.pending)

theorem applied_of_ruled {l m : Live} (h : m.ruled = l.ruled) : m.conf.applied = l.conf.applied := by
  unfold ConfUnit.applied
  rw [ruled_active h, ruled_lastDtime h, ruled_gen h, ruled_ovl h, ruled_pending h]

theorem overlayCommit_applied (s trigger : Nat) (vs : List (Key × Val)) (l : Live) :
    (overlayCommit s trigger vs l).conf.applied = (s, l.time.dtime, l.conf.gen + 1, vs, l.conf.pending) := by
  obtain ⟨conf, time⟩ := dropCovered_keeps vs l
  unfold overlayCommit
  extract_lets old slot ks l1 c0 c a a1 c1 l2 r r1 c2 l3
  have fresh : l2.conf.applied = (s, l.time.dtime, l.conf.gen + 1, vs, l.conf.pending) := by
    rw [← conf, ← time]
    simp only [l2]
    split <;> rfl
  have kept : l3.conf.applied = l2.conf.applied := by
    rw [← applied_of_ruled (loadMembers_ruled l2 false (ks.map fun k => (k, l2.val k)) l2)]
    simp only [l3]
    split <;> rfl
  rw [applied_of_ruled (commitHooks_ruled _ _ _), overlayRecord, applied_of_ruled (writeRecord_ruled _ _ _ _), kept, fresh]

theorem overlayRefused_keeps (s trigger reason : Nat) (l : Live) : (overlayRefused s trigger reason l).conf =
    { l.conf with status := setBit l.conf.status 0, refusedCnt := l.conf.refusedCnt + 1 } ∧
    (overlayRefused s trigger reason l).mem = l.mem := by
  unfold overlayRefused overlayRecord
  dsimp only
  rw [(writeRecord_keeps _ _ _ _).2.2.1]
  exact ⟨rfl, by simp [noteBit, noteFlags]⟩

/-- The Apply overlay object takes a slot that is not empty, by its kind (R435). -/
theorem overlayObject_takes {slot kind : Nat} {l : Live} (small : slot ≤ 12) (which : kind ≤ 1) (used : slot ≠ 0 → slotUsed l slot = true) :
    overlayObject (kind * 256 + slot) l =
      if kind = 0 then (applyOverlay slot 0 (noPending l), 0)
      else ({ l with conf := { l.conf with pending := some slot } }, 0) := by
  have low : field (kind * 256 + slot) 3 0 = slot := by
    unfold field
    omega
  have high : field (kind * 256 + slot) 11 8 = kind := by
    unfold field
    omega
  unfold overlayObject
  dsimp only
  rw [low, high, if_neg (by simp only [Bool.or_eq_true, decide_eq_true_eq]; omega), if_neg]
  · rfl
  · simp only [Bool.and_eq_true, Bool.not_eq_true', decide_eq_true_eq, not_and, Bool.not_eq_false]
    exact used

/-! ### Resync (R437) -/

theorem answers_connSt (is : List Nat) (i : Nat) : ∀ l : Live,
    ((l.connSt i).answer = .done → ((forAll (fun i m => answer i .done m) is l).connSt i).answer = .done) ∧
    (i ∈ is → ((forAll (fun i m => answer i .done m) is l).connSt i).answer = .done) := by
  induction is with
  | nil => exact fun l => ⟨id, fun h => absurd h List.not_mem_nil⟩
  | cons x xs ih =>
    intro l
    have first : i = x → ((answer x .done l).connSt i).answer = .done := fun e => by
      rw [e, answer, updConnSt_same]
    have kept : (l.connSt i).answer = .done → ((answer x .done l).connSt i).answer = .done := fun h => by
      rcases Decidable.em (i = x) with e | other
      · exact first e
      · rw [answer, updConnSt_ne _ _ other]
        exact h
    refine ⟨fun h => (ih _).1 (kept h), fun h => ?_⟩
    rcases List.mem_cons.mp h with e | later
    · exact (ih _).1 (first e)
    · exact (ih _).2 later

theorem answers_mem (is : List Nat) (l : Live) : (forAll (fun i m => answer i .done m) is l).mem = l.mem :=
  forAll_keeps Live.mem (f := fun i m => answer i .done m) (fun _ _ => rfl) is l

/-- The summary is complete: the writes that wait for it are answered (R437). -/
theorem summaryComplete_ready {l : Live} (up : supervisorUp l = true) (begun : l.conf.resyncStatus = 1) (ready : l.conf.summaryNext ≠ []) :
    (summaryComplete l).conf = { l.conf with resyncStatus := 2, summary := l.conf.summaryNext, summaryNext := [], resyncConns := [] } ∧
    (summaryComplete l).net = (forAll (fun i m => answer i .done m) l.conf.resyncConns l).net ∧ (summaryComplete l).mem = l.mem := by
  have conf : (forAll (fun i m => answer i .done m) l.conf.resyncConns l).conf = l.conf := forAll_keeps Live.conf (f := fun i m => answer i .done m) (fun _ _ => rfl) _ l
  unfold summaryComplete
  rw [if_pos ⟨up, begun, ready⟩]
  dsimp only
  rw [conf]
  exact ⟨rfl, rfl, answers_mem _ l⟩

/-- Settles O42. That a refused application is answered as done, and the order of the reasons, are the model's choice (log entry 91). -/
theorem overlaysAndResyncComplete : Obligations.OverlaysAndResyncComplete := by
  refine ⟨fun s conn i data reaches inactive unpending valid => ?_, fun s conn slot reaches small used => ⟨fun refused => ?_, fun taken => ?_, ?_⟩,
    fun s conn reaches => ?_, fun s conn data reaches short fits => ?_, fun s conn reaches fresh idle free => ?_, fun s up begun ready => ?_⟩
  · have effect : slotWrite (i.val + 1) data (touch conn s.live) = ({ touch conn s.live with
        mram := { (touch conn s.live).mram with overlays := (touch conn s.live).mram.overlays.put [] (i.val + 1) data } }, 0) :=
      (if_neg (not_or.mpr ⟨inactive, unpending⟩)).trans (if_pos valid)
    refine completes_object (f := slotWrite (i.val + 1) data) rfl reaches effect ⟨?_, fun j other => ?_, ?_, answeredDone_reply _ _ _, sameMemory_reply rfl⟩
    · rw [apply_mram]
      exact SMap.get_put_same ([] : List Byte) _ _ _
    · rw [apply_mram]
      exact SMap.get_put_ne ([] : List Byte) _ _ other
    · rw [apply_conf]
      rfl
  · have effect : overlayObject slot.toNat (touch conn s.live) =
        (overlayRefused slot.toNat 0 (overlayReason slot.toNat (noPending (touch conn s.live))).1 (noPending (touch conn s.live)), 0) := by
      have object := overlayObject_takes (kind := 0) (l := touch conn s.live) small (by decide) fun h => used fun z => h (by rw [z]; rfl)
      rw [Nat.zero_mul, Nat.zero_add] at object
      rw [object, if_pos rfl]
      unfold applyOverlay
      dsimp only
      rw [if_neg refused]
    obtain ⟨conf, mem⟩ := overlayRefused_keeps slot.toNat 0 (overlayReason slot.toNat (noPending (touch conn s.live))).1
      (noPending (touch conn s.live))
    refine completes_object (f := overlayObject slot.toNat) rfl reaches effect ⟨?_, answeredDone_reply _ _ _, sameMemory_reply ?_⟩
    · rw [apply_conf, (reply_keeps _ _ _).2.2.1, conf]
      rfl
    · rw [mem]
      rfl
  · have effect : overlayObject slot.toNat (touch conn s.live) =
        (overlayCommit slot.toNat 0 (overlayReason slot.toNat (noPending (touch conn s.live))).2 (noPending (touch conn s.live)), 0) := by
      have object := overlayObject_takes (kind := 0) (l := touch conn s.live) small (by decide) fun h => used fun z => h (by rw [z]; rfl)
      rw [Nat.zero_mul, Nat.zero_add] at object
      rw [object, if_pos rfl]
      unfold applyOverlay
      dsimp only
      rw [if_pos taken]
    have applied := overlayCommit_applied slot.toNat 0 (overlayReason slot.toNat (noPending (touch conn s.live))).2 (noPending (touch conn s.live))
    generalize overlayCommit slot.toNat 0 (overlayReason slot.toNat (noPending (touch conn s.live))).2 (noPending (touch conn s.live)) = m
      at effect applied
    have conf : (s.apply fun _ => reply conn 0 m).live.conf.applied = m.conf.applied := by
      rw [apply_conf]
      rfl
    obtain ⟨active, dtime, gen, ovl, pending⟩ := by
      have same := conf.trans applied
      simpa only [ConfUnit.applied, Prod.mk.injEq] using same
    exact completes_object (f := overlayObject slot.toNat) rfl reaches effect
      ⟨active, dtime, gen, ovl, pending, answeredDone_reply _ _ _⟩
  · have effect : overlayObject (0x100 + slot.toNat) (touch conn s.live) =
        ({ touch conn s.live with conf := { (touch conn s.live).conf with pending := some slot.toNat } }, 0) :=
      (overlayObject_takes (kind := 1) (l := touch conn s.live) small (by decide) fun h => used fun z => h (by rw [z]; rfl)).trans (if_neg (by decide))
    refine completes_object (f := overlayObject (0x100 + slot.toNat)) rfl reaches effect ⟨?_, answeredDone_reply _ _ _, sameMemory_reply rfl⟩
    rw [apply_conf]
    rfl
  · refine completes_object (f := overlayCancel (1#8).toNat) rfl reaches (if_pos rfl) ⟨?_, answeredDone_reply _ _ _, sameMemory_reply rfl⟩
    rw [apply_conf]
    rfl
  · have effect : customerWrite data (touch conn s.live) = ({ touch conn s.live with mram := { (touch conn s.live).mram with
        customer := writeBytes s.live.mram.customer s.live.conf.custOffset data } }, 0) := if_neg (by
      rw [show (touch conn s.live).conf = s.live.conf from rfl]
      omega)
    refine completes_object (f := customerWrite data) rfl reaches effect ⟨?_, fun a out => ?_, answeredDone_reply _ _ _, sameMemory_reply rfl⟩
    · rw [apply_mram]
      exact readBytes_writeBytes _ _ _
    · rw [apply_mram]
      exact readByte_writeBytes_out _ _ _ _ out
  · have later : snapNow (touch conn s.live) = false := by
      unfold snapNow
      rw [show (touch conn s.live).snap = s.live.snap from rfl, idle]
      rfl
    have effect : resync (connId conn) (touch conn s.live) = ({ touch conn s.live with
        snap := { s.live.snap with want := true },
        conf := { s.live.conf with resyncStatus := 1, resyncSeq := nextSeq s.live.snap, summaryNext := [],
                                   resyncConns := s.live.conf.resyncConns ++ [connId conn] } }, 0) := by
      unfold resync beginResync
      rw [show (touch conn s.live).conf = s.live.conf from rfl, if_neg fresh, later]
      rfl
    have taken := onObjectLater_taken reaches effect
    obtain ⟨filling, -, seq, -⟩ := apply_takes (f := onObjectLater conn 0x5E00 1 (resync (connId conn))) (s := s)
      (by rw [taken]) (by rw [taken]; exact idle) (by rw [taken]; exact free)
    refine completes_apply (f := onObjectLater conn 0x5E00 1 (resync (connId conn))) rfl ⟨?_, ?_, ?_, ?_, ?_, sameMemory_apply (by rw [taken]; rfl)⟩
    · rw [apply_conf, taken]
    · rw [apply_conf, taken]
    · rw [apply_conf, taken]
    · rw [filling]
      rfl
    · rw [seq, taken]
      rfl
  · obtain ⟨conf, net, mem⟩ := summaryComplete_ready up begun ready
    obtain ⟨conf', -, net', mem'⟩ := mailSettle_keeps (summaryComplete s.live)
    refine completes_apply (f := fun l => mailSettle (summaryComplete l)) rfl ⟨?_, ?_, ?_, fun i waits => ?_, sameMemory_apply (mem'.trans mem)⟩
    · rw [apply_conf, conf', conf]
    · rw [apply_conf, conf', conf]
    · rw [apply_conf, conf', conf]
    · rw [apply_connSt, connSt_of_conns (congrArg NetUnit.conns (net'.trans net))]
      exact (answers_connSt _ i s.live).2 waits

end Sys2Proof.Machine

/-! The mailbox (R414–R418): the session, the rings, and the request at the front. -/

namespace Sys2Proof.Machine

open Sys2Proof

/-! ### Parts of a request (R416) -/

theorem slice_get (b : List Byte) (off len : Nat) : slice b off len = (List.range len).map fun i => b.getD (off + i) 0 := by
  unfold slice
  dsimp only
  refine List.ext_getElem ?_ fun i h k => ?_
  · simp
  · have inside : i < len := by simpa using k
    rw [List.getElem_append]
    simp only [List.getElem_map, List.getElem_range, List.getD_eq_getElem?_getD]
    split
    next short =>
      rw [List.length_take, List.length_drop] at short
      rw [List.getElem_take, List.getElem_drop, List.getElem?_eq_getElem (by omega)]
      rfl
    next long =>
      rw [List.length_take, List.length_drop] at long
      rw [List.getElem_replicate, List.getElem?_eq_none (by omega)]
      rfl

/-- A part of a part. -/
theorem slice_slice (b : List Byte) {off len n : Nat} (inside : off + len ≤ n) : slice (slice b 0 n) off len = slice b off len := by
  rw [slice_get b off, slice_get (slice b 0 n)]
  refine List.map_congr_left fun i h => ?_
  have small : off + i < n := by
    have := List.mem_range.mp h
    omega
  rw [slice_get b 0 n, List.getD_eq_getElem?_getD, List.getElem?_map, List.getElem?_range small]
  simp

theorem fieldLE_slice (b : List Byte) {off len n : Nat} (inside : off + len ≤ n) : fieldLE (slice b 0 n) off len = fieldLE b off len := by
  unfold fieldLE
  rw [slice_slice b inside]

/-- A response names no more of its request than the header, which the device keeps. -/
theorem response_header (l : Live) (b : List Byte) (flags status : Nat) (data : List Byte) :
    response l (slice b 0 16) flags status data = response l b flags status data := by
  unfold response reqOp reqGen
  rw [fieldLE_slice b (show 0 + 1 ≤ 16 by decide), fieldLE_slice b (show 12 + 2 ≤ 16 by decide), slice_slice b (show 4 + 8 ≤ 16 by decide)]

theorem reqFlags_header (b : List Byte) : reqFlags (slice b 0 16) = reqFlags b := fieldLE_slice b (by decide)

/-- What a response takes from the device. -/
theorem response_congr {l m : Live} (gen : m.rst.gen = l.rst.gen) (session : m.mail.session = l.mail.session) (req : List Byte) (flags status : Nat)
    (data : List Byte) : response m req flags status data = response l req flags status data := by
  unfold response
  rw [gen, session]

/-! ### An answer to the request taken (R415) -/

/-- The mailbox once the request taken is answered with bytes `b`. -/
def MailUnit.answered (m : MailUnit) (b : List Byte) : MailUnit :=
  { m with taken := none, rspSlots := m.rspSlots.put [] (m.rspProd.toNat % 8) b, rspProd := m.rspProd + 1, stat := setBit m.stat 0 }

theorem MailUnit.answered_slot (m : MailUnit) (b : List Byte) : (m.answered b).rspSlots.get [] (m.rspProd.toNat % 8) = b :=
  SMap.get_put_same ([] : List Byte) _ _ _

theorem answerTaken_mail {l : Live} {h : List Byte} (taken : l.mail.taken = some h) (flags status : Nat) (data : List Byte) :
    (answerTaken flags status data l).mail = l.mail.answered (response l h flags status data) ∧
    (answerTaken flags status data l).rst = l.rst := by
  unfold answerTaken
  rw [taken]
  exact ⟨rfl, rfl⟩

/-! ### Reads (R394, R417) -/

/-- What reading an object leaves alone: the mailbox, the reset unit, memory. -/
def Live.posts (l : Live) : MailUnit × ResetUnit × Memory := (l.mail, l.rst, l.mem)

theorem fetchBytes_clean (a n : Nat) (l : Live) : fetchBytes [] a n l = (readBytes l.mem a n, l) :=
  freeDoubles_single (es := []) (fun _ h => absurd h List.not_mem_nil) _ _ _

theorem advanceTail_posts (l : Live) : (advanceTail l).posts = l.posts := by
  unfold advanceTail
  dsimp only
  split <;> rfl

theorem popRecords_posts (n : Nat) : ∀ l : Live, (popRecords [] n l).2.posts = l.posts := by
  induction n with
  | zero => exact fun _ => rfl
  | succ n ih =>
    intro l
    unfold popRecords
    split
    · rfl
    · dsimp only
      rw [fetchBytes_clean, ih]
      exact advanceTail_posts l

theorem readObject_posts (c : Conn) (bank : Option Bank) (idx s : Nat) (l : Live) : (readObject c bank idx s l).2.posts = l.posts := by
  unfold readObject popObject drainObject
  split
  · rfl
  · split
    · dsimp only
      split
      · split
        · rfl
        · exact popRecords_posts _ l
      · unfold popFifo
        dsimp only
        split <;> rfl
    · split
      · split <;> rfl
      · rfl

theorem objectRead_posts (c : Conn) (bank : Option Bank) (idx s : Nat) (l : Live) : (objectRead c bank idx s l).posts = l.posts := by
  unfold objectRead
  split
  · rfl
  · exact readObject_posts c bank idx s (touch c l)

/-! ### The request at the front (R415–R417) -/

/-- The mailbox with the front request taken. -/
theorem takeRequest_mail (l : Live) : (takeRequest l).mail =
    { l.mail with reqCons := l.mail.reqCons + 1, taken := some (slice (frontRequest l) 0 16) } := rfl

theorem frontIs_may {op : Nat} {l : Live} (front : frontIs op l = true) : mayTake l = true ∧ reqValid (frontRequest l) = true := by
  unfold frontIs at front
  simp only [Bool.and_eq_true] at front
  exact front.1

/-- A first read whose object fits one message is answered whole. -/
theorem mailRead_whole {bank : Option Bank} {d : List Byte} {l : Live} (first : reqFlags (frontRequest l) % 2 = 1) (start : reqOffset (frontRequest l) = 0)
    (read : ((objectRead .host bank (reqIndex (frontRequest l)) (reqSub (frontRequest l)) (takeRequest l)).connSt 256).answer = .value d)
    (short : d.length ≤ messageRoom) :
    (mailRead bank l).mail = ({ (takeRequest l).mail with readKey := reqKey (frontRequest l), readBuf := d, readAt := some 0 } : MailUnit).answered
      (response l (frontRequest l) 3 0 d) ∧ (mailRead bank l).mem = l.mem := by
  have posts := objectRead_posts .host bank (reqIndex (frontRequest l)) (reqSub (frontRequest l)) (takeRequest l)
  have mail : (objectRead .host bank (reqIndex (frontRequest l)) (reqSub (frontRequest l)) (takeRequest l)).mail = (takeRequest l).mail :=
    congrArg Prod.fst posts
  have rst : (objectRead .host bank (reqIndex (frontRequest l)) (reqSub (frontRequest l)) (takeRequest l)).rst = l.rst :=
    congrArg (fun x => x.2.1) posts
  have mem : (objectRead .host bank (reqIndex (frontRequest l)) (reqSub (frontRequest l)) (takeRequest l)).mem = l.mem :=
    congrArg (fun x => x.2.2) posts
  unfold mailRead
  dsimp only
  rw [if_pos first, if_neg (not_not_intro start), read]
  dsimp only
  generalize objectRead .host bank (reqIndex (frontRequest l)) (reqSub (frontRequest l)) (takeRequest l) = m at mail rst mem
  have last : decide (d.length ≤ 0 + (d.take messageRoom).length) = true := by
    rw [List.take_of_length_le short]
    simp
  unfold answerRead
  simp only [updMail, start, List.drop_zero, last, if_true, first]
  obtain ⟨answered, -⟩ := answerTaken_mail (l := { m with mail := { m.mail with readKey := reqKey (frontRequest l), readBuf := d, readAt := some 0 } })
    (h := slice (frontRequest l) 0 16) (by rw [mail]; rfl) 3 0 (d.take messageRoom)
  refine ⟨answered.trans (congrArg₂ MailUnit.answered ?_ ?_), ?_⟩
  · dsimp only
    rw [mail]
  · rw [response_header, List.take_of_length_le short]
    exact response_congr (congrArg ResetUnit.gen rst) (by rw [mail]; rfl) _ _ _ _
  · rw [(answerTaken_keeps _ _ _ _).2.2.2]
    exact mem

/-- The first segment of a write that goes on: its bytes wait for the rest. -/
theorem mailWrite_first {l : Live} (flags : reqFlags (frontRequest l) = 1) (start : reqOffset (frontRequest l) = 0)
    (short : reqLen (frontRequest l) ≤ messageRoom) :
    (mailWrite l).mail = ({ (takeRequest l).mail with writing := true, writeKey := reqKey (frontRequest l), writeBuf := reqData (frontRequest l) } :
      MailUnit).answered (response l (frontRequest l) 1 0 []) ∧ (mailWrite l).mem = l.mem := by
  have room : ¬assemblyRoom < 0 + reqLen (frontRequest l) := by
    unfold assemblyRoom messageRoom at *
    omega
  unfold mailWrite
  simp only [flags, start, List.length_nil, decide_true, if_true, Nat.mod_eq_of_lt (show 1 < 2 by decide), Nat.not_lt.mpr short, room,
    Bool.not_true, Bool.false_and, Bool.or_false, decide_false, ne_eq, not_true_eq_false, Bool.false_eq_true, if_false, List.nil_append]
  rw [if_neg (by decide)]
  generalize hx : updMail _ (touch .host (takeRequest l)) = x
  have taken : x.mail.taken = some (slice (frontRequest l) 0 16) := by
    rw [← hx]
    rfl
  rw [(answerTaken_mail taken 1 0 []).1, (answerTaken_keeps 1 0 [] x).2.2.2, response_header, ← hx]
  exact ⟨congrArg₂ MailUnit.answered rfl (response_congr rfl rfl _ _ _ _), rfl⟩

theorem mailInvalid_parts (l : Live) : ∃ b, (mailInvalid l).mail = (takeRequest l).mail.answered b ∧ (mailInvalid l).net.nmt = l.net.nmt ∧
    (mailInvalid l).conf = l.conf ∧ (mailInvalid l).mem = l.mem := by
  have taken : (touch .host (takeRequest l)).mail.taken = some (slice (frontRequest l) 0 16) := rfl
  have effect : mailInvalid l = answerTaken (reqFlags (slice (frontRequest l) 0 16)) 1 (bytesLE 4 abCommand) (touch .host (takeRequest l)) := by
    unfold mailInvalid abortTaken
    rw [taken]
  obtain ⟨conf, -, net, mem⟩ := answerTaken_keeps (reqFlags (slice (frontRequest l) 0 16)) 1 (bytesLE 4 abCommand) (touch .host (takeRequest l))
  rw [effect, (answerTaken_mail taken _ _ _).1, conf, net, mem]
  exact ⟨_, rfl, rfl, rfl, rfl⟩

/-- The mailbox's Start command is answered, then the NMT state changes. -/
theorem mailNmt_start {l : Live} (one : reqLen (frontRequest l) = 1) (start : fieldLE (frontRequest l) 16 1 = 1) :
    ∃ b, mailNmt l = nmtStart .mailbox (post b (updMail (fun m => { m with taken := none }) (touch .host (takeRequest l)))) := by
  unfold mailNmt
  dsimp only
  rw [one, start]
  exact ⟨_, rfl⟩

theorem postAborts_none {l : Live} (none : l.mail.aborts = []) (n : Nat) : postAborts n l = l := by
  cases n with
  | zero => rfl
  | succ n =>
    unfold postAborts
    rw [none]

theorem nmtGo_mail {new : Byte} {l : Live} (differs : l.net.nmt ≠ new) (src cs : Nat) : (nmtGo new src cs l).mail = l.mail := by
  rw [nmtGo_eq differs, nmtTail_read Live.mail (fun _ _ _ => rfl) (fun _ _ _ => rfl) (fun _ _ _ _ _ => by simp [nmtRecord])]
  show (leaveOperational l).mail = l.mail
  unfold leaveOperational
  split
  · exact ruled_mail (disarm_ruled 6 l)
  · rfl

theorem netUp_congr {l m : Live} (rst : m.rst = l.rst) (doze : m.doze = l.doze) (nmt : m.net.nmt = l.net.nmt) : netUp m = netUp l := by
  unfold netUp schedUp coreUp domainUp awake
  rw [rst, doze, nmt]

theorem mayOperate_congr {l m : Live} (rst : m.rst = l.rst) : mayOperate m = mayOperate l := by
  unfold mayOperate
  rw [rst]

theorem post_keeps (b : List Byte) (l : Live) : (post b l).rst = l.rst ∧ (post b l).doze = l.doze ∧ (post b l).net = l.net ∧
    (post b l).mem = l.mem ∧ (post b l).mail.rspProd = l.mail.rspProd + 1 ∧ (post b l).mail.taken = l.mail.taken :=
  ⟨rfl, rfl, rfl, rfl, rfl, rfl⟩

theorem mailNmt_parts {l : Live} (one : reqLen (frontRequest l) = 1) (start : fieldLE (frontRequest l) 16 1 = 1) (up : netUp l = true)
    (may : mayOperate l = true) (differs : l.net.nmt ≠ nmtOp) : (mailNmt l).net.nmt = nmtOp ∧
    ((mailNmt l).mail.rspProd = l.mail.rspProd + 1 ∧ (mailNmt l).mail.taken = none) ∧ (mailNmt l).mem = l.mem := by
  obtain ⟨b, effect⟩ := mailNmt_start one start
  obtain ⟨x, hx⟩ : ∃ x, x = post b (updMail (fun m => { m with taken := none }) (touch .host (takeRequest l))) := ⟨_, rfl⟩
  obtain ⟨rst, doze, net, mem, prod, taken⟩ := post_keeps b (updMail (fun m => { m with taken := none }) (touch .host (takeRequest l)))
  rw [← hx] at rst doze net mem prod taken
  replace rst : x.rst = l.rst := rst
  replace doze : x.doze = l.doze := doze
  have nmt : x.net.nmt = l.net.nmt := (congrArg NetUnit.nmt net).trans rfl
  rw [← hx] at effect
  have go : nmtStart .mailbox x = nmtGo nmtOp (nmtSource .mailbox) 1 x :=
    if_pos (by rw [show nmtHeard .mailbox x = netUp x from rfl, netUp_congr rst doze nmt, mayOperate_congr rst, up, may]; rfl)
  have differs' : x.net.nmt ≠ nmtOp := by rwa [nmt]
  rw [effect, go, nmtGo_nmt differs', nmtGo_mail differs', nmtGo_mem differs']
  exact ⟨rfl, ⟨prod, taken⟩, mem⟩

theorem apply_mail (f : Live → Live) (s : State) : (s.apply f).live.mail = (f s.live).mail := by simp

theorem csFall_mail (l : Live) : (csFall l).mail = l.mail := by
  unfold csFall
  split <;> rfl

/-- A command that acts where its guard holds. -/
theorem completes_guarded {c : Instr} {g : Live → Bool} {f : Live → Live} {s : State} {P : State → Prop}
    (run : exec c s = ran (fun l => if g l then f l else l) s) (holds : g s.live = true) (h : P (s.apply f)) : Completes c s P := by
  refine completes_apply run ?_
  rw [apply_congr (f := fun l => if g l then f l else l) (g := f) (if_pos holds)]
  exact h

/-- Settles O40. When REQ_CONS advances, that aborted responses wait for free slots, and that an NMT request is answered before a reset it
asserts, are the model's choice (log entry 64). -/
theorem mailboxComplete : Obligations.MailboxComplete := by
  intro s m req
  have fallen := csFall_mail s.live
  obtain ⟨-, -, -, mem, -⟩ := csFall_keeps s.live
  refine ⟨fun up => ⟨fun g some new => ?_, ?_, fun v fits => ?_, fun v beyond => ?_, fun v none => ?_⟩, fun d front first start read short => ?_,
    fun front flags start short => ?_, fun front up one cs may differs => ?_, fun front fresh idle free => ?_, fun may invalid => ?_⟩
  · have effect : sessionWrite g (csFall s.live) = lockSession ((if s.live.mail.session = 0 then csFall s.live else noteMail 3 (csFall s.live)) |>
        updMail (fun m => { m with session := g, readBuf := [], readAt := Option.none, writeBuf := [], writing := false,
                                   stat := if s.live.mail.session = 0 then s.live.mail.stat else setBit s.live.mail.stat 3 })) := by
      unfold sessionWrite
      rw [fallen]
      exact (if_neg new).trans (if_neg some)
    refine completes_hostAct (f := sessionWrite g) rfl up ?_
    rw [effect]
    refine ⟨?_, fun old => ?_, ?_, ?_, sameMemory_apply ?_⟩
    · rw [apply_mail]
      rfl
    · rw [apply_mail]
      refine (congrArg (fun x : BitVec 32 => x.getLsbD 3) (if_neg old)).trans (setBit_same _ (by decide))
    · rw [apply_connSt]
      exact congrArg ConnState.unlocked (updConnSt_same _ _ _)
    · rw [apply_mail]
      rfl
    · rw [← mem]
      split <;> rfl
  · refine completes_hostAct (f := sessionWrite 0) rfl up ?_
    have effect : (sessionWrite 0 (csFall s.live)).mail.session = 0 ∧ (sessionWrite 0 (csFall s.live)).mail.reqProd = m.reqProd ∧
        (sessionWrite 0 (csFall s.live)).mem = (csFall s.live).mem := by
      rw [show m = (csFall s.live).mail from fallen.symm]
      unfold sessionWrite
      dsimp only
      split
      next closed => exact ⟨closed.symm, rfl, rfl⟩
      next => exact ⟨rfl, rfl, rfl⟩
    obtain ⟨session, prod, kept⟩ := effect
    exact ⟨by rw [apply_mail, session], by rw [apply_mail, prod], sameMemory_apply (kept.trans mem)⟩
  · refine completes_hostAct (f := reqProdWrite v) rfl up ?_
    have effect : reqProdWrite v (csFall s.live) = updMail (fun m => { m with reqProd := v }) (csFall s.live) := by
      have fits' : modDist 8 v.toNat (csFall s.live).mail.reqCons.toNat ≤ 8 := by rwa [fallen]
      unfold reqProdWrite updMail
      dsimp only
      rw [if_pos fits', if_pos fits']
    rw [effect]
    refine ⟨?_, sameMemory_apply mem⟩
    rw [apply_mail]
    exact congrArg (fun m => { m with reqProd := v }) fallen
  · refine completes_hostAct (f := reqProdWrite v) rfl up ?_
    have effect : reqProdWrite v (csFall s.live) = updMail (fun m => { m with stat := bumpAt (setBit m.stat 2) 16 }) (noteMail 2 (csFall s.live)) := by
      have beyond' : ¬modDist 8 v.toNat (csFall s.live).mail.reqCons.toNat ≤ 8 := by
        rw [fallen]
        exact Nat.not_le.mpr beyond
      unfold reqProdWrite updMail
      dsimp only
      rw [if_neg beyond', if_neg (show ¬modDist 8 v.toNat (noteMail 2 (csFall s.live)).mail.reqCons.toNat ≤ 8 from beyond')]
    rw [effect]
    refine ⟨?_, ?_, sameMemory_apply mem⟩
    · rw [apply_mail]
      show (csFall s.live).mail.reqProd = _
      rw [fallen]
    · rw [apply_mail]
      exact (bumpAt_below _ (by decide)).trans (setBit_same _ (by decide))
  · refine completes_hostAct (f := rspConsWrite v) rfl up ?_
    have effect : rspConsWrite v (csFall s.live) = updMail (fun m => { m with rspCons := v }) (csFall s.live) :=
      postAborts_none (by
        show (csFall s.live).mail.aborts = []
        rw [fallen]
        exact none) 8
    rw [effect]
    refine ⟨?_, sameMemory_apply mem⟩
    rw [apply_mail]
    exact congrArg (fun m => { m with rspCons := v }) fallen
  · obtain ⟨mail, mem'⟩ := mailRead_whole first start read short
    refine completes_guarded (g := frontIs 1) (f := mailRead s.published) rfl front ?_
    refine ⟨?_, ?_, ?_, ?_, ?_, sameMemory_apply mem'⟩
    · rw [apply_mail, mail]
      rfl
    · rw [apply_mail, mail]
      rfl
    · rw [apply_mail, mail]
      rfl
    · rw [apply_mail, mail]
      exact setBit_same _ (by decide)
    · rw [apply_mail, mail]
      exact MailUnit.answered_slot _ _
  · obtain ⟨mail, mem'⟩ := mailWrite_first flags start short
    refine completes_guarded (g := frontIs 2) (f := mailWrite) rfl front ?_
    refine ⟨?_, ?_, ?_, ?_, ?_, ?_, sameMemory_apply mem'⟩
    · rw [apply_mail, mail]
      rfl
    · rw [apply_mail, mail]
      rfl
    · rw [apply_mail, mail]
      rfl
    · rw [apply_mail, mail]
      rfl
    · rw [apply_mail, mail]
      rfl
    · rw [apply_mail, mail]
      exact MailUnit.answered_slot _ _
  · obtain ⟨nmt, mail, mem'⟩ := mailNmt_parts one cs up may differs
    refine completes_guarded (g := frontIs 3) (f := mailNmt) rfl front ⟨?_, ?_, ?_, sameMemory_apply mem'⟩
    · simp only [apply_parts_keep, nmt]
    · rw [apply_mail, mail.1]
    · rw [apply_mail, mail.2]
  · have later : snapNow (touch .host (takeRequest s.live)) = false := by
      show (s.live.snap.copying && _) = false
      rw [idle]
      rfl
    have effect : mailResync s.live = { touch .host (takeRequest s.live) with
        snap := { s.live.snap with want := true },
        conf := { s.live.conf with resyncStatus := 1, resyncSeq := nextSeq s.live.snap, summaryNext := [],
                                   resyncConns := s.live.conf.resyncConns ++ [256] } } := by
      unfold mailResync resync beginResync
      rw [show (touch .host (takeRequest s.live)).conf = s.live.conf from rfl, if_neg fresh, later]
      rfl
    refine completes_guarded (g := frontIs 4) (f := mailResync) rfl front ?_
    obtain ⟨filling, -, seq, -⟩ := apply_takes (f := mailResync) (s := s) (by rw [effect]) (by rw [effect]; exact idle) (by rw [effect]; exact free)
    refine ⟨?_, ?_, ?_, ?_, sameMemory_apply (by rw [effect]; rfl)⟩
    · rw [apply_conf, effect]
    · rw [apply_conf, effect]
    · rw [apply_mail, effect]
      rfl
    · rw [filling]
      rfl
  · obtain ⟨b, mail, nmt, conf, mem'⟩ := mailInvalid_parts s.live
    refine completes_guarded (g := fun l => mayTake l && !reqValid (frontRequest l)) (f := mailInvalid) rfl (by rw [may, show reqValid (frontRequest s.live) = false from invalid]; rfl) ?_
    refine ⟨?_, ?_, ?_, ?_, ?_, sameMemory_apply mem'⟩
    · rw [apply_mail, mail]
      rfl
    · rw [apply_mail, mail]
      rfl
    · rw [apply_mail, mail]
      rfl
    · simp only [apply_parts_keep, nmt]
    · rw [apply_conf, conf]

end Sys2Proof.Machine

/-! The conditions of a bus (R401, R402, R408, R420). Frames once given to a controller stay given, and queued EMCY messages stay in their
order: a report adds behind them. -/

namespace Sys2Proof.Machine

open Sys2Proof

/-! ### Reports add frames behind the frames there are -/

/-- On every bus, what was sent and what was queued comes first. -/
def Extends (l m : Live) : Prop :=
  ∀ b, (∃ r, (m.bus b).tx = (l.bus b).tx ++ r) ∧ ∃ q, (m.bus b).emcyQueue = (l.bus b).emcyQueue ++ q

theorem Extends.refl (l : Live) : Extends l l := fun _ => ⟨⟨[], (List.append_nil _).symm⟩, ⟨[], (List.append_nil _).symm⟩⟩

theorem Extends.trans {a b c : Live} (h : Extends a b) (k : Extends b c) : Extends a c := fun i => by
  obtain ⟨⟨r, hr⟩, ⟨q, hq⟩⟩ := h i
  obtain ⟨⟨r', kr⟩, ⟨q', kq⟩⟩ := k i
  exact ⟨⟨r ++ r', by rw [kr, hr, List.append_assoc]⟩, ⟨q ++ q', by rw [kq, hq, List.append_assoc]⟩⟩

theorem extends_of_buses {l m : Live} (h : m.net.buses = l.net.buses) : Extends l m := fun b => by
  unfold Live.bus
  rw [h]
  exact Extends.refl l b

theorem extends_setBus {l : Live} {b : Nat} {y : Bus} (tx : ∃ r, y.tx = (l.bus b).tx ++ r) (queue : ∃ q, y.emcyQueue = (l.bus b).emcyQueue ++ q) :
    Extends l (l.setBus b y) := fun c => by
  rcases Decidable.em (c = b) with rfl | other
  · rw [setBus_same]
    exact ⟨tx, queue⟩
  · rw [setBus_ne _ _ other]
    exact Extends.refl l c

theorem emcyOnBus_extends (data : List Byte) (b : Nat) (l : Live) : Extends l (emcyOnBus data b l) := by
  unfold emcyOnBus
  split
  · dsimp only
    split
    · exact extends_setBus ⟨_, rfl⟩ ⟨[], (List.append_nil _).symm⟩
    · split
      · exact extends_setBus ⟨[], (List.append_nil _).symm⟩ ⟨_, rfl⟩
      · exact extends_setBus (l := noteBus b 6 l) ⟨[], (List.append_nil _).symm⟩ ⟨[], (List.append_nil _).symm⟩
  · exact .refl l

theorem emcyBuses_extends (data : List Byte) (l : Live) : Extends l (forAll (emcyOnBus data) [0, 1] l) :=
  (emcyOnBus_extends data 0 l).trans (emcyOnBus_extends data 1 _)

theorem writeRecord_extends (src kind payload : Nat) (l : Live) : Extends l (writeRecord src kind payload l) :=
  extends_of_buses (congrArg NetUnit.buses (writeRecord_net_journal _ _ _ _).1)

/-- A record and frames, after a change that adds no frame. -/
theorem record_frames_extends {l m : Live} (h : m.net.buses = l.net.buses) (src kind payload : Nat) (data : List Byte) :
    Extends l (forAll (emcyOnBus data) [0, 1] (writeRecord src kind payload m)) :=
  (extends_of_buses h).trans ((writeRecord_extends _ _ _ _).trans (emcyBuses_extends _ _))

theorem emcy_extends (code src payload : Nat) (l : Live) : Extends l (emcy code src payload l) := by
  unfold emcy
  dsimp only
  refine record_frames_extends ?_ _ _ _ _
  split <;> rfl

theorem errSettle_extends (l : Live) : Extends l (errSettle l) := by
  unfold errSettle
  dsimp only
  split
  · exact record_frames_extends (m := { l with net := { l.net with errReg := 0 } }) rfl _ _ _ _
  · exact extends_of_buses rfl

theorem journal_extends (src kind payload code : Nat) (l : Live) : Extends l (journal src kind payload code l) :=
  extends_of_buses (by rw [journal_only])

theorem journalEntry_extends (src kind payload code : Nat) (l : Live) : Extends l (journalEntry src kind payload code l) := by
  unfold journalEntry
  split
  · exact journal_extends _ _ _ _ _
  · exact (journal_extends _ _ _ _ _).trans (emcy_extends _ _ _ _)

theorem reportJournal_extends (src kind payload : Nat) (l : Live) : Extends l (reportJournal src kind payload l) :=
  (writeRecord_extends _ _ _ _).trans (journalEntry_extends _ _ _ _ _)

theorem settle_extends (pre l : Live) : Extends l (settle pre l) := by
  unfold settle lossReport
  refine Extends.trans ?_ (errSettle_extends _)
  split
  · exact .refl l
  · exact (emcy_extends _ _ _ _).trans (journalEntry_extends _ _ _ _ _)

theorem seqWrap_extends (l : Live) : Extends l (seqWrap l) := by
  unfold seqWrap
  split
  · exact (extends_of_buses rfl).trans (writeRecord_extends _ _ _ _)
  · exact .refl l

theorem apply_extends (f : Live → Live) (s : State) : Extends (f s.live) (s.apply f).live := by
  have wiped (s : State) : Extends s.live (wipeBanks s).live := by
    unfold wipeBanks
    split <;> exact extends_of_buses rfl
  have held (s : State) : Extends s.live (settleHold s).live := by
    unfold settleHold
    dsimp only
    split <;> exact extends_of_buses rfl
  have taken (p : Live) (s : State) : Extends s.live (settleSnap p s).live := by
    unfold settleSnap
    split
    · exact .refl _
    · split
      · exact extends_of_buses rfl
      · split
        · exact extends_of_buses rfl
        · exact (seqWrap_extends s.live).trans (extends_of_buses rfl)
  unfold State.apply
  exact (settle_extends s.live (f s.live)).trans
    ((wiped { s with live := settle s.live (f s.live) }).trans ((held _).trans (taken _ _)))

/-- A frame given to a bus by an effect is the first of those sent in its TCLK. -/
theorem sends_apply {f : Live → Live} {s : State} {b : Nat} {x : Frame} (given : ∃ r, ((f s.live).bus b).tx = (s.live.bus b).tx ++ x :: r) :
    Sends b x s (s.apply f) := by
  obtain ⟨r, hr⟩ := given
  obtain ⟨⟨q, hq⟩, -⟩ := apply_extends f s b
  exact ⟨r ++ q, by rw [hq, hr, List.append_assoc]; rfl⟩

/-! ### The status of a bus -/

theorem apply_busBit (f : Live → Live) (s : State) (b : Nat) {i : Nat} (other : i ≠ 6) :
    ((s.apply f).live.bus b).status.getLsbD i = ((f s.live).bus b).status.getLsbD i := (apply_parts f s).bus_status b i other

/-- BUS_STATE is two bits of the status. -/
theorem busState_bits (x : BitVec 16) : field x.toNat 1 0 = (x.getLsbD 0).toNat + 2 * (x.getLsbD 1).toNat := by
  unfold field
  rw [BitVec.getLsbD, BitVec.getLsbD, Nat.testBit_zero, Nat.testBit_succ, Nat.testBit_zero]
  generalize x.toNat = n
  rcases Nat.mod_two_eq_zero_or_one n with e | e <;> rcases Nat.mod_two_eq_zero_or_one (n / 2) with e' | e' <;> simp [e, e'] <;> omega

theorem busState_of_bits {l m : Live} {b : Nat} (zero : (m.bus b).status.getLsbD 0 = (l.bus b).status.getLsbD 0)
    (one : (m.bus b).status.getLsbD 1 = (l.bus b).status.getLsbD 1) : busState m b = busState l b := by
  unfold busState
  rw [busState_bits, busState_bits, zero, one]

/-- A flag of the status above BUS_STATE leaves it. -/
theorem busState_flag {l : Live} {b n : Nat} (high : 2 ≤ n) :
    busState (l.updBus b fun x => { x with status := setBit x.status n }) b = busState l b :=
  busState_of_bits (by rw [updBus_same]; exact setBit_other _ (by omega)) (by rw [updBus_same]; exact setBit_other _ (by omega))

theorem busState_set (l : Live) (b : Nat) : busState (setBusState b 0 l) b = 0 ∧ busState (setBusState b 1 l) b = 1 ∧
    busState (setBusState b 2 l) b = 2 := by
  have bit (st : Nat) {i : Nat} (low : i < 2) : (clrMask (l.bus b).status 3 ||| BitVec.ofNat 16 st).getLsbD i = st.testBit i := by
    have three : BitVec.getLsbD (3 : BitVec 16) i = true := by
      obtain rfl | rfl : i = 0 ∨ i = 1 := by omega
      · decide
      · decide
    unfold clrMask
    rw [BitVec.getLsbD_or, BitVec.getLsbD_and, BitVec.getLsbD_not, three, BitVec.getLsbD_ofNat]
    simp [show i < 16 by omega]
  have shown (st : Nat) : busState (setBusState b st l) b = (st.testBit 0).toNat + 2 * (st.testBit 1).toNat := by
    unfold busState setBusState
    rw [updBus_same, busState_bits, bit st (by decide), bit st (by decide)]
  exact ⟨(shown 0).trans (by decide), (shown 1).trans (by decide), (shown 2).trans (by decide)⟩

theorem busState_of_parts {l m : Live} (h : PartReports l m) (b : Nat) : busState m b = busState l b :=
  busState_of_bits (h.bus_status b 0 (by decide)) (h.bus_status b 1 (by decide))

theorem apply_busState (f : Live → Live) (s : State) (b : Nat) : busState (s.apply f).live b = busState (f s.live) b :=
  busState_of_parts (apply_parts f s) b

/-! ### Heartbeats heard (R401) -/

theorem emcy_mem (code src payload : Nat) (l : Live) : (emcy code src payload l).mem = l.mem := by simp

/-- What a value of the communication objects depends on. -/
theorem commVal_congr {l m : Live} (conf : m.conf = l.conf) (choice : m.net.choice = l.net.choice)
    (node : ∀ b, (m.bus b).nodeId = (l.bus b).nodeId) (idx s : Nat) : commVal m idx s = commVal l idx s := by
  unfold commVal
  dsimp only
  rw [conf, choice, node, node]

/-- What one heartbeat does to a consumer: those of its node are armed anew. -/
def hearOne (b node i : Nat) (l : Live) : Live :=
  if field (consumerOf l b i) 23 16 = node ∧ field (consumerOf l b i) 15 0 ≠ 0 then
    l.updBus b (fun x => { x with consumers := x.consumers.put {} i { armed := true, last := l.now } })
  else l

theorem hearOne_keeps (b node i : Nat) (l : Live) : (hearOne b node i l).conf = l.conf ∧ (hearOne b node i l).net.choice = l.net.choice ∧
    (∀ c, ((hearOne b node i l).bus c).nodeId = (l.bus c).nodeId) ∧ (hearOne b node i l).now = l.now ∧
    (hearOne b node i l).net.nmt = l.net.nmt ∧ (hearOne b node i l).mem = l.mem := by
  unfold hearOne
  split
  · refine ⟨rfl, rfl, fun c => ?_, rfl, rfl, rfl⟩
    rcases Decidable.em (c = b) with rfl | other
    · rw [updBus_same]
    · rw [updBus_ne _ _ other]
  · exact ⟨rfl, rfl, fun _ => rfl, rfl, rfl, rfl⟩

/-- Whether a heartbeat of a node concerns a consumer. -/
def concerns (l : Live) (b node i : Nat) : Prop := field (consumerOf l b i) 23 16 = node ∧ field (consumerOf l b i) 15 0 ≠ 0

theorem concerns_hearOne (b node j i : Nat) (l : Live) : concerns (hearOne b node j l) b node i ↔ concerns l b node i := by
  obtain ⟨conf, choice, node', -⟩ := hearOne_keeps b node j l
  unfold concerns consumerOf
  rw [commVal_congr conf choice node']

theorem hearOne_get {b node i : Nat} (j : Nat) {l : Live} (mine : concerns l b node i) :
    ((hearOne b node j l).bus b).consumers.get {} i =
      if i = j then { armed := true, last := l.now } else (l.bus b).consumers.get {} i := by
  unfold hearOne
  split
  next heard =>
    rw [updBus_same]
    dsimp only
    exact SMap.get_put ({} : HbConsumer) _ _ _ _
  next deaf =>
    rw [if_neg]
    rintro rfl
    exact deaf mine

/-- A heartbeat arms the consumers of its node anew. -/
theorem hear_get (b node i : Nat) (is : List Nat) : ∀ l : Live, concerns l b node i →
    ((l.bus b).consumers.get {} i = { armed := true, last := l.now } ∨ i ∈ is) →
    ((forAll (hearOne b node) is l).bus b).consumers.get {} i = { armed := true, last := l.now } := by
  induction is with
  | nil => exact fun l _ h => h.resolve_right List.not_mem_nil
  | cons j js ih =>
    intro l mine h
    have now : (hearOne b node j l).now = l.now := (hearOne_keeps b node j l).2.2.2.1
    have next := ih (hearOne b node j l) ((concerns_hearOne b node j i l).mpr mine)
    rw [now] at next
    refine next ?_
    rw [hearOne_get j mine]
    split
    · exact .inl rfl
    next other =>
      rcases h with h | h
      · exact .inl h
      · exact .inr ((List.mem_cons.mp h).resolve_left other)

/-! ### A heartbeat that does not come (R401, R402) -/

theorem leaveOperational_bus {α : Type} (read : Bus → α) (kept : ∀ x : Bus, read x = read x.silent) (l : Live) (b : Nat) :
    read ((leaveOperational l).bus b) = read (l.bus b) := by
  unfold leaveOperational
  split
  · have silent := congrFun (congrArg Prod.snd (disarm_offEngines 6 l)) b
    rw [kept, kept (l.bus b)]
    exact congrArg read silent
  · rfl

theorem writeRecord_bus (src kind payload : Nat) (l : Live) (b : Nat) : (writeRecord src kind payload l).bus b = l.bus b := by
  unfold Live.bus
  rw [(writeRecord_net_journal _ _ _ _).1]

theorem nmtNet_buses (new : Byte) (l : Live) : (nmtNet new l).buses = l.net.buses := by
  unfold nmtNet
  dsimp only
  split <;> split <;> rfl

/-- A change of the NMT state flags it on the buses and leaves the rest of them. -/
theorem nmtGo_bus {α : Type} (read : Bus → α) (kept : ∀ x : Bus, read x = read x.silent)
    (flagged : ∀ x : Bus, read { x with status := setBit x.status 2 } = read x) (new : Byte) (src cs : Nat) (l : Live) (b : Nat) :
    read ((nmtGo new src cs l).bus b) = read (l.bus b) := by
  have one (c : Nat) (m : Live) : read (((noteBus c 2 m).updBus c fun x => { x with status := setBit x.status 2 }).bus b) = read (m.bus b) := by
    rcases Decidable.em (b = c) with rfl | other
    · rw [updBus_same]
      exact flagged _
    · rw [updBus_ne _ _ other]
      rfl
  rcases Decidable.em (l.net.nmt = new) with same | differs
  · unfold nmtGo
    dsimp only
    rw [if_pos same.symm]
  · rw [nmtGo_eq differs, ← leaveOperational_bus read kept l b]
    unfold nmtTail
    dsimp only
    rw [nmtRecord, writeRecord_bus]
    have buses := forAll_keeps (fun m => read (m.bus b)) one [0, 1] { leaveOperational l with net := nmtNet new (leaveOperational l) }
    have still : ({ leaveOperational l with net := nmtNet new (leaveOperational l) } : Live).bus b = (leaveOperational l).bus b := by
      unfold Live.bus
      rw [nmtNet_buses]
    rw [still] at buses
    split
    · exact (forAll_keeps (fun m => read (m.bus b)) (f := fun p l => l.updTpdo p _) (fun _ _ => rfl) (List.range 16) _).trans buses
    · exact buses

/-- The NMT state after the error behaviour (R402). -/
theorem errorBehaviour_nmt (l : Live) : (errorBehaviour l).net.nmt = match commVal l 0x1029 1 with
    | 0 => nmtPre
    | 2 => nmtStop
    | _ => l.net.nmt := by
  have go (new : Byte) : (nmtGo new 0 0 l).net.nmt = new := by
    rcases Decidable.em (l.net.nmt = new) with same | differs
    · unfold nmtGo
      dsimp only
      rw [if_pos same.symm]
      exact same
    · exact nmtGo_nmt differs 0 0
  unfold errorBehaviour
  generalize commVal l 0x1029 1 = v
  match v with
  | 0 => exact go _
  | 1 => rfl
  | 2 => exact go _
  | n + 3 => rfl

theorem errorBehaviour_bus {α : Type} (read : Bus → α) (kept : ∀ x : Bus, read x = read x.silent)
    (flagged : ∀ x : Bus, read { x with status := setBit x.status 2 } = read x) (l : Live) (b : Nat) :
    read ((errorBehaviour l).bus b) = read (l.bus b) := by
  unfold errorBehaviour
  split
  · exact nmtGo_bus read kept flagged _ _ _ l b
  · exact nmtGo_bus read kept flagged _ _ _ l b
  · rfl

theorem nmtGo_memory (new : Byte) (src cs : Nat) (l : Live) : (nmtGo new src cs l).mem = l.mem := by
  rcases Decidable.em (l.net.nmt = new) with same | differs
  · unfold nmtGo
    dsimp only
    rw [if_pos same.symm]
  · exact nmtGo_mem differs src cs

theorem errorBehaviour_mem (l : Live) : (errorBehaviour l).mem = l.mem := by
  unfold errorBehaviour
  split
  · exact nmtGo_memory _ _ _ l
  · exact nmtGo_memory _ _ _ l
  · rfl

/-- Settles O36. The error behaviour at a heartbeat timeout, which is that of 0x1029:01 read literally, is the model's choice (log entry 88). -/
theorem busConditionsComplete : Obligations.BusConditionsComplete := by
  intro s b x
  refine ⟨fun f r queue active may over_ => ?_, fun active timed due => ?_, fun node st i active mine timed => ?_, fun i active armed timed late => ?_,
    fun active st => ?_, fun active st => ?_, fun active => ?_, fun up st => ?_, fun active => ?_⟩
  · have effect : emcyInhibitEnd b.val s.live = s.live.setBus b.val { x with
        tx := x.tx ++ [f], emcyQueue := r, emcyInhibit := s.live.now + emcyInhibitTime s.live } := by
      unfold emcyInhibitEnd
      dsimp only
      rw [show (s.live.bus b.val).emcyQueue = f :: r from queue]
      exact if_pos (by simp [active, may, show (s.live.bus b.val).emcyInhibit ≤ s.live.now from over_])
    refine completes_apply (f := emcyInhibitEnd b.val) rfl ⟨sends_apply ⟨[], by rw [effect, setBus_same]⟩, ?_, sameMemory_apply (by rw [effect]; rfl)⟩
    obtain ⟨-, q, hq⟩ := apply_extends (emcyInhibitEnd b.val) s b.val
    exact ⟨q, by rw [hq, effect, setBus_same]⟩
  · have effect : heartbeatProduce b.val s.live = (transmit b.val (heartbeatFrame s.live b.val s.live.net.nmt) s.live).updBus b.val
        (fun x => { x with lastHb := s.live.now }) :=
      if_pos (by simp [active, timed, show (s.live.bus b.val).lastHb + commVal s.live 0x1017 0 * 400000 ≤ s.live.now from due])
    refine completes_apply (f := heartbeatProduce b.val) rfl ⟨sends_apply ⟨[], ?_⟩, ?_, sameMemory_apply (by rw [effect]; rfl)⟩
    · rw [effect, updBus_same, transmit, updBus_same]
    · rw [(apply_bus_keeps _ _ _).2.2.2.2.2.1, effect, updBus_same]
  · have effect : heartbeatReceived b.val node.toNat s.live = forAll (hearOne b.val node.toNat) [0, 1, 2, 3] s.live := if_neg (by simp [active])
    refine completes_apply (f := heartbeatReceived b.val node.toNat) rfl ⟨?_, ?_, sameMemory_apply ?_⟩
    · rw [(apply_bus_keeps _ _ _).2.2.2.2.2.2.1, effect]
      exact hear_get _ _ _ _ s.live ⟨mine, timed⟩ (.inr (by have := i.isLt; simp; omega))
    · simp only [apply_parts_keep, effect]
      exact forAll_keeps (fun l => l.net.nmt) (fun j l => (hearOne_keeps _ _ j l).2.2.2.2.1) _ s.live
    · rw [effect]
      exact forAll_keeps Live.mem (fun j l => (hearOne_keeps _ _ j l).2.2.2.2.2) _ s.live
  · obtain ⟨l1, h1⟩ : ∃ l1, l1 = (noteBus b.val 7 s.live).updBus b.val fun y =>
        { y with consumers := y.consumers.put {} i.val {}, status := setBit y.status 7, hbTimeoutCnt := y.hbTimeoutCnt + 1 } := ⟨_, rfl⟩
    have effect : hbTimeout b.val i.val s.live = errorBehaviour (emcy 0x8130 (busSource b.val 5) 0 l1) := by
      rw [h1]
      exact if_pos (by simp [active, timed, show ((s.live.bus b.val).consumers.get {} i.val).armed = true from armed,
        show ((s.live.bus b.val).consumers.get {} i.val).last + field (consumerOf s.live b.val i.val) 15 0 * 400000 ≤ s.live.now from late])
    have parts := emcy_parts 0x8130 (busSource b.val 5) 0 l1
    have val : commVal (emcy 0x8130 (busSource b.val 5) 0 l1) 0x1029 1 = commVal s.live 0x1029 1 := by
      refine commVal_congr (by rw [(emcy_keeps _ _ _ _).2.2.1, h1]; rfl) (by rw [(emcy_parts_keep _ _ _ _).2.2.1, h1]; rfl) (fun c => ?_) _ _
      rw [(parts.bus_keeps c).2.2.1, h1]
      rcases Decidable.em (c = b.val) with rfl | other
      · rw [updBus_same]
        rfl
      · rw [updBus_ne _ _ other]
        rfl
    have nmt : (emcy 0x8130 (busSource b.val 5) 0 l1).net.nmt = s.live.net.nmt := by
      rw [(emcy_parts_keep _ _ _ _).1, h1]
      rfl
    have behaviour := errorBehaviour_nmt (emcy 0x8130 (busSource b.val 5) 0 l1)
    rw [val, nmt] at behaviour
    refine completes_apply (f := hbTimeout b.val i.val) rfl ⟨?_, ?_, ?_, ?_, sameMemory_apply ?_⟩
    · rw [(apply_bus_keeps _ _ _).2.2.2.2.2.2.1, effect, errorBehaviour_bus Bus.consumers (fun _ => rfl) (fun _ => rfl),
        (parts.bus_keeps b.val).2.2.2.2.2.2.1, h1, updBus_same]
      dsimp only
      exact SMap.get_put_same ({} : HbConsumer) _ _ _
    · rw [apply_busBit _ _ _ (by decide), effect,
        errorBehaviour_bus (fun x => x.status.getLsbD 7) (fun x => (clrBit_other x.status (by decide)).symm) (fun x => setBit_other x.status (by decide)),
        parts.bus_status _ _ (by decide), h1, updBus_same]
      exact setBit_same _ (by decide)
    · rw [(apply_bus_keeps _ _ _).2.1, effect, errorBehaviour_bus Bus.hbTimeoutCnt (fun _ => rfl) (fun _ => rfl),
        (parts.bus_keeps b.val).2.1, h1, updBus_same]
      rfl
    · rw [(apply_parts_keep _ _).1, effect]
      exact behaviour
    · rw [effect, errorBehaviour_mem, emcy_mem, h1]
      rfl
  · have effect : errorPassive b.val s.live = emcy 0x8120 (busSource b.val 0) 0
        ((noteBus b.val 4 (setBusState b.val 1 s.live)).updBus b.val fun x => { x with status := setBit x.status 4 }) :=
      if_pos (by simp [active, st])
    refine completes_apply (f := errorPassive b.val) rfl ⟨?_, ?_, sameMemory_apply (by rw [effect, emcy_mem]; rfl)⟩
    · rw [apply_busState, effect, busState_of_parts (emcy_parts _ _ _ _), busState_flag (by decide)]
      exact (busState_set s.live b.val).2.1
    · rw [apply_busBit _ _ _ (by decide), effect, (emcy_parts _ _ _ _).bus_status _ _ (by decide), updBus_same]
      exact setBit_same _ (by decide)
  · have effect : errorActive b.val s.live = setBusState b.val 0 s.live := if_pos (by simp [active, st])
    refine completes_apply (f := errorActive b.val) rfl ⟨?_, sameMemory_apply (by rw [effect]; rfl)⟩
    rw [apply_busState, effect]
    exact (busState_set s.live b.val).1
  · have effect : busOff b.val s.live = (noteBus b.val 5 (setBusState b.val 2 s.live)).updBus b.val fun x => { x with status := setBit x.status 5 } :=
      if_pos active
    refine completes_apply (f := busOff b.val) rfl ⟨?_, ?_, sameMemory_apply (by rw [effect]; rfl)⟩
    · rw [apply_busState, effect, busState_flag (by decide)]
      exact (busState_set s.live b.val).2.2
    · rw [apply_busBit _ _ _ (by decide), effect, updBus_same]
      exact setBit_same _ (by decide)
  · have effect : busOffRecovery b.val s.live = emcy 0x8140 (busSource b.val 0) 0 (setBusState b.val 0 s.live) := if_pos (by simp [up, st])
    refine completes_apply (f := busOffRecovery b.val) rfl ⟨?_, ?_, sameMemory_apply (by rw [effect, emcy_mem]; rfl)⟩
    · rw [apply_busState, effect, busState_of_parts (emcy_parts _ _ _ _)]
      exact (busState_set s.live b.val).1
    · simp only [apply_parts_keep, effect, emcy_parts_keep]
      rfl
  · have effect : rxOverrun b.val s.live = emcy 0x8110 (busSource b.val 0) 0
        ((noteBus b.val 3 s.live).updBus b.val fun x => { x with status := setBit x.status 3 }) := if_pos active
    refine completes_apply (f := rxOverrun b.val) rfl ⟨?_, ?_, sameMemory_apply (by rw [effect, emcy_mem]; rfl)⟩
    · rw [apply_busBit _ _ _ (by decide), effect, (emcy_parts _ _ _ _).bus_status _ _ (by decide), updBus_same]
      exact setBit_same _ (by decide)
    · rw [apply_busState, effect, busState_of_parts (emcy_parts _ _ _ _), busState_flag (by decide)]
      rfl

end Sys2Proof.Machine

/-! The LSS slave of a bus (R409), and what it stores in the device record (R422). -/

namespace Sys2Proof.Machine

open Sys2Proof

/-! ### Node-IDs in the device record -/

theorem ofBytesLE_bound (b : List Byte) : ofBytesLE b < 256 ^ b.length := by
  induction b with
  | nil => decide
  | cons x r ih =>
    have := x.isLt
    simp only [ofBytesLE, List.length_cons, Nat.pow_succ]
    omega

theorem fieldLE_bound (b : List Byte) (off len : Nat) : fieldLE b off len < 256 ^ len := by
  have bound := ofBytesLE_bound (slice b off len)
  rwa [show (slice b off len).length = len by rw [slice_get]; simp] at bound

theorem deviceBytes_node (n : Nat) (x : Settings) : (recordSettings (deviceBytes n x)).node = [nth 0xFF x.node 0 % 256, nth 0xFF x.node 1 % 256] := by
  have first := fieldLE_middle ([0x50, 0x59, 0x44, 0x31] ++ bytesLE 2 1 ++ bytesLE 2 0 ++ bytesLE 4 n ++ bytesLE 4 x.key)
    (bytesLE 1 (nth 0xFF x.node 0)) (bytesLE 1 (nth 0xFF x.code 0) ++ bytesLE 1 (nth 0xFF x.node 1)
      ++ bytesLE 1 (nth 0xFF x.code 1) ++ bytesLE 8 0 ++ bytesLE 4 (crc32c (deviceBody n x)).toNat)
  have second := fieldLE_middle ([0x50, 0x59, 0x44, 0x31] ++ bytesLE 2 1 ++ bytesLE 2 0 ++ bytesLE 4 n ++ bytesLE 4 x.key
      ++ bytesLE 1 (nth 0xFF x.node 0) ++ bytesLE 1 (nth 0xFF x.code 0))
    (bytesLE 1 (nth 0xFF x.node 1)) (bytesLE 1 (nth 0xFF x.code 1) ++ bytesLE 8 0 ++ bytesLE 4 (crc32c (deviceBody n x)).toNat)
  rw [ofBytesLE_bytesLE] at first second
  unfold recordSettings deviceBytes
  dsimp only
  rw [show nth 0xFF x.node 0 % 256 = _ from first.symm, show nth 0xFF x.node 1 % 256 = _ from second.symm]
  simp [deviceBody]

/-- The settings in force fit their record. -/
theorem storedSettings_fits (l : Live) : (storedSettings l).key < 2 ^ 32 ∧ ∃ a b, (storedSettings l).node = [a, b] ∧ a < 256 ∧ b < 256 := by
  have fits (b : List Byte) : (recordSettings b).key < 2 ^ 32 ∧ ∃ x y, (recordSettings b).node = [x, y] ∧ x < 256 ∧ y < 256 :=
    ⟨fieldLE_bound b 12 4, _, _, rfl, fieldLE_bound b 16 1, fieldLE_bound b 18 1⟩
  unfold storedSettings
  split
  · exact fits _
  · split
    · exact fits _
    · exact ⟨by decide, 0xFF, 0xFF, rfl, by decide, by decide⟩

/-- A node-ID set among those in force is stored with the others. -/
theorem node_stored {old : List Nat} (fits : ∃ a b, old = [a, b] ∧ a < 256 ∧ b < 256) (b : Fin 2) {v : Nat} (small : v < 256) :
    [nth 0xFF (old.set b.val v) 0 % 256, nth 0xFF (old.set b.val v) 1 % 256] = old.set b.val v := by
  obtain ⟨a, c, rfl, ha, hc⟩ := fits
  match b with
  | 0 => simp [nth, Nat.mod_eq_of_lt small, Nat.mod_eq_of_lt hc]
  | 1 => simp [nth, Nat.mod_eq_of_lt small, Nat.mod_eq_of_lt ha]

/-! ### Answers of the slave -/

theorem lssReply_sends {f : Live → Live} {s : State} {b : Nat} {data : List Byte} {m : Live} (effect : f s.live = lssReply b data m)
    (same : (m.bus b).tx = (s.live.bus b).tx) : Sends b (lssFrame data) s (s.apply f) := by
  refine sends_apply ⟨[], ?_⟩
  rw [effect, lssReply, transmit, updBus_same, same]
  rfl

/-- A service of the configuration state. -/
theorem completes_inConf {c : Instr} {b : Nat} {f : Live → Live} {s : State} {P : State → Prop} (run : exec c s = ran (inConf b f) s)
    (up : lssUp s.live b = true) (conf : (s.live.bus b).lss.configuration = true) (h : P (s.apply f)) : Completes c s P := by
  refine completes_apply run ?_
  rw [apply_congr (f := inConf b f) (g := f) (if_pos (by rw [up, show lssConf s.live b = true from conf]; rfl))]
  exact h

theorem apply_lss (f : Live → Live) (s : State) (b : Nat) : ((s.apply f).live.bus b).lss = ((f s.live).bus b).lss :=
  (apply_bus_keeps f s b).2.2.2.2.2.2.2.1

/-- The slave answers, and its state becomes `y`. -/
theorem lss_answers {f : Live → Live} {s : State} {b : Nat} {data : List Byte} {g : LssState → LssState}
    (effect : f s.live = lssReply b data (updLss b g s.live)) :
    ((((s.apply f).live.bus b).lss = g (s.live.bus b).lss) ∧ SameMemory s (s.apply f)) ∧ Sends b (lssFrame data) s (s.apply f) := by
  refine ⟨⟨?_, sameMemory_apply (by rw [effect]; rfl)⟩, lssReply_sends effect (by rw [updLss, updBus_same])⟩
  rw [apply_lss, effect, lssReply, transmit, updBus_same, updLss, updBus_same]

/-- The slave answers and stays as it is. -/
theorem lss_replies {f : Live → Live} {s : State} {b : Nat} {data : List Byte} (effect : f s.live = lssReply b data s.live) :
    ((((s.apply f).live.bus b).lss = (s.live.bus b).lss) ∧ SameMemory s (s.apply f)) ∧ Sends b (lssFrame data) s (s.apply f) := by
  refine ⟨⟨?_, sameMemory_apply (by rw [effect]; rfl)⟩, lssReply_sends effect rfl⟩
  rw [apply_lss, effect, lssReply, transmit, updBus_same]

/-- Settles O37. The forms of the answers are the model's, from CiA 305 (log entry 44). -/
theorem lssComplete : Obligations.LssComplete := by
  intro s b up x conf becomes
  refine ⟨fun mode small => ?_, fun a waiting vendor product revision serial => ?_, fun id on fits => ?_, fun entry on fits => ?_,
    fun delay c on code => ?_, fun on => ?_, fun which on => ?_, fun on => ?_, fun lo hi vendor product r1 r2 s1 s2 => ?_, fun open_ => ?_,
    fun open_ waiting => ⟨fun id sub next => ?_, fun id bit sub next here part inside same => ?_⟩⟩
  · have effect : lssGlobal b.val mode s.live = updLss b.val (fun x => { x with configuration := mode = 1 }) s.live := if_pos (by simp [up, small])
    refine completes_apply (f := lssGlobal b.val mode) rfl ⟨?_, sameMemory_apply (by rw [effect]; rfl)⟩
    rw [apply_lss, effect, updLss, updBus_same]
  · exact completes_apply (f := lssSelective b.val a) rfl (lss_answers (g := fun x => { x with configuration := true })
      (if_pos (by simp [up, show lssConf s.live b.val = false from waiting, vendor, product, revision, serial])))
  · have effect : lssNodeId b.val id s.live = lssReply b.val [17, 0, 0] (updLss b.val (fun x => { x with nodeId := some id }) s.live) :=
      if_pos (by simpa using fits)
    refine completes_inConf rfl up on ⟨(lss_answers effect).1, (lss_answers effect).2, ?_⟩
    rw [(apply_bus_keeps _ _ _).2.2.1, effect, lssReply, transmit, updBus_same, updLss, updBus_same]
  · have effect : lssBitTiming b.val 0 entry s.live = lssReply b.val [19, 0, 0] (updLss b.val (fun x => { x with bitCode := some entry }) s.live) :=
      if_pos (by simp [fits])
    refine completes_inConf rfl up on ⟨(lss_answers effect).1, (lss_answers effect).2, ?_⟩
    rw [(apply_bus_keeps _ _ _).2.2.2.1, effect, lssReply, transmit, updBus_same, updLss, updBus_same]
  · have effect : lssActivate b.val s.live = s.live.updBus b.val (fun x => { x with arbRate := lssRate c.toNat }) := by
      unfold lssActivate
      rw [show (s.live.bus b.val).lss.bitCode = some c from code]
    refine completes_inConf (f := lssActivate b.val) rfl up on ⟨⟨?_, sameMemory_apply (by rw [effect]; rfl)⟩, ?_⟩
    · rw [apply_lss, effect, updBus_same]
    · rw [(apply_bus_keeps _ _ _).2.2.2.1, effect, updBus_same]
  · obtain ⟨y, hy⟩ : ∃ y : Settings, lssStore b.val s.live = lssReply b.val [23, 0, 0] (storeSettings y s.live) ∧
        y.key = (storedSettings s.live).key ∧ y.node = (storedSettings s.live).node.set b.val (x.nodeId.getD (s.live.bus b.val).nodeId).toNat := ⟨_, rfl, rfl, rfl⟩
    obtain ⟨effect, key, node⟩ := hy
    obtain ⟨net, mem⟩ := storeSettings_keeps y s.live
    obtain ⟨small, nodes⟩ := storedSettings_fits s.live
    obtain ⟨n, record⟩ := storeSettings_record y s.live
    have bus : (storeSettings y s.live).bus b.val = s.live.bus b.val := by
      unfold Live.bus
      rw [net]
    have stored : storedSettings (s.apply (lssStore b.val)).live = recordSettings (deviceBytes n y) := by
      rw [← record]
      refine storedSettings_of_mram ?_
      rw [apply_mram, effect]
      rfl
    refine completes_inConf (f := lssStore b.val) rfl up on ⟨⟨?_, sameMemory_apply ?_⟩, lssReply_sends effect (by rw [bus]), ?_, ?_⟩
    · rw [apply_lss, effect, lssReply, transmit, updBus_same, bus]
    · rw [effect]
      exact mem
    · rw [stored, deviceBytes_key, key, Nat.mod_eq_of_lt small]
    · rw [stored, deviceBytes_node, node]
      exact node_stored nodes b (BitVec.isLt _)
  · exact completes_inConf (f := lssIdentity b.val which.val) rfl up on (lss_replies rfl)
  · exact completes_inConf (f := lssInquireNode b.val) rfl up on (lss_replies rfl)
  · exact completes_apply (f := lssIdentify b.val lo hi) rfl (lss_replies (if_pos (by simp [up, vendor, product, r1, r2, s1, s2])))
  · exact completes_apply (f := lssIdentifyOpen b.val) rfl (lss_replies (if_pos (by simp [up, open_])))
  · exact completes_apply (f := lssFastscan b.val id 0x80 sub next) rfl (lss_answers (g := fun x => { x with scanPart := 0 })
      ((if_neg (by simp [up, open_, show lssConf s.live b.val = false from waiting])).trans (if_pos rfl)))
  · have effect : lssFastscan b.val id bit sub next s.live = lssReply b.val [79]
        (updLss b.val (fun x => { x with scanPart := next.toNat, configuration := x.configuration || (bit = 0 && decide (next.toNat < sub.toNat)) }) s.live) := by
      have place : (s.live.bus b.val).lss.scanPart = sub.toNat := here.symm
      have full : bit ≠ 0x80 := by
        rintro rfl
        exact absurd inside (by decide)
      unfold lssFastscan
      dsimp only
      rw [if_neg (by simp [up, open_, show lssConf s.live b.val = false from waiting]), if_neg full, place,
        if_neg (by simp [Nat.not_le.mpr inside, Nat.not_le.mpr part]), if_pos same]
    obtain ⟨⟨lss, mem⟩, sends⟩ := lss_answers (f := lssFastscan b.val id bit sub next)
      (g := fun x => { x with scanPart := next.toNat, configuration := x.configuration || (bit = 0 && decide (next.toNat < sub.toNat)) }) effect
    refine completes_apply (f := lssFastscan b.val id bit sub next) rfl ⟨⟨lss.trans ?_, mem⟩, sends⟩
    rw [show (s.live.bus b.val).lss.configuration = false from waiting, Bool.false_or]

end Sys2Proof.Machine

/-! Writes of objects that act or stage when they are accepted (R73, R84, R404). -/

namespace Sys2Proof.Machine

open Sys2Proof

/-- A write that its object takes is answered as done, where no reset is due. -/
theorem completes_write {c : Instr} {conn : Conn} {idx sub : Nat} {data : List Byte} {s : State} {m : Live} {P : State → Prop}
    (run : exec c s = writeCommand conn idx sub data s) (reaches : Reaches conn idx sub s) (now : answeredLater idx sub = false)
    (effect : writeObject conn idx sub data (touch conn s.live) = (m, 0)) (quiet : m.rst.sourceDue = none)
    (h : P (s.apply fun _ => reply conn 0 m)) : Completes c s P := by
  refine completes_apply run ?_
  have object : carryOut (objectWrite conn idx sub data s.live) = reply conn 0 m := by
    unfold objectWrite
    rw [now, if_neg (by decide), onObject_reaches _ reaches.1 reaches.2, effect]
    unfold carryOut
    rw [show (reply conn 0 m).rst.sourceDue = none from quiet]
  rw [apply_congr (f := fun l => carryOut (objectWrite conn idx sub data l)) (g := fun _ => reply conn 0 m) object]
  exact h

/-- The value of a numeric object that a write of its size gives. -/
theorem parseValue_number {idx sub : Nat} {r : ObjRow} {data : List Byte} (row : objRow idx sub = some r) (number : r.bits ≠ 0)
    (size : data.length = r.size) (fits : r.admits (ofBytesLE data) = true) : parseValue idx sub data = .ok (.num (ofBytesLE data)) := by
  unfold parseValue
  rw [row]
  dsimp only
  rw [if_neg number, if_neg (not_not_intro size), if_pos fits]

/-! ### The error list under a report of a loss (R407) -/

theorem emcyBuses_errors (data : List Byte) (l : Live) : (forAll (emcyOnBus data) [0, 1] l).net.errors = l.net.errors ∧
    (forAll (emcyOnBus data) [0, 1] l).net.sticky = l.net.sticky := by
  have one (b : Nat) (l : Live) : (emcyOnBus data b l).net.errors = l.net.errors ∧ (emcyOnBus data b l).net.sticky = l.net.sticky := by
    unfold emcyOnBus
    split
    · dsimp only
      split
      · exact ⟨rfl, rfl⟩
      · split <;> exact ⟨rfl, rfl⟩
    · exact ⟨rfl, rfl⟩
  exact ⟨forAll_keeps (fun m => m.net.errors) (fun b m => (one b m).1) _ l, forAll_keeps (fun m => m.net.sticky) (fun b m => (one b m).2) _ l⟩

theorem errSettle_errors (l : Live) : (errSettle l).net.errors = l.net.errors ∧ (errSettle l).net.sticky = l.net.sticky := by
  unfold errSettle
  dsimp only
  split
  · obtain ⟨errors, sticky⟩ := emcyBuses_errors (List.replicate 8 0) (writeRecord 0 0x72 0 { l with net := { l.net with errReg := 0 } })
    rw [errors, sticky, (writeRecord_net_journal _ _ _ _).1]
    exact ⟨rfl, rfl⟩
  · exact ⟨rfl, rfl⟩

/-- An effect that loses no record leaves the error list as it is in the device that it changes. -/
theorem apply_errors {f : Live → Live} {s : State} (lossless : (f s.live).log.lossCnt = s.live.log.lossCnt) :
    (s.apply f).live.net.errors = (f s.live).net.errors ∧ (s.apply f).live.net.sticky = (f s.live).net.sticky := by
  have same (s : State) : (wipeBanks s).live.net = s.live.net ∧ (settleHold s).live.net = s.live.net := by
    unfold wipeBanks settleHold
    constructor
    · split <;> rfl
    · dsimp only
      split <;> rfl
  have wrapped (l : Live) : (seqWrap l).net = l.net := by
    unfold seqWrap
    split
    · exact (writeRecord_net_journal _ _ _ _).1
    · rfl
  have taken (p : Live) (s : State) : (settleSnap p s).live.net = s.live.net := by
    unfold settleSnap
    split
    · rfl
    · split
      · rfl
      · split
        · rfl
        · exact wrapped s.live
  have settled : settle s.live (f s.live) = errSettle (f s.live) := by
    unfold settle lossReport
    rw [if_pos (.inl lossless)]
  unfold State.apply
  rw [taken, (same _).2, (same _).1]
  show (settle s.live (f s.live)).net.errors = _ ∧ (settle s.live (f s.live)).net.sticky = _
  rw [settled]
  exact errSettle_errors _

/-! ### Communication objects (R404, R407) -/

/-- A communication object that neither has a COB-ID nor maps a PDO takes any value of its size. -/
theorem writeObject_comm {conn : Conn} {idx sub : Nat} {data : List Byte} {l : Live} {v : Val} (bytes : bytesCommand conn idx sub data = none)
    (number : numberCommand conn idx sub (ofBytesLE data) = none) (comm : isComm idx = true) (status : isStatus idx = false)
    (parsed : parseValue idx sub data = .ok v) (list : idx ≠ 0x1003) (change : changeRefused l (connBus conn) idx sub v.toNat = false)
    (check : commCheck l idx sub v.toNat = 0) :
    writeObject conn idx sub data l = (commStart idx sub (l.setBase (commKey (connBus conn) idx sub) v), 0) := by
  unfold writeObject
  rw [bytes]
  dsimp only
  rw [number]
  dsimp only
  rw [status, comm, if_neg (by decide), if_pos rfl]
  unfold commWrite
  rw [parsed]
  dsimp only
  rw [if_neg list, change, if_neg (by decide), check]
  rfl

theorem setBase_get (l : Live) (k : Key) (v : Val) : (l.setBase k v).conf.objs.get none k = some v := by
  unfold Live.setBase
  exact SMap.get_put_same (none : Option Val) l.conf.objs k (some v)

theorem commStart_heartbeat (l : Live) (b : Fin 2) : ((commStart 0x1017 0 l).bus b.val).lastHb = l.now ∧ (commStart 0x1017 0 l).now = l.now := by
  refine ⟨?_, rfl⟩
  show (((l.updBus 0 fun x => { x with lastHb := l.now }).updBus 1 fun x => { x with lastHb := l.now }).bus b.val).lastHb = l.now
  match b with
  | 0 =>
    rw [updBus_ne _ _ (by decide)]
    exact congrArg Bus.lastHb (updBus_same _ _ _)
  | 1 => exact congrArg Bus.lastHb (updBus_same _ _ _)

theorem commVal_stored {l : Live} {idx sub : Nat} {v : Nat} (stored : l.conf.objs.get none (key idx sub) = some (.num v)) : commVal l idx sub = v := by
  unfold commVal
  dsimp only
  rw [stored]
  rfl

theorem heartbeat_row : objRow 0x1017 0 = some ⟨0x1017, 1, 0, 1, 16, false, .rw, false, false, 0, 0, 0, 65535⟩ := by decide

theorem sync_row : objRow 0x1006 0 = some ⟨0x1006, 1, 0, 1, 32, false, .rw, false, false, 0, 0, 0, 4294967295⟩ := by decide

/-- An unsigned number is within limits that are those of its bytes. -/
theorem admits_bytes {r : ObjRow} {data : List Byte} (unsigned : r.signed = false) (low : r.lo = 0) (high : (256 ^ data.length : Nat) ≤ r.hi + 1) :
    r.admits (ofBytesLE data) = true := by
  have bound := ofBytesLE_bound data
  unfold ObjRow.admits
  rw [unsigned, low]
  simp only [Bool.false_eq_true, if_false, decide_eq_true_eq]
  omega

/-- Settles O38. That SYNC is watched from the write of 0x1006 on is the model's choice (log entry 89). -/
theorem commObjectsComplete : Obligations.CommObjectsComplete := by
  refine fun s conn quiet => ⟨fun data reaches size => ?_, fun data reaches size => ?_, fun reaches => ?_⟩
  · have effect : writeObject conn 0x1017 0 data (touch conn s.live) =
        (commStart 0x1017 0 ((touch conn s.live).setBase (key 0x1017 0) (.num (ofBytesLE data))), 0) :=
      writeObject_comm rfl rfl rfl rfl (parseValue_number heartbeat_row (by decide) size (admits_bytes rfl rfl (by rw [size]; decide)))
        (by decide) rfl rfl
    refine completes_write (idx := 0x1017) rfl reaches rfl effect quiet ⟨?_, ?_, ?_, answeredDone_reply _ _ _, sameMemory_reply rfl⟩
    · refine commVal_stored ?_
      rw [apply_conf]
      exact setBase_get (touch conn s.live) _ (.num (ofBytesLE data))
    · rw [(apply_bus_keeps _ _ _).2.2.2.2.2.1]
      exact (commStart_heartbeat _ 0).1
    · rw [(apply_bus_keeps _ _ _).2.2.2.2.2.1]
      exact (commStart_heartbeat _ 1).1
  · have effect : writeObject conn 0x1006 0 data (touch conn s.live) =
        (commStart 0x1006 0 ((touch conn s.live).setBase (key 0x1006 0) (.num (ofBytesLE data))), 0) :=
      writeObject_comm rfl rfl rfl rfl (parseValue_number sync_row (by decide) size (admits_bytes rfl rfl (by rw [size]; decide)))
        (by decide) rfl rfl
    refine completes_write (idx := 0x1006) rfl reaches rfl effect quiet ⟨?_, ?_, answeredDone_reply _ _ _, sameMemory_reply rfl⟩
    · refine commVal_stored ?_
      rw [apply_conf]
      exact setBase_get (touch conn s.live) _ (.num (ofBytesLE data))
    · simp only [apply_parts_keep]
      rfl
  · have effect : writeObject conn 0x1003 0 [0] (touch conn s.live) = (clearErrors (touch conn s.live), 0) := rfl
    refine completes_write (idx := 0x1003) rfl reaches rfl effect quiet ?_
    obtain ⟨errors, sticky⟩ := apply_errors (f := fun _ => reply conn 0 (clearErrors (touch conn s.live))) (s := s) rfl
    exact ⟨errors, sticky, apply_conf _ _, answeredDone_reply _ _ _, sameMemory_reply rfl⟩

end Sys2Proof.Machine

/-! Writes of configuration objects stage, and writes of status words clear (R73, R76, R84). -/

namespace Sys2Proof.Machine

open Sys2Proof

/-! ### Staging (R73, R76) -/

theorem ownerOf_of_groups {l m : Live} (h : m.groups = l.groups) (k : Key) : ownerOf m k = ownerOf l k := by
  unfold ownerOf Live.group
  rw [h]

theorem stageValue_takes {k : Key} {v : Val} {l : Live} (free : covered l k = false) (unarmed : groupArmed l (ownerOf l k) = false) :
    stageValue k v l = (stageIn (ownerOf l k) (storeKey k) v l, 0) :=
  (if_neg (by rw [free]; decide)).trans (if_neg (by rw [unarmed]; decide))

theorem stageIn_group (g : Nat) (k : Key) (v : Val) (l : Live) :
    ((stageIn g k v l).group g).staged.objs = putStaged k v (l.group g).staged.objs ∧
    ((l.group g).state = .idle → ((stageIn g k v l).group g).state = .staging) := by
  unfold stageIn beginStaging
  rw [updGroup_same, updGroup_same]
  constructor
  · split <;> rfl
  · intro idle
    exact congrArg Group.state (if_pos idle)

/-- A write that reaches staging, where no reset is due. -/
theorem completes_staged {c : Instr} {conn : Conn} {idx sub : Nat} {data : List Byte} {s : State} {k : Key} {v : Val}
    (run : exec c s = writeCommand conn idx sub data s) (reaches : Reaches conn idx sub s) (now : answeredLater idx sub = false)
    (effect : writeObject conn idx sub data (touch conn s.live) = stageValue k v (touch conn s.live)) (quiet : s.live.rst.sourceDue = none)
    (free : covered s.live k = false) (unarmed : groupArmed s.live (ownerOf s.live k) = false) : Completes c s fun t =>
      (t.live.group (ownerOf s.live k)).staged.objs = putStaged (storeKey k) v (s.live.group (ownerOf s.live k)).staged.objs ∧
      ((s.live.group (ownerOf s.live k)).state = .idle → (t.live.group (ownerOf s.live k)).state = .staging) ∧
      t.live.conf = s.live.conf ∧ t.live.engines = s.live.engines ∧ AnsweredDone conn t ∧ SameMemory s t := by
  have owner : ownerOf (touch conn s.live) k = ownerOf s.live k := ownerOf_of_groups rfl k
  have staged : writeObject conn idx sub data (touch conn s.live) = (stageIn (ownerOf s.live k) (storeKey k) v (touch conn s.live), 0) := by
    rw [effect, stageValue_takes (l := touch conn s.live) (show covered (touch conn s.live) k = false from free) (by rw [owner]; exact unarmed), owner]
  obtain ⟨objs, begun⟩ := stageIn_group (ownerOf s.live k) (storeKey k) v (touch conn s.live)
  refine completes_write run reaches now staged quiet ⟨?_, fun idle => ?_, ?_, ?_, answeredDone_reply _ _ _, sameMemory_reply rfl⟩
  · rw [apply_group]
    exact objs
  · rw [apply_group]
    exact begun idle
  · rw [apply_conf]
    rfl
  · simp only [apply_keeps]
    rfl

theorem storeKey_program : ∀ e : Fin 16, storeKey (key (0x2900 + e.val) 0x0D) = key (0x2900 + e.val) 0x0D := by decide

theorem programWrite_object (conn : Conn) (e : Fin 16) (data : List Byte) : bytesCommand conn (0x2900 + e.val) 0x0D data = none ∧
    numberCommand conn (0x2900 + e.val) 0x0D (ofBytesLE data) = none ∧ isStatus (0x2900 + e.val) = false ∧ isComm (0x2900 + e.val) = false ∧
    answeredLater (0x2900 + e.val) 0x0D = false ∧ storeKey (key (0x2900 + e.val) 0x0D) = key (0x2900 + e.val) 0x0D := by
  have inside := e.isLt
  have page : (0x2900 + e.val) / 256 = 0x29 := by omega
  refine ⟨?_, ?_, ?_, ?_, ?_, ?_⟩
  · unfold bytesCommand
    rw [if_neg (by omega), if_neg (by omega), if_neg (by omega), if_neg (by omega), if_neg (by omega)]
  · unfold numberCommand
    rw [page]
    show eventWrite (0x2900 + e.val) 0x0D _ = none
    unfold eventWrite
    rw [if_neg (by omega), if_neg (by omega), if_neg (by omega), if_neg (by omega)]
  · unfold isStatus
    simp
    omega
  · unfold isComm
    simp
    omega
  · unfold answeredLater
    simp
    omega
  · exact storeKey_program e

theorem parseValue_program (e : Fin 16) {data : List Byte} (size : data.length = 144) :
    parseValue (0x2900 + e.val) 0x0D data = .ok (.bytes data) := by
  have row : ∀ e : Fin 16, ∃ r, objRow (0x2900 + e.val) 0x0D = some r ∧ r.bits = 0 := by decide
  obtain ⟨r, found, bits⟩ := row e
  have fits : ∀ e : Fin 16, bytesFit (0x2900 + e.val) 0x0D 144 = true := by decide
  unfold parseValue
  rw [found]
  dsimp only
  rw [if_pos bits, size, if_pos (fits e)]

/-! ### Clearing (R84) -/

/-- A status word of the page 0x3000 takes a write of its size. -/
theorem writeObject_status {conn : Conn} {idx sub : Nat} {data : List Byte} {l : Live} {r : ObjRow} (low : 0x3000 ≤ idx) (high : idx < 0x4000)
    (row : objRow idx sub = some r) (size : data.length = r.size) :
    writeObject conn idx sub data l = (clearStatus idx sub (ofBytesLE data) l, 0) := by
  have bytes : bytesCommand conn idx sub data = none := by
    unfold bytesCommand
    rw [if_neg (by omega), if_neg (by omega), if_neg (by omega), if_neg (by omega), if_neg (by omega)]
  have number : numberCommand conn idx sub (ofBytesLE data) = none := by
    unfold numberCommand
    split
    case h_15 => rfl
    all_goals omega
  have status : isStatus idx = true := by
    unfold isStatus
    simp [low, high]
  unfold writeObject statusWrite
  rw [bytes]
  dsimp only
  rw [number]
  dsimp only
  rw [status, if_pos rfl, row]
  exact if_neg (not_not_intro size)

/-- A command that writes a status word of a numbered unit. -/
theorem exec_statusWrite (conn : Conn) {idx : Nat} (sub : BitVec 8) (data : List Byte) (s : State) (small : idx < 65536) :
    exec (.statusW1cWrite conn (BitVec.ofNat 16 idx) sub data) s = writeCommand conn idx sub.toNat data s := by
  show writeCommand conn (BitVec.ofNat 16 idx).toNat sub.toNat data s = _
  rw [BitVec.toNat_ofNat, Nat.mod_eq_of_lt small]

theorem channelStatus_row (c : Fin 512) : ∃ r, objRow (0x3200 + c.val) 1 = some r ∧ r.size = 2 := by
  have inside := c.isLt
  have page : objPage ((0x3200 + c.val) / 256) = objs32 := by
    obtain h | h : (0x3200 + c.val) / 256 = 0x32 ∨ (0x3200 + c.val) / 256 = 0x33 := by omega
    · rw [h]
      rfl
    · rw [h]
      rfl
  have first : (⟨0x3200, 512, 0x01, 1, 16, false, .rw, false, false, 0x0, 0, 0x0, 0xFFFF⟩ : ObjRow).covers (0x3200 + c.val) 1 = true := by
    simp [ObjRow.covers]
    omega
  refine ⟨_, ?_, show (⟨0x3200, 512, 0x01, 1, 16, false, .rw, false, false, 0x0, 0, 0x0, 0xFFFF⟩ : ObjRow).size = 2 from rfl⟩
  unfold objRow
  rw [page]
  exact List.find?_cons_of_pos first

theorem clusterStatus_row : ∀ k : Fin 8, ∃ r, objRow (0x3100 + k.val) 3 = some r ∧ r.size = 1 := by decide

theorem dmaStatus_row : ∀ c : Fin 32, ∃ r, objRow (0x3A00 + c.val) 2 = some r ∧ r.size = 1 := by decide

theorem clearStatus_channel (c : Fin 512) (w : Nat) (l : Live) : clearStatus (0x3200 + c.val) 1 w l = l.updChan c.val fun x =>
    { x with cstat := clrMask x.cstat (BitVec.ofNat 16 (clearable l (key (0x3200 + c.val) 1) w &&& 0x7F)) } := by
  have inside := c.isLt
  unfold clearStatus
  dsimp only
  rw [Nat.add_sub_cancel_left]
  obtain page | page : (0x3200 + c.val) / 256 = 0x32 ∨ (0x3200 + c.val) / 256 = 0x33 := by omega
  · rw [page]
    rfl
  · rw [page]
    rfl

theorem clearStatus_cluster (k : Fin 8) (w : Nat) (l : Live) : clearStatus (0x3100 + k.val) 3 w l = l.updCluster k.val fun x =>
    { x with status := clrMask x.status (BitVec.ofNat 8 (clearable l (key (0x3100 + k.val) 3) w &&& 0x1F)) } := by
  have inside := k.isLt
  unfold clearStatus
  dsimp only
  rw [show (0x3100 + k.val) / 256 = 0x31 by omega, show (0x3100 + k.val) % 256 = k.val by omega]
  rfl

theorem clearStatus_dma (c : Fin 32) (w : Nat) (l : Live) : clearStatus (0x3A00 + c.val) 2 w l = l.updDc c.val fun x =>
    { x with status := clrMask x.status (BitVec.ofNat 8 (clearable l (key (0x3A00 + c.val) 2) w &&& 0x1F)) } := by
  have inside := c.isLt
  unfold clearStatus
  dsimp only
  rw [show (0x3A00 + c.val) / 256 = 0x3A by omega, show (0x3A00 + c.val) % 256 = c.val by omega]
  exact if_neg (show ¬ c.val = 0x40 by omega)

/-- Settles O6: a write of an object that no command takes stages its value in the owning group, and a write of a status word runs
`clearStatus`, whose page decides the word. -/
theorem objectWritesComplete : Obligations.ObjectWritesComplete := by
  refine ⟨fun s conn idx sub data v r reaches quiet bytes number status comm later parsed admitted free unarmed => ?_,
    fun s conn e data r reaches quiet size admitted free unarmed => ?_, fun s conn data quiet => ⟨fun reaches size => ?_, fun c reaches size => ?_,
    fun k reaches size => ?_, fun c reaches size => ?_, fun reaches size => ?_⟩⟩
  · have effect : writeObject conn idx.toNat sub.toNat data (touch conn s.live) = stageValue (key idx.toNat sub.toNat) r (touch conn s.live) := by
      unfold writeObject
      rw [bytes]
      dsimp only
      rw [number]
      dsimp only
      rw [status, comm, if_neg (by decide), if_neg (by decide)]
      unfold stageWrite
      rw [parsed]
      dsimp only
      rw [admitted]
    obtain ⟨t, run, objs, begun, conf, -, answered, mem⟩ := completes_staged (c := .configObjectWrite conn idx sub data) rfl reaches later effect quiet free unarmed
    exact ⟨t, run, objs, begun, conf, answered, mem⟩
  · obtain ⟨bytes, number, status, comm, later, stored⟩ := programWrite_object conn e data
    have effect : writeObject conn (0x2900 + e.val) 0x0D data (touch conn s.live) = stageValue (key (0x2900 + e.val) 0x0D) r (touch conn s.live) := by
      unfold writeObject
      rw [bytes]
      dsimp only
      rw [number]
      dsimp only
      rw [status, comm, if_neg (by decide), if_neg (by decide)]
      unfold stageWrite
      rw [parseValue_program e size]
      dsimp only
      rw [admitted]
    obtain ⟨t, run, objs, -, conf, engines, answered, mem⟩ := completes_staged (c := .programWrite conn e data) rfl reaches later effect quiet free unarmed
    rw [stored] at objs
    exact ⟨t, run, objs, conf, engines, answered, mem⟩
  · obtain ⟨row, found, bytes⟩ := (show ∃ r, objRow 0x3000 4 = some r ∧ r.size = 2 by decide)
    have effect := writeObject_status (conn := conn) (l := touch conn s.live) (by decide) (by decide) found (size.trans bytes.symm)
    refine completes_write (c := .statusW1cWrite conn 0x3000 4 data) rfl reaches (by decide) effect quiet ⟨?_, answeredDone_reply _ _ _, sameMemory_reply rfl⟩
    rw [apply_time]
    rfl
  · have inside := c.isLt
    obtain ⟨row, found, bytes⟩ := channelStatus_row c
    have effect := writeObject_status (conn := conn) (l := touch conn s.live) (by omega) (by omega) found (size.trans bytes.symm)
    refine completes_write (exec_statusWrite conn 1 data s (by omega)) reaches (by simp [answeredLater]; omega) effect (by rw [clearStatus_channel]; exact quiet)
      ⟨?_, answeredDone_reply _ _ _, sameMemory_reply ?_⟩
    · rw [apply_chan, clearStatus_channel]
      rw [(reply_acc conn 0 _).1, updChan_same]
      rfl
    · rw [clearStatus_channel]
      rfl
  · have inside := k.isLt
    obtain ⟨row, found, bytes⟩ := clusterStatus_row k
    have effect := writeObject_status (conn := conn) (l := touch conn s.live) (by omega) (by omega) found (size.trans bytes.symm)
    refine completes_write (exec_statusWrite conn 3 data s (by omega)) reaches (by simp [answeredLater]; omega) effect (by rw [clearStatus_cluster]; exact quiet)
      ⟨?_, answeredDone_reply _ _ _, sameMemory_reply ?_⟩
    · rw [apply_cluster, clearStatus_cluster]
      rw [(reply_acc conn 0 _).2.2.1, updCluster_same]
      rfl
    · rw [clearStatus_cluster]
      rfl
  · have inside := c.isLt
    obtain ⟨row, found, bytes⟩ := dmaStatus_row c
    have effect := writeObject_status (conn := conn) (l := touch conn s.live) (by omega) (by omega) found (size.trans bytes.symm)
    refine completes_write (exec_statusWrite conn 2 data s (by omega)) reaches (by simp [answeredLater]; omega) effect (by rw [clearStatus_dma]; exact quiet)
      ⟨?_, answeredDone_reply _ _ _, sameMemory_reply ?_⟩
    · rw [apply_dc, clearStatus_dma]
      rw [(reply_acc conn 0 _).2.2.2.2.2.2.2.2.2.2.2.2.2.2.1, updDc_same]
      rfl
    · rw [clearStatus_dma]
      rfl
  · obtain ⟨row, found, bytes⟩ := (show ∃ r, objRow 0x5E40 0x14 = some r ∧ r.size = 2 by decide)
    have effect : writeObject conn 0x5E40 0x14 data (touch conn s.live) = (clearStatus 0x5E40 0x14 (ofBytesLE data) (touch conn s.live), 0) := by
      show statusWrite 0x5E40 0x14 data (touch conn s.live) = _
      unfold statusWrite
      rw [found]
      exact if_neg (not_not_intro (size.trans bytes.symm))
    refine completes_write (c := .statusW1cWrite conn 0x5E40 0x14 data) rfl reaches (by decide) effect quiet ⟨?_, answeredDone_reply _ _ _, sameMemory_reply rfl⟩
    rw [apply_rst]
    rfl

end Sys2Proof.Machine

/-! An immediate commit (R74, R76). -/

namespace Sys2Proof.Machine

open Sys2Proof

/-- The base values after a commit of `vs`: a later value of an object takes the place of an earlier one. -/
theorem setBases_objs (vs : List (Key × Val)) (l : Live) :
    (setBases vs l).conf.objs = vs.foldl (fun m e => SMap.put none m e.1 (some e.2)) l.conf.objs := by
  induction vs generalizing l with
  | nil => rfl
  | cons v vs ih => exact ih (l.setBase v.1 v.2)

/-- A commit of values changes nothing but the base values. -/
theorem setBases_only (vs : List (Key × Val)) (l : Live) :
    setBases vs l = { l with conf := { l.conf with objs := (setBases vs l).conf.objs } } := by
  induction vs generalizing l with
  | nil => rfl
  | cons v vs ih => exact (ih (l.setBase v.1 v.2)).trans rfl

theorem events_onlyEvents (l : Live) (u : EventUnit) : OnlyEvents l { l with events := u } := rfl

theorem becomeLive_onlyEvents (e : Nat) (l : Live) : OnlyEvents l (becomeLive e l) := rfl

theorem commitEntry_onlyEvents (g e : Nat) (l : Live) : OnlyEvents l (commitEntry g e l) := by
  unfold commitEntry
  dsimp only
  split
  · split <;> rfl
  · split <;> rfl
  · rfl

theorem commitEvents_onlyEvents (g : Nat) (l : Live) : OnlyEvents l (commitEvents g l) := by
  have noted : OnlyEvents l (noteCancel g l) := by
    unfold noteCancel
    split
    · exact events_onlyEvents l _
    · rfl
  exact (noted.trans (forAll_onlyEvents freeEntry_onlyEvents _ _)).trans (forAll_onlyEvents (commitEntry_onlyEvents g) _ _)

/-- A commit's group and the configuration it sets, before the units take it up. -/
theorem commitGroup_ruled (g : Nat) (byBoundary : Bool) (l : Live) :
    let loaded := (loadMembers l byBoundary (l.group g).staged.objs (commitEvents g (setBases (l.group g).staged.objs l))).1
    ∃ x, (commitGroup g byBoundary l).ruled = ((advanceGen loaded).1.setGroup g x).ruled ∧
      x.state = .idle ∧ x.staged = {} ∧ x.lastDtime = loaded.time.dtime ∧ x.genAt = loaded.conf.gen + 1 := by
  intro loaded
  unfold commitGroup
  dsimp only
  rw [commitHooks_ruled, writeRecord_ruled]
  exact ⟨_, rfl, rfl, rfl, rfl, rfl⟩

/-- What a commit leaves of the configuration, of its group and of the units a commit does not reach (R74, R76). -/
theorem commitGroup_done (g : Nat) (byBoundary : Bool) (l : Live) :
    let m := commitGroup g byBoundary l
    m.conf.objs = (setBases (l.group g).staged.objs l).conf.objs ∧ m.conf.gen = l.conf.gen + 1 ∧
    (m.group g).state = .idle ∧ (m.group g).staged = {} ∧ (m.group g).lastDtime = l.time.dtime ∧ (m.group g).genAt = l.conf.gen + 1 ∧
    m.rst = l.rst ∧ m.mem = l.mem := by
  intro m
  let vs := (l.group g).staged.objs
  let taken := commitEvents g (setBases vs l)
  let loaded := (loadMembers l byBoundary vs taken).1
  have set : taken.ruled = (setBases vs l).ruled := ruled_of_events (commitEvents_onlyEvents g _)
  have load : loaded.ruled = taken.ruled := loadMembers_ruled _ _ _ _
  have only := setBases_only vs l
  have gen : loaded.conf.gen = l.conf.gen := by rw [ruled_gen load, ruled_gen set, only]
  have objs : loaded.conf.objs = (setBases vs l).conf.objs := by rw [ruled_objs load, ruled_objs set]
  have dtime : loaded.time.dtime = l.time.dtime := by rw [ruled_dtime load, ruled_dtime set, only]
  have rst : loaded.rst = l.rst := by rw [ruled_rst load, ruled_rst set, only]
  have mem : loaded.mem = l.mem := by rw [ruled_mem load, ruled_mem set, only]
  obtain ⟨x, run, state, staged, lastDtime, genAt⟩ := commitGroup_ruled g byBoundary l
  have group : m.group g = x := (congrArg (fun gs => SMap.get ({} : Group) gs g) (ruled_groups run)).trans (setGroup_same (advanceGen loaded).1 g x)
  refine ⟨(ruled_objs run).trans objs, (ruled_gen run).trans (congrArg (· + 1) gen), ?_, ?_, ?_, ?_, (ruled_rst run).trans rst, (ruled_mem run).trans mem⟩
  · rw [group, state]
  · rw [group, staged]
  · rw [group, lastDtime, dtime]
  · rw [group, genAt, gen]

/-- Settles O7: where no rule refuses it, an immediate arm is `commitGroup`, whose hooks keep the configuration and the groups. That the
commit is not refused also where a member's unit is in reset is the model's choice (log entries 74 and 110). -/
theorem immediateCommit : Obligations.ImmediateCommit := by
  intro s conn g reaches staging immediate allowed
  have effect : groupArm g (touch conn s.live) = (commitGroup g false (touch conn s.live), 0) := by
    unfold groupArm
    refine (if_neg (not_not_intro staging)).trans ((if_neg (not_not_intro immediate)).trans ?_)
    exact if_neg (by rw [allowed]; decide)
  obtain ⟨objs, gen, state, staged, lastDtime, genAt, -, -⟩ := commitGroup_done g false (touch conn s.live)
  refine completes_object (f := groupArm g) rfl reaches effect ⟨?_, ?_, ?_, ?_, ?_, ?_, answeredDone_reply _ _ _⟩
  · rw [apply_conf, (reply_keeps _ _ _).2.2.1, objs, setBases_objs]
    rfl
  · rw [apply_conf, (reply_keeps _ _ _).2.2.1]
    exact gen
  · rw [apply_group, (reply_acc _ _ _).2.2.2.1]
    exact state
  · rw [apply_group, (reply_acc _ _ _).2.2.2.1]
    exact staged
  · rw [apply_group, (reply_acc _ _ _).2.2.2.1]
    exact lastDtime
  · rw [apply_group, (reply_acc _ _ _).2.2.2.1]
    exact genAt

end Sys2Proof.Machine

/-! SYNC, TPDOs and RPDOs (R65, R404–R406). -/

namespace Sys2Proof.Machine

open Sys2Proof

theorem forAll_idle {α : Type} {f : α → Live → Live} {l : Live} : ∀ {xs : List α}, (∀ x ∈ xs, f x l = l) → forAll f xs l = l
  | [], _ => rfl
  | x :: xs, h => by
    unfold forAll
    rw [h x List.mem_cons_self]
    exact forAll_idle fun y inside => h y (List.mem_cons_of_mem x inside)

@[simp] theorem updTpdo_same (l : Live) (p : Nat) (f : Tpdo → Tpdo) : (l.updTpdo p f).tpdo p = f (l.tpdo p) := SMap.get_put_same _ _ _ _
@[simp] theorem updTpdo_ne (l : Live) {p q : Nat} (f : Tpdo → Tpdo) (h : q ≠ p) : (l.updTpdo p f).tpdo q = l.tpdo q := SMap.get_put_ne _ _ _ h
@[simp] theorem setRpdo_same (l : Live) (p : Nat) (x : Rpdo) : (l.setRpdo p x).rpdo p = x := SMap.get_put_same _ _ _ _

@[simp] theorem apply_tpdo (f : Live → Live) (s : State) (p : Nat) : (s.apply f).live.tpdo p = (f s.live).tpdo p :=
  congrArg (fun ts => SMap.get ({} : Tpdo) ts p) (apply_parts f s).keeps.2.2.2.2.1

theorem PartReports.rpdo {l m : Live} (h : PartReports l m) (p : Nat) : m.rpdo p = l.rpdo p :=
  congrArg (fun ts => SMap.get ({} : Rpdo) ts p) h.keeps.2.2.2.2.2.1

@[simp] theorem apply_rpdo (f : Live → Live) (s : State) (p : Nat) : (s.apply f).live.rpdo p = (f s.live).rpdo p := (apply_parts f s).rpdo p

/-! ### SYNC (R65, R404) -/

/-- What the TPDOs of a SYNC leave. -/
def Live.offTpdos (l : Live) : ConfUnit × Memory × SnapUnit × TimeUnit × Option Nat × Option Nat :=
  (l.conf, l.mem, l.snap, l.time, l.net.lastSync, l.net.window)

@[simp] theorem markSync_offTpdos (counter : Option Nat) (next : Bool) (p : Nat) (l : Live) :
    (markSync counter next p l).offTpdos = l.offTpdos := by
  unfold markSync
  extract_lets n x used k hit
  split <;> rfl

@[simp] theorem syncTpdo_offTpdos (bank : Bank) (p : Nat) (l : Live) : (syncTpdo bank p l).offTpdos = l.offTpdos := by
  unfold syncTpdo
  extract_lets x m d
  split
  · rfl
  · split <;> rfl

/-- The time and the window that an accepted SYNC notes. -/
def noteSync (l : Live) : Live :=
  { l with net := { l.net with
      lastSync := some l.now, window := if commVal l 0x1007 0 = 0 then none else some (l.now + commVal l 0x1007 0 * 400) } }

/-- A SYNC that no group waits for notes its time and its window, and asks for a snapshot if the object says so. -/
theorem syncAccepted_offTpdos {l : Live} (groups : ∀ g, g < 64 → l.cfg (0x2C00 + g) 1 ≠ 2) (published : Option Bank) (counter : Option Nat) :
    (syncAccepted published counter l).offTpdos = (if l.flag 0x2C80 2 then wantSnapshot (noteSync l) else noteSync l).offTpdos := by
  unfold syncAccepted
  extract_lets w net l1 snap l2 l3
  have noted : l2.offTpdos = (noteSync l).offTpdos := by
    show Live.offTpdos (if operational l1 then _ else l1) = _
    split
    · exact forAll_keeps Live.offTpdos (markSync_offTpdos _ _) _ _
    · rfl
  have wanted : l3.offTpdos = (if l.flag 0x2C80 2 then wantSnapshot (noteSync l) else noteSync l).offTpdos := by
    show Live.offTpdos (if l.flag 0x2C80 2 then wantSnapshot l2 else _) = _
    split
    · exact congrArg (fun x => (x.1, x.2.1, { x.2.2.1 with want := true }, x.2.2.2)) noted
    · split
      · exact (forAll_keeps Live.offTpdos (syncTpdo_offTpdos _) _ _).trans noted
      · exact noted
  have conf : l3.conf = l.conf := by
    refine (congrArg Prod.fst wanted).trans ?_
    split <;> rfl
  have idle : triggerKind 2 l3 = l3 := forAll_idle fun g inside => if_neg (by
    unfold Live.cfg Live.val Live.baseVal
    rw [conf]
    exact groups g (List.mem_range.mp inside))
  rw [idle, wanted]

/-! ### TPDOs (R405) -/

theorem transmit_tx (b : Nat) (f : Frame) (l : Live) : ((transmit b f l).bus b).tx = (l.bus b).tx ++ [f] := by
  unfold transmit
  rw [updBus_same]

/-- A TPDO that is sent: its frame, and what it remembers of it. -/
theorem sendTpdo_sends (sync : Bool) (data : List Byte) (p : Nat) (l : Live) :
    let f : Frame := { cobId := BitVec.ofNat 32 (pdoCob l 0x1800 p % 2 ^ 30), data := data, tpdo := some p }
    ((sendTpdo sync data p l).bus (tpdoBusOf l p)).tx = (l.bus (tpdoBusOf l p)).tx ++ [f] ∧
    (sendTpdo sync data p l).tpdo p =
      { l.tpdo p with last := data, lastAt := some l.now, due := false, timerFrom := l.now, queued := (l.tpdo p).queued || sync } ∧
    (sendTpdo sync data p l).mem = l.mem := by
  intro f
  refine ⟨transmit_tx (tpdoBusOf l p) f l, ?_, rfl⟩
  unfold sendTpdo
  rw [updTpdo_same]
  rfl

theorem withBank_some {f : Bank → Live → Live} {s : State} {b : Bank} (h : s.published = some b) : withBank f s = ran (f b) s := by
  unfold withBank
  rw [h]

theorem withdrawTpdo_keeps (unsent : BitVec 16) (p : Nat) (l : Live) :
    (withdrawTpdo unsent p l).tpdo p = { l.tpdo p with queued := false, wantSync := false, wantNext := false } ∧
    (∀ q, q ≠ p → (withdrawTpdo unsent p l).tpdo q = l.tpdo q) ∧ (withdrawTpdo unsent p l).net.window = l.net.window ∧
    (withdrawTpdo unsent p l).net.choice = l.net.choice ∧ (withdrawTpdo unsent p l).mem = l.mem := by
  unfold withdrawTpdo
  extract_lets x late m
  have own : m.tpdo p = { l.tpdo p with queued := false, wantSync := false, wantNext := false } := updTpdo_same _ _ _
  have others (q : Nat) (other : q ≠ p) : m.tpdo q = l.tpdo q := updTpdo_ne _ _ other
  split
  · exact ⟨own, others, rfl, rfl, rfl⟩
  · exact ⟨own, others, rfl, rfl, rfl⟩

theorem withdrawTpdo_flag (unsent : BitVec 16) (p b : Nat) (l : Live) :
    ((l.bus b).status.getLsbD 8 = true → ((withdrawTpdo unsent p l).bus b).status.getLsbD 8 = true) ∧
    ((l.tpdo p).queued = true → unsent.getLsbD p = true → ((withdrawTpdo unsent p l).bus (tpdoBusOf l p)).status.getLsbD 8 = true) := by
  unfold withdrawTpdo
  extract_lets x late m
  split
  · refine ⟨fun set => ?_, fun _ _ => ?_⟩
    · rcases Decidable.em (b = tpdoBusOf m p) with rfl | other
      · rw [updBus_same]
        exact setBit_same _ (by decide)
      · rw [updBus_ne _ _ other]
        exact set
    · show ((Live.updBus _ (tpdoBusOf m p) _).bus (tpdoBusOf m p)).status.getLsbD 8 = true
      rw [updBus_same]
      exact setBit_same _ (by decide)
  next kept =>
    refine ⟨id, fun queued unsent' => absurd ?_ kept⟩
    show ((l.tpdo p).queued && unsent.getLsbD p || _ || _) = true
    rw [queued, unsent']
    rfl

/-- Every TPDO of the list is withdrawn; those that were queued and unsent flag their bus. -/
theorem withdrawn (unsent : BitVec 16) (p : Nat) : ∀ (xs : List Nat) (l : Live),
    (forAll (withdrawTpdo unsent) xs l).net.window = l.net.window ∧ (forAll (withdrawTpdo unsent) xs l).mem = l.mem ∧
    (((l.tpdo p).queued = false ∧ (l.tpdo p).wantSync = false) ∨ p ∈ xs →
      ((forAll (withdrawTpdo unsent) xs l).tpdo p).queued = false ∧ ((forAll (withdrawTpdo unsent) xs l).tpdo p).wantSync = false) ∧
    ((l.bus (tpdoBusOf l p)).status.getLsbD 8 = true ∨ p ∈ xs ∧ (l.tpdo p).queued = true ∧ unsent.getLsbD p = true →
      ((forAll (withdrawTpdo unsent) xs l).bus (tpdoBusOf l p)).status.getLsbD 8 = true)
  | [], l => ⟨rfl, rfl, fun h => h.resolve_right List.not_mem_nil, fun h => h.resolve_right fun k => List.not_mem_nil k.1⟩
  | x :: xs, l => by
    obtain ⟨own, others, window, choice, mem⟩ := withdrawTpdo_keeps unsent x l
    obtain ⟨window', mem', off, flag⟩ := withdrawn unsent p xs (withdrawTpdo unsent x l)
    have bus : tpdoBusOf (withdrawTpdo unsent x l) p = tpdoBusOf l p := by
      unfold tpdoBusOf
      rw [choice]
    rw [bus] at flag
    refine ⟨window'.trans window, mem'.trans mem, fun h => off ?_, fun h => flag ?_⟩
    · rcases Decidable.em (p = x) with rfl | other
      · rw [own]
        exact .inl ⟨rfl, rfl⟩
      · rw [others p other]
        exact h.imp_right fun inside => (List.mem_cons.mp inside).resolve_left other
    · obtain set | ⟨inside, queued, late⟩ := h
      · exact .inl ((withdrawTpdo_flag unsent x _ l).1 set)
      · rcases Decidable.em (p = x) with rfl | other
        · exact .inl ((withdrawTpdo_flag unsent p 0 l).2 queued late)
        · rw [others p other]
          exact .inr ⟨(List.mem_cons.mp inside).resolve_left other, queued, late⟩

/-! ### RPDOs (R406) -/

/-- Nothing but the groups differs. -/
def OnlyGroups (l m : Live) : Prop := m = { l with groups := m.groups }

theorem OnlyGroups.trans {a b c : Live} (h : OnlyGroups a b) (k : OnlyGroups b c) : OnlyGroups a c := by
  unfold OnlyGroups at h k ⊢
  rw [k, h]

theorem stageWrite_onlyGroups (idx sub : Nat) (data : List Byte) (l : Live) : OnlyGroups l (stageWrite idx sub data l).1 := by
  unfold stageWrite
  split
  · rfl
  · split
    · rfl
    · unfold stageValue
      split
      · rfl
      · split <;> rfl

theorem stageAll_onlyGroups : ∀ (vs : List (Nat × Nat × List Byte)) {l m : Live}, stageAll vs l = some m → OnlyGroups l m
  | [], l, m, h => by
    obtain rfl := Option.some.inj h
    rfl
  | (i, sub, d) :: vs, l, m, h => by
    have one := stageWrite_onlyGroups i sub d l
    unfold stageAll at h
    split at h
    next m' staged =>
      rw [staged] at one
      exact one.trans (stageAll_onlyGroups vs h)
    · cases h

/-- A frame whose values are staged arms its group for the next SYNC. -/
theorem rpdoApply_arms {b p g : Nat} {data : List Byte} {l m : Live} (staged : stageAll (rpdoValues (pdoEntries l 0x1600 p) data) (groupDisarm g l) = some m)
    (state : (m.group g).state = .staging) (later : m.cfg (0x2C00 + g) 1 ≠ 0) :
    OnlyGroups m (rpdoApply b p g data l) ∧ (rpdoApply b p g data l).group g = { m.group g with state := .armed, armedBy := some p } := by
  have armed : groupArm g m = (m.updGroup g fun x => { x with state := .armed }, 0) :=
    (if_neg (not_not_intro state)).trans (if_pos later)
  have effect : rpdoApply b p g data l = (m.updGroup g fun x => { x with state := .armed }).updGroup g fun x =>
      if x.state = .armed then { x with armedBy := some p } else x := by
    unfold rpdoApply
    dsimp only
    rw [staged]
    dsimp only
    rw [armed]
    exact if_neg (not_not_intro rfl)
  rw [effect]
  refine ⟨rfl, ?_⟩
  rw [updGroup_same, updGroup_same]
  exact if_pos rfl

/-- Settles O35. The codes of a refused RPDO, and that a frame of more than 64 bytes is the one that is not well formed, are the model's
choice (log entries 87 and 102). -/
theorem pdoServicesComplete : Obligations.PdoServicesComplete := by
  refine ⟨fun s b counter active may mine groups => ?_, fun s b at0 last period active may mine late => ?_, fun s bank p pub isOpen => ?_,
    fun s unsent w window due => ?_, fun s b p data up op active mine valid fits => ?_, fun s p at0 last period op active late => ?_,
    fun s b p data big => ?_⟩
  · have effect : syncReceived s.published b.val counter s.live = syncAccepted s.published (counter.map (·.toNat)) s.live :=
      if_pos (by simp [active, may, mine])
    have off := syncAccepted_offTpdos groups s.published (counter.map (·.toNat))
    rw [← effect] at off
    have asked (off : (syncReceived s.published b.val counter s.live).offTpdos = (noteSync s.live).offTpdos ∨
        (syncReceived s.published b.val counter s.live).offTpdos = (wantSnapshot (noteSync s.live)).offTpdos) :
        (syncReceived s.published b.val counter s.live).net.lastSync = some s.live.now ∧
        (syncReceived s.published b.val counter s.live).net.window =
          (if commVal s.live 0x1007 0 = 0 then none else some (s.live.now + commVal s.live 0x1007 0 * 400)) ∧
        (syncReceived s.published b.val counter s.live).mem = s.live.mem := by
      obtain off | off := off
      · exact ⟨congrArg (fun x => x.2.2.2.2.1) off, congrArg (fun x => x.2.2.2.2.2) off, congrArg (fun x => x.2.1) off⟩
      · exact ⟨congrArg (fun x => x.2.2.2.2.1) off, congrArg (fun x => x.2.2.2.2.2) off, congrArg (fun x => x.2.1) off⟩
    obtain ⟨lastSync, window, mem⟩ := asked (by
      rw [off]
      split
      · exact .inr rfl
      · exact .inl rfl)
    refine completes_apply (f := syncReceived s.published b.val counter) rfl ⟨?_, ?_, fun on idle free => ?_, sameMemory_apply mem⟩
    · simp only [apply_parts_keep, lastSync]
    · simp only [apply_parts_keep, window]
    · rw [if_pos on] at off
      have snap : (syncReceived s.published b.val counter s.live).snap = { s.live.snap with want := true } := congrArg (fun x => x.2.2.1) off
      obtain ⟨filling, -, seq, -⟩ := apply_takes (s := s) (f := syncReceived s.published b.val counter) (by rw [snap]) (by rw [snap]; exact idle)
        (by rw [snap]; exact free)
      rw [filling, seq, snap]
      exact ⟨rfl, rfl⟩
  · have effect : syncLost b.val s.live = emcy 0x8100 (busSource b.val 3) 0
        ((noteBus b.val 11 { s.live with net := { s.live.net with lastSync := none } }).updBus b.val fun x =>
          { x with status := setBit x.status 11 }) := by
      unfold syncLost
      dsimp only
      rw [last]
      exact if_pos (by simp [period, active, may, mine, late])
    have parts := (emcy_parts 0x8100 (busSource b.val 3) 0 ((noteBus b.val 11 { s.live with net := { s.live.net with lastSync := none } }).updBus
      b.val fun x => { x with status := setBit x.status 11 }))
    rw [← effect] at parts
    refine completes_apply (f := syncLost b.val) rfl ⟨?_, ?_, ?_, sameMemory_apply (by rw [effect, emcy_mem]; rfl)⟩
    · simp only [apply_parts_keep, parts.keeps]
      rfl
    · rw [apply_busBit _ _ _ (by decide), parts.bus_status _ _ (by decide), updBus_same]
      exact setBit_same _ (by decide)
    · simp only [apply_parts_keep, parts.keeps]
      rfl
  · intro d f
    refine ⟨fun event timer due over_ => ?_, fun due over_ => ?_⟩
    · have effect : tpdoTimer bank p.val s.live = sendTpdo false d p.val (s.live.updTpdo p.val fun x => { x with timerFrom := s.live.now }) := by
        unfold tpdoTimer
        dsimp only
        rw [if_neg (by simp [Nat.not_lt.mpr event, timer, isOpen, Nat.not_lt.mpr due])]
        have again : inhibitOver (s.live.updTpdo p.val fun x => { x with timerFrom := s.live.now }) p.val = true := by
          unfold inhibitOver at over_ ⊢
          rw [updTpdo_same]
          exact over_
        exact if_pos again
      obtain ⟨tx, tpdo, mem⟩ := sendTpdo_sends false d p.val (s.live.updTpdo p.val fun x => { x with timerFrom := s.live.now })
      refine completes_apply (f := tpdoTimer bank p.val) (withBank_some pub) ⟨sends_apply ⟨[], ?_⟩, ?_, ?_, ?_, sameMemory_apply (by rw [effect]; exact mem)⟩
      · rw [effect]
        exact tx
      · rw [apply_tpdo, effect, tpdo]
      · rw [apply_tpdo, effect, tpdo]
        rfl
      · rw [apply_tpdo, effect, tpdo]
        rfl
    · have effect : tpdoInhibitEnd bank p.val s.live = sendTpdo false d p.val s.live := if_pos (by simp [due, over_, isOpen])
      obtain ⟨tx, tpdo, mem⟩ := sendTpdo_sends false d p.val s.live
      refine completes_apply (f := tpdoInhibitEnd bank p.val) (withBank_some pub) ⟨sends_apply ⟨[], ?_⟩, ?_, ?_, sameMemory_apply (by rw [effect]; exact mem)⟩
      · rw [effect]
        exact tx
      · rw [apply_tpdo, effect, tpdo]
      · rw [apply_tpdo, effect, tpdo]
  · have effect : windowEnd unsent s.live = forAll (withdrawTpdo unsent) (List.range 16) { s.live with net := { s.live.net with window := none } } := by
      unfold windowEnd
      rw [window]
      exact if_pos due
    have done_ (p : Nat) := withdrawn unsent p (List.range 16) { s.live with net := { s.live.net with window := none } }
    rw [← effect] at done_
    refine completes_apply (f := windowEnd unsent) rfl ⟨?_, fun p inside => ?_, sameMemory_apply (done_ 0).2.1⟩
    · simp only [apply_parts_keep]
      exact (done_ 0).1
    · obtain ⟨-, -, off, flag⟩ := done_ p
      rw [apply_tpdo]
      obtain ⟨queued, want⟩ := off (.inr (List.mem_range.mpr inside))
      refine ⟨queued, want, fun was late => ?_⟩
      rw [apply_busBit _ _ _ (by decide)]
      exact flag (.inr ⟨List.mem_range.mpr inside, was, late⟩)
  · intro es l1
    have run : exec (.rpdoReceived b p data) s = ran (rpdoReceived b.val p.val data) s := if_pos (decide_eq_true fits)
    have guard : ¬ (!(supervisorUp s.live && operational s.live && busActive s.live b.val && b.val = rpdoBusOf s.live p.val &&
        pdoValid s.live 0x1400 p.val)) = true := by
      simp [up, op, active, mine, valid]
    refine ⟨fun some_ short => ?_, fun g l2 some_ long exact_ group taken staged state sync => ?_⟩
    · have effect : rpdoReceived b.val p.val data s.live = rpdoRefuse 0x8210 b.val p.val l1 := by
        unfold rpdoReceived
        rw [if_neg guard]
        dsimp only
        rw [if_neg (by simpa using some_)]
        exact if_pos short
      have parts := emcy_parts 0x8210 (busSource b.val (32 + p.val)) 0 (rpdoFlag 9 b.val p.val l1)
      change PartReports _ (rpdoRefuse 0x8210 b.val p.val l1) at parts
      rw [← effect] at parts
      refine completes_apply (f := rpdoReceived b.val p.val data) run ⟨?_, ?_, ?_, ?_, sameMemory_apply (by rw [effect]; exact emcy_mem _ _ _ _)⟩
      · rw [apply_rpdo, parts.rpdo]
        exact congrArg Rpdo.lastAt (setRpdo_same s.live p.val { lastAt := some s.live.now })
      · rw [apply_busBit _ _ _ (by decide), parts.bus_status _ _ (by decide)]
        unfold rpdoFlag
        rw [updBus_same]
        exact setBit_same _ (by decide)
      · rw [(apply_bus_keeps _ _ _).1, (parts.bus_keeps _).1]
        unfold rpdoFlag
        rw [updBus_same]
        rfl
      · simp only [apply_keeps, effect, rpdoRefuse, emcy_keeps]
        rfl
    · have only := stageAll_onlyGroups _ staged
      have only1 : OnlyGroups l1 l2 := OnlyGroups.trans (show OnlyGroups l1 (groupDisarm g l1) from rfl) only
      have later : l2.cfg (0x2C00 + g) 1 ≠ 0 := by
        have kind := (Bool.and_eq_true_iff.mp taken).1
        rw [decide_eq_true_eq, show rpdoKind (pdoType l1 0x1400 p.val) = 2 from if_pos sync] at kind
        rw [only1]
        show l1.cfg (0x2C00 + g) 1 ≠ 0
        rw [kind]
        decide
      obtain ⟨armed, own⟩ := rpdoApply_arms (l := l1) (data := data) (b := b.val) (p := p.val) staged state later
      have whole := only1.trans armed
      have effect : rpdoReceived b.val p.val data s.live = rpdoApply b.val p.val g data l1 := by
        unfold rpdoReceived
        rw [if_neg guard]
        dsimp only
        rw [if_neg (by simpa using some_), if_neg (Nat.not_lt.mpr long)]
        rw [show rpdoGroup (s.live.setRpdo p.val { lastAt := some s.live.now }) (pdoEntries s.live 0x1600 p.val) = some g from group]
        simp only [show rpdoFits (s.live.setRpdo p.val { lastAt := some s.live.now }) g p.val = true from taken, if_true]
        refine if_neg (Nat.not_lt.mpr ?_)
        rw [whole]
        exact exact_
      refine completes_apply (f := rpdoReceived b.val p.val data) run ⟨?_, ?_, ?_, sameMemory_apply (by rw [effect, whole]; rfl)⟩
      · rw [apply_group, effect, own]
      · rw [apply_rpdo, effect, whole]
        exact congrArg Rpdo.lastAt (setRpdo_same s.live p.val _)
      · rw [apply_conf, effect, whole]
        rfl
  · have effect : rpdoDeadline p.val s.live = emcy 0x8250 (busSource (rpdoBusOf s.live p.val) (32 + p.val)) 0
        (rpdoFlag 10 (rpdoBusOf s.live p.val) p.val (s.live.setRpdo p.val {})) := by
      unfold rpdoDeadline
      dsimp only
      rw [last]
      exact if_pos (by simp [period, op, active, late])
    have parts := emcy_parts 0x8250 (busSource (rpdoBusOf s.live p.val) (32 + p.val)) 0
      (rpdoFlag 10 (rpdoBusOf s.live p.val) p.val (s.live.setRpdo p.val {}))
    rw [← effect] at parts
    refine completes_apply (f := rpdoDeadline p.val) rfl ⟨?_, ?_, ?_, sameMemory_apply (by rw [effect, emcy_mem]; rfl)⟩
    · rw [apply_rpdo, parts.rpdo]
      exact congrArg Rpdo.lastAt (setRpdo_same s.live p.val {})
    · rw [apply_busBit _ _ _ (by decide), parts.bus_status _ _ (by decide)]
      unfold rpdoFlag
      rw [updBus_same]
      exact setBit_same _ (by decide)
    · rw [(apply_bus_keeps _ _ _).1, (parts.bus_keeps _).1]
      unfold rpdoFlag
      rw [updBus_same]
      rfl
  · exact if_neg (by simpa [wfFrame] using big)

end Sys2Proof.Machine

/-! Memory load, patrol scrub and the log writer (R24, R359, R362–R368, R458). -/

namespace Sys2Proof.Machine

open Sys2Proof

/-! ### Reads and their errors (R24) -/

/-- What the place of the ring and its oldest record depend on. -/
def Live.ringed (l : Live) : ConfUnit × Memory × Nat × Nat × Nat × Nat :=
  (l.conf, l.mem, l.rst.fittedMiB, l.log.head, l.log.tail, l.log.count)

theorem ringed_records {l m : Live} (h : m.ringed = l.ringed) : ringRecords m = ringRecords l ∧ ringBase m = ringBase l := by
  have conf : m.conf = l.conf := congrArg Prod.fst h
  have fitted : m.rst.fittedMiB = l.rst.fittedMiB := congrArg (fun x => x.2.2.1) h
  have cfg (sub : Nat) : m.cfg 0x2A40 sub = l.cfg 0x2A40 sub := by
    unfold Live.cfg Live.val Live.baseVal
    rw [conf]
  unfold ringRecords ringBase lpddrEnd
  rw [cfg, cfg, fitted]
  exact ⟨rfl, rfl⟩

theorem reportMemory_ringed (src offset : Nat) (l : Live) : (reportMemory src offset l).ringed = l.ringed := by
  unfold reportMemory Live.ringed
  dsimp only
  simp only [reportFault_keeps, reportFault_parts_keep]

theorem reportMemory_keeps (src offset : Nat) (l : Live) :
    (reportMemory src offset l).rst = { l.rst with memError := true } ∧ (reportMemory src offset l).mem = l.mem := by
  unfold reportMemory
  dsimp only
  simp only [reportFault_keeps, and_self]

theorem readErrors_ringed (es : EccWords) (a n : Nat) (l : Live) : (readErrors es a n l).ringed = l.ringed := by
  unfold readErrors
  refine forAll_keeps Live.ringed (fun e m => ?_) _ l
  split
  · unfold doubleBit
    split
    · exact reportMemory_ringed _ _ _
    · rfl
  · unfold singleBit
    split <;> rfl

theorem freeDoubles_ringed (es : EccWords) : ∀ (b : List Byte) (a : Nat) (l : Live), (freeDoubles es a b l).2.ringed = l.ringed
  | [], _, _ => rfl
  | x :: r, a, l => by
    unfold freeDoubles
    dsimp only
    rw [freeDoubles_ringed es r]
    split <;> rfl

theorem fetchBytes_ringed (es : EccWords) (a n : Nat) (l : Live) : (fetchBytes es a n l).2.ringed = l.ringed :=
  (freeDoubles_ringed es _ _ _).trans (readErrors_ringed es a n l)

theorem fetchBytes_single {es : EccWords} (single : ∀ e ∈ es, e.2 = false) (a n : Nat) (l : Live) :
    (fetchBytes es a n l).1 = readBytes l.mem a n := congrArg Prod.fst (freeDoubles_single single _ _ _)

/-! ### The ring (R363–R367) -/

theorem settleTail_keeps (g : LogUnit) : (settleTail g).head = g.head ∧ (settleTail g).tail = g.tail ∧ (settleTail g).count = g.count ∧
    (settleTail g).staging = g.staging ∧ (settleTail g).nextSeq = g.nextSeq := by
  unfold settleTail
  split <;> exact ⟨rfl, rfl, rfl, rfl, rfl⟩

/-- The record at the tail leaves the ring. -/
theorem advanceTail_taken {l : Live} (some_ : l.log.count ≠ 0) :
    (advanceTail l).ringed = (l.conf, l.mem, l.rst.fittedMiB, l.log.head, (l.log.tail + 1) % ringRecords l, l.log.count - 1) := by
  obtain ⟨head, tail, count, -, -⟩ := settleTail_keeps
    { l.log with tail := (l.log.tail + 1) % ringRecords l, count := l.log.count - 1, runs := dropRun l.log.runs }
  unfold advanceTail
  dsimp only
  rw [if_neg some_]
  unfold Live.ringed
  dsimp only
  rw [head, tail, count]

/-- A pop of one record at least takes the oldest one first. -/
theorem popRecords_first (es : EccWords) (n : Nat) {l : Live} (some_ : l.log.count ≠ 0) :
    popRecords es (n + 1) l =
      let b := fetchBytes es (ringBase l + 16 * l.log.tail) 16 l
      let r := popRecords es n (advanceTail b.2)
      (b.1 ++ r.1, r.2) := by
  rw [popRecords, if_neg some_]

theorem popRecords_none (es : EccWords) (n : Nat) {l : Live} (empty : l.log.count = 0) : popRecords es n l = ([], l) := by
  cases n with
  | zero => rfl
  | succ n => rw [popRecords, if_pos empty]

/-- What a pop of the oldest record leaves. -/
theorem fetch_advance (es : EccWords) {l : Live} (some_ : l.log.count ≠ 0) :
    (advanceTail (fetchBytes es (ringBase l + 16 * l.log.tail) 16 l).2).ringed =
      (l.conf, l.mem, l.rst.fittedMiB, l.log.head, (l.log.tail + 1) % ringRecords l, l.log.count - 1) := by
  have kept := fetchBytes_ringed es (ringBase l + 16 * l.log.tail) 16 l
  have count : (fetchBytes es (ringBase l + 16 * l.log.tail) 16 l).2.log.count = l.log.count := congrArg (fun x => x.2.2.2.2.2) kept
  have tail : (fetchBytes es (ringBase l + 16 * l.log.tail) 16 l).2.log.tail = l.log.tail := congrArg (fun x => x.2.2.2.2.1) kept
  rw [advanceTail_taken (by rw [count]; exact some_), (ringed_records kept).1, count, tail]
  exact congrArg (fun x : ConfUnit × Memory × Nat × Nat × Nat × Nat =>
    (x.1, x.2.1, x.2.2.1, x.2.2.2.1, (l.log.tail + 1) % ringRecords l, l.log.count - 1)) kept

theorem releaseTail_released : ∀ (n : Nat) (l : Live), (releaseTail n l).log.count = l.log.count - n ∧ (releaseTail n l).log.head = l.log.head ∧
    (releaseTail n l).mem = l.mem ∧ (releaseTail n l).net = l.net
  | 0, _ => ⟨rfl, rfl, rfl, rfl⟩
  | n + 1, l => by
    unfold releaseTail
    split
    next empty => exact ⟨by omega, rfl, rfl, rfl⟩
    next some_ =>
      have taken := advanceTail_taken some_
      have net : (advanceTail l).net = l.net := by
        unfold advanceTail
        dsimp only
        split <;> rfl
      obtain ⟨count, head, mem, net'⟩ := releaseTail_released n (advanceTail l)
      refine ⟨?_, head.trans (congrArg (fun x => x.2.2.2.1) taken), mem.trans (congrArg (fun x => x.2.1) taken), net'.trans net⟩
      rw [count, show (advanceTail l).log.count = l.log.count - 1 from congrArg (fun x => x.2.2.2.2.2) taken]
      omega

/-! ### Staging and the flush (R363, R368) -/

theorem recordBytes_length (seq : BitVec 32) (r : LogRec) : (recordBytes seq r).length = 16 := by
  unfold recordBytes
  simp

/-- What a move of records into the ring leaves: outside the ring no byte of memory changes, and no sequence is given. -/
structure InRing (l m : Live) : Prop where
  conf : m.conf = l.conf
  fitted : m.rst.fittedMiB = l.rst.fittedMiB
  nextSeq : m.log.nextSeq = l.log.nextSeq
  head : l.log.head < ringRecords l → m.log.head < ringRecords l
  outside : l.log.head < ringRecords l → ∀ a, a < ringBase l ∨ ringBase l + 16 * ringRecords l ≤ a → readByte m.mem a = readByte l.mem a

theorem InRing.records {l m : Live} (h : InRing l m) : ringRecords m = ringRecords l ∧ ringBase m = ringBase l := by
  have cfg (sub : Nat) : m.cfg 0x2A40 sub = l.cfg 0x2A40 sub := by
    unfold Live.cfg Live.val Live.baseVal
    rw [h.conf]
  unfold ringRecords ringBase lpddrEnd
  rw [cfg, cfg, h.fitted]
  exact ⟨rfl, rfl⟩

theorem InRing.refl (l : Live) : InRing l l := ⟨rfl, rfl, rfl, id, fun _ _ _ => rfl⟩

theorem InRing.trans {a b c : Live} (h : InRing a b) (k : InRing b c) : InRing a c := by
  obtain ⟨records, base⟩ := h.records
  refine ⟨k.conf.trans h.conf, k.fitted.trans h.fitted, k.nextSeq.trans h.nextSeq, fun i => ?_, fun i x out => ?_⟩
  · have next := k.head (by rw [records]; exact h.head i)
    rw [records] at next
    exact next
  · refine (k.outside (by rw [records]; exact h.head i) x ?_).trans (h.outside i x out)
    rw [records, base]
    exact out

/-- A change that leaves the head, the sequence and memory. -/
theorem inRing_of_same {l m : Live} (conf : m.conf = l.conf) (rst : m.rst.fittedMiB = l.rst.fittedMiB) (seq : m.log.nextSeq = l.log.nextSeq)
    (head : m.log.head = l.log.head) (mem : m.mem = l.mem) : InRing l m :=
  ⟨conf, rst, seq, fun i => by rw [head]; exact i, fun _ _ _ => by rw [mem]⟩

theorem putRing_inRing (seq : BitVec 32) (r : LogRec) {l : Live} (some_ : ringRecords l ≠ 0) : InRing l (putRing seq r l) := by
  unfold putRing
  extract_lets g mem g1
  obtain ⟨head, -, -, -, next⟩ := settleTail_keeps g1
  refine ⟨rfl, rfl, next, fun _ => ?_, fun i a out => ?_⟩
  · show (settleTail g1).head < ringRecords l
    rw [head]
    exact Nat.mod_lt _ (Nat.pos_of_ne_zero some_)
  · refine readByte_writeBytes_out _ _ _ _ ?_
    rw [recordBytes_length]
    have inside : l.log.head < ringRecords l := i
    show a < ringBase l + 16 * l.log.head ∨ ringBase l + 16 * l.log.head + 16 ≤ a
    omega

theorem lose_keeps (cause n : Nat) (l : Live) : (lose cause n l).conf = l.conf ∧ (lose cause n l).rst = l.rst ∧
    (lose cause n l).log.nextSeq = l.log.nextSeq ∧ (lose cause n l).log.head = l.log.head ∧ (lose cause n l).mem = l.mem ∧
    (lose cause n l).log.staging = l.log.staging ∧ (lose cause n l).log.flushing = l.log.flushing := by
  unfold lose
  extract_lets g c c1 g1 l1
  split
  · exact ⟨rfl, rfl, rfl, rfl, rfl, rfl, rfl⟩
  · split <;> exact ⟨rfl, rfl, rfl, rfl, rfl, rfl, rfl⟩

theorem advanceTail_inRing (l : Live) : InRing l (advanceTail l) := by
  unfold advanceTail
  extract_lets g
  split
  · exact .refl l
  · obtain ⟨head, -, -, -, next⟩ := settleTail_keeps { g with tail := (g.tail + 1) % ringRecords l, count := g.count - 1, runs := dropRun g.runs }
    exact inRing_of_same rfl rfl next head rfl

theorem lose_inRing (cause n : Nat) (l : Live) : InRing l (lose cause n l) := by
  obtain ⟨conf, rst, next, head, mem, -⟩ := lose_keeps cause n l
  exact inRing_of_same conf (congrArg ResetUnit.fittedMiB rst) next head mem

theorem staging_inRing (l : Live) (rest : List (BitVec 32 × LogRec × Nat × Bool)) : InRing l { l with log := { l.log with staging := rest } } :=
  inRing_of_same rfl rfl rfl rfl rfl

theorem overwritten_inRing (l : Live) : InRing l (noteBit 0x3A40 1 1 { l with log := { l.log with status := setBit l.log.status 1 } }) :=
  inRing_of_same rfl rfl rfl rfl rfl

theorem moveStaged_inRing : ∀ (n : Nat) (l : Live), InRing l (moveStaged n l)
  | 0, l => .refl l
  | n + 1, l => by
    unfold moveStaged
    split
    · exact .refl l
    · split
      · exact .refl l
      next seq r w b rest staged some_ =>
        have first := staging_inRing l rest
        split
        · exact (first.trans (putRing_inRing seq r some_)).trans (moveStaged_inRing n _)
        · split
          · have lost := (first.trans (advanceTail_inRing _)).trans (lose_inRing 3 1 _)
            have noted := lost.trans (overwritten_inRing _)
            have some' := mt (noted.records.1.symm.trans ·) some_
            exact (noted.trans (putRing_inRing seq r some')).trans (moveStaged_inRing n _)
          · exact .refl l

theorem stageRecord_stages {l : Live} (r : LogRec) (free : ordinaryUsed l.log < ordinaryPlaces) : ∃ m, stageRecord r l = some m ∧
    m.log.staging = l.log.staging ++ [(l.log.nextSeq, r, l.now, false)] ∧ m.log.nextSeq = l.log.nextSeq + 1 ∧ m.mem = l.mem ∧
    m.log.episode = l.log.episode ∧ m.log.counts = l.log.counts := by
  unfold stageRecord
  simp only [decide_eq_true free, Bool.true_or, if_true]
  refine ⟨_, rfl, rfl, rfl, ?_, rfl, rfl⟩
  show (if l.log.nextSeq = 0xFFFFFFFF then noteBit 0x3A40 1 2 l else l).mem = l.mem
  split <;> rfl

/-- An admission whose record finds an ordinary place, with no loss episode. -/
theorem logAdmit_stages {u : Nat} {r : LogRec} {rest : List LogRec} {l : Live} (open_ : admitting l = true) (started : l.log.startDue = none)
    (next : nextUnit l.log = some u) (waiting : l.log.waiting.get [] u = r :: rest) (free : ordinaryUsed l.log < ordinaryPlaces)
    (calm : l.log.episode = none) : (logAdmit u l).log.staging = l.log.staging ++ [(l.log.nextSeq, r, l.now, false)] ∧
    (logAdmit u l).log.nextSeq = l.log.nextSeq + 1 ∧ (logAdmit u l).mem = l.mem := by
  let taken : Live := { l with log := { l.log with lastUnit := u, waiting := l.log.waiting.put [] u rest } }
  obtain ⟨m, staged, staging, seq, mem, episode, -⟩ := stageRecord_stages (l := taken) r free
  have effect : logAdmit u l = m := by
    unfold logAdmit takeWaiting
    rw [open_, started]
    dsimp only
    rw [if_neg (by decide), if_neg (not_not_intro next), waiting]
    dsimp only
    rw [show stageRecord r _ = some m from staged]
    dsimp only
    unfold endEpisode
    rw [episode, show taken.log.episode = none from calm]
    rfl
  rw [effect]
  exact ⟨staging, seq, mem⟩

/-- The log-loss record of an episode whose losses all have cause 2. -/
theorem writeLosses_staging {n : Nat} {l : Live} (counts : l.log.counts = { source := 0, staging := n, ring := 0 }) (some_ : n ≠ 0)
    (free : ordinaryUsed l.log < ordinaryPlaces) : (writeLosses l).log.staging =
      l.log.staging ++ [(l.log.nextSeq, ⟨0x8F81, 0x69, BitVec.ofNat 32 (2 * 2 ^ 28 + satTo 28 n), l.time.dtime⟩, l.now, false)] ∧
    (writeLosses l).mem = l.mem := by
  obtain ⟨m, staged, staging, -, mem, -, -⟩ := stageRecord_stages (l := l)
    ⟨BitVec.ofNat 16 0x8F81, 0x69, BitVec.ofNat 32 (2 * 2 ^ 28 + satTo 28 n), l.time.dtime⟩ free
  have none_ (src cause : Nat) (clear : LossCount → LossCount) (x : Live) : lossRecordOf src cause 0 clear x = x := if_pos rfl
  have effect : writeLosses l = { m with log := { m.log with counts := { m.log.counts with staging := 0 } } } := by
    unfold writeLosses
    dsimp only
    rw [counts]
    dsimp only
    rw [none_, none_]
    unfold lossRecordOf
    rw [if_neg some_]
    dsimp only
    rw [staged]
  rw [effect]
  exact ⟨staging, mem⟩

/-- A memory load in its bounds, where the ring is not touched and the device may write the memory. -/
theorem memoryLoad_stores {data : List Byte} {n a : Nat} {l : Live} (size : data.length - 8 = n) (addr : fieldLE data 0 8 = a)
    (long : 8 ≤ data.length) (whole : n % 8 = 0) (most : n ≤ 65536) (aligned : a % 8 = 0) (place : (inTables a n || inLpddr l a n) = true)
    (free : (l.logOn && inRing l a n) = false) (opened : inLpddr l a n = true → lpddrOpen l = true) :
    memoryLoad data l = ({ l with mem := writeBytes l.mem a (data.drop 8) }, 0) := by
  have state : (inLpddr l a n && !lpddrOpen l) = false := by
    rcases Bool.eq_false_or_eq_true (inLpddr l a n) with inside | outside
    · rw [inside, opened inside]
      rfl
    · rw [outside]
      rfl
  unfold memoryLoad
  dsimp only
  rw [size, addr, if_neg (by simp [Nat.not_lt.mpr long, whole, Nat.not_lt.mpr most]), if_neg (by rw [place, free]; simp [aligned]), state,
    if_neg Bool.false_ne_true]

/-- The scrubber at a word of its region, in its time. -/
theorem patrolScrub_finds {r off : Nat} {l : Live} (up : domainUp .mem l = true) (awake_ : awake l = true) (inside : off < regionWords l r) :
    patrolScrub r off .single l = countCorrected r l ∧
    patrolScrub r off .double l = reportMemory (if r = 8 then 0xD040 else 0xD000 + r) off l := by
  have guard : ¬ (!(domainUp .mem l && awake l) || decide (regionWords l r ≤ off)) = true := by simp [up, awake_, Nat.not_le.mpr inside]
  unfold patrolScrub
  exact ⟨if_neg guard, if_neg guard⟩

theorem countCorrected_rst (r : Nat) (l : Live) : (countCorrected r l).rst =
    { l.rst with corrected := l.rst.corrected.put 0 r (satTo 16 (l.rst.corrected.get 0 r + 1)) } ∧ (countCorrected r l).mem = l.mem :=
  ⟨rfl, rfl⟩

/-- A single staged record that has waited long enough moves into a ring that has room. -/
theorem logStagingMove_puts {seq : BitVec 32} {r : LogRec} {w : Nat} {b : Bool} {l : Live} (ready : ringReady l = true)
    (staging : l.log.staging = [(seq, r, w, b)]) (waited : w + 400 ≤ l.now) (records : ringRecords l ≠ 0) (room : ringFull l = false) :
    logStagingMove l = putRing seq r { l with log := { l.log with staging := [] } } ∧ (logStagingMove l).log.staging = [] := by
  have none_ : (putRing seq r { l with log := { l.log with staging := [] } }).log.staging = [] := (settleTail_keeps _).2.2.2.1
  have effect : logStagingMove l = putRing seq r { l with log := { l.log with staging := [] } } := by
    unfold logStagingMove
    rw [staging]
    dsimp only
    rw [ready, decide_eq_true waited, if_pos (by simp), moveStaged, staging]
    dsimp only
    rw [if_neg records, room, if_pos (by decide), moveStaged, none_]
  exact ⟨effect, by rw [effect]; exact none_⟩

theorem putRing_put (seq : BitVec 32) (r : LogRec) (l : Live) :
    (putRing seq r l).mem = writeBytes l.mem (ringBase l + 16 * l.log.head) (recordBytes seq r) ∧
    (putRing seq r l).log.head = (l.log.head + 1) % ringRecords l ∧ (putRing seq r l).log.count = l.log.count + 1 := by
  unfold putRing
  exact ⟨rfl, (settleTail_keeps _).1, (settleTail_keeps _).2.2.1⟩

theorem padTo_full {n : Nat} {b : List Byte} (full : b.length = n) : padTo n b = b := by
  subst full
  simp [padTo]

/-- A read of the drain window that is one record long takes what a pop of one record gives. -/
theorem drainBytes_pop {es : EccWords} {l : Live} {r : List Byte × Live} (pop : popRecords es 1 l = r) :
    (drainBytes es 16 l).1 = padTo 16 r.1 ∧ (drainBytes es 16 l).2.ringed = r.2.ringed := by
  unfold drainBytes
  dsimp only
  rw [show popRecords es (16 / 16) l = r from pop]
  split
  · rw [List.append_nil]
    exact ⟨rfl, rfl⟩
  · exact ⟨congrArg (padTo 16) (List.append_nil _), fetchBytes_ringed _ _ _ _⟩

theorem drainBytes_one (es : EccWords) {l : Live} (some_ : l.log.count ≠ 0) :
    ((∀ e ∈ es, e.2 = false) → (drainBytes es 16 l).1 = readBytes l.mem (ringBase l + 16 * l.log.tail) 16) ∧
    (drainBytes es 16 l).2.ringed = (l.conf, l.mem, l.rst.fittedMiB, l.log.head, (l.log.tail + 1) % ringRecords l, l.log.count - 1) := by
  obtain ⟨bytes, ringed⟩ := drainBytes_pop (popRecords_first es 0 some_)
  refine ⟨fun single => ?_, ringed.trans (fetch_advance es some_)⟩
  rw [bytes]
  dsimp only [popRecords]
  rw [List.append_nil, fetchBytes_single single, padTo_full (readBytes_length _ _ _)]

theorem logDrainRead_one {addr : BitVec 16} {es : EccWords} {l : Live} (up : hostUp l = true) (inside : addr.toNat + 16 ≤ 0x10000) :
    logDrainRead addr 16 es l = { (drainBytes es 16 (csFall l)).2 with
      host := { (drainBytes es 16 (csFall l)).2.host with lastRead := padTo 16 (drainBytes es 16 (csFall l)).1 } } := by
  have whole : min 16 (0x10000 - addr.toNat) = 16 := by omega
  unfold logDrainRead
  dsimp only
  rw [up, if_neg (by decide), whole]
  exact if_neg (by decide)

theorem answer_given (i : Nat) (a : Answer) (l : Live) : ((answer i a l).connSt i).answer = a := by
  unfold answer
  rw [updConnSt_same]

/-- The read of the drain object as one effect. -/
def drainRead (read : DrainRead) (l : Live) : Live :=
  if !served read.conn l then l
  else answer (connId read.conn) (.value (drainObject read.ecc (touch read.conn l)).1) (drainObject read.ecc (touch read.conn l)).2

theorem drainRead_served {conn : Conn} {es : EccWords} {l : Live} (serve : served conn l = true) : drainRead ⟨conn, es⟩ l =
    answer (connId conn) (.value (drainObject es (touch conn l)).1) (drainObject es (touch conn l)).2 := if_neg (by rw [serve]; decide)

/-- The drain object where the ring holds one record. -/
theorem drainObject_one (es : EccWords) {l : Live} (one : l.log.count = 1) : drainObject es l =
    ((fetchBytes es (ringBase l + 16 * l.log.tail) 16 l).1, advanceTail (fetchBytes es (ringBase l + 16 * l.log.tail) 16 l).2) := by
  have some_ : l.log.count ≠ 0 := by rw [one]; decide
  have empty : (advanceTail (fetchBytes es (ringBase l + 16 * l.log.tail) 16 l).2).log.count = 0 :=
    (congrArg (fun x => x.2.2.2.2.2) (fetch_advance es some_)).trans (by rw [one])
  unfold drainObject
  rw [if_neg some_, popRecords_first es 63 some_]
  dsimp only
  rw [popRecords_none es 63 empty, List.append_nil]

theorem finishFlush_flushed {l : Live} (flushing : l.log.flushing = true) :
    (finishFlush l).log.staging = [] ∧ (finishFlush l).log.flushing = false ∧
    (finishFlush l).log.nextSeq = (moveStaged l.log.staging.length l).log.nextSeq ∧ (finishFlush l).mem = (moveStaged l.log.staging.length l).mem := by
  obtain ⟨-, -, seq, -, mem, staging, done_⟩ := lose_keeps 2 (moveStaged l.log.staging.length l).log.staging.length
    { moveStaged l.log.staging.length l with log := { (moveStaged l.log.staging.length l).log with staging := [], flushing := false } }
  unfold finishFlush
  rw [flushing]
  exact ⟨staging, done_, seq, mem⟩

/-- Settles O31. -/
theorem memoryAndLogComplete : Obligations.MemoryAndLogComplete := by
  refine ⟨fun s conn data reaches => ?_,
    fun s r offset up awake_ inside => ⟨?_, ?_⟩,
    fun s u r rest open_ started next waiting free calm => ?_,
    fun s seq r w b ready staging waited records room => ?_,
    fun s at0 n open_ started episode due counts some_ free => ?_,
    fun s addr ecc up inside some_ => ?_,
    fun s conn ecc serve => ⟨fun one => ?_, fun empty => ?_⟩,
    fun s conn n reaches => ?_,
    fun s flushing => ?_,
    fun s zeroing => ?_⟩
  · intro n a long whole most aligned place free opened
    have effect := memoryLoad_stores (l := touch conn s.live) (n := n) (a := a) rfl rfl long whole most aligned place free opened
    have size : (data.drop 8).length = n := List.length_drop
    refine completes_object (f := memoryLoad data) rfl reaches effect ⟨?_, fun b out => ?_, answeredDone_reply _ _ _⟩
    · rw [apply_memory, ← size]
      exact readBytes_writeBytes _ _ _
    · rw [apply_memory]
      exact readByte_writeBytes_out _ _ _ _ (by rw [size]; exact out)
  · obtain ⟨effect, -⟩ := patrolScrub_finds up awake_ inside
    obtain ⟨counted, mem⟩ := countCorrected_rst r.val s.live
    refine completes_apply (f := patrolScrub r.val offset.toNat .single) rfl ⟨?_, sameMemory_apply (by rw [effect, mem])⟩
    rw [apply_rst, effect, counted]
  · obtain ⟨-, effect⟩ := patrolScrub_finds up awake_ inside
    refine completes_apply (f := patrolScrub r.val offset.toNat .double) rfl ⟨?_, sameMemory_apply ?_⟩
    · rw [apply_rst, effect, (reportMemory_keeps _ _ _).1]
    · rw [effect, (reportMemory_keeps _ _ _).2]
  · obtain ⟨staging, seq, mem⟩ := logAdmit_stages open_ started next waiting free calm
    refine completes_apply (f := logAdmit u.toNat) rfl ⟨?_, ?_, sameMemory_apply mem⟩
    · simp only [apply_parts_keep, staging]
    · simp only [apply_parts_keep, seq]
  · obtain ⟨effect, none_⟩ := logStagingMove_puts ready staging waited records room
    obtain ⟨mem, head, count⟩ := putRing_put seq r { s.live with log := { s.live.log with staging := [] } }
    rw [← effect] at mem head count
    refine completes_apply (f := logStagingMove) rfl ⟨?_, fun a out => ?_, ?_, ?_, ?_⟩
    · rw [apply_memory, mem, ← recordBytes_length seq r]
      exact readBytes_writeBytes _ _ _
    · rw [apply_memory, mem]
      exact readByte_writeBytes_out _ _ _ _ (by rw [recordBytes_length]; exact out)
    · simp only [apply_parts_keep, head]
      rfl
    · simp only [apply_parts_keep, count]
    · simp only [apply_parts_keep, none_]
  · have effect : logLossRecord s.live = { writeLosses s.live with log := { (writeLosses s.live).log with
        nextLoss := (writeLosses s.live).log.nextLoss + 400000 } } :=
      if_pos (by simp [episode, due, open_, started])
    obtain ⟨staging, mem⟩ := writeLosses_staging counts some_ free
    refine completes_apply (f := logLossRecord) rfl ⟨?_, sameMemory_apply (by rw [effect]; exact mem)⟩
    simp only [apply_parts_keep, effect]
    exact staging
  · have kept : (csFall s.live).ringed = s.live.ringed := by
      unfold csFall
      split <;> rfl
    obtain ⟨records, base⟩ := ringed_records kept
    have log : (csFall s.live).log = s.live.log := by
      unfold csFall
      split <;> rfl
    have mem : (csFall s.live).mem = s.live.mem := congrArg (fun x => x.2.1) kept
    obtain ⟨bytes, ringed⟩ := drainBytes_one ecc (l := csFall s.live) (by rw [log]; exact some_)
    have effect := logDrainRead_one (es := ecc) up inside
    rw [log, records] at ringed
    refine completes_apply (f := logDrainRead addr 16 ecc) rfl ⟨fun single => ?_, ?_, ?_, sameMemory_apply ?_⟩
    · rw [apply_host, effect]
      dsimp only
      rw [bytes single, base, log, mem]
      exact padTo_full (readBytes_length _ _ _)
    · simp only [apply_parts_keep, effect]
      exact congrArg (fun x => x.2.2.2.2.2) ringed
    · simp only [apply_parts_keep, effect]
      exact congrArg (fun x => x.2.2.2.2.1) ringed
    · rw [effect]
      exact (congrArg (fun x => x.2.1) ringed).trans mem
  · have effect := drainObject_one ecc (l := touch conn s.live) one
    have gone := fetch_advance ecc (l := touch conn s.live) (by rw [show (touch conn s.live).log.count = 1 from one]; decide)
    refine completes_apply (f := drainRead ⟨conn, ecc⟩) rfl ⟨fun single => ?_, ?_, sameMemory_apply ?_⟩
    · rw [apply_connSt, drainRead_served serve, answer_given, effect]
      exact congrArg Answer.value (fetchBytes_single single _ _ _)
    · simp only [apply_parts_keep, drainRead_served serve, effect]
      exact (congrArg (fun x => x.2.2.2.2.2) gone).trans (congrArg (· - 1) one)
    · rw [drainRead_served serve, effect]
      exact congrArg (fun x => x.2.1) gone
  · have effect : drainObject ecc (touch conn s.live) = (List.replicate 16 0, touch conn s.live) := if_pos empty
    refine completes_apply (f := drainRead ⟨conn, ecc⟩) rfl ⟨?_, ?_, sameMemory_apply ?_⟩
    · rw [apply_connSt, drainRead_served serve, answer_given, effect]
    · simp only [apply_parts_keep, drainRead_served serve, effect]
      exact empty
    · rw [drainRead_served serve, effect]
      rfl
  · obtain ⟨count, head, mem, net⟩ := releaseTail_released (min n.toNat s.live.log.count) (touch conn s.live)
    refine completes_object (f := done fun l => releaseTail (min n.toNat l.log.count) l) rfl reaches rfl
      ⟨?_, ?_, answeredDone_reply _ _ _, sameMemory_reply mem⟩
    · simp only [apply_parts_keep]
      exact count
    · simp only [apply_parts_keep]
      exact head
  · have moved := moveStaged_inRing s.live.log.staging.length s.live
    obtain ⟨staging, done_, seq, mem⟩ := finishFlush_flushed flushing
    refine completes_apply (f := finishFlush) rfl ⟨?_, ?_, ?_, fun inside a out => ?_⟩
    · simp only [apply_parts_keep, staging]
    · simp only [apply_parts_keep, done_]
    · simp only [apply_parts_keep, seq, moved.nextSeq]
    · rw [apply_memory, mem]
      exact moved.outside inside a out
  · have effect : zeroingDone s.live = { s.live with log := { s.live.log with zeroing := false, status := setBit s.live.log.status 4 } } :=
      if_neg (by rw [zeroing]; decide)
    refine completes_apply (f := zeroingDone) rfl ⟨?_, ?_, sameMemory_apply (by rw [effect])⟩
    · simp only [apply_parts_keep, effect]
    · rw [(apply_parts zeroingDone s).logStatus 4 (by decide), effect]
      exact setBit_same _ (by decide)

end Sys2Proof.Machine

/-! What the accesses of DMA leave: the channels of the DMA unit, and memory but for the bytes written (R22–R24, R351). -/

namespace Sys2Proof.Machine

open Sys2Proof

/-- What a fabric access leaves but for the bytes it writes. -/
def Live.moving (l : Live) : SMap DmaChannel × Memory := (l.dma, l.mem)

theorem moving_dc {l m : Live} (h : m.moving = l.moving) (c : Nat) : m.dc c = l.dc c :=
  congrArg (fun x : SMap DmaChannel × Memory => SMap.get ({} : DmaChannel) x.1 c) h

theorem moving_mem {l m : Live} (h : m.moving = l.moving) : m.mem = l.mem := congrArg Prod.snd h

@[simp] theorem writeRecord_moving (src kind payload : Nat) (l : Live) : (writeRecord src kind payload l).moving = l.moving := by
  unfold Live.moving
  simp only [writeRecord_keeps]

@[simp] theorem reportFault_moving (src kind payload code : Nat) (l : Live) : (reportFault src kind payload code l).moving = l.moving := by
  unfold Live.moving
  simp only [reportFault_keeps]

@[simp] theorem noteBit_moving (idx sub b : Nat) (l : Live) : (noteBit idx sub b l).moving = l.moving := (rfl)
@[simp] theorem setPe_moving (l : Live) (i : Nat) (x : PinEngine) : (l.setPe i x).moving = l.moving := (rfl)
@[simp] theorem setPair_moving (l : Live) (i : Nat) (x : Pair) : (l.setPair i x).moving = l.moving := (rfl)
@[simp] theorem updPair_moving (l : Live) (i : Nat) (f : Pair → Pair) : (l.updPair i f).moving = l.moving := (rfl)
@[simp] theorem setConv_moving (l : Live) (i : Nat) (x : Converter) : (l.setConv i x).moving = l.moving := (rfl)
@[simp] theorem drawFree_moving (l : Live) : (drawFree l).2.moving = l.moving := (rfl)

/-! ### Memory errors (R24) -/

theorem doubleBit_moving (a : Nat) (l : Live) : (doubleBit a l).moving = l.moving := by
  unfold doubleBit
  split
  · exact reportFault_moving _ _ _ _ _
  · rfl

theorem readErrors_moving (es : EccWords) (a n : Nat) (l : Live) : (readErrors es a n l).moving = l.moving := by
  unfold readErrors
  refine forAll_keeps Live.moving (fun e m => ?_) _ l
  split
  · exact doubleBit_moving _ m
  · unfold singleBit
    split <;> rfl

/-! ### Reads (R22, R311, R335, R346) -/

@[simp] theorem popAdcEntry_moving (k : Nat) (l : Live) : (popAdcEntry k l).2.moving = l.moving := by
  unfold popAdcEntry
  dsimp only
  split
  · rfl
  · exact writeRecord_moving _ _ _ _

@[simp] theorem popAdcBeat_moving (k : Nat) (l : Live) : (popAdcBeat k l).2.moving = l.moving := by
  simp [popAdcBeat]

theorem peReadReg_moving (e r : Nat) (whole : Bool) (l : Live) : (peReadReg e r whole l).2.moving = l.moving := by
  unfold peReadReg rxdRead
  split
  · split
    · dsimp only
      split <;> rfl
    · rfl
  · rfl
  · rfl

theorem peReadRegs_moving (o n : Nat) : ∀ (f i : Nat) (l : Live), (peReadRegs o n f i l).2.moving = l.moving
  | 0, _, _ => rfl
  | f + 1, i, l => by
    unfold peReadRegs
    dsimp only
    rw [peReadRegs_moving o n f]
    split
    · exact peReadReg_moving _ _ _ l
    · rfl

theorem peReadAt_moving (o n : Nat) (l : Live) : (peReadAt o n l).2.moving = l.moving := peReadRegs_moving _ _ _ _ l

theorem periRead_moving {a : Nat} {w : Word} {l m : Live} (h : periRead a l = some (w, m)) : m.moving = l.moving := by
  simp only [periRead] at h
  split at h
  · obtain ⟨-, read⟩ := Option.ite_none_right_eq_some.mp h
    have kept := popAdcBeat_moving ((a - 0x00850000) / 64) l
    rwa [Option.some.inj read] at kept
  · split at h
    · obtain ⟨-, read⟩ := Option.ite_none_right_eq_some.mp h
      rw [← (Prod.mk.inj (Option.some.inj read)).2]
    · simp only [Option.ite_none_right_eq_some, Option.some.injEq, Prod.mk.injEq] at h
      obtain ⟨-, -, -, read⟩ := h
      rw [← read, peReadAt_moving]

theorem fabricRead_moving {a : Nat} {w : Word} {l m : Live} (h : fabricRead a l = some (w, m)) : m.moving = l.moving := by
  unfold fabricRead at h
  split at h
  · rw [← (Prod.mk.inj (Option.some.inj h)).2]
  · split at h
    · have kept := drawFree_moving l
      rwa [Option.some.inj h] at kept
    · split at h
      · rw [← (Prod.mk.inj (Option.some.inj h)).2]
      · exact periRead_moving h

theorem beatRead_moving (es : EccWords) (a : Nat) (l : Live) : (beatRead es a l).2.moving = l.moving := by
  unfold beatRead
  split
  · exact readErrors_moving es a 8 l
  · split
    next w m h => rw [readErrors_moving, fabricRead_moving h]
    · rfl

/-! ### Writes (R278, R335, R351) -/

@[simp] theorem pwmRecord_moving (u code payload : Nat) (l : Live) : (pwmRecord u code payload l).moving = l.moving := by
  simp [pwmRecord, apply_ite Live.moving]

@[simp] theorem streamBeat_moving (u : Nat) (beat : Word) (l : Live) : (streamBeat u beat l).moving = l.moving := by
  simp [streamBeat, apply_ite Live.moving]

@[simp] theorem peRecord_moving (e code element detail : Nat) (l : Live) : (peRecord e code element detail l).moving = l.moving := by
  simp [peRecord, apply_ite Live.moving]

@[simp] theorem txdWrite_moving (e : Nat) (w : BitVec 32) (l : Live) : (txdWrite e w l).moving = l.moving := by
  unfold txdWrite
  split
  · rfl
  · dsimp only
    split
    · rfl
    · exact peRecord_moving _ _ _ _ _

@[simp] theorem peW1c_moving (e w : Nat) (l : Live) : (peW1c e w l).moving = l.moving := by
  unfold peW1c
  dsimp only
  split <;> rfl

@[simp] theorem peSetFlags_moving (e : Nat) (m : Byte) (l : Live) : (peSetFlags e m l).moving = l.moving := by
  unfold peSetFlags
  split <;> rfl

@[simp] theorem peClearFlags_moving (e : Nat) (m : Byte) (l : Live) : (peClearFlags e m l).moving = l.moving := by
  unfold peClearFlags
  split <;> rfl

@[simp] theorem peFlush_moving (e : Nat) (l : Live) : (peFlush e l).moving = l.moving := by
  unfold peFlush
  split <;> rfl

@[simp] theorem peForceSwap_moving (e : Nat) (l : Live) : (peForceSwap e l).moving = l.moving := by
  unfold peForceSwap
  dsimp only
  split
  · rfl
  · exact writeRecord_moving _ _ _ _

@[simp] theorem peCtl_moving (e v : Nat) (l : Live) : (peCtl e v l).moving = l.moving := by
  simp [peCtl, apply_ite Live.moving]

@[simp] theorem peWriteReg_moving (e r v : Nat) (l : Live) : (peWriteReg e r v l).moving = l.moving := by
  unfold peWriteReg
  split
  · rfl
  · split <;> simp

/-- A write of eight bytes changes no channel of the DMA unit and no byte of memory beyond them. -/
theorem fabricWrite_moves {a : Nat} {w : Word} {l m : Live} (h : fabricWrite a w l = some m) :
    m.dma = l.dma ∧ ∀ b, b < a ∨ a + 8 ≤ b → readByte m.mem b = readByte l.mem b := by
  have kept (k : m.moving = l.moving) : m.dma = l.dma ∧ ∀ b, b < a ∨ a + 8 ≤ b → readByte m.mem b = readByte l.mem b :=
    ⟨congrArg Prod.fst k, fun b _ => by rw [moving_mem k]⟩
  unfold fabricWrite periWrite at h
  dsimp only at h
  split at h
  · obtain rfl := Option.some.inj h
    exact ⟨rfl, fun b out => readByte_writeBytes_out _ _ _ _ (by rw [bytesLE_length]; exact out)⟩
  · split at h
    · obtain ⟨-, written⟩ := Option.ite_none_right_eq_some.mp h
      exact kept (by rw [← Option.some.inj written, streamBeat_moving])
    · split at h
      · obtain ⟨-, written⟩ := Option.ite_none_right_eq_some.mp h
        exact kept (by rw [← Option.some.inj written]; exact forAll_keeps Live.moving (fun _ _ => peWriteReg_moving _ _ _ _) _ l)
      · obtain ⟨-, written⟩ := Option.ite_none_right_eq_some.mp h
        exact kept (by rw [← Option.some.inj written]; rfl)

/-! ### Beats (R351) -/

/-- A beat moves its channel on if it is done, else leaves it, and writes no byte beyond the eight at the destination. -/
theorem dmaBeat_moves (es : EccWords) (c : Nat) (l : Live) :
    ((dmaBeat es c l).1 = .done → (dmaBeat es c l).2.dc c = beatMoved (l.dc c)) ∧
    ((dmaBeat es c l).1 ≠ .done → (dmaBeat es c l).2.dc c = l.dc c) ∧
    ∀ b, b < (l.dc c).dst ∨ (l.dc c).dst + 8 ≤ b → readByte (dmaBeat es c l).2.mem b = readByte l.mem b := by
  unfold dmaBeat
  extract_lets x ok
  have moved {m : Live} (dma : m.dma = l.dma) : (ok m).2.dc c = beatMoved (l.dc c) := by
    show (m.updDc c beatMoved).dc c = _
    rw [updDc_same]
    exact congrArg (fun d => beatMoved (SMap.get ({} : DmaChannel) d c)) dma
  have source := beatRead_moving es x.src l
  split
  · split
    next m read =>
      rw [read] at source
      exact ⟨fun done_ => absurd done_ (by simp), fun _ => moving_dc source c, fun b _ => by rw [moving_mem source]⟩
    next w m read =>
      rw [read] at source
      split
      · exact ⟨fun done_ => absurd done_ (by simp), fun _ => moving_dc source c, fun b _ => by rw [moving_mem source]⟩
      next n written =>
        obtain ⟨dma, mem⟩ := fabricWrite_moves written
        exact ⟨fun _ => moved (dma.trans (congrArg Prod.fst source)), fun other => absurd rfl other,
          fun b out => (mem b out).trans (by rw [moving_mem source])⟩
  · split
    · exact ⟨fun done_ => absurd done_ (by simp), fun _ => rfl, fun b _ => rfl⟩
    next n written =>
      obtain ⟨dma, mem⟩ := fabricWrite_moves written
      exact ⟨fun _ => moved dma, fun other => absurd rfl other, mem⟩
  · split
    next m read =>
      rw [read] at source
      exact ⟨fun done_ => absurd done_ (by simp), fun _ => moving_dc source c, fun b _ => by rw [moving_mem source]⟩
    next a m read =>
      rw [read] at source
      have target := (beatRead_moving es x.dst m).trans source
      split
      next n second =>
        rw [second] at target
        exact ⟨fun done_ => absurd done_ (by simp), fun _ => moving_dc target c, fun b _ => by rw [moving_mem target]⟩
      next b n second =>
        rw [second] at target
        split
        · exact ⟨fun _ => moved (congrArg Prod.fst target), fun other => absurd rfl other, fun b _ => congrArg (fun x : SMap DmaChannel × Memory => readByte x.2 b) target⟩
        · exact ⟨fun done_ => absurd done_ (by simp), fun _ => moving_dc target c, fun b _ => by rw [moving_mem target]⟩

/-- The beats of a burst write no byte beyond those it covers. -/
theorem dmaBeats_outside (c : Nat) : ∀ (n : Nat) (es : EccWords) (l : Live) (b : Nat), b < (l.dc c).dst ∨ (l.dc c).dst + 8 * n ≤ b →
    readByte (dmaBeats c n es l).2.mem b = readByte l.mem b
  | 0, _, _, _, _ => rfl
  | n + 1, es, l, b, out => by
    obtain ⟨moved, -, mem⟩ := dmaBeat_moves es c l
    have first := mem b (by omega)
    unfold dmaBeats
    split
    next m done_ =>
      rw [done_] at moved first
      have dst : (m.dc c).dst = (l.dc c).dst ∨ (m.dc c).dst = (l.dc c).dst + 8 := by
        rw [moved rfl]
        unfold beatMoved
        dsimp only
        split
        · exact .inl rfl
        · exact .inr rfl
      exact (dmaBeats_outside c n _ m b (by omega)).trans first
    · exact first

/-! ### How a burst, a fetch or a fence ends (R350, R354, R355, R357) -/

/-- A halted channel. -/
theorem dmaHalt_halts (c dir a : Nat) (l : Live) :
    ((dmaHalt c dir a l).dc c).state = .halted ∧ ((dmaHalt c dir a l).dc c).failAddr = BitVec.ofNat 40 a ∧
    ((dmaHalt c dir a l).dc c).busCnt = (l.dc c).busCnt + 1 ∧ ((dmaHalt c dir a l).dc c).burst = none ∧
    ((dmaHalt c dir a l).dc c).fetching = false ∧ ((dmaHalt c dir a l).dc c).remaining = (l.dc c).remaining ∧ (dmaHalt c dir a l).mem = l.mem := by
  unfold dmaHalt
  extract_lets x st x1 x2 src
  have kept := reportFault_moving src 0x60 ((dir + 1) * 2 ^ 24 + x2.descCnt.toNat % 2 ^ 24) 0xFF02 (noteBit (0x3A00 + c) 2 1 (l.setDc c x2))
  have dc : (reportFault src 0x60 ((dir + 1) * 2 ^ 24 + x2.descCnt.toNat % 2 ^ 24) 0xFF02 (noteBit (0x3A00 + c) 2 1 (l.setDc c x2))).dc c = x2 :=
    (moving_dc kept c).trans (setDc_same l c x2)
  rw [dc, moving_mem kept]
  exact ⟨rfl, rfl, rfl, rfl, rfl, rfl, rfl⟩

/-- A completed descriptor: its count, and what stays of the channel. -/
theorem dmaCompleted_counts (c : Nat) (l : Live) : ∃ st, (dmaCompleted c l).dc c =
    { l.dc c with descCnt := (l.dc c).descCnt + 1, fencing := false, status := st } ∧ (dmaCompleted c l).mem = l.mem := by
  unfold dmaCompleted
  extract_lets x x1 l1
  have one : ∃ st, l1.dc c = { l.dc c with descCnt := (l.dc c).descCnt + 1, fencing := false, status := st } ∧ l1.mem = l.mem := by
    show ∃ st, Live.dc (if descIrq x1.desc then _ else _) c = _ ∧ _
    split
    next on =>
      refine ⟨setBit x1.status 0, setDc_same l c _, ?_⟩
      show Live.mem (if descIrq x1.desc then _ else _) = l.mem
      rw [if_pos on]
      rfl
    next off =>
      refine ⟨x1.status, setDc_same l c _, ?_⟩
      show Live.mem (if descIrq x1.desc then _ else _) = l.mem
      rw [if_neg off]
      rfl
  obtain ⟨st, dc, mem⟩ := one
  clear_value l1
  refine ⟨st, ?_, ?_⟩
  · split
    · exact (moving_dc (writeRecord_moving _ _ _ l1) c).trans dc
    · exact dc
  · split
    · exact (moving_mem (writeRecord_moving _ _ _ l1)).trans mem
    · exact mem

/-- A finished descriptor: its chain is fetched, or the channel stops. -/
theorem dmaFinish_ends (c : Nat) (l : Live) :
    ((dmaFinish c l).dc c).fencing = false ∧ ((dmaFinish c l).dc c).descCnt = (l.dc c).descCnt + 1 ∧
    ((dmaFinish c l).dc c).burst = (l.dc c).burst ∧ ((dmaFinish c l).dc c).remaining = (l.dc c).remaining ∧
    (if descChain (l.dc c).desc then ((dmaFinish c l).dc c).fetching = true ∧ ((dmaFinish c l).dc c).state = (l.dc c).state
      else ((dmaFinish c l).dc c).state = .stopped) ∧ (dmaFinish c l).mem = l.mem := by
  obtain ⟨st, dc, mem⟩ := dmaCompleted_counts c l
  unfold dmaFinish
  dsimp only
  rw [updDc_same, dc]
  refine ⟨?_, ?_, ?_, ?_, ?_, mem⟩
  · split <;> rfl
  · split <;> rfl
  · split <;> rfl
  · split <;> rfl
  · split
    · exact ⟨rfl, rfl⟩
    · rfl

/-- A mismatch ends the burst and leaves memory. -/
theorem dmaMismatch_ends (c a : Nat) (l : Live) : ((dmaMismatch c a l).dc c).burst = none ∧ (dmaMismatch c a l).mem = l.mem := by
  unfold dmaMismatch
  extract_lets l1 l2 l3
  obtain ⟨st, dc, mem⟩ := dmaCompleted_counts c l1
  have kept := writeRecord_moving (0x8000 + 0x40 * c) 0x60 (5 * 2 ^ 24 + (l3.dc c).descCnt.toNat % 2 ^ 24) l3
  have dc3 : (l3.dc c).burst = none := by
    show ((l2.updDc c _).dc c).burst = none
    rw [updDc_same, show l2.dc c = _ from dc, show l1.dc c = _ from updDc_same _ c _]
  exact ⟨by rw [moving_dc kept]; exact dc3, (moving_mem kept).trans mem⟩

end Sys2Proof.Machine

/-! The channels of the DMA unit (R346–R358). -/

namespace Sys2Proof.Machine

open Sys2Proof

/-! ### Bytes and words -/

theorem bytesLE_ofBytesLE (b : List Byte) : bytesLE b.length (ofBytesLE b) = b := by
  induction b with
  | nil => rfl
  | cons x r ih =>
    have low : (x.toNat + 256 * ofBytesLE r) % 256 = x.toNat := by omega
    have high : (x.toNat + 256 * ofBytesLE r) / 256 = ofBytesLE r := by omega
    simp only [List.length_cons, bytesLE, ofBytesLE, low, high, ih, BitVec.ofNat_toNat, BitVec.setWidth_eq]

/-- Eight bytes of memory as a word and back. -/
theorem bytes_of_word (m : Memory) (a : Nat) : bytesLE 8 (BitVec.ofNat 64 (ofBytesLE (readBytes m a 8))).toNat = readBytes m a 8 := by
  have size := readBytes_length m 8 a
  have small : ofBytesLE (readBytes m a 8) < 2 ^ 64 := by
    have bound := ofBytesLE_bound (readBytes m a 8)
    rw [size] at bound
    exact bound
  have back := bytesLE_ofBytesLE (readBytes m a 8)
  rw [size] at back
  rw [BitVec.toNat_ofNat, Nat.mod_eq_of_lt small]
  exact back

theorem bytes_of_field (d : List Byte) : bytesLE 8 (BitVec.ofNat 64 (descField d 63 0)).toNat = bytesLE 8 (descField d 63 0) := by
  have small : descField d 63 0 < 2 ^ 64 := Nat.mod_lt _ (by decide)
  rw [BitVec.toNat_ofNat, Nat.mod_eq_of_lt small]

/-! ### Accesses to the tables (R22) -/

theorem regionAt_tables {l : Live} {a : Nat} (inside : inTables a 8 = true) : (regionAt l a).isSome = true := by
  have one : inTables a 1 = true := by
    unfold inTables at inside ⊢
    simp only [Bool.and_eq_true, decide_eq_true_eq] at inside ⊢
    omega
  unfold regionAt
  split
  · rfl
  · rfl

theorem beatRead_tables (es : EccWords) {l : Live} {a : Nat} (inside : inTables a 8 = true) : beatRead es a l =
    (if doubleAt es a then none else some (BitVec.ofNat 64 (ofBytesLE (readBytes l.mem a 8))), readErrors es a 8 l) := by
  have read : fabricRead a l = some (BitVec.ofNat 64 (ofBytesLE (readBytes l.mem a 8)), l) := if_pos (by rw [inside]; rfl)
  unfold beatRead
  rw [regionAt_tables inside, read]
  rcases Bool.eq_false_or_eq_true (doubleAt es a) with double | clean
  · rw [double]
    rfl
  · rw [clean]
    rfl

theorem fabricWrite_tables (w : Word) {l : Live} {a : Nat} (inside : inTables a 8 = true) :
    fabricWrite a w l = some { l with mem := writeBytes l.mem a (bytesLE 8 w.toNat) } := if_pos (by rw [inside]; rfl)

/-! ### One burst (R351, R354) -/

/-- What the end of a burst leaves of its channel where no beat failed. -/
def burstEnd (now : Nat) (x : DmaChannel) : DmaChannel := { x with burst := none, endAt := some now }

theorem dmaBurstDone_done {c n : Nat} {es : EccWords} {l m : Live} (up : awake l = true) (burst : (l.dc c).burst = some n)
    (beats : dmaBeats c (n / 8) es l = (.done, m)) : dmaBurstDone c es l =
      if (m.dc c).remaining ≠ 0 then m.updDc c (burstEnd m.now)
      else if descFence (m.dc c).desc && descOp (m.dc c).desc ≠ 2 then
        (m.updDc c (burstEnd m.now)).setDc c { burstEnd m.now (m.dc c) with fencing := true }
      else dmaFinish c (m.updDc c (burstEnd m.now)) := by
  unfold dmaBurstDone
  rw [up, if_neg (by decide), burst]
  dsimp only
  rw [beats]
  dsimp only
  rw [updDc_same]
  rfl

theorem dmaBurstDone_error {c n dir a : Nat} {es : EccWords} {l m : Live} (up : awake l = true) (burst : (l.dc c).burst = some n)
    (beats : dmaBeats c (n / 8) es l = (.error dir a, m)) : dmaBurstDone c es l = dmaHalt c dir a m := by
  unfold dmaBurstDone
  rw [up, if_neg (by decide), burst]
  dsimp only
  rw [beats]

theorem dmaBurstDone_mismatch {c n a : Nat} {es : EccWords} {l m : Live} (up : awake l = true) (burst : (l.dc c).burst = some n)
    (beats : dmaBeats c (n / 8) es l = (.mismatch a, m)) : dmaBurstDone c es l = dmaMismatch c a m := by
  unfold dmaBurstDone
  rw [up, if_neg (by decide), burst]
  dsimp only
  rw [beats]

/-- A burst of one beat. -/
theorem dmaBeats_one (c : Nat) (es : EccWords) (l : Live) : dmaBeats c (8 / 8) es l = dmaBeat es c l := by
  show dmaBeats c 1 es l = _
  unfold dmaBeats
  split
  next m done_ =>
    rw [done_]
    rfl
  · rfl

/-- A burst whose only beat is done: the channel goes on, or its descriptor is finished. -/
theorem dmaBurstDone_moved {c : Nat} {es : EccWords} {l m : Live} (up : awake l = true) (burst : (l.dc c).burst = some 8)
    (beat : dmaBeat es c l = (.done, m)) :
    (8 < (l.dc c).remaining.toNat → dmaBurstDone c es l = m.updDc c (burstEnd m.now)) ∧
    ((l.dc c).remaining = 8 → descFence (l.dc c).desc = false → dmaBurstDone c es l = dmaFinish c (m.updDc c (burstEnd m.now))) := by
  have moved := (dmaBeat_moves es c l).1 (by rw [beat])
  rw [beat] at moved
  have effect := dmaBurstDone_done up burst ((dmaBeats_one c es l).trans beat)
  rw [show m.dc c = beatMoved (l.dc c) from moved] at effect
  refine ⟨fun more => effect.trans (if_pos ?_), fun last fence => effect.trans ((if_neg ?_).trans (if_neg ?_))⟩
  · show (l.dc c).remaining - 8 ≠ 0
    bv_omega
  · show ¬ (l.dc c).remaining - 8 ≠ 0
    rw [last]
    decide
  · show ¬ (descFence (l.dc c).desc && _) = true
    rw [fence, Bool.false_and]
    decide

theorem dmaBeat_fills {c : Nat} (es : EccWords) {l : Live} (op : descOp (l.dc c).desc = 1) (inside : inTables (l.dc c).dst 8 = true) :
    ∃ m, dmaBeat es c l = (.done, m) ∧ m.mem = writeBytes l.mem (l.dc c).dst (bytesLE 8 (descField (l.dc c).desc 63 0)) ∧ m.now = l.now := by
  unfold dmaBeat
  dsimp only
  simp only [op]
  rw [fabricWrite_tables _ inside, bytes_of_field]
  exact ⟨_, rfl, rfl, rfl⟩

theorem dmaBeat_copies {c : Nat} {es : EccWords} {l : Live} (op : descOp (l.dc c).desc = 0) (inside : inTables (l.dc c).src 8 = true) :
    (doubleAt es (l.dc c).src = false → inTables (l.dc c).dst 8 = true →
      ∃ m, dmaBeat es c l = (.done, m) ∧ m.mem = writeBytes l.mem (l.dc c).dst (readBytes l.mem (l.dc c).src 8)) ∧
    (doubleAt es (l.dc c).src = true → dmaBeat es c l = (.error 0 (l.dc c).src, readErrors es (l.dc c).src 8 l)) := by
  refine ⟨fun clean target => ?_, fun double => ?_⟩
  · unfold dmaBeat
    dsimp only
    simp only [op]
    rw [beatRead_tables es inside, clean]
    rw [if_neg Bool.false_ne_true]
    dsimp only
    rw [fabricWrite_tables _ target, bytes_of_word, moving_mem (readErrors_moving _ _ _ _)]
    exact ⟨_, rfl, rfl⟩
  · unfold dmaBeat
    dsimp only
    simp only [op]
    rw [beatRead_tables es inside, double]
    rfl

/-- However a burst ends, nothing is in flight any more, and no byte beyond its span has changed. -/
theorem dmaBurstDone_ends {c n : Nat} (es : EccWords) {l : Live} (up : awake l = true) (burst : (l.dc c).burst = some n) :
    ((dmaBurstDone c es l).dc c).burst = none ∧
    ∀ b, b < (l.dc c).dst ∨ (l.dc c).dst + n ≤ b → readByte (dmaBurstDone c es l).mem b = readByte l.mem b := by
  have outside (b : Nat) (out : b < (l.dc c).dst ∨ (l.dc c).dst + n ≤ b) := dmaBeats_outside c (n / 8) es l b (by omega)
  obtain ⟨r, m, beats⟩ : ∃ r m, dmaBeats c (n / 8) es l = (r, m) := ⟨_, _, rfl⟩
  rw [beats] at outside
  cases r with
  | done =>
    have finish := dmaFinish_ends c (m.updDc c (burstEnd m.now))
    obtain ⟨-, -, burst', -, -, mem⟩ := finish
    rw [dmaBurstDone_done up burst beats]
    split
    · exact ⟨by rw [updDc_same]; rfl, outside⟩
    · split
      · exact ⟨by rw [setDc_same]; rfl, outside⟩
      · exact ⟨by rw [burst', updDc_same]; rfl, fun b out => by rw [mem]; exact outside b out⟩
  | mismatch a =>
    obtain ⟨none_, mem⟩ := dmaMismatch_ends c a m
    rw [dmaBurstDone_mismatch up burst beats]
    exact ⟨none_, fun b out => by rw [mem]; exact outside b out⟩
  | error dir a =>
    obtain ⟨-, -, -, none_, -, -, mem⟩ := dmaHalt_halts c dir a m
    rw [dmaBurstDone_error up burst beats]
    exact ⟨none_, fun b out => by rw [mem]; exact outside b out⟩

/-! ### Fetches and errors (R350, R354, R355, R357) -/

theorem awake_of_readErrors (es : EccWords) (a n : Nat) (l : Live) : (readErrors es a n l).rst.fittedMiB = l.rst.fittedMiB :=
  congrArg (fun x => x.2.2.1) (readErrors_ringed es a n l)

theorem descOk_congr {l m : Live} (fitted : m.rst.fittedMiB = l.rst.fittedMiB) (d : List Byte) : descOk m d = descOk l d := by
  unfold descOk mayRead mayWrite mayFetch inLpddr lpddrEnd
  rw [fitted]

theorem dmaFetched_tables {c : Nat} {es : EccWords} {l : Live} (up : awake l = true) (fetching : (l.dc c).fetching = true)
    (may : mayFetch l (descNext (l.dc c).desc) = true) (inside : inTables (descNext (l.dc c).desc) 32 = true) :
    let a := descNext (l.dc c).desc
    let d := readBytes l.mem a 32
    (descOk l d = true → (∀ i, i < 4 → doubleAt es (a + 8 * i) = false) →
      dmaFetched c es l = (readErrors es a 32 l).setDc c (loadDesc d a (l.dc c))) ∧
    ((descOk l d = false ∨ ∃ i, i < 4 ∧ doubleAt es (a + 8 * i) = true) → dmaFetched c es l = dmaHalt c 2 a (readErrors es a 32 l)) := by
  intro a d
  have ok : descOk (readErrors es a 32 l) d = descOk l d := descOk_congr (awake_of_readErrors _ _ _ _) d
  have reads : dmaFetched c es l = if (List.range 4).any (fun i => doubleAt es (a + 8 * i)) || !descOk (readErrors es a 32 l) d then
      dmaHalt c 2 a (readErrors es a 32 l) else (readErrors es a 32 l).setDc c (loadDesc d a (l.dc c)) := by
    unfold dmaFetched
    dsimp only
    rw [up, fetching, if_neg (by decide), may, inside]
    exact if_neg (by simp)
  rw [reads, ok]
  refine ⟨fun good clean => if_neg ?_, fun bad => if_pos ?_⟩
  · simp only [good, Bool.not_true, Bool.or_false, List.any_eq_true, not_exists, not_and, Bool.not_eq_true]
    exact fun i inside => clean i (List.mem_range.mp inside)
  · obtain bad | ⟨i, small, double⟩ := bad
    · rw [bad, Bool.not_false, Bool.or_true]
    · rw [Bool.or_eq_true, List.any_eq_true]
      exact .inl ⟨i, List.mem_range.mpr small, double⟩

/-- An error response to the first beat of a burst: to its write, or to one of the reads of a compare. -/
theorem dmaBusError_first {c n : Nat} {second : Bool} {l : Live} (up : awake l = true) (burst : (l.dc c).burst = some n) (some_ : 8 ≤ n) :
    (descOp (l.dc c).desc ≠ 2 → dmaBusError c 1 0 false l = dmaHalt c 1 (l.dc c).dst l) ∧
    (descOp (l.dc c).desc = 2 → dmaBusError c 0 0 second l =
      dmaHalt c 0 (if second then (l.dc c).dst else (l.dc c).src) (doubleBit (if second then (l.dc c).dst else (l.dc c).src) l)) := by
  have beats : ¬ n / 8 ≤ 0 := by omega
  refine ⟨fun op => ?_, fun op => ?_⟩
  · unfold dmaBusError
    dsimp only
    rw [up, if_neg (by decide), if_neg (by decide), if_neg (by decide), burst]
    dsimp only
    rw [if_neg (by simp [beats, op]), show dmaBeats c 0 [] l = (.done, l) from rfl]
    dsimp only
    rw [if_neg (by decide)]
  · unfold dmaBusError
    dsimp only
    rw [up, if_neg (by decide), if_neg (by decide), if_neg (by decide), burst]
    dsimp only
    rw [if_neg (by simp [beats, op]), show dmaBeats c 0 [] l = (.done, l) from rfl]
    dsimp only
    rw [if_pos rfl]

/-! ### Commands (R347, R352, R356, R357) -/

theorem dropLine_moving (n : Nat) (l : Live) : (dropLine n l).moving = l.moving := by
  unfold dropLine
  split
  · rfl
  · split <;> rfl

theorem dmaTake_takes {c : Nat} {l : Live} (ready : dmaReady l c = true) (room : burstsInFlight l < 16) (first : outranked l c = false) :
    (dmaTake c l).dc c = { l.dc c with burst := some (min (8 * descBeats (l.dc c).desc) (l.dc c).remaining.toNat), soft := false } ∧
    (dmaTake c l).mem = l.mem := by
  unfold dmaTake
  rw [ready, first, if_neg (by simp [Nat.not_le.mpr room])]
  extract_lets x n src l1
  have taken : l1.dc c = { x with burst := some n, soft := false } := setDc_same l c _
  have dropped := dropLine_moving (dmaSelect l1 c) l1
  have mem : (dropLine (dmaSelect l1 c) l1).mem = l1.mem := moving_mem dropped
  split
  · exact ⟨taken, rfl⟩
  · exact ⟨(moving_dc dropped c).trans taken, mem⟩

theorem dmaUndefine_leaves (c : Nat) (l : Live) : (dmaUndefine c l).mem = l.mem ∧ ((dmaUndefine c l).dc c).status = (l.dc c).status := by
  unfold dmaUndefine
  extract_lets r s t u
  have kept : u.2.moving = l.moving := (drawFree_moving t.2).trans ((drawFree_moving s.2).trans ((drawFree_moving r.2).trans (drawFree_moving l)))
  have mem := moving_mem kept
  have status := congrArg DmaChannel.status (moving_dc kept c)
  clear_value u
  rw [updDc_same]
  exact ⟨mem, status⟩

/-- A disabled channel. -/
theorem dmaDisable_disables (c : Nat) (l : Live) :
    ((dmaDisable c l).dc c).state = .disabled ∧ ((dmaDisable c l).dc c).burst = none ∧ ((dmaDisable c l).dc c).fetching = false ∧
    ((dmaDisable c l).dc c).fencing = false ∧ ((dmaDisable c l).dc c).soft = false ∧
    ((dmaDisable c l).dc c).status = (if (l.dc c).burst.isSome then setBit ((dmaCutBurst c l).dc c).status 4 else ((dmaCutBurst c l).dc c).status) ∧
    (dmaDisable c l).mem = (dmaCutBurst c l).mem := by
  obtain ⟨mem, status⟩ := dmaUndefine_leaves c (dmaCutBurst c l)
  unfold dmaDisable
  extract_lets flight l1 l2
  rw [updDc_same]
  have kept : l2.moving = l1.moving := by
    show Live.moving (if flight then _ else _) = _
    split <;> rfl
  refine ⟨rfl, rfl, rfl, rfl, rfl, ?_, (moving_mem kept).trans mem⟩
  show (if flight then setBit (l2.dc c).status 4 else (l2.dc c).status) = _
  rw [moving_dc kept, show (l1.dc c).status = _ from status]

theorem dmaCutBurst_outside {c n : Nat} {l : Live} (burst : (l.dc c).burst = some n) (b : Nat)
    (out : b < (l.dc c).dst ∨ (l.dc c).dst + n ≤ b) : readByte (dmaCutBurst c l).mem b = readByte l.mem b := by
  unfold dmaCutBurst
  rw [burst]
  dsimp only
  have some_ : (drawFree l).1.toNat % (n / 8 + 1) < n / 8 + 1 := Nat.mod_lt _ (by omega)
  exact dmaBeats_outside c _ [] (drawFree l).2 b (show b < (l.dc c).dst ∨ (l.dc c).dst + 8 * ((drawFree l).1.toNat % (n / 8 + 1)) ≤ b by omega)

/-- A software request: pending, or dropped where one is. -/
theorem dmaSoft_requests {c : Nat} {l : Live} (up : dmaUp l = true) : (dmaSoft c l).dc c =
      (if (l.dc c).soft then { l.dc c with status := setBit (l.dc c).status 3, dropCnt := (l.dc c).dropCnt + 1 } else { l.dc c with soft := true }) ∧
    (dmaSoft c l).mem = l.mem := by
  have kept : (if (l.dc c).soft then noteBit (0x3A00 + c) 2 3 l else l).moving = l.moving := by
    split <;> rfl
  have mem := moving_mem kept
  have dc := moving_dc kept c
  unfold dmaSoft
  rw [up, if_neg (by decide)]
  generalize (if (l.dc c).soft then noteBit (0x3A00 + c) 2 3 l else l) = m at mem dc ⊢
  rw [updDc_same, dc]
  exact ⟨rfl, mem⟩

theorem reply_dc (conn : Conn) (code : Nat) (l : Live) (c : Nat) : (reply conn code l).dc c = l.dc c := by simp

theorem reply_memory (conn : Conn) (code : Nat) (l : Live) : (reply conn code l).mem = l.mem := by simp

/-- Settles O30. That the beats of a burst move at its end or at the disable, that a continue makes a failed fetch or fence again, and the
order of a round are the model's choice (log entries 32, 35 and 36). -/
theorem dmaChannelsComplete : Obligations.DmaChannelsComplete := by
  intro s c x
  refine ⟨fun ready room first => ?_, fun ecc up burst op inside more => ?_, fun ecc up burst op inside => ⟨fun clean target last fence chain => ?_, fun double => ?_⟩,
    fun n ecc up burst => ?_, fun ecc up fencing clean => ?_, fun ecc up fetching => ?_, fun beat second up fetching => ?_,
    fun n up burst some_ => ⟨fun op => ?_, fun op second => ?_⟩, fun conn reaches => ⟨fun stopped up => ?_, fun calm => ?_, fun n burst => ?_, fun halted => ?_, fun up => ?_⟩⟩
  · obtain ⟨taken, mem⟩ := dmaTake_takes ready room first
    refine completes_apply (f := dmaTake c.val) rfl ⟨?_, sameMemory_apply mem⟩
    rw [apply_dc, taken]
  · obtain ⟨m, beat, mem, now⟩ := dmaBeat_fills ecc op inside
    have moved := (dmaBeat_moves ecc c.val s.live).1 (by rw [beat])
    rw [beat] at moved
    have effect := (dmaBurstDone_moved up burst beat).1 more
    have mem' : (dmaBurstDone c.val ecc s.live).mem = writeBytes s.live.mem x.dst (bytesLE 8 (descField x.desc 63 0)) := by
      rw [effect]
      exact mem
    refine completes_apply (f := dmaBurstDone c.val ecc) rfl ⟨?_, fun a out => ?_, ?_⟩
    · rw [apply_memory, mem']
      have written := readBytes_writeBytes s.live.mem x.dst (bytesLE 8 (descField x.desc 63 0))
      rwa [bytesLE_length] at written
    · rw [apply_memory, mem']
      exact readByte_writeBytes_out _ _ _ _ (by rw [bytesLE_length]; exact out)
    · rw [apply_dc, effect, updDc_same, show m.dc c.val = _ from moved, now]
      rfl
  · obtain ⟨m, beat, mem⟩ := (dmaBeat_copies op inside).1 clean target
    have moved := (dmaBeat_moves ecc c.val s.live).1 (by rw [beat])
    rw [beat] at moved
    have effect := (dmaBurstDone_moved up burst beat).2 last fence
    obtain ⟨-, count, burst', remaining, ends, mem'⟩ := dmaFinish_ends c.val (m.updDc c.val (burstEnd m.now))
    rw [← effect] at count burst' remaining ends mem'
    rw [updDc_same, show m.dc c.val = _ from moved] at count burst' remaining ends
    have mem'' : (dmaBurstDone c.val ecc s.live).mem = writeBytes s.live.mem x.dst (readBytes s.live.mem x.src 8) := mem'.trans mem
    refine completes_apply (f := dmaBurstDone c.val ecc) rfl ⟨?_, fun a out => ?_, ?_, ?_, ?_, ?_⟩
    · rw [apply_memory, mem'']
      have written := readBytes_writeBytes s.live.mem x.dst (readBytes s.live.mem x.src 8)
      rwa [readBytes_length] at written
    · rw [apply_memory, mem'']
      exact readByte_writeBytes_out _ _ _ _ (by rw [readBytes_length]; exact out)
    · rw [apply_dc]
      rwa [show descChain (burstEnd m.now (beatMoved (s.live.dc c.val))).desc = false from chain, if_neg Bool.false_ne_true] at ends
    · rw [apply_dc, remaining]
      show x.remaining - 8 = 0
      rw [last]
      rfl
    · rw [apply_dc, count]
      rfl
    · rw [apply_dc, burst']
      rfl
  · have effect := dmaBurstDone_error up burst ((dmaBeats_one _ _ _).trans ((dmaBeat_copies op inside).2 double))
    have kept := readErrors_moving ecc x.src 8 s.live
    obtain ⟨state, fail, count, none_, -, remaining, mem⟩ := dmaHalt_halts c.val 0 x.src (readErrors ecc x.src 8 s.live)
    rw [← effect, moving_dc kept] at count remaining
    rw [← effect] at state fail none_ mem
    refine completes_apply (f := dmaBurstDone c.val ecc) rfl ⟨?_, ?_, ?_, ?_, ?_, sameMemory_apply (mem.trans (moving_mem kept))⟩
    · rw [apply_dc, state]
    · rw [apply_dc, fail]
    · rw [apply_dc, count]
    · rw [apply_dc, remaining]
    · rw [apply_dc, none_]
  · obtain ⟨none_, outside⟩ := dmaBurstDone_ends ecc up burst
    refine completes_apply (f := dmaBurstDone c.val ecc) rfl ⟨?_, fun a out => ?_⟩
    · rw [apply_dc, none_]
    · rw [apply_memory]
      exact outside a out
  · have kept := readErrors_moving ecc (fenceAddr x) 8 s.live
    have effect : dmaFenceDone c.val ecc s.live = dmaFinish c.val (readErrors ecc (fenceAddr x) 8 s.live) := by
      unfold dmaFenceDone
      dsimp only
      rw [up, show (s.live.dc c.val).fencing = true from fencing, if_neg (by decide),
        show doubleAt ecc (fenceAddr (s.live.dc c.val)) = false from clean, Bool.and_false]
      exact if_neg Bool.false_ne_true
    obtain ⟨fencing', count, -, -, ends, mem⟩ := dmaFinish_ends c.val (readErrors ecc (fenceAddr x) 8 s.live)
    rw [← effect, moving_dc kept] at count ends
    rw [← effect] at fencing' mem
    refine completes_apply (f := dmaFenceDone c.val ecc) rfl ⟨?_, ?_, ?_, sameMemory_apply (mem.trans (moving_mem kept))⟩
    · rw [apply_dc, fencing']
    · rw [apply_dc, count]
    · rw [apply_dc]
      exact ends
  · intro a d may inside
    obtain ⟨good, bad⟩ := dmaFetched_tables (es := ecc) up fetching may inside
    have kept := readErrors_moving ecc a 32 s.live
    have same : (readErrors ecc a 32 s.live).mem = s.live.mem := moving_mem kept
    refine ⟨fun ok clean => ?_, fun failed => ?_⟩
    · have effect := good ok clean
      refine completes_apply (f := dmaFetched c.val ecc) rfl ⟨?_, sameMemory_apply (by rw [effect]; exact same)⟩
      rw [apply_dc, effect, setDc_same]
    · have effect := bad failed
      obtain ⟨state, -, count, -, fetching', -, mem⟩ := dmaHalt_halts c.val 2 a (readErrors ecc a 32 s.live)
      rw [← effect, moving_dc kept] at count
      rw [← effect] at state fetching' mem
      refine completes_apply (f := dmaFetched c.val ecc) rfl ⟨?_, ?_, ?_, sameMemory_apply (mem.trans (moving_mem kept))⟩
      · rw [apply_dc, state]
      · rw [apply_dc, count]
      · rw [apply_dc, fetching']
  · have effect : dmaBusError c.val 2 beat.val second s.live = dmaHalt c.val 2 (descNext x.desc) (doubleBit (descNext x.desc) s.live) := by
      unfold dmaBusError
      dsimp only
      rw [up, if_neg (by decide), if_pos rfl]
      exact if_pos fetching
    have kept := doubleBit_moving (descNext x.desc) s.live
    obtain ⟨state, fail, count, -, fetching', -, mem⟩ := dmaHalt_halts c.val 2 (descNext x.desc) (doubleBit (descNext x.desc) s.live)
    rw [← effect, moving_dc kept] at count
    rw [← effect] at state fetching' mem fail
    refine completes_apply (f := dmaBusError c.val 2 beat.val second) rfl ⟨?_, ?_, ?_, ?_, sameMemory_apply (mem.trans (moving_mem kept))⟩
    · rw [apply_dc, state]
    · rw [apply_dc, fail]
    · rw [apply_dc, count]
    · rw [apply_dc, fetching']
  · have effect := (dmaBusError_first (second := false) up burst some_).1 op
    obtain ⟨state, fail, count, none_, -, remaining, mem⟩ := dmaHalt_halts c.val 1 x.dst s.live
    rw [← effect] at state fail count none_ remaining mem
    refine completes_apply (f := dmaBusError c.val 1 0 false) rfl ⟨?_, ?_, ?_, ?_, ?_, sameMemory_apply mem⟩
    · rw [apply_dc, state]
    · rw [apply_dc, fail]
    · rw [apply_dc, count]
    · rw [apply_dc, none_]
    · rw [apply_dc, remaining]
  · have effect := (dmaBusError_first (second := second) up burst some_).2 op
    generalize ha : (if second then x.dst else x.src) = a
    rw [show (if second then (s.live.dc c.val).dst else (s.live.dc c.val).src) = a from ha] at effect
    have kept := doubleBit_moving a s.live
    obtain ⟨state, fail, count, none_, -, remaining, mem⟩ := dmaHalt_halts c.val 0 a (doubleBit a s.live)
    rw [← effect, moving_dc kept] at count remaining
    rw [← effect] at state fail none_ mem
    refine completes_apply (f := dmaBusError c.val 0 0 second) rfl ⟨?_, ?_, ?_, ?_, ?_, sameMemory_apply (mem.trans (moving_mem kept))⟩
    · rw [apply_dc, state]
    · rw [apply_dc, fail]
    · rw [apply_dc, count]
    · rw [apply_dc, none_]
    · rw [apply_dc, remaining]
  · have effect : dmaStart c.val (touch conn s.live) = (dmaBegin c.val (touch conn s.live), 0) :=
      (if_neg stopped).trans (if_pos up)
    refine completes_object (f := dmaStart c.val) rfl reaches effect ⟨?_, answeredDone_reply _ _ _, sameMemory_reply rfl⟩
    rw [apply_dc, reply_dc]
    unfold dmaBegin
    rw [updDc_same]
    rfl
  · obtain ⟨state, -, fetching, fencing, soft, status, mem⟩ := dmaDisable_disables c.val (touch conn s.live)
    have cut : dmaCutBurst c.val (touch conn s.live) = touch conn s.live := by
      unfold dmaCutBurst
      rw [show ((touch conn s.live).dc c.val).burst = none from calm]
    rw [cut, show ((touch conn s.live).dc c.val).burst = none from calm] at status
    rw [cut] at mem
    refine completes_object (f := done (dmaDisable c.val)) rfl reaches rfl ⟨?_, ?_, ?_, ?_, ?_, answeredDone_reply _ _ _, sameMemory_reply mem⟩
    · rw [apply_dc, reply_dc, state]
    · rw [apply_dc, reply_dc, fetching]
    · rw [apply_dc, reply_dc, fencing]
    · rw [apply_dc, reply_dc, soft]
    · rw [apply_dc, reply_dc, status]
      rfl
  · obtain ⟨state, none_, -, -, -, status, mem⟩ := dmaDisable_disables c.val (touch conn s.live)
    have flight : ((touch conn s.live).dc c.val).burst = some n := burst
    rw [flight] at status
    refine completes_object (f := done (dmaDisable c.val)) rfl reaches rfl ⟨?_, ?_, ?_, answeredDone_reply _ _ _, fun a out => ?_⟩
    · rw [apply_dc, reply_dc, state]
    · rw [apply_dc, reply_dc, status]
      exact setBit_same _ (by decide)
    · rw [apply_dc, reply_dc, none_]
    · rw [apply_memory, reply_memory, mem]
      exact dmaCutBurst_outside flight a out
  · refine completes_object (f := done (dmaContinue c.val)) rfl reaches rfl ⟨?_, answeredDone_reply _ _ _, sameMemory_reply rfl⟩
    rw [apply_dc, reply_dc]
    unfold dmaContinue
    rw [updDc_same]
    exact if_neg (not_not_intro halted)
  · obtain ⟨soft, mem⟩ := dmaSoft_requests (c := c.val) (l := touch conn s.live) up
    refine completes_object (f := done (dmaSoft c.val)) rfl reaches rfl ⟨?_, answeredDone_reply _ _ _, sameMemory_reply mem⟩
    rw [apply_dc, reply_dc, soft]
    rfl

end Sys2Proof.Machine

/-! Trips, arming, disarming and the readback of the outputs (R283–R294). -/

namespace Sys2Proof.Machine

open Sys2Proof

/-! ### What a trip leaves of a pair (R285, R286, R293) -/

/-- What the outputs' way to the trip level leaves of a pair. -/
def Pair.lasting (p : Pair) : Bool × Bool × BitVec 16 × Byte := (p.h.released, p.l.released, p.status, p.shortCnt)

theorem driveTo_released (now : Nat) (lvl : Option Bool) (edge : Bool) (r : Readback) : (driveTo now lvl edge r).released = r.released := by
  unfold driveTo
  split
  · rfl
  · split <;> rfl

theorem drive_lasting (now : Nat) (isL : Bool) (lvl : Option Bool) (edge : Bool) (p : Pair) : (p.drive now isL lvl edge).lasting = p.lasting := by
  unfold Pair.drive
  split
  · exact congrArg (fun r => (p.h.released, r, p.status, p.shortCnt)) (driveTo_released _ _ _ _)
  · exact congrArg (fun r => (r, p.l.released, p.status, p.shortCnt)) (driveTo_released _ _ _ _)

theorem place_lasting (u : Nat) (isL : Bool) (at_ : Nat) (p : Pair) : (p.place u isL at_).lasting = p.lasting := by
  unfold Pair.place
  split
  · rfl
  · split <;> rfl

theorem turnOn_lasting (l : Live) (u : Nat) (isL : Bool) (at_ : Nat) (p : Pair) : (turnOn l u isL at_ p).lasting = p.lasting := by
  unfold turnOn
  extract_lets q
  have kept : q.lasting = p.lasting := (place_lasting _ _ _ _).trans (drive_lasting _ _ _ _ _)
  split <;> exact kept

theorem turnOff_lasting (l : Live) (u : Nat) (isL : Bool) (at_ : Nat) (p : Pair) : (turnOff l u isL at_ p).lasting = p.lasting := by
  unfold turnOff
  extract_lets off q r
  have kept : r.lasting = p.lasting := by
    show Pair.lasting (if (if isL then q.actL else q.actH) then q.place u isL at_ else q) = _
    rw [apply_ite Pair.lasting, place_lasting, ite_self]
    exact drive_lasting _ _ _ _ _
  split <;> exact kept

theorem tripOutput_lasting (l : Live) (u : Nat) (isL : Bool) (otherOff dead : Nat) (p : Pair) :
    (tripOutput l u isL otherOff dead p).lasting = p.lasting := by
  have onL (v : Option Nat) : ({ p with onL := v } : Pair).lasting = p.lasting := rfl
  have onH (v : Option Nat) : ({ p with onH := v } : Pair).lasting = p.lasting := rfl
  unfold tripOutput
  extract_lets at_
  split
  · simp only [apply_ite Pair.lasting, drive_lasting, turnOn_lasting, turnOff_lasting, onL, onH, ite_self]
  · exact (drive_lasting _ _ _ _ _).trans (turnOff_lasting _ _ _ _ _)

theorem tripOutputs_lasting (l : Live) (u : Nat) (p : Pair) : (tripOutputs l u p).lasting = p.lasting := by
  unfold tripOutputs
  dsimp only
  split
  · exact (tripOutput_lasting _ _ _ _ _ _).trans (tripOutput_lasting _ _ _ _ _ _)
  · exact (tripOutput_lasting _ _ _ _ _ _).trans (tripOutput_lasting _ _ _ _ _ _)

/-- What trips and disarms do to a pair: one that does not run stays as it is in state; a short's flags and count and a released output stay. -/
structure Tripping (p q : Pair) : Prop where
  idle : p.state ≠ .running → q.state = p.state
  running : p.state = .running → q.state = .running ∨ q.state = .tripped
  high : q.h.released = p.h.released
  low : q.l.released = p.l.released
  count : q.shortCnt = p.shortCnt
  flags : ∀ i, i = 5 ∨ i = 6 → q.status.getLsbD i = p.status.getLsbD i

theorem Tripping.refl (p : Pair) : Tripping p p := ⟨fun _ => rfl, .inl, rfl, rfl, rfl, fun _ _ => rfl⟩

theorem Tripping.trans {p q r : Pair} (h : Tripping p q) (k : Tripping q r) : Tripping p r := by
  refine ⟨fun not => ?_, fun runs => ?_, k.high.trans h.high, k.low.trans h.low, k.count.trans h.count, fun i at_ => (k.flags i at_).trans (h.flags i at_)⟩
  · have same := h.idle not
    exact (k.idle (by rw [same]; exact not)).trans same
  · obtain still | gone := h.running runs
    · exact k.running still
    · exact .inr ((k.idle (by rw [gone]; decide)).trans gone)

theorem reportFault_pair (src kind payload code : Nat) (l : Live) (v : Nat) : (reportFault src kind payload code l).pair v = l.pair v := by
  unfold Live.pair
  simp only [reportFault_keeps]

/-- A trip of a pair that runs. -/
theorem tripPair_trips {cause u : Nat} {l : Live} (high : 7 ≤ cause) :
    ((l.pair u).state = .running → ((tripPair cause u l).pair u).state = .tripped) ∧ ∀ v, Tripping (l.pair v) ((tripPair cause u l).pair v) := by
  unfold tripPair
  extract_lets p p1 p2 p2' p3 d
  split
  next not => exact ⟨fun runs => absurd runs not, fun v => .refl _⟩
  next runs =>
    have pair (v : Nat) : (reportFault (0x2000 + 0x40 * u) 0x52 (2 ^ 24 + d) 0xFF05 (noteFlags (key (0x3400 + u) 2) 2 (l.setPair u p3))).pair v =
        (l.setPair u p3).pair v := (reportFault_pair _ _ _ _ _ v).trans rfl
    have lasting : (p1.h.released, p1.l.released, p1.status, p1.shortCnt) = p.lasting := tripOutputs_lasting l u p
    refine ⟨fun _ => ?_, fun v => ?_⟩
    · rw [pair, setPair_same]
    · rw [pair]
      rcases Decidable.em (v = u) with rfl | other
      · rw [setPair_same]
        refine ⟨fun not => absurd (not_not.mp runs) not, fun _ => .inr rfl, congrArg (·.1) lasting, congrArg (·.2.1) lasting, congrArg (·.2.2.2) lasting, fun i at_ => ?_⟩
        show (setBit (setBit p1.status 1) cause).getLsbD i = _
        rw [setBit_other _ (by omega), setBit_other _ (by omega)]
        exact congrArg (fun x => BitVec.getLsbD x.2.2.1 i) lasting
      · rw [setPair_ne _ _ other]
        exact .refl _

theorem tripPairs_trips {mask cause u : Nat} {l : Live} (high : 7 ≤ cause) :
    ((l.pair u).state = .running → u < 24 → bitOf mask u = true → ((tripPairs mask cause l).pair u).state = .tripped) ∧
    Tripping (l.pair u) ((tripPairs mask cause l).pair u) := by
  have go : ∀ (xs : List Nat) (l : Live),
      ((l.pair u).state = .running → u ∈ xs → bitOf mask u = true →
        ((forAll (fun u l => if bitOf mask u then tripPair cause u l else l) xs l).pair u).state = .tripped) ∧
      Tripping (l.pair u) ((forAll (fun u l => if bitOf mask u then tripPair cause u l else l) xs l).pair u) := by
    intro xs
    induction xs with
    | nil => exact fun l => ⟨fun _ inside => absurd inside List.not_mem_nil, .refl _⟩
    | cons x xs ih =>
      intro l
      have first : Tripping (l.pair u) ((if bitOf mask x then tripPair cause x l else l).pair u) := by
        split
        · exact (tripPair_trips high).2 u
        · exact .refl _
      obtain ⟨trips, rest⟩ := ih (if bitOf mask x then tripPair cause x l else l)
      refine ⟨fun runs inside hit => ?_, first.trans rest⟩
      obtain still | gone := first.running runs
      · rcases Decidable.em (u ∈ xs) with later | notLater
        · exact trips still later hit
        · obtain rfl : u = x := (List.mem_cons.mp inside).resolve_right notLater
          rw [if_pos hit] at still
          rw [(tripPair_trips high).1 runs] at still
          cases still
      · exact (rest.idle (by rw [gone]; decide)).trans gone
  obtain ⟨trips, all⟩ := go (List.range 24) l
  exact ⟨fun runs small hit => trips runs (List.mem_range.mpr small) hit, all⟩

/-! ### Disarming (R293) -/

@[simp] theorem tripPair_tripUnit (cause u : Nat) (l : Live) : (tripPair cause u l).trips = l.trips := by
  simp [tripPair, apply_ite Live.trips]

@[simp] theorem tripPairs_tripUnit (mask cause : Nat) (l : Live) : (tripPairs mask cause l).trips = l.trips := by
  unfold tripPairs
  exact forAll_keeps Live.trips (fun u m => by simp [apply_ite Live.trips]) _ l

@[simp] theorem disarm_tripUnit (cause : Nat) (l : Live) : (disarm cause l).trips = l.trips := by
  unfold disarm
  extract_lets w st w1 w2 noted idle tripped recorded
  have idle_trips : idle.trips = l.trips := forAll_keeps Live.trips (fun u m => by simp) _ noted
  have kept : recorded.trips = l.trips := by simp [recorded, tripped, idle_trips]
  split
  · rfl
  · split <;> simp [kept]

/-- The arm logic after a disarm of an armed or arming device (R293). -/
theorem disarm_pwm {cause : Nat} {l : Live} (live_ : l.pwm.arm ≠ .disarmed) : (disarm cause l).pwm.disarmCnt = l.pwm.disarmCnt + 1 ∧
    (disarm cause l).pwm.disarmDtime = l.time.dtime ∧
    (disarm cause l).pwm.status = setBit (clrMask l.pwm.status 0xF000 ||| BitVec.ofNat 16 (cause * 4096)) 0 := by
  unfold disarm
  rw [if_neg live_]
  extract_lets st w1 w2 noted idle tripped recorded
  have idle_pwm : idle.pwm = w2 := forAll_keeps Live.pwm (fun u m => by simp) _ noted
  have kept : recorded.pwm = w2 := by simp [recorded, tripped, idle_pwm]
  split
  · simp only [journalEntry_keeps, emcy_keeps, kept]
    exact ⟨rfl, rfl, rfl⟩
  · rw [kept]
    exact ⟨rfl, rfl, rfl⟩

/-- The lower bits of the arm status stay, but for bit 0. -/
theorem disarm_flag {cause i : Nat} (l : Live) (low : i < 12) (other : i ≠ 0) :
    (disarm cause l).pwm.status.getLsbD i = l.pwm.status.getLsbD i := by
  rcases Decidable.em (l.pwm.arm = .disarmed) with off | live_
  · unfold disarm
    rw [if_pos off]
  · rw [(disarm_pwm live_).2.2, setBit_other _ other]
    have mask : (0xF000 : BitVec 16).getLsbD i = false := by
      have all : ∀ i : Fin 12, (0xF000 : BitVec 16).getLsbD i.val = false := by decide
      exact all ⟨i, low⟩
    have code : (cause * 4096).testBit i = false := by
      rw [show cause * 4096 = cause * 2 ^ 12 from rfl, Nat.testBit_mul_two_pow]
      simp [Nat.not_le.mpr low]
    unfold clrMask
    rw [BitVec.getLsbD_or, BitVec.getLsbD_and, BitVec.getLsbD_not, mask, BitVec.getLsbD_ofNat, code]
    simp [show i < 16 by omega]

/-- The pairs after a disarm: those that ran have tripped (R293). -/
theorem disarm_trips (cause u : Nat) (l : Live) :
    (l.pwm.arm ≠ .disarmed → u < 24 → (l.pair u).state = .running → ((disarm cause l).pair u).state = .tripped) ∧
    Tripping (l.pair u) ((disarm cause l).pair u) := by
  rcases Decidable.em (l.pwm.arm = .disarmed) with off | live_
  · unfold disarm
    rw [if_pos off]
    exact ⟨fun live_ => absurd off live_, .refl _⟩
  unfold disarm
  rw [if_neg live_]
  extract_lets st w1 w2 noted idle tripped recorded
  have idled (m : Live) (v : Nat) : Tripping (m.pair u) ((m.updPair v fun p => { p with startAt := none }).pair u) := by
    rcases Decidable.em (u = v) with rfl | other
    · rw [updPair_same]
      exact ⟨fun _ => rfl, .inl, rfl, rfl, rfl, fun _ _ => rfl⟩
    · rw [updPair_ne _ _ other]
      exact .refl _
  have quiet : Tripping (l.pair u) (idle.pair u) :=
    forAll_rel (R := fun a b => Tripping (a.pair u) (b.pair u)) (fun _ => .refl _) (fun _ _ _ => .trans) (fun v m => idled m v) _ noted
  have still (h : (l.pair u).state = .running) : (idle.pair u).state = .running := by
    have same := forAll_keeps (fun m => (m.pair u).state) (f := fun v m => m.updPair v fun p => { p with startAt := none }) (fun v m => by
      rcases Decidable.em (u = v) with rfl | other
      · rw [updPair_same]
      · rw [updPair_ne _ _ other]) (List.range 24) noted
    exact same.trans h
  obtain ⟨trips, trip⟩ := tripPairs_trips (mask := 0xFFFFFF) (cause := 8) (u := u) (l := idle) (by decide)
  have pair : (if (cause = 2 || cause = 3 || cause = 4 || cause = 5 || cause = 8 : Bool) then
      journalEntry 0x303F 0x51 (cause * 65536) 0xFF01 (emcy 0xFF01 0x303F (cause * 65536) recorded) else recorded).pair u = tripped.pair u := by
    have record : recorded.pair u = tripped.pair u := by
      unfold Live.pair
      simp only [recorded, writeRecord_keeps]
    split
    · rw [← record]
      unfold Live.pair
      simp only [journalEntry_keeps, emcy_keeps]
    · exact record
  rw [pair]
  refine ⟨fun _ small runs => trips (still runs) small ?_, quiet.trans trip⟩
  have all : ∀ u : Fin 24, bitOf 0xFFFFFF u.val = true := by decide
  exact all ⟨u, small⟩

/-! ### Trip inputs (R283–R289) -/

theorem watchTrip_keeps (l : Live) : (watchTrip l).trips = l.trips ∧ (watchTrip l).pairs = l.pairs ∧ (watchTrip l).pwm = l.pwm ∧
    (watchTrip l).mem = l.mem := by
  unfold watchTrip
  split <;> exact ⟨rfl, rfl, rfl, rfl⟩

/-- A latch: the input, the pairs of its mask, the disarm. -/
theorem latchTrip_latches (i : Nat) (stamp : Stamp) (l : Live) :
    (latchTrip i stamp l).trip i = { l.trip i with
      status := (l.trip i).status ||| 0x09, cnt := (l.trip i).cnt + 1, dtime := BitVec.ofNat 64 (l.widen stamp) } ∧
    (∀ u, u < 24 → bitOf (l.cfg (0x2420 + i) 7) u = true → (l.pair u).state = .running → ((latchTrip i stamp l).pair u).state = .tripped) ∧
    (latchTrip i stamp l).pwm.arm = .disarmed ∧ (latchTrip i stamp l).mem = l.mem := by
  unfold latchTrip
  extract_lets at_ mask x l1 src l2 l3
  have recorded : l2 = { l1 with log := l2.log, flagsNow := l2.flagsNow } := writeRecordAt_only _ _ _ _ l1
  have trips : l3.trips = l1.trips := by
    simp only [l3, journalEntry_keeps, emcy_keeps]
    rw [recorded]
  have pairs : l3.pairs = l.pairs := by
    simp only [l3, journalEntry_keeps, emcy_keeps]
    rw [recorded]
    rfl
  have mem : l3.mem = l.mem := by
    simp only [l3, journalEntry_keeps, emcy_keeps]
    rw [recorded]
    rfl
  obtain ⟨trips', pairs', pwm', mem'⟩ := watchTrip_keeps (disarm 2 (tripPairs mask 11 l3))
  clear_value l3
  refine ⟨?_, fun u small hit runs => ?_, by rw [pwm', disarm_arm], ?_⟩
  · have whole : (watchTrip (disarm 2 (tripPairs mask 11 l3))).trips = l1.trips := by
      rw [trips', disarm_tripUnit, tripPairs_tripUnit, trips]
    exact (congrArg (fun ts => SMap.get ({} : TripInput) ts i) whole).trans (setTrip_same (noteBit (0x3420 + i) 1 0 l) i _)
  · have runs' : (l3.pair u).state = .running := by
      unfold Live.pair
      rw [pairs]
      exact runs
    have tripped := (tripPairs_trips (mask := mask) (cause := 11) (u := u) (l := l3) (by decide)).1 runs' small hit
    have same := (disarm_trips 2 u (tripPairs mask 11 l3)).2.idle (by rw [tripped]; decide)
    unfold Live.pair at tripped same ⊢
    rw [pairs']
    exact same.trans tripped
  · rw [mem', disarm_mem, offEngines_mem (tripPairs_offEngines _ _ _), mem]

theorem clearTrip_clears (i : Nat) (l : Live) : (clearTrip i l).trip i =
      (if l.flag (0x2420 + i) 1 && (l.trip i).level then
        { l.trip i with status := setBit (l.trip i).status 1, refusedCnt := (l.trip i).refusedCnt + 1 }
      else { l.trip i with status := clrBit (l.trip i).status 3 }) ∧
    (∀ j, j ≠ i → (clearTrip i l).trip j = l.trip j) ∧ (clearTrip i l).conf = l.conf ∧ (clearTrip i l).analog = l.analog ∧
    (clearTrip i l).mem = l.mem := by
  unfold clearTrip
  dsimp only
  split
  · exact ⟨setTrip_same _ _ _, fun j other => setTrip_ne _ _ other, rfl, rfl, rfl⟩
  · exact ⟨setTrip_same _ _ _, fun j other => setTrip_ne _ _ other, rfl, rfl, rfl⟩

/-- Inputs whose clear is not refused have no latch once all are cleared. -/
theorem clearTrips_clear (i : Nat) : ∀ (xs : List Nat) (l : Live), (l.flag (0x2420 + i) 1 && (l.trip i).level) = false →
    (i ∈ xs ∨ (l.trip i).status.getLsbD 3 = false) →
    ((forAll clearTrip xs l).trip i).status.getLsbD 3 = false ∧ (forAll clearTrip xs l).analog = l.analog ∧ (forAll clearTrip xs l).mem = l.mem
  | [], _, _, h => ⟨h.resolve_left List.not_mem_nil, rfl, rfl⟩
  | x :: xs, l, free, h => by
    obtain ⟨own, others, conf, analog, mem⟩ := clearTrip_clears x l
    have flag : (clearTrip x l).flag (0x2420 + i) 1 = l.flag (0x2420 + i) 1 := by
      unfold Live.flag Live.cfg Live.val Live.baseVal
      rw [conf]
    have next : ((clearTrip x l).flag (0x2420 + i) 1 && ((clearTrip x l).trip i).level) = false ∧
        (i ∈ xs ∨ ((clearTrip x l).trip i).status.getLsbD 3 = false) := by
      rw [flag]
      rcases Decidable.em (i = x) with rfl | other
      · rw [own, if_neg (by rw [free]; decide)]
        exact ⟨free, .inr (clrBit_same _)⟩
      · rw [others i other]
        exact ⟨free, h.imp_left fun inside => (List.mem_cons.mp inside).resolve_left other⟩
    obtain ⟨clear, analog', mem'⟩ := clearTrips_clear i xs (clearTrip x l) next.1 next.2
    exact ⟨clear, analog'.trans analog, mem'.trans mem⟩

theorem clearLimit_clears (a : Nat) (l : Live) : ((l.anIn a).since = true → (l.anIn a).inside = true →
      ((clearLimit a l).anIn a).status.getLsbD 4 = false) ∧
    (∀ b, b ≠ a → (clearLimit a l).anIn b = l.anIn b) ∧ (clearLimit a l).trips = l.trips ∧ (clearLimit a l).mem = l.mem := by
  unfold clearLimit
  extract_lets x m
  split
  next off =>
    refine ⟨fun _ _ => ?_, fun _ _ => rfl, rfl, rfl⟩
    exact Bool.not_eq_true _ |>.mp (fun on => absurd (show bitOf x.status.toNat 4 = true from on) (by simpa using off))
  · split
    next clear =>
      refine ⟨fun _ _ => ?_, fun b other => setAnIn_ne _ _ other, rfl, rfl⟩
      rw [setAnIn_same]
      exact clrBit_same _
    next refused =>
      refine ⟨fun since inside => absurd ?_ refused, fun b other => ?_, by simp [m], by simp [m]⟩
      · rw [show x.since = true from since, show x.inside = true from inside]
        rfl
      · have kept : (writeRecord (0x6200 + a) 0x58 (4 * 2 ^ 24 + ofSigned 24 x.last) m).anIn b = m.anIn b := by
          unfold Live.anIn
          simp only [writeRecord_keeps]
        rw [kept]
        exact setAnIn_ne _ _ other

theorem clearLimits_leave {a : Nat} : ∀ {xs : List Nat} (l : Live), a ∉ xs → (forAll clearLimit xs l).anIn a = l.anIn a
  | [], _, _ => rfl
  | x :: xs, l, outside => by
    obtain ⟨not, outside⟩ := not_or.mp (mt List.mem_cons.mpr outside)
    exact (clearLimits_leave (clearLimit x l) outside).trans ((clearLimit_clears x l).2.1 a not)

theorem clearLimits_clear {a : Nat} {xs : List Nat} (distinct : xs.Nodup) (inside : a ∈ xs) : ∀ {l : Live}, (l.anIn a).since = true →
    (l.anIn a).inside = true → ((forAll clearLimit xs l).anIn a).status.getLsbD 4 = false := by
  induction xs with
  | nil => exact absurd inside List.not_mem_nil
  | cons x xs ih =>
    intro l since within
    obtain ⟨own, others, -, -⟩ := clearLimit_clears x l
    obtain ⟨fresh, distinct⟩ := List.nodup_cons.mp distinct
    unfold forAll
    rcases Decidable.em (a = x) with rfl | other
    · rw [clearLimits_leave _ fresh]
      exact own since within
    · have same := others a other
      exact ih distinct ((List.mem_cons.mp inside).resolve_left other) (by rw [same]; exact since) (by rw [same]; exact within)

theorem clearLimits_keeps (xs : List Nat) (l : Live) : (forAll clearLimit xs l).trips = l.trips ∧ (forAll clearLimit xs l).mem = l.mem :=
  ⟨forAll_keeps Live.trips (fun a m => (clearLimit_clears a m).2.2.1) xs l, forAll_keeps Live.mem (fun a m => (clearLimit_clears a m).2.2.2) xs l⟩

/-- A clear of all: every input that may be cleared, every limit trip whose last result lies within its limits (R289, R318). -/
theorem clearAll_clears (l : Live) :
    (∀ i, i < 16 → (l.flag (0x2420 + i) 1 && (l.trip i).level) = false → ((clearAll l).trip i).status.getLsbD 3 = false) ∧
    (∀ a, a < 48 → (l.anIn a).since = true → (l.anIn a).inside = true → ((clearAll l).anIn a).status.getLsbD 4 = false) ∧
    (clearAll l).mem = l.mem := by
  have mem : (forAll clearTrip (List.range 16) l).mem = l.mem := forAll_keeps Live.mem (fun a m => (clearTrip_clears a m).2.2.2.2) _ l
  have analog : (forAll clearTrip (List.range 16) l).analog = l.analog := forAll_keeps Live.analog (fun a m => (clearTrip_clears a m).2.2.2.1) _ l
  obtain ⟨trips, mem'⟩ := clearLimits_keeps (List.range 48) (forAll clearTrip (List.range 16) l)
  refine ⟨fun i small free => ?_, fun a small since inside => ?_, mem'.trans mem⟩
  · have clear := (clearTrips_clear i (List.range 16) l free (.inl (List.mem_range.mpr small))).1
    unfold clearAll Live.trip
    rw [trips]
    exact clear
  · have same : (forAll clearTrip (List.range 16) l).anIn a = l.anIn a := by
      unfold Live.anIn
      rw [analog]
    exact clearLimits_clear List.nodup_range (List.mem_range.mpr small) (by rw [same]; exact since) (by rw [same]; exact inside)

end Sys2Proof.Machine

/-! Arming, the ARM lines, the readback of the outputs (R291–R294), and what O24 states. -/

namespace Sys2Proof.Machine

open Sys2Proof

/-! ### Codes in a status word -/

/-- Four bits of a status word that are those of a code. -/
theorem field_of_bits {x : BitVec 16} {lo code : Nat} (small : code < 16) (bits : ∀ i, i < 4 → x.getLsbD (lo + i) = code.testBit i) :
    field x.toNat (lo + 3) lo = code := by
  refine Nat.eq_of_testBit_eq fun i => ?_
  unfold field
  rw [Nat.testBit_mod_two_pow, Nat.testBit_div_two_pow, show lo + 3 + 1 - lo = 4 by omega]
  rcases Nat.lt_or_ge i 4 with low | high
  · rw [decide_eq_true low, Bool.true_and, Nat.add_comm, ← BitVec.getLsbD]
    exact bits i low
  · rw [decide_eq_false (Nat.not_lt.mpr high), Bool.false_and, Nat.testBit_lt_two_pow (Nat.lt_of_lt_of_le small (show 2 ^ 4 ≤ 2 ^ i from Nat.pow_le_pow_right Nat.two_pos high))]

/-- A code put into four bits of a status word, which other bits may join. -/
theorem code_bits {x m : BitVec 16} {lo code i : Nat} (mask : ∀ i, i < 4 → m.getLsbD (lo + i) = true) (room : lo + 4 ≤ 16) (low : i < 4) :
    (clrMask x m ||| BitVec.ofNat 16 (code * 2 ^ lo)).getLsbD (lo + i) = code.testBit i := by
  unfold clrMask
  rw [BitVec.getLsbD_or, BitVec.getLsbD_and, BitVec.getLsbD_not, mask i low, BitVec.getLsbD_ofNat, Nat.testBit_mul_two_pow]
  simp [show lo + i < 16 by omega]

/-! ### The arm command (R291, R292) -/

theorem refusalReason_small (l : Live) : refusalReason l ≤ 8 := by
  unfold refusalReason
  simp only [apply_ite (· ≤ 8), le_refl, Nat.one_le_ofNat, Nat.reduceLeDiff, ite_self, Nat.zero_le]

/-- An accepted arm command, and one that repeats an acceptance. -/
theorem armCommand_accepts {l : Live} (off : l.pwm.arm = .disarmed) (free : refusalReason l = 0) :
    armCommand l = ({ l with pwm := { l.pwm with arm := .accepted, acceptedAt := l.now } }, 0) := by
  unfold armCommand
  rw [if_neg (by rw [off]; decide)]
  dsimp only
  rw [if_pos free, if_neg (by rw [off]; decide)]

theorem armCommand_stands {l : Live} (accepted : l.pwm.arm = .accepted) (free : refusalReason l = 0) : armCommand l = (l, 0) := by
  unfold armCommand
  rw [if_neg (by rw [accepted]; decide)]
  dsimp only
  rw [if_pos free, if_pos accepted]

theorem armObject_disarm (l : Live) : (l.pwm.arm ≠ .armed → armObject 2 l = (l, 0)) ∧ (l.pwm.arm = .armed → armObject 2 l = (disarm 1 l, 0)) := by
  have effect : armObject 2 l = (disarmCommand l, 0) := rfl
  rw [effect]
  unfold disarmCommand
  exact ⟨fun not => by rw [if_neg not], fun armed_ => by rw [if_pos armed_]⟩

/-- A refused arm command: nothing is armed, the reason stands in the status. -/
theorem armCommand_refuses {l : Live} (off : l.pwm.arm = .disarmed) (reason : refusalReason l ≠ 0) :
    ∃ m, armCommand l = (m, abState) ∧ m.pwm.arm = .disarmed ∧ m.pwm.refuseCnt = l.pwm.refuseCnt + 1 ∧
      field m.pwm.status.toNat 11 8 = refusalReason l ∧ m.mem = l.mem := by
  unfold armCommand
  rw [if_neg (by rw [off]; decide)]
  extract_lets r w st st' m
  rw [if_neg reason]
  refine ⟨_, rfl, ?_, ?_, ?_, ?_⟩
  · simp only [writeRecord_keeps]
    exact off
  · simp only [writeRecord_keeps]
    rfl
  · simp only [writeRecord_keeps]
    show field st'.toNat 11 8 = r
    refine field_of_bits (lo := 8) (Nat.lt_of_le_of_lt (refusalReason_small l) (by decide)) fun i low => ?_
    have bit : st.getLsbD (8 + i) = r.testBit i := by
      show (setBit _ 1).getLsbD (8 + i) = _
      rw [setBit_other _ (by omega)]
      exact code_bits (lo := 8) (by decide) (by decide) low
    show (if r = 4 then setBit st 2 else st).getLsbD (8 + i) = _
    split
    · rw [setBit_other _ (by omega), bit]
    · exact bit
  · simp only [writeRecord_keeps]
    rfl

/-- The start of the pairs with the first rise of ARM0 (R281). -/
theorem startPairs_starts (l : Live) : (∀ u, u < 24 → l.flag (0x2400 + u) 1 = true →
      ((startPairs l).pair u).startAt = some (l.now + l.cfg 0x2418 3 * 400)) ∧
    (startPairs l).pwm = l.pwm ∧ (startPairs l).mem = l.mem := by
  let step (at_ : Nat) (u : Nat) (l : Live) : Live := if l.flag (0x2400 + u) 1 then l.updPair u (fun p => { p with startAt := some at_ }) else l
  have keeps {α : Type} (read : Live → α) (kept : ∀ (m : Live) u (f : Pair → Pair), read (m.updPair u f) = read m) (at_ u : Nat) (m : Live) :
      read (step at_ u m) = read m := by
    show read (if m.flag (0x2400 + u) 1 then _ else _) = _
    split
    · exact kept m u _
    · rfl
  have go (at_ u : Nat) : ∀ (xs : List Nat) (l : Live), l.flag (0x2400 + u) 1 = true → (u ∈ xs ∨ (l.pair u).startAt = some at_) →
      ((forAll (step at_) xs l).pair u).startAt = some at_ := by
    intro xs
    induction xs with
    | nil => exact fun l _ h => h.resolve_left List.not_mem_nil
    | cons x xs ih =>
      intro l on h
      refine ih (step at_ x l) ?_ ?_
      · rw [keeps (fun m => m.flag (0x2400 + u) 1) (fun _ _ _ => rfl)]
        exact on
      · rcases Decidable.em (u = x) with rfl | other
        · refine .inr ?_
          show ((if l.flag (0x2400 + u) 1 then _ else _ : Live).pair u).startAt = _
          rw [if_pos on, updPair_same]
        · refine h.imp (fun inside => (List.mem_cons.mp inside).resolve_left other) fun set => ?_
          show ((if l.flag (0x2400 + x) 1 then _ else _ : Live).pair u).startAt = _
          split
          · rw [updPair_ne _ _ other]
            exact set
          · exact set
  refine ⟨fun u small on => go _ u _ l on (.inl (List.mem_range.mpr small)), ?_, ?_⟩
  · exact forAll_keeps Live.pwm (fun u m => keeps Live.pwm (fun _ _ _ => rfl) _ u m) _ l
  · exact forAll_keeps Live.mem (fun u m => keeps Live.mem (fun _ _ _ => rfl) _ u m) _ l

/-! ### Readback (R294) -/

theorem driveTo_driven {now : Nat} {lvl : Option Bool} {r : Readback} (free : r.released = false) : (driveTo now lvl false r).driven = lvl := by
  unfold driveTo
  rw [free, if_neg (by decide)]
  split
  next same => exact (of_decide_eq_true (Bool.and_eq_true_iff.mp same).1).symm
  · rfl

theorem checkReadback_agrees {now : Nat} {level : Bool} {r : Readback} (due : r.checkDue = true) (at_ : now = r.edgeAt + 8)
    (agrees : r.driven = some level) : checkReadback now level r = ({ r with checkDue := false, run := 0 }, false) := by
  unfold checkReadback
  rw [due, decide_eq_true at_, if_pos (by decide), agrees, if_neg (by cases level <;> decide)]

theorem checkReadback_shorts {now : Nat} {level : Bool} {r : Readback} (due : r.checkDue = true) (at_ : now = r.edgeAt + 8)
    (differs : r.driven = some (!level)) (third : 2 ≤ r.run) :
    checkReadback now level r = ({ r with checkDue := false, run := 0, released := true, driven := none }, true) := by
  unfold checkReadback
  rw [due, decide_eq_true at_, if_pos (by decide), differs, if_pos rfl, if_pos third]

/-- A short of an output of a pair: the flags, the release, the trip and the disarm. -/
theorem pairReadback_short {u : Nat} {isL level : Bool} {l : Live} (due : (if isL then (l.pair u).l else (l.pair u).h).checkDue = true)
    (at_ : l.now = (if isL then (l.pair u).l else (l.pair u).h).edgeAt + 8)
    (differs : (if isL then (l.pair u).l else (l.pair u).h).driven = some (!level)) (third : 2 ≤ (if isL then (l.pair u).l else (l.pair u).h).run) :
    let q := (pairReadback u isL level l).pair u
    (if isL then q.l.released else q.h.released) = true ∧ q.status.getLsbD (if isL then 6 else 5) = true ∧
    q.shortCnt = (l.pair u).shortCnt + 1 ∧ (pairReadback u isL level l).pwm.arm = .disarmed ∧ (pairReadback u isL level l).mem = l.mem := by
  intro q
  obtain ⟨m, x, effect, pair, released, flag, count, mem⟩ : ∃ m x, pairReadback u isL level l = disarm 4 (tripPair 9 u m) ∧ m.pair u = x ∧
      (if isL then x.l.released else x.h.released) = true ∧ x.status.getLsbD (if isL then 6 else 5) = true ∧
      x.shortCnt = (l.pair u).shortCnt + 1 ∧ m.mem = l.mem := by
    unfold pairReadback
    dsimp only
    rw [checkReadback_shorts due at_ differs third]
    dsimp only
    rw [if_neg (by decide)]
    refine ⟨_, _, rfl, (reportFault_pair _ _ _ _ _ u).trans (setPair_same (l := l) (i := u) _), ?_, ?_, ?_, ?_⟩
    · cases isL <;> rfl
    · cases isL <;> exact setBit_same _ (by decide)
    · cases isL <;> rfl
    · simp only [reportFault_keeps]
      rfl
  have kept := ((tripPair_trips (cause := 9) (u := u) (l := m) (by decide)).2 u).trans (disarm_trips 4 u (tripPair 9 u m)).2
  rw [← effect, pair] at kept
  change Tripping x q at kept
  refine ⟨?_, ?_, kept.count.trans count, by rw [effect, disarm_arm], ?_⟩
  · rw [kept.high, kept.low]
    exact released
  · rw [kept.flags _ (by cases isL <;> simp)]
    exact flag
  · rw [effect, disarm_mem, offEngines_mem (tripPair_offEngines _ _ _), mem]

/-- A readback that agrees clears the check and the run of mismatches. -/
theorem pairReadback_agrees {u : Nat} {level : Bool} {l : Live} (due : (l.pair u).h.checkDue = true) (at_ : l.now = (l.pair u).h.edgeAt + 8)
    (agrees : (l.pair u).h.driven = some level) :
    pairReadback u false level l = l.setPair u { l.pair u with h := { (l.pair u).h with checkDue := false, run := 0 } } := by
  unfold pairReadback
  dsimp only
  rw [if_neg Bool.false_ne_true, checkReadback_agrees due at_ agrees]
  rfl

/-- The ARM line a readback looks at. -/
def armLine (j : Nat) (w : PwmUnit) : Readback := if j = 0 then w.arm0 else w.arm1

theorem armReadback_short {j : Nat} {level : Bool} {l : Live} (low : j < 2) (due : (armLine j l.pwm).checkDue = true)
    (at_ : l.now = (armLine j l.pwm).edgeAt + 8) (differs : (armLine j l.pwm).driven = some (!level)) (third : 2 ≤ (armLine j l.pwm).run) :
    (armReadback j level l).pwm.status.getLsbD (3 + j) = true ∧ (armReadback j level l).pwm.arm = .disarmed ∧
    (armReadback j level l).mem = l.mem := by
  obtain ⟨m, effect, flag, mem⟩ : ∃ m, armReadback j level l = disarm 4 m ∧ m.pwm.status.getLsbD (3 + j) = true ∧ m.mem = l.mem := by
    unfold armReadback
    dsimp only
    rw [show checkReadback l.now level (if j = 0 then l.pwm.arm0 else l.pwm.arm1) = _ from checkReadback_shorts due at_ differs third]
    dsimp only
    rw [if_neg (by decide)]
    refine ⟨_, rfl, ?_, ?_⟩
    · simp only [reportFault_keeps]
      exact setBit_same _ (by omega)
    · simp only [reportFault_keeps]
      rfl
  rw [effect]
  exact ⟨by rw [disarm_flag m (by omega) (by omega)]; exact flag, disarm_arm 4 m, by rw [disarm_mem, mem]⟩

/-- An object's command that its rule refuses. -/
theorem completes_refusal {c : Instr} {conn : Conn} {idx sub code : Nat} {f : Live → Live × Nat} {s : State} {m : Live} {P : State → Prop}
    (run : exec c s = ran (onObject conn idx sub f) s) (reaches : Reaches conn idx sub s) (effect : f (touch conn s.live) = (m, code))
    (h : P (s.apply fun _ => reply conn code m)) : Completes c s P := by
  refine completes_apply run ?_
  rw [apply_congr (g := fun _ => reply conn code m) (by rw [onObject_reaches f reaches.1 reaches.2, effect])]
  exact h

theorem refusalReason_touch (conn : Conn) (l : Live) : refusalReason (touch conn l) = refusalReason l := rfl

theorem reply_pwm (conn : Conn) (code : Nat) (l : Live) : (reply conn code l).pwm = l.pwm ∧ (reply conn code l).pairs = l.pairs := by simp

theorem apply_pwm (f : Live → Live) (s : State) : (s.apply f).live.pwm = (f s.live).pwm ∧ (s.apply f).live.pairs = (f s.live).pairs := by simp

theorem reply_trip (conn : Conn) (code : Nat) (l : Live) (i : Nat) : (reply conn code l).trip i = l.trip i := by simp

theorem reply_anIn (conn : Conn) (code : Nat) (l : Live) (a : Nat) : (reply conn code l).anIn a = l.anIn a := by simp

theorem reply_pair (conn : Conn) (code : Nat) (l : Live) (u : Nat) : (reply conn code l).pair u = l.pair u := by simp

/-- Only the objects and the overlays decide a configured value. -/
theorem cfg_congr {l m : Live} (objs : m.conf.objs = l.conf.objs) (ovl : m.conf.ovl = l.conf.ovl) (idx sub : Nat) : m.cfg idx sub = l.cfg idx sub := by
  unfold Live.cfg Live.val Live.baseVal
  rw [objs, ovl]

theorem armStart_arms {l : Live} (accepted : l.pwm.arm = .accepted) (later : l.pwm.acceptedAt < l.now) (at_ : l.now % 8000 = 0) :
    (armStart l).pwm.arm = .armed ∧ (armStart l).pwm.armDtime = l.time.dtime ∧ (armStart l).pwm.arm0.driven = some true ∧
    (armStart l).pwm.arm1.driven = some false ∧
    (∀ u, u < 24 → l.flag (0x2400 + u) 1 = true → ((armStart l).pair u).startAt = some (l.now + l.cfg 0x2418 3 * 400)) ∧
    (armStart l).mem = l.mem := by
  obtain ⟨m, effect, arm, dtime, high, low, now_, objs, ovl, mem⟩ : ∃ m, armStart l = startPairs m ∧ m.pwm.arm = .armed ∧
      m.pwm.armDtime = l.time.dtime ∧ m.pwm.arm0.driven = some true ∧ m.pwm.arm1.driven = some false ∧ m.now = l.now ∧
      m.conf.objs = l.conf.objs ∧ m.conf.ovl = l.conf.ovl ∧ m.mem = l.mem := by
    unfold armStart
    dsimp only
    rw [accepted, decide_eq_true later, decide_eq_true at_, if_pos (by decide)]
    exact ⟨_, rfl, by simp only [writeRecord_keeps], by simp only [writeRecord_keeps],
      by simp only [writeRecord_keeps]; exact driveTo_driven rfl, by simp only [writeRecord_keeps]; exact driveTo_driven rfl,
      by unfold Live.now; simp only [writeRecord_keeps], by simp only [writeRecord_keeps], by simp only [writeRecord_keeps],
      by simp only [writeRecord_keeps]⟩
  obtain ⟨starts, pwm, mem'⟩ := startPairs_starts m
  rw [← effect] at starts pwm mem'
  refine ⟨by rw [pwm, arm], by rw [pwm, dtime], by rw [pwm, high], by rw [pwm, low], fun u small on => ?_, mem'.trans mem⟩
  rw [starts u small (by unfold Live.flag at on ⊢; rw [cfg_congr objs ovl]; exact on), now_, cfg_congr objs ovl]

/-! ### The commands (R291–R293) -/

theorem arm_accepted {s : State} {conn : Conn} (reaches : Reaches conn 0x2418 2 s) (off : s.live.pwm.arm = .disarmed) (free : refusalReason s.live = 0) :
    Completes (.armCommand conn) s fun t => t.live.pwm = { s.live.pwm with arm := .accepted, acceptedAt := s.live.now } ∧ AnsweredDone conn t ∧ SameMemory s t := by
  have effect : armObject 1 (touch conn s.live) =
      ({ touch conn s.live with pwm := { s.live.pwm with arm := .accepted, acceptedAt := s.live.now } }, 0) := by
    show armCommand (touch conn s.live) = _
    rw [armCommand_accepts (l := touch conn s.live) off free]
    rfl
  refine completes_object (f := armObject 1) rfl reaches effect ⟨?_, answeredDone_reply _ _ _, sameMemory_reply rfl⟩
  rw [(apply_pwm _ _).1, (reply_pwm _ _ _).1]

theorem arm_refused {s : State} {conn : Conn} (reaches : Reaches conn 0x2418 2 s) (off : s.live.pwm.arm = .disarmed) (reason : refusalReason s.live ≠ 0) :
    Completes (.armCommand conn) s fun t => t.live.pwm.arm = .disarmed ∧ t.live.pwm.refuseCnt = s.live.pwm.refuseCnt + 1 ∧
      field t.live.pwm.status.toNat 11 8 = refusalReason s.live ∧ SameMemory s t := by
  obtain ⟨m, effect, arm, count, status, mem⟩ := armCommand_refuses (l := touch conn s.live) off (refusalReason_touch conn s.live ▸ reason)
  refine completes_refusal (f := armObject 1) rfl reaches effect ⟨?_, ?_, ?_, sameMemory_apply ((reply_memory _ _ _).trans mem)⟩
  · rw [(apply_pwm _ _).1, (reply_pwm _ _ _).1, arm]
  · rw [(apply_pwm _ _).1, (reply_pwm _ _ _).1, count]
    rfl
  · rw [(apply_pwm _ _).1, (reply_pwm _ _ _).1, status, refusalReason_touch]

theorem arm_stands {s : State} {conn : Conn} (reaches : Reaches conn 0x2418 2 s)
    (standing : s.live.pwm.arm = .armed ∨ s.live.pwm.arm = .accepted ∧ refusalReason s.live = 0) :
    Completes (.armCommand conn) s fun t => t.live.pwm = s.live.pwm ∧ AnsweredDone conn t ∧ SameMemory s t := by
  have effect : armObject 1 (touch conn s.live) = (touch conn s.live, 0) := by
    obtain armed_ | ⟨accepted, free⟩ := standing
    · exact if_pos armed_
    · exact armCommand_stands (l := touch conn s.live) accepted free
  refine completes_object (f := armObject 1) rfl reaches effect ⟨?_, answeredDone_reply _ _ _, sameMemory_reply rfl⟩
  rw [(apply_pwm _ _).1, (reply_pwm _ _ _).1]
  rfl

theorem disarm_idle {s : State} {conn : Conn} (reaches : Reaches conn 0x2418 2 s) (not : s.live.pwm.arm ≠ .armed) :
    Completes (.disarmCommand conn) s fun t => t.live.pwm = s.live.pwm ∧ t.live.pairs = s.live.pairs ∧ AnsweredDone conn t ∧ SameMemory s t := by
  have effect : armObject 2 (touch conn s.live) = (touch conn s.live, 0) := (armObject_disarm _).1 not
  refine completes_object (f := armObject 2) rfl reaches effect ⟨?_, ?_, answeredDone_reply _ _ _, sameMemory_reply rfl⟩
  · rw [(apply_pwm _ _).1, (reply_pwm _ _ _).1]
    rfl
  · rw [(apply_pwm _ _).2, (reply_pwm _ _ _).2]
    rfl

theorem disarm_disarms {s : State} {conn : Conn} (reaches : Reaches conn 0x2418 2 s) (armed_ : s.live.pwm.arm = .armed) :
    Completes (.disarmCommand conn) s fun t => t.live.pwm.arm = .disarmed ∧ t.live.pwm.disarmCnt = s.live.pwm.disarmCnt + 1 ∧
      t.live.pwm.disarmDtime = s.live.time.dtime ∧ field t.live.pwm.status.toNat 15 12 = 1 ∧
      (∀ u, u < 24 → (s.live.pair u).state = .running → (t.live.pair u).state = .tripped) ∧ AnsweredDone conn t ∧ SameMemory s t := by
  have effect : armObject 2 (touch conn s.live) = (disarm 1 (touch conn s.live), 0) := (armObject_disarm _).2 armed_
  have live_ : (touch conn s.live).pwm.arm ≠ .disarmed := by
    rw [show (touch conn s.live).pwm.arm = .armed from armed_]
    decide
  obtain ⟨count, dtime, status⟩ := disarm_pwm (cause := 1) live_
  refine completes_object (f := armObject 2) rfl reaches effect ⟨?_, ?_, ?_, ?_, fun u small runs => ?_, answeredDone_reply _ _ _,
    sameMemory_reply (disarm_mem 1 (touch conn s.live))⟩
  · rw [(apply_pwm _ _).1, (reply_pwm _ _ _).1, disarm_arm]
  · rw [(apply_pwm _ _).1, (reply_pwm _ _ _).1, count]
    rfl
  · rw [(apply_pwm _ _).1, (reply_pwm _ _ _).1, dtime]
    rfl
  · rw [(apply_pwm _ _).1, (reply_pwm _ _ _).1, status]
    refine field_of_bits (lo := 12) (by decide) fun i low => ?_
    rw [setBit_other _ (by omega)]
    exact code_bits (lo := 12) (by decide) (by decide) low
  · rw [apply_pair, reply_pair]
    exact (disarm_trips 1 u (touch conn s.live)).1 live_ small runs

/-- Settles O24. That a refused clear is answered done, that a disarm cancels an accepted arming, and the disarm causes of a trip are the
model's choice (log entries 80, 10 and 17). -/
theorem tripAndArmComplete : Obligations.TripAndArmComplete := by
  refine ⟨fun s i stamp up on unmasked sampled => ?_, fun s i stamp up sampled => ?_, fun s i since masked from_ due => ?_,
    fun s conn i reaches => ?_, fun s conn reaches => ?_, fun s conn reaches off => ⟨fun free => ?_, fun reason => ?_⟩,
    fun s conn reaches standing => ?_, fun s conn reaches not => ?_, fun s conn reaches armed_ => ?_,
    fun s accepted later at_ => ?_, fun s armed_ later at_ free0 free1 => ?_,
    fun s u level due at_ => ⟨fun agrees => ?_, fun differs third => ?_⟩, fun s u level due at_ differs third => ?_,
    fun s j level due at_ differs third => ?_⟩
  · have effect : tripDecision i.val stamp true s.live = latchTrip i.val stamp (s.live.updTrip i.val fun x => { x with level := true }) := by
      unfold tripDecision
      rw [up, sampled, if_neg (by decide)]
      dsimp only
      rw [on, unmasked]
      rfl
    obtain ⟨latched, trips, arm, mem⟩ := latchTrip_latches i.val stamp (s.live.updTrip i.val fun x => { x with level := true })
    rw [← effect, updTrip_same] at latched
    rw [← effect] at trips arm mem
    refine completes_apply (f := tripDecision i.val stamp true) rfl ⟨?_, fun u small hit runs => ?_, ?_, sameMemory_apply mem⟩
    · rw [apply_trip, latched]
      rfl
    · rw [apply_pair]
      exact trips u small hit runs
    · rw [(apply_pwm _ _).1, arm]
  · have effect : tripDecision i.val stamp false s.live = s.live.updTrip i.val fun x => { x with level := false } := by
      unfold tripDecision
      rw [up, sampled, if_neg (by decide)]
      rfl
    refine completes_apply (f := tripDecision i.val stamp false) rfl ⟨?_, ?_, ?_, sameMemory_apply (by rw [effect]; rfl)⟩
    · rw [apply_trip, effect, updTrip_same]
    · rw [(apply_pwm _ _).2, effect]
      rfl
    · rw [(apply_pwm _ _).1, effect]
      rfl
  · have effect : blankLimit i.val s.live = (noteBit (0x3420 + i.val) 1 2 s.live).updTrip i.val fun x =>
        { x with status := setBit x.status 2, lifted := true } := by
      unfold blankLimit
      rw [from_]
      exact if_pos (by rw [masked, decide_eq_true due]; rfl)
    refine completes_apply (f := blankLimit i.val) rfl ⟨?_, sameMemory_apply (by rw [effect]; rfl)⟩
    rw [apply_trip, effect, updTrip_same]
    rfl
  · intro refused
    obtain ⟨cleared, -, -, -, mem⟩ := clearTrip_clears i.val (touch conn s.live)
    refine completes_object (f := done (clearTrip i.val)) rfl reaches rfl ⟨?_, answeredDone_reply _ _ _, sameMemory_reply mem⟩
    rw [apply_trip, reply_trip, cleared]
    rfl
  · obtain ⟨inputs, limits, mem⟩ := clearAll_clears (touch conn s.live)
    refine completes_object (f := done clearAll) rfl reaches rfl ⟨fun i small free => ?_, fun a small since inside => ?_, answeredDone_reply _ _ _, sameMemory_reply mem⟩
    · rw [apply_trip, reply_trip]
      exact inputs i small free
    · rw [apply_anIn, reply_anIn]
      exact limits a small since inside
  · exact arm_accepted reaches off free
  · exact arm_refused reaches off reason
  · exact arm_stands reaches standing
  · exact disarm_idle reaches not
  · exact disarm_disarms reaches armed_
  · obtain ⟨arm, dtime, high, low, starts, mem⟩ := armStart_arms accepted later at_
    refine completes_apply (f := armStart) rfl ⟨?_, ?_, ?_, ?_, fun u small on => ?_, sameMemory_apply mem⟩
    · rw [(apply_pwm _ _).1, arm]
    · rw [(apply_pwm _ _).1, dtime]
    · rw [(apply_pwm _ _).1, high]
    · rw [(apply_pwm _ _).1, low]
    · rw [apply_pair]
      exact starts u small on
  · have effect : armToggle s.live = { s.live with pwm := { s.live.pwm with
        arm0 := driveTo s.live.now (some (decide ((s.live.now - s.live.pwm.armDtime.toNat) / 4000 % 2 = 0))) false s.live.pwm.arm0,
        arm1 := driveTo s.live.now (some !(decide ((s.live.now - s.live.pwm.armDtime.toNat) / 4000 % 2 = 0))) false s.live.pwm.arm1 } } := by
      unfold armToggle armed
      dsimp only
      rw [armed_, decide_eq_true at_, decide_eq_true (show 0 < s.live.now - s.live.pwm.armDtime.toNat by omega)]
      rfl
    refine completes_apply (f := armToggle) rfl ⟨?_, ?_, ?_, ?_, sameMemory_apply (by rw [effect])⟩
    · rw [(apply_pwm _ _).1, effect]
      exact driveTo_driven free0
    · rw [(apply_pwm _ _).1, effect]
      exact driveTo_driven free1
    · rw [(apply_pwm _ _).1, effect]
      exact armed_
    · rw [(apply_pwm _ _).2, effect]
  · have effect := pairReadback_agrees due at_ agrees
    refine completes_apply (f := pairReadback u.val false level) rfl ⟨?_, ?_, sameMemory_apply (by rw [effect]; rfl)⟩
    · rw [apply_pair, effect, setPair_same]
    · rw [(apply_pwm _ _).1, effect]
      rfl
  · obtain ⟨released, flag, count, arm, mem⟩ := pairReadback_short (isL := false) due at_ differs third
    refine completes_apply (f := pairReadback u.val false level) rfl ⟨?_, ?_, ?_, ?_, sameMemory_apply mem⟩
    · rw [apply_pair]
      exact released
    · rw [apply_pair]
      exact flag
    · rw [apply_pair]
      exact count
    · rw [(apply_pwm _ _).1, arm]
  · obtain ⟨released, flag, count, arm, mem⟩ := pairReadback_short (isL := true) due at_ differs third
    refine completes_apply (f := pairReadback u.val true level) rfl ⟨?_, ?_, ?_, ?_, sameMemory_apply mem⟩
    · rw [apply_pair]
      exact released
    · rw [apply_pair]
      exact flag
    · rw [apply_pair]
      exact count
    · rw [(apply_pwm _ _).1, arm]
  · have line : (if j = 0 then s.live.pwm.arm0 else s.live.pwm.arm1) = armLine j.val s.live.pwm := by
      unfold armLine
      simp only [Fin.ext_iff, Fin.val_zero]
    rw [line] at due at_ differs third
    obtain ⟨flag, arm, mem⟩ := armReadback_short j.isLt due at_ differs third
    refine completes_apply (f := armReadback j.val level) rfl ⟨?_, ?_, sameMemory_apply mem⟩
    · rw [(apply_pwm _ _).1]
      exact flag
    · rw [(apply_pwm _ _).1, arm]

end Sys2Proof.Machine

/-! Sequences, results, the read port and the calibration of the analogue unit (R302–R313, R318). -/

namespace Sys2Proof.Machine

open Sys2Proof

/-! ### What a result leaves of the sequences, and the memory (R309–R317) -/

/-- The sequences, what a result register reads before its first result, and the fabric memory. -/
def Live.stepped (l : Live) : SMap Sequence × BitVec 32 × Memory := (l.analog.seqs, l.analog.unset, l.mem)

theorem stepped_seq {l m : Live} (h : m.stepped = l.stepped) (j : Nat) : m.seq j = l.seq j := by
  unfold Live.seq
  rw [show m.analog.seqs = l.analog.seqs from congrArg Prod.fst h]

theorem stepped_of_keeps {l m : Live} (analog : m.analog = l.analog) (mem : m.mem = l.mem) : m.stepped = l.stepped := by
  unfold Live.stepped
  rw [analog, mem]

@[simp] theorem setAnIn_stepped (l : Live) (a : Nat) (x : AnInput) : (l.setAnIn a x).stepped = l.stepped := rfl
@[simp] theorem updAnIn_stepped (l : Live) (a : Nat) (f : AnInput → AnInput) : (l.updAnIn a f).stepped = l.stepped := rfl
@[simp] theorem setConv_stepped (l : Live) (k : Nat) (x : Converter) : (l.setConv k x).stepped = l.stepped := rfl
@[simp] theorem updConv_stepped (l : Live) (k : Nat) (f : Converter → Converter) : (l.updConv k f).stepped = l.stepped := rfl
@[simp] theorem noteBit_stepped (idx sub b : Nat) (l : Live) : (noteBit idx sub b l).stepped = l.stepped := rfl

@[simp] theorem writeRecord_stepped (src kind payload : Nat) (l : Live) : (writeRecord src kind payload l).stepped = l.stepped :=
  stepped_of_keeps (by simp) (by simp)

@[simp] theorem reportFault_stepped (src kind payload code : Nat) (l : Live) : (reportFault src kind payload code l).stepped = l.stepped :=
  stepped_of_keeps (by simp) (by simp)

@[simp] theorem latchLimit_stepped (a at_ : Nat) (l : Live) : (latchLimit a at_ l).stepped = l.stepped := by
  unfold latchLimit
  extract_lets mask x x' m
  have kept : m.stepped = l.stepped := (reportFault_stepped _ _ _ _ _).trans (setAnIn_stepped _ _ _)
  rw [← kept]
  refine stepped_of_keeps ?_ ?_
  · rw [watchTrip_analog, disarm_analog, tripPairs_analog]
  · rw [ruled_mem (watchTrip_ruled _), disarm_mem, ruled_mem (tripPairs_ruled _ _ _)]

@[simp] theorem inputReport_stepped (a code : Nat) (v : Int) (l : Live) : (inputReport a code v l).stepped = l.stepped := by
  unfold inputReport
  extract_lets x y marked pay
  by_cases due : recordDue l (if code = 1 then x.rec1 else x.rec2) = true
  · rw [if_pos due]
    split <;> simp [marked]
  · rw [if_neg due]

@[simp] theorem checkLimit_stepped (a : Nat) (v : Int) (sampled : Nat) (l : Live) : (checkLimit a v sampled l).stepped = l.stepped := by
  unfold checkLimit
  extract_lets hi lo x checked x1 counted reported
  have kept : reported.stepped = l.stepped := by simp [reported, counted, checked]
  split
  · rfl
  · split
    · rw [latchLimit_stepped, kept]
    · exact kept

@[simp] theorem checkDrift_stepped (code : Nat) (l : Live) : (checkDrift code l).stepped = l.stepped := by
  unfold checkDrift
  dsimp only
  split
  · rw [reportFault_stepped]
    rfl
  · rfl

@[simp] theorem pushAdc_stepped (k : Nat) (e : BitVec 32) (l : Live) : (pushAdc k e l).stepped = l.stepped := by
  unfold pushAdc fifoReport
  dsimp only
  split <;> simp

/-- The fields of a result register (R309). -/
theorem register_fields {fl tag code : Nat} (flags : fl < 16) (byte : tag < 256) (small : code < 65536) :
    let reg := BitVec.ofNat 32 (2 ^ 31 + fl * 2 ^ 27 + tag * 65536 + code)
    reg.getLsbD 31 = true ∧ field reg.toNat 15 0 = code ∧ field reg.toNat 23 16 = tag ∧ reg.getLsbD 27 = decide (fl % 2 = 1) := by
  intro reg
  have value : reg.toNat = 2 ^ 31 + fl * 2 ^ 27 + tag * 65536 + code := by
    show (BitVec.ofNat 32 _).toNat = _
    rw [BitVec.toNat_ofNat]
    omega
  unfold field BitVec.getLsbD
  rw [value, Nat.testBit_eq_decide_div_mod_eq, Nat.testBit_eq_decide_div_mod_eq]
  refine ⟨decide_eq_true (by omega), by omega, by omega, ?_⟩
  rw [decide_eq_decide]
  omega

/-- One result: its register takes VALID, the code as the converter's factors correct it, the next TAG and its flags; the other registers
and sequences and the memory stay. -/
theorem oneResult_takes (s n : Nat) (w : Word) (sampled k : Nat) (r : AdcSample) (l : Live) :
    ∃ reg : BitVec 32, (oneResult s n w sampled k r l).stepped =
        (l.updSeq s fun x => { x with results := x.results.put l.analog.unset (4 * n + k) reg }).stepped ∧
      reg.getLsbD 31 = true ∧ field reg.toNat 15 0 = ((l.conv k).corrected (selPair (stepSel w k)) r.code).toNat ∧
      field reg.toNat 23 16 = (field (resultReg l s n k).toNat 23 16 + 1) % 256 ∧ reg.getLsbD 27 = bitOf (l.conv k).status.toNat 2 := by
  unfold oneResult
  extract_lets sel diff code v inp sat ovr opn lim unc old tag fl reg pass shown e queued drifted
  obtain ⟨valid, value, count, flag⟩ := register_fields (fl := fl) (tag := tag) (code := code.toNat)
    (by unfold fl; cases ovr <;> cases opn <;> cases lim <;> cases unc <;> decide) (Nat.mod_lt _ (by decide)) code.isLt
  refine ⟨reg, ?_, valid, value, count, flag.trans ?_⟩
  · have queued_stepped : queued.stepped = shown.stepped := by
      unfold queued
      split
      · exact pushAdc_stepped _ _ _
      · rfl
    have drifted_stepped : drifted.stepped = shown.stepped := by
      rw [← queued_stepped]
      unfold drifted
      split
      · exact checkDrift_stepped _ _
      · rfl
    show _ = shown.stepped
    rw [← drifted_stepped]
    clear_value drifted opn inp
    cases inp with
    | none => rfl
    | some a =>
      dsimp only
      rw [checkLimit_stepped]
      split
      · exact inputReport_stepped _ _ _ _
      · rfl
  · show _ = unc
    unfold fl
    cases ovr <;> cases opn <;> cases lim <;> cases unc <;> decide

theorem sincosSample_mem (n at_ : Nat) (s0 c0 : Int) (flags : Bool) (l : Live) : (sincosSample n at_ s0 c0 flags l).mem = l.mem := by
  unfold sincosSample
  dsimp only
  split
  · rfl
  · split
    · simp [(portBad_steady _ _ _).mem, (fbFault_steady _ _ _ _ _ _).mem, countLine]
    · split <;> simp [captured, setPosition_mem, (portValid_steady _ _).mem, (movePosition_only _ _ _ _).mem]

theorem sincosStep_stepped (s n : Nat) (w : Word) (sampled : Nat) (rs : List AdcSample) (l : Live) :
    (sincosStep s n w sampled rs l).stepped = l.stepped := by
  refine stepped_of_keeps (sincosStep_analog s n w sampled rs l) ?_
  unfold sincosStep
  split
  · rfl
  · refine forAll_keeps Live.mem (fun p m => ?_) _ l
    split
    · exact sincosSample_mem _ _ _ _ _ _
    · rfl

theorem stepTaken_stepped (s : Nat) (p : Pass) (start : Nat) (rs : List AdcSample) (l : Live) : (stepTaken s p start rs l).stepped =
    (forAll (fun k l => oneResult s p.step p.word (start + stepAcq p.word * 4) k (rs.getD k ⟨0, false⟩) l) (stepConvs p.word) l).stepped := by
  unfold stepTaken
  dsimp only
  rw [sincosStep_stepped]
  exact forAll_keeps Live.stepped (fun k m => updConv_stepped m k _) _ _

theorem stepTaken_mem (s : Nat) (p : Pass) (start : Nat) (rs : List AdcSample) (l : Live) : (stepTaken s p start rs l).mem = l.mem := by
  have same := congrArg (fun x : SMap Sequence × BitVec 32 × Memory => x.2.2) (stepTaken_stepped s p start rs l)
  refine same.trans (forAll_keeps Live.mem (fun k m => ?_) _ l)
  obtain ⟨reg, taken, -⟩ := oneResult_takes s p.step p.word (start + stepAcq p.word * 4) k (rs.getD k ⟨0, false⟩) m
  exact congrArg (fun x : SMap Sequence × BitVec 32 × Memory => x.2.2) taken

/-! ### Loops over the converters -/

/-- A loop over distinct converters changes each of them once. -/
theorem forAll_updConv {f : Nat → Converter → Converter} {k : Nat} : ∀ {xs : List Nat} {l : Live}, xs.Nodup →
    (k ∉ xs → (forAll (fun k l => l.updConv k (f k)) xs l).conv k = l.conv k) ∧
    (k ∈ xs → (forAll (fun k l => l.updConv k (f k)) xs l).conv k = f k (l.conv k))
  | [], _, _ => ⟨fun _ => rfl, fun h => absurd h List.not_mem_nil⟩
  | x :: xs, l, distinct => by
    obtain ⟨fresh, distinct⟩ := List.nodup_cons.mp distinct
    obtain ⟨leaves, takes⟩ := forAll_updConv (f := f) (k := k) (l := l.updConv x (f x)) distinct
    unfold forAll
    constructor
    · intro outside
      rw [leaves fun h => outside (List.mem_cons_of_mem _ h)]
      exact setConv_ne l _ fun same => outside (same ▸ List.mem_cons_self)
    · intro inside
      rcases Decidable.em (k = x) with rfl | other
      · rw [leaves fresh]
        exact setConv_same l _ _
      · rw [takes ((List.mem_cons.mp inside).resolve_left other)]
        exact congrArg (f k) (setConv_ne l _ other)

theorem stepConvs_nodup (w : Word) : (stepConvs w).Nodup := List.Nodup.filter _ List.nodup_range

/-! ### Starts, steps and stops (R306–R309, R312) -/

/-- A start of an idle sequence in a unit that takes it. -/
theorem seqStart_begins {l : Live} {s notBefore : Nat} (up : analogUp l = true) (on : analogOn l = true) (free : calibrating l = false)
    (idle : (l.seq s).run = none) : seqStart s notBefore l = beginPass s notBefore l := by
  unfold seqStart
  exact if_neg (by rw [up, on, free, idle]; decide)

theorem beginPass_begins (s notBefore : Nat) (l : Live) :
    (∃ p, ((beginPass s notBefore l).seq s).run = some p ∧ p.step = 0 ∧ p.startedAt = none ∧ p.words.length = l.cfg (0x2740 + s) 2) ∧
    ((beginPass s notBefore l).seq s).notBefore = notBefore ∧ ((beginPass s notBefore l).seq s).dropCnt = (l.seq s).dropCnt ∧
    ((beginPass s notBefore l).seq s).results = (l.seq s).results := by
  unfold beginPass
  dsimp only
  rw [updSeq_same]
  exact ⟨⟨_, rfl, rfl, rfl, by simp [seqWords]⟩, rfl, rfl, rfl⟩

/-- What a loop over the sequences leaves of a sequence: the step of another sequence leaves it alone, and its own step makes the mark,
which stays. -/
theorem forAll_marks {P : Sequence → Prop} {f : Nat → Live → Live} {n : Nat} (others : ∀ s l, s ≠ n → (f s l).seq n = l.seq n)
    (own : ∀ l, (l.seq n).run.isSome = true → P ((f n l).seq n) ∧ ((f n l).seq n).run.isSome = true) :
    ∀ {xs : List Nat} {l : Live}, (l.seq n).run.isSome = true → (n ∈ xs ∨ P (l.seq n)) → P ((forAll f xs l).seq n)
  | [], _, _, h => h.resolve_left List.not_mem_nil
  | x :: xs, l, runs, h => by
    unfold forAll
    rcases Decidable.em (x = n) with rfl | other
    · exact forAll_marks others own (own l runs).2 (.inr (own l runs).1)
    · have same := others x l other
      refine forAll_marks others own (by rw [same]; exact runs) ?_
      rw [same]
      exact h.imp (fun inside => (List.mem_cons.mp inside).resolve_left (Ne.symm other)) id

/-- The stop of a pass by a calibration. -/
def calStop (s : Nat) (l : Live) : Live := l.updSeq s (fun x => match x.run with
  | some p => { x with stopDue := true, resume := (passNow l s p).continuous && !x.stopDue }
  | none => x)

theorem calibrate_starts {l : Live} (free : calibrating l = false) (up : analogUp l = true) :
    (calibrate l).analog.status = setBit l.analog.status 2 ∧ (calibrate l).analog.calStart = l.now ∧
    (∀ n, n < 4 → (l.seq n).run.isSome = true → ((calibrate l).seq n).stopDue = true) ∧ (calibrate l).mem = l.mem := by
  have effect : calibrate l = { forAll calStop (List.range 4) l with
      analog := { (forAll calStop (List.range 4) l).analog with
        status := setBit (forAll calStop (List.range 4) l).analog.status 2, calStart := (forAll calStop (List.range 4) l).now } } := by
    unfold calibrate
    exact if_neg (by rw [free, up]; decide)
  have status := forAll_keeps (f := calStop) (fun m => m.analog.status) (fun s m => rfl) (List.range 4) l
  have now_ := forAll_keeps (f := calStop) Live.now (fun s m => rfl) (List.range 4) l
  have mem := forAll_keeps (f := calStop) Live.mem (fun s m => rfl) (List.range 4) l
  have stops (n : Nat) (low : n < 4) (runs : (l.seq n).run.isSome = true) : ((forAll calStop (List.range 4) l).seq n).stopDue = true := by
    refine forAll_marks (P := fun x => x.stopDue = true) (f := calStop) (fun s m other => ?_) (fun m runs => ?_) runs (.inl (List.mem_range.mpr low))
    · exact setSeq_ne m _ (Ne.symm other)
    · obtain ⟨p, run⟩ := Option.isSome_iff_exists.mp runs
      unfold calStop
      rw [updSeq_same, run]
      exact ⟨rfl, rfl⟩
  rw [effect]
  clear effect
  generalize forAll calStop (List.range 4) l = m at status now_ mem stops ⊢
  exact ⟨congrArg (setBit · 2) status, now_, stops, mem⟩

/-- The end of a calibration whose factors are all good. -/
theorem calibrationDone_good {rs : List CalResult} {temp : BitVec 16} {l : Live} (runs : calibrating l = true)
    (due : l.analog.calStart + 5120000 ≤ l.now) (good : rs.any calBad = false) :
    (calibrationDone rs temp l).analog.status = clrBit (clrBit (setBit l.analog.status 1) 3) 2 ∧ (calibrationDone rs temp l).analog.calTemp = temp ∧
    (∀ k, k < 4 → ((calibrationDone rs temp l).conv k).status = clrBit (l.conv k).status 2 ∧
      ((calibrationDone rs temp l).conv k).factors = rs.getD k {}) ∧ (calibrationDone rs temp l).mem = l.mem := by
  unfold calibrationDone
  rw [if_neg (by rw [runs, decide_eq_false (Nat.not_lt.mpr due)]; decide)]
  extract_lets fault convs unit_ after unit'_ ended
  have again {α : Type} (read : Live → α) (kept : ∀ s t m, read (beginPass s t m) = read m) :
      read (forAll (fun s l => if (l.seq s).resume && (l.seq s).run.isNone && analogOn l then beginPass s (pclkAt (l.now + 1)) l else l)
        (List.range 4) ended) = read ended := by
    refine forAll_keeps read (fun s m => ?_) _ _
    split
    · exact kept s _ m
    · rfl
  have taken : after = noteBit 0x3750 1 1 { convs with analog := { convs.analog with status := clrBit (setBit convs.analog.status 1) 3, calTemp := temp } } :=
    if_neg (by rw [good]; decide)
  let one (k : Nat) (l : Live) : Live := l.updConv k (fun c => { c with status := clrBit c.status 2, factors := rs.getD k {} })
  have status : convs.analog.status = l.analog.status := forAll_keeps (f := one) (fun m => m.analog.status) (fun k m => rfl) _ l
  refine ⟨?_, ?_, fun k low => ?_, ?_⟩
  · rw [again (fun m => m.analog.status) fun _ _ _ => rfl]
    show clrBit after.analog.status 2 = _
    rw [taken]
    show clrBit (clrBit (setBit convs.analog.status 1) 3) 2 = _
    rw [status]
  · rw [again (fun m => m.analog.calTemp) fun _ _ _ => rfl]
    show after.analog.calTemp = _
    rw [taken]
    rfl
  · have one : convs.conv k = { l.conv k with status := clrBit (l.conv k).status 2, factors := rs.getD k {} } :=
      (forAll_updConv (f := fun k c => { c with status := clrBit c.status 2, factors := rs.getD k {} }) List.nodup_range).2 (List.mem_range.mpr low)
    rw [again (fun m => m.conv k) fun _ _ _ => rfl]
    show (after.conv k).status = _ ∧ (after.conv k).factors = _
    rw [taken]
    show (convs.conv k).status = _ ∧ (convs.conv k).factors = _
    rw [one]
    exact ⟨rfl, rfl⟩
  · rw [again Live.mem fun _ _ _ => rfl]
    show after.mem = _
    rw [taken]
    exact forAll_keeps (f := one) Live.mem (fun k m => rfl) _ l

end Sys2Proof.Machine

/-! What O25 and O26 state: sequences, the read port, calibration, limit trips, and the result register. -/

namespace Sys2Proof.Machine

open Sys2Proof

/-- A step that may start takes its converters. -/
theorem stepStart_starts {l : Live} {n : Nat} {p : Pass} {w : Word} (run : (l.seq n).run = some p) (waits : stepWaits l n = some w)
    (up : analogUp l = true) (edge : l.now % 4 = 0) (free : convsFree l w = true) (first : lowerFirst l n w = false) :
    ((stepStart n l).seq n).run = some { passNow l n p with startedAt := some l.now } ∧
    (∀ k ∈ stepConvs w, ((stepStart n l).conv k).busy = some n) ∧ ((stepStart n l).seq n).status = (l.seq n).status ∧
    (stepStart n l).mem = l.mem := by
  obtain ⟨x, effect, pass, status⟩ : ∃ x : Sequence, stepStart n l = forAll (fun k l => l.updConv k (fun c => { c with busy := some n }))
      (stepConvs w) (l.setSeq n x) ∧ x.run = some { passNow l n p with startedAt := some l.now } ∧ x.status = (l.seq n).status := by
    unfold stepStart
    dsimp only
    rw [run, waits]
    dsimp only
    rw [if_neg (by rw [up, decide_eq_false (not_not_intro edge)]; decide), if_pos (by rw [free, first]; decide)]
    refine ⟨_, rfl, ?_, ?_⟩
    · split <;> rfl
    · split <;> rfl
  have passes := (forAll_keeps (f := fun k l => l.updConv k (fun c => { c with busy := some n })) (fun m => m.seq n) (fun _ _ => rfl)
    (stepConvs w) (l.setSeq n x)).trans (setSeq_same l n x)
  rw [effect]
  refine ⟨?_, fun k inside => ?_, ?_, ?_⟩
  · rw [passes, pass]
  · rw [(forAll_updConv (f := fun _ c => { c with busy := some n }) (stepConvs_nodup w)).2 inside]
  · rw [passes, status]
  · exact forAll_keeps (f := fun k l => l.updConv k (fun c => { c with busy := some n })) Live.mem (fun _ _ => rfl) _ _

theorem stepTaken_busy (s : Nat) (p : Pass) (start : Nat) (rs : List AdcSample) (l : Live) {k : Nat} (inside : k ∈ stepConvs p.word) :
    ((stepTaken s p start rs l).conv k).busy = none := by
  unfold stepTaken Live.conv
  dsimp only
  rw [sincosStep_analog]
  exact congrArg Converter.busy ((forAll_updConv (f := fun _ c => { c with busy := none }) (stepConvs_nodup p.word)).2 inside)

/-- The next step of a pass (R304). -/
theorem afterStep_goes_on {s : Nat} {p : Pass} {l : Live} (more : p.step + 1 < p.words.length) (on : (l.seq s).stopDue = false) :
    afterStep s p l = l.setSeq s { l.seq s with run := some { p with step := p.step + 1, startedAt := none, delayed := false }, notBefore := l.now } := by
  unfold afterStep
  dsimp only
  rw [if_pos (by rw [on, decide_eq_true more]; decide)]

/-- A beat of the read port takes the two oldest results (R311). -/
theorem popAdcBeat_takes {k : Nat} {a b : BitVec 32} {r : List (BitVec 32)} {l : Live} (fifo : (l.conv k).fifo = a :: b :: r) :
    (popAdcBeat k l).2.conv k = { l.conv k with fifo := r } ∧ (popAdcBeat k l).2.analog.inputs = l.analog.inputs ∧ (popAdcBeat k l).2.mem = l.mem := by
  have first : popAdcEntry k l = (a, l.setConv k { l.conv k with fifo := b :: r }) := by
    unfold popAdcEntry
    dsimp only
    rw [fifo]
  have second : popAdcEntry k (l.setConv k { l.conv k with fifo := b :: r }) =
      (b, (l.setConv k { l.conv k with fifo := b :: r }).setConv k { l.conv k with fifo := r }) := by
    unfold popAdcEntry
    dsimp only
    rw [setConv_same]
  unfold popAdcBeat
  dsimp only
  rw [first]
  dsimp only
  rw [second]
  exact ⟨setConv_same _ _ _, rfl, rfl⟩

theorem clearLimit_within {a : Nat} {l : Live} (set : bitOf (l.anIn a).status.toNat 4 = true) (since : (l.anIn a).since = true)
    (inside : (l.anIn a).inside = true) : clearLimit a l = l.setAnIn a { l.anIn a with status := clrBit (l.anIn a).status 4 } := by
  unfold clearLimit
  dsimp only
  rw [if_neg (by rw [set]; decide), if_pos (by rw [since, inside]; decide)]

theorem reply_analog (conn : Conn) (code : Nat) (l : Live) : (reply conn code l).analog = l.analog := by simp
theorem reply_seq (conn : Conn) (code : Nat) (l : Live) (n : Nat) : (reply conn code l).seq n = l.seq n := by simp
theorem apply_analog (f : Live → Live) (s : State) : (s.apply f).live.analog = (f s.live).analog := by simp

theorem start_completes {s : State} {conn : Conn} {n : Fin 4} (reaches : Reaches conn (0x2740 + n.val) 3 s) (up : analogUp s.live = true)
    (on : analogOn s.live = true) (free : calibrating s.live = false) (idle : (s.live.seq n).run = none) :
    Completes (.sequenceStart conn n) s fun t =>
      (∃ p, (t.live.seq n).run = some p ∧ p.step = 0 ∧ p.startedAt = none ∧ p.words.length = s.live.cfg (0x2740 + n.val) 2) ∧
      (t.live.seq n).notBefore = pclkAt (s.live.now + 1) ∧ (t.live.seq n).dropCnt = (s.live.seq n).dropCnt ∧
      AnsweredDone conn t ∧ SameMemory s t := by
  have effect : seqStart n.val (pclkAt ((touch conn s.live).now + 1)) (touch conn s.live) = beginPass n.val (pclkAt ((touch conn s.live).now + 1)) (touch conn s.live) :=
    seqStart_begins (l := touch conn s.live) up on free idle
  obtain ⟨begins, notBefore, drops, -⟩ := beginPass_begins n.val (pclkAt ((touch conn s.live).now + 1)) (touch conn s.live)
  refine completes_object (f := done fun l => seqStart n.val (pclkAt (l.now + 1)) l) rfl reaches (congrArg (·, 0) effect)
    ⟨?_, ?_, ?_, answeredDone_reply _ _ _, sameMemory_reply rfl⟩
  · rw [apply_seq, reply_seq]
    exact begins
  · rw [apply_seq, reply_seq]
    exact notBefore
  · rw [apply_seq, reply_seq]
    exact drops

theorem calibrate_completes {s : State} {conn : Conn} (reaches : Reaches conn 0x2750 2 s) (free : calibrating s.live = false)
    (up : analogUp s.live = true) :
    Completes (.calibrate conn) s fun t =>
      t.live.analog.status = setBit s.live.analog.status 2 ∧ t.live.analog.calStart = s.live.now ∧
      (∀ n : Fin 4, (s.live.seq n).run.isSome = true → (t.live.seq n).stopDue = true) ∧ AnsweredDone conn t ∧ SameMemory s t := by
  obtain ⟨status, start, stops, mem⟩ := calibrate_starts (l := touch conn s.live) free up
  refine completes_object (f := done calibrate) rfl reaches rfl ⟨?_, ?_, fun n runs => ?_, answeredDone_reply _ _ _, sameMemory_reply mem⟩
  · rw [apply_analog, reply_analog, status]
    rfl
  · rw [apply_analog, reply_analog, start]
    rfl
  · rw [apply_seq, reply_seq]
    exact stops n n.isLt runs

/-- Settles O25. -/
theorem conversionComplete : Obligations.ConversionComplete := by
  refine ⟨fun s conn n reaches up on free idle => ?_, fun s n p w run waits up edge free first => ?_,
    fun s n p start r0 r1 r2 r3 run started up due more on => ?_, fun s k a b r up fifo => ?_, fun s conn reaches free up => ?_,
    fun s r0 r1 r2 r3 temp runs due good => ?_, fun s conn a reaches set since inside => ?_⟩
  · exact start_completes reaches up on free idle
  · obtain ⟨pass, busy, status, mem⟩ := stepStart_starts run waits up edge free first
    refine completes_apply (f := stepStart n.val) rfl ⟨?_, fun k inside => ?_, ?_, sameMemory_apply mem⟩
    · rw [apply_seq, pass]
    · rw [apply_conv]
      exact busy k inside
    · rw [apply_seq, status]
  · have goes : ((stepTaken n.val p start [r0, r1, r2, r3] s.live).seq n.val).stopDue = false := (stepTaken_stopDue _ _ _ _ _).trans on
    have effect : stepResult n.val [r0, r1, r2, r3] s.live = _ := (stepResult_due _ run started up due).trans (afterStep_goes_on more goes)
    refine completes_apply (f := stepResult n.val [r0, r1, r2, r3]) rfl ⟨?_, fun k inside => ?_, sameMemory_apply ?_⟩
    · rw [apply_seq, effect, setSeq_same]
    · rw [apply_conv, effect]
      exact stepTaken_busy n.val p start [r0, r1, r2, r3] s.live inside
    · rw [effect]
      exact stepTaken_mem n.val p start [r0, r1, r2, r3] s.live
  · obtain ⟨conv, inputs, mem⟩ := popAdcBeat_takes fifo
    have effect : (if analogUp s.live then (popAdcBeat k.val s.live).2 else s.live) = (popAdcBeat k.val s.live).2 := if_pos up
    refine completes_apply (f := fun l => if analogUp l then (popAdcBeat k.val l).2 else l) rfl ⟨?_, ?_, sameMemory_apply ?_⟩
    · rw [apply_conv, effect, conv]
    · rw [apply_analog, effect, inputs]
    · rw [effect, mem]
  · exact calibrate_completes reaches free up
  · obtain ⟨status, kept, convs, mem⟩ := calibrationDone_good (temp := temp) runs due good
    refine completes_apply (f := calibrationDone [r0, r1, r2, r3] temp) rfl ⟨?_, ?_, fun k => ?_, sameMemory_apply mem⟩
    · rw [apply_analog, status]
    · rw [apply_analog, kept]
    · rw [apply_conv]
      exact convs k k.isLt
  · have effect := clearLimit_within (a := a.val) (l := touch conn s.live) set since inside
    refine completes_object (f := done (clearLimit a.val)) rfl reaches (congrArg (·, 0) effect) ⟨?_, answeredDone_reply _ _ _, sameMemory_reply rfl⟩
    rw [apply_anIn, reply_anIn, setAnIn_same]
    rfl

/-! ### The result register (R302, R309) -/

/-- The end of a step leaves the result registers. -/
theorem afterStep_results (s : Nat) (p : Pass) (l : Live) :
    ((afterStep s p l).seq s).results = (l.seq s).results ∧ (afterStep s p l).analog.unset = l.analog.unset := by
  unfold afterStep
  extract_lets x y noted
  have results : y.results = x.results := by
    unfold y
    split <;> rfl
  have unset : noted.analog.unset = l.analog.unset := by
    unfold noted
    split <;> rfl
  split
  · rw [setSeq_same]
    exact ⟨rfl, rfl⟩
  · split
    · obtain ⟨-, -, -, kept⟩ := beginPass_begins s noted.now (noted.setSeq s y)
      rw [setSeq_same] at kept
      exact ⟨kept.trans results, unset⟩
    · rw [setSeq_same]
      exact ⟨results, unset⟩

/-- The result of a step on converter 0 alone. -/
theorem stepResult_register {l : Live} {n start : Nat} {p : Pass} {rs : List AdcSample} (run : (l.seq n).run = some p)
    (started : p.startedAt = some start) (up : analogUp l = true) (due : start + (stepAcq p.word + 16) * 4 ≤ l.now)
    (only : stepConvs p.word = [0]) :
    let reg := resultReg (stepResult n rs l) n p.step 0
    let code := (rs.getD 0 ⟨0, false⟩).code
    reg.getLsbD 31 = true ∧ field reg.toNat 15 0 = ((l.conv 0).corrected (selPair (stepSel p.word 0)) code).toNat ∧
    field reg.toNat 23 16 = (field (resultReg l n p.step 0).toNat 23 16 + 1) % 256 ∧ reg.getLsbD 27 = bitOf (l.conv 0).status.toNat 2 := by
  intro reg code
  obtain ⟨x, taken, facts⟩ := oneResult_takes n p.step p.word (start + stepAcq p.word * 4) 0 (rs.getD 0 ⟨0, false⟩) l
  have stepped : (stepTaken n p start rs l).stepped =
      (l.updSeq n fun q => { q with results := q.results.put l.analog.unset (4 * p.step + 0) x }).stepped := by
    rw [stepTaken_stepped, only]
    exact taken
  have seq_ := stepped_seq stepped n
  have unset : (stepTaken n p start rs l).analog.unset = l.analog.unset := congrArg (fun x => x.2.1) stepped
  have value : reg = x := by
    obtain ⟨results, unset'⟩ := afterStep_results n p (stepTaken n p start rs l)
    show (SMap.get _ _ _) = x
    rw [stepResult_due rs run started up due, results, unset', unset, seq_, updSeq_same]
    exact SMap.get_put_same l.analog.unset _ _ _
  rw [value]
  exact facts

/-- Settles O26. The correction by factors other than unit gain and zero offset is the model's free value (log entry 113). -/
theorem resultRegister : Obligations.ResultRegister := by
  intro s n p start r0 r1 r2 r3 run started up due only
  obtain ⟨valid, value, count, flag⟩ := stepResult_register (rs := [r0, r1, r2, r3]) run started up due only
  have same : resultReg (s.apply (stepResult n.val [r0, r1, r2, r3])).live n.val p.step 0 =
      resultReg (stepResult n.val [r0, r1, r2, r3] s.live) n.val p.step 0 := by
    unfold resultReg
    rw [apply_seq, apply_analog]
  refine completes_apply (f := stepResult n.val [r0, r1, r2, r3]) rfl ?_
  dsimp only
  rw [same]
  refine ⟨valid, value, fun unit_ => value.trans ?_, count, flag⟩
  unfold Converter.corrected
  rw [unit_]
  cases selPair (stepSel p.word 0) <;> rfl

end Sys2Proof.Machine

/-! The waveform of a pair: reloads, REF edges, turn-ons, stream beats, delay lines and the start (R268–R281). -/

namespace Sys2Proof.Machine

open Sys2Proof

/-! ### What the steps of a pair leave of it -/

/-- A pair without what the flags and records of a reload change. -/
def Pair.unflagged (p : Pair) : Pair :=
  { p with status := 0, underCnt := 0, request := false, beat := false, rec3 := none, rec4 := none, rec7 := none }

/-- What the flags and records of a reload of a pair leave: the pair but for them, the configuration and the memory. -/
def Live.waving (u : Nat) (l : Live) : Pair × ConfUnit × Memory := ((l.pair u).unflagged, l.conf, l.mem)

theorem waving_pair {u : Nat} {l m : Live} (h : m.waving u = l.waving u) : (m.pair u).unflagged = (l.pair u).unflagged := congrArg Prod.fst h
theorem waving_conf {u : Nat} {l m : Live} (h : m.waving u = l.waving u) : m.conf = l.conf := congrArg (fun x => x.2.1) h
theorem waving_mem {u : Nat} {l m : Live} (h : m.waving u = l.waving u) : m.mem = l.mem := congrArg (fun x => x.2.2) h

@[simp] theorem noteBit_waving (u idx sub b : Nat) (l : Live) : (noteBit idx sub b l).waving u = l.waving u := rfl

theorem setPair_waving {u : Nat} {l : Live} {x : Pair} (h : x.unflagged = (l.pair u).unflagged) : (l.setPair u x).waving u = l.waving u := by
  unfold Live.waving
  rw [setPair_same, h]
  rfl

theorem updPair_waving {u : Nat} {l : Live} {f : Pair → Pair} (h : (f (l.pair u)).unflagged = (l.pair u).unflagged) :
    (l.updPair u f).waving u = l.waving u := setPair_waving h

@[simp] theorem writeRecord_waving (u src kind payload : Nat) (l : Live) : (writeRecord src kind payload l).waving u = l.waving u := by
  unfold Live.waving Live.pair
  simp only [writeRecord_keeps]

@[simp] theorem pwmRecord_waving (u code payload : Nat) (l : Live) : (pwmRecord u code payload l).waving u = l.waving u := by
  unfold pwmRecord
  extract_lets p last t p'
  split
  · rw [writeRecord_waving]
    refine setPair_waving ?_
    unfold p'
    split
    · rfl
    · split <;> rfl
  · rfl

theorem reloadFlags_waving (u : Nat) (l : Live) : (reloadFlags u l).waving u = l.waving u := by
  unfold reloadFlags
  extract_lets p clamp clamped q counted
  have first : clamped.waving u = l.waving u := by
    unfold clamped
    split
    · rw [pwmRecord_waving, noteBit_waving]
      exact setPair_waving rfl
    · rfl
  have second : counted.waving u = clamped.waving u := by
    unfold counted
    split
    · rw [pwmRecord_waving, noteBit_waving]
      exact setPair_waving rfl
    · rfl
  split
  · rw [updPair_waving rfl, second, first]
  · rw [updPair_waving rfl, first]

/-- The deferred values reach the shadows alone. -/
theorem settleDeferred_only (mid : Bool) (p : Pair) :
    p.settleDeferred mid = { p with shadow := (p.settleDeferred mid).shadow, deferred := (p.settleDeferred mid).deferred } := by
  have set (w : ShadowWrite) (q : Pair) : q.setShadow w = { q with shadow := (q.setShadow w).shadow } := by
    unfold Pair.setShadow
    dsimp only
    split
    · rfl
    · split <;> rfl
  have fold : ∀ (ws : List ShadowWrite) (q : Pair), ws.foldl (fun q w => q.setShadow w) q =
      { q with shadow := (ws.foldl (fun q w => q.setShadow w) q).shadow } := by
    intro ws
    induction ws with
    | nil => exact fun q => rfl
    | cons w ws ih =>
      intro q
      rw [List.foldl_cons, ih (q.setShadow w), set w q]
  unfold Pair.settleDeferred
  dsimp only
  rw [fold]

theorem driveTo_none (now : Nat) (r : Readback) : (driveTo now none false r).driven = none := by
  unfold driveTo
  split
  · rfl
  · split
    next same => exact (of_decide_eq_true (Bool.and_eq_true_iff.mp same).1).symm
    · rfl

/-! ### Output edges (R269, R270) -/

section

variable (l : Live) (u t : Nat) (p : Pair)

theorem place_high : ∃ d, p.place u false t = { p with dlH := d } := by
  unfold Pair.place
  split
  · exact ⟨p.dlH, rfl⟩
  · exact ⟨_, rfl⟩

theorem place_low : ∃ d, p.place u true t = { p with dlL := d } := by
  unfold Pair.place
  split
  · exact ⟨p.dlL, rfl⟩
  · exact ⟨_, rfl⟩

/-- What a turn-on does to H and to L. -/
theorem turnOn_high : (turnOn l u false t p).actH = true ∧ (turnOn l u false t p).onH = none ∧
    (turnOn l u false t p).h = driveTo l.now (some (activeLevel l u false)) false p.h := by
  obtain ⟨d, placed⟩ := place_high u t (p.drive l.now false (some (activeLevel l u false)) false)
  unfold turnOn
  dsimp only
  rw [placed]
  exact ⟨rfl, rfl, rfl⟩

theorem turnOn_low : (turnOn l u true t p).actL = true ∧ (turnOn l u true t p).onL = none ∧
    (turnOn l u true t p).l = driveTo l.now (some (activeLevel l u true)) false p.l := by
  obtain ⟨d, placed⟩ := place_low u t (p.drive l.now true (some (activeLevel l u true)) false)
  unfold turnOn
  dsimp only
  rw [placed]
  exact ⟨rfl, rfl, rfl⟩

/-- A turn-off of H, of L: the output, and the placed instants beside it. -/
theorem turnOff_high : ∃ d off, turnOff l u false t p =
    { p with h := driveTo l.now (some (!activeLevel l u false)) false p.h, dlH := d, offH := off, actH := false, onH := none } := by
  obtain ⟨d, placed⟩ := place_high u t (p.drive l.now false (some (!activeLevel l u false)) false)
  unfold turnOff
  dsimp only
  rw [placed]
  rcases Bool.eq_false_or_eq_true p.actH with on | off
  · exact ⟨d, _, by rw [if_neg Bool.false_ne_true, if_neg Bool.false_ne_true, if_pos (show (p.drive l.now false (some (!activeLevel l u false)) false).actH = true from on)]; rfl⟩
  · exact ⟨p.dlH, _, by rw [if_neg Bool.false_ne_true, if_neg Bool.false_ne_true, if_neg (by rw [show (p.drive l.now false (some (!activeLevel l u false)) false).actH = false from off]; decide)]; rfl⟩

theorem turnOff_low : ∃ d off, turnOff l u true t p =
    { p with l := driveTo l.now (some (!activeLevel l u true)) false p.l, dlL := d, offL := off, actL := false, onL := none } := by
  obtain ⟨d, placed⟩ := place_low u t (p.drive l.now true (some (!activeLevel l u true)) false)
  unfold turnOff
  dsimp only
  rw [placed]
  rcases Bool.eq_false_or_eq_true p.actL with on | off
  · exact ⟨d, _, by rw [if_pos rfl, if_pos rfl, if_pos (show (p.drive l.now true (some (!activeLevel l u true)) false).actL = true from on)]; rfl⟩
  · exact ⟨p.dlL, _, by rw [if_pos rfl, if_pos rfl, if_neg (by rw [show (p.drive l.now true (some (!activeLevel l u true)) false).actL = false from off]; decide)]; rfl⟩

end

section

/-- An output edge whose instant lies in this TCLK. -/
theorem outputEdge_rise {l : Live} {u i : Nat} {r : List (Nat × Bool)} (edge : (l.pair u).refEdges = (i, true) :: r) (at_ : i / 64 = l.now)
    (runs : (l.pair u).state = .running) :
    pwmOutputEdge u .refRise l = l.setPair u (refEdge l u i true { l.pair u with refEdges := r }) := by
  unfold pwmOutputEdge
  dsimp only
  rw [edge]
  exact if_pos (by rw [decide_eq_true at_, runs]; decide)

theorem outputEdge_fall {l : Live} {u i : Nat} {r : List (Nat × Bool)} (edge : (l.pair u).refEdges = (i, false) :: r) (at_ : i / 64 = l.now)
    (runs : (l.pair u).state = .running) :
    pwmOutputEdge u .refFall l = l.setPair u (refEdge l u i false { l.pair u with refEdges := r }) := by
  unfold pwmOutputEdge
  dsimp only
  rw [edge]
  exact if_pos (by rw [decide_eq_true at_, runs]; decide)

theorem outputEdge_high {l : Live} {u i : Nat} (on : (l.pair u).onH = some i) (at_ : i / 64 = l.now) (some_ : (l.pair u).state ≠ .idle) :
    pwmOutputEdge u .turnOnH l = l.setPair u (turnOn l u false i (l.pair u)) := by
  unfold pwmOutputEdge
  dsimp only
  rw [on]
  exact if_pos (by rw [decide_eq_true at_, decide_eq_true some_]; decide)

theorem outputEdge_low {l : Live} {u i : Nat} (on : (l.pair u).onL = some i) (at_ : i / 64 = l.now) (some_ : (l.pair u).state ≠ .idle) :
    pwmOutputEdge u .turnOnL l = l.setPair u (turnOn l u true i (l.pair u)) := by
  unfold pwmOutputEdge
  dsimp only
  rw [on]
  exact if_pos (by rw [decide_eq_true at_, decide_eq_true some_]; decide)

end

end Sys2Proof.Machine

/-! The reloads of a pair, its stream beats, delay lines and start, and what O23 states (R272–R281). -/

namespace Sys2Proof.Machine

open Sys2Proof

/-- A field that the flags of a reload leave. -/
theorem of_unflagged {α : Type} (read : Pair → α) (kept : ∀ r : Pair, read r.unflagged = read r) {p q : Pair} (h : p.unflagged = q.unflagged) :
    read p = read q := by
  rw [← kept p, ← kept q, h]

theorem periodLen_congr {l m : Live} {p q : Pair} (conf : m.conf = l.conf) (eff : q.eff = p.eff) (u : Nat) : periodLen m u q = periodLen l u p := by
  unfold periodLen unitLen prescaler Pair.units
  rw [cfg_of_conf conf, eff]

/-- The reload of a boundary: the shadows are in effect, the boundary and the next one stand (R272). -/
theorem reload_reloads (u b : Nat) (l : Live) :
    ((reload u b l).pair u).eff = ((l.pair u).settleDeferred false).shadow ∧ ((reload u b l).pair u).boundary = BitVec.ofNat 64 (b % 2 ^ 54) ∧
    ((reload u b l).pair u).lastB = some b ∧ ((reload u b l).pair u).state = (l.pair u).state ∧
    ((reload u b l).pair u).nextB = some (b + periodLen l u ((reload u b l).pair u)) ∧ ((reload u b l).pair u).midDone = false ∧
    (reload u b l).conf = l.conf ∧ (reload u b l).mem = l.mem := by
  obtain ⟨x, waving, eff, boundary, last, state, next_, mid⟩ : ∃ x : Pair, (reload u b l).waving u = (l.setPair u x).waving u ∧
      x.eff = ((l.pair u).settleDeferred false).shadow ∧ x.boundary = BitVec.ofNat 64 (b % 2 ^ 54) ∧ x.lastB = some b ∧
      x.state = (l.pair u).state ∧ x.nextB = some (b + periodLen l u x) ∧ x.midDone = false := by
    unfold reload
    extract_lets p first q1 q2 q3 q4 lowFirst q5
    refine ⟨q5, reloadFlags_waving _ _, ?_⟩
    have settled : p = { l.pair u with shadow := p.shadow, deferred := p.deferred } := settleDeferred_only false (l.pair u)
    have last : q5.unflagged = { q3.unflagged with offH := q5.offH, offL := q5.offL, onL := q5.onL } := by
      unfold q5
      split
      · show ({ q4 with onL := _ } : Pair).unflagged = _
        unfold q4
        split <;> rfl
      · unfold q4
        split <;> rfl
    have state : p.state = (l.pair u).state := by rw [settled]
    clear_value q5
    have eff : q5.eff = p.shadow := congrArg Pair.eff last
    exact ⟨eff, congrArg Pair.boundary last, congrArg Pair.lastB last, (congrArg Pair.state last).trans state,
      (congrArg Pair.nextB last).trans (congrArg (fun n => some (b + n)) (periodLen_congr rfl eff.symm u)), congrArg Pair.midDone last⟩
  have pair := waving_pair waving
  rw [setPair_same] at pair
  have kept {α : Type} (read : Pair → α) (h : ∀ r : Pair, read r.unflagged = read r) : read ((reload u b l).pair u) = read x := of_unflagged read h pair
  have same := kept Pair.eff fun _ => rfl
  exact ⟨same.trans eff, (kept Pair.boundary fun _ => rfl).trans boundary, (kept Pair.lastB fun _ => rfl).trans last,
    (kept Pair.state fun _ => rfl).trans state,
    (kept Pair.nextB fun _ => rfl).trans (next_.trans (congrArg (fun n => some (b + n)) (periodLen_congr rfl same.symm u))),
    (kept Pair.midDone fun _ => rfl).trans mid, waving_conf (l := l.setPair u x) waving, waving_mem (l := l.setPair u x) waving⟩

/-- A boundary that is published, and that triggers no group. -/
theorem boundaryCommand_reloads {u b : Nat} {l : Live} (next_ : (l.pair u).nextB = some b) (runs : (l.pair u).state = .running) (at_ : b / 64 = l.now)
    (goes : (l.pair u).stopDue = false) (ungrouped : ∀ g, g < 64 → ¬(l.cfg (0x2C00 + g) 1 = 4 ∧ l.cfg (0x2C00 + g) 2 = u)) :
    boundaryCommand u l = reload u b l := by
  have bound : pairBoundary u l = (reload u b l, true) := by
    unfold pairBoundary
    dsimp only
    rw [next_]
    dsimp only
    rw [if_pos (by rw [decide_eq_true at_, runs]; decide), if_neg (by rw [goes]; decide)]
  unfold boundaryCommand
  rw [bound]
  refine forAll_idle fun g inside => if_neg ?_
  obtain ⟨-, -, -, -, -, -, conf, -⟩ := reload_reloads u b l
  dsimp only
  rw [cfg_of_conf conf, cfg_of_conf conf, Bool.and_eq_true, decide_eq_true_eq, decide_eq_true_eq]
  exact ungrouped g (List.mem_range.mp inside)

/-- The boundary of a pair that is to stop. -/
theorem boundaryCommand_stops {u b : Nat} {l : Live} (next_ : (l.pair u).nextB = some b) (runs : (l.pair u).state = .running) (at_ : b / 64 = l.now)
    (stops : (l.pair u).stopDue = true) : ∃ x : Pair, boundaryCommand u l = l.setPair u x ∧ x.state = .idle ∧ x.nextB = none ∧ x.actH = false ∧
      x.actL = false ∧ x.h.driven = none ∧ x.l.driven = none ∧ x.boundary = (l.pair u).boundary := by
  obtain ⟨x, bound, facts⟩ : ∃ x : Pair, pairBoundary u l = (l.setPair u x, false) ∧ x.state = .idle ∧ x.nextB = none ∧ x.actH = false ∧
      x.actL = false ∧ x.h.driven = none ∧ x.l.driven = none ∧ x.boundary = (l.pair u).boundary := by
    unfold pairBoundary
    dsimp only
    rw [next_]
    dsimp only
    rw [if_pos (by rw [decide_eq_true at_, runs]; decide), if_pos stops]
    exact ⟨_, rfl, rfl, rfl, rfl, rfl, driveTo_none _ _, driveTo_none _ _, rfl⟩
  refine ⟨x, ?_, facts⟩
  unfold boundaryCommand
  rw [bound]
  rfl

/-- The mid-period reload of a general pair (R272). -/
theorem pwmMidReload_reloads {u b : Nat} {l : Live} (last : (l.pair u).lastB = some b) (runs : (l.pair u).state = .running) (general : 16 ≤ u)
    (mode : l.cfg (0x2400 + u) 0x0E = 1) (first : (l.pair u).midDone = false) (at_ : midOf l u (l.pair u) b / 64 = l.now) :
    let settled := (l.pair u).settleDeferred true
    ((pwmMidReload u l).pair u).eff = { (l.pair u).eff with duty := settled.shadow.duty, dead := settled.shadow.dead } ∧
    ((pwmMidReload u l).pair u).midDone = true ∧ ((pwmMidReload u l).pair u).lastB = some b ∧ (pwmMidReload u l).mem = l.mem := by
  intro settled
  obtain ⟨x, waving, eff, mid, kept⟩ : ∃ x : Pair, (pwmMidReload u l).waving u = (l.setPair u x).waving u ∧
      x.eff = { (l.pair u).eff with duty := settled.shadow.duty, dead := settled.shadow.dead } ∧ x.midDone = true ∧ x.lastB = some b := by
    have only : settled = { l.pair u with shadow := settled.shadow, deferred := settled.deferred } := settleDeferred_only true (l.pair u)
    have eff : settled.eff = (l.pair u).eff := by rw [only]
    have kept : settled.lastB = (l.pair u).lastB := by rw [only]
    unfold pwmMidReload
    dsimp only
    rw [last]
    dsimp only
    rw [if_pos (by
      rw [decide_eq_true at_, runs, decide_eq_true mode, first, show isPP u = false from decide_eq_false (Nat.not_lt.mpr general)]
      decide)]
    refine ⟨_, reloadFlags_waving _ _, ?_, rfl, ?_⟩
    · show { settled.eff with duty := settled.shadow.duty, dead := settled.shadow.dead } = _
      rw [eff]
    · show settled.lastB = _
      rw [kept, last]
  have pair := waving_pair waving
  rw [setPair_same] at pair
  exact ⟨(of_unflagged Pair.eff (fun _ => rfl) pair).trans eff, (of_unflagged Pair.midDone (fun _ => rfl) pair).trans mid,
    (of_unflagged Pair.lastB (fun _ => rfl) pair).trans kept, waving_mem (l := l.setPair u x) waving⟩

/-- A stream beat that no reload of this TCLK meets (R275). -/
theorem streamBeat_writes {u : Nat} {beat : Word} {l : Live} (up : unitUp 0x10 l = true) (on : streaming l u = true) (small : beat.toNat < 2 ^ 22)
    (due : reloadDue l u = false) (past : (l.pair u).reloadAt ≠ some l.now) :
    streamBeat u beat l = l.setPair u ((l.pair u).beatTo false (if u < 16 then beat.toNat else beat.toNat / 64 * 64)) := by
  unfold streamBeat
  rw [if_neg (by rw [up, on]; decide), if_neg (Nat.not_le.mpr small)]
  dsimp only
  rw [due, if_neg (by rw [decide_eq_false past]; decide)]
  unfold isPP
  simp only [decide_eq_true_eq]

theorem streamBeat_clips {u : Nat} {beat : Word} {l : Live} (up : unitUp 0x10 l = true) (on : streaming l u = true) (large : 2 ^ 22 ≤ beat.toNat) :
    (streamBeat u beat l).pair u = { l.pair u with status := setBit (l.pair u).status 7 } ∧ (streamBeat u beat l).mem = l.mem := by
  unfold streamBeat
  rw [if_neg (by rw [up, on]; decide), if_pos large]
  unfold Live.pair
  simp only [writeRecord_keeps]
  exact ⟨updPair_same (noteBit (0x3400 + u) 2 7 l) u _, rfl⟩

/-- The calibrated line of an output. -/
def Pair.line (isL : Bool) (p : Pair) : DelayLine := if isL then p.dlL else p.dlH

/-- A pair with the result of a calibration, good or bad (R278, R279). -/
def Pair.measured (isL bad : Bool) (taps : Byte) (now : Nat) (p : Pair) : Pair :=
  let d := { p.line isL with prev := some taps, calAt := some now, due := (p.line isL).due || !bad }
  let p := if isL then { p with dlL := d, faultL := bad } else { p with dlH := d, faultH := bad }
  let p := if bad then p else if isL then { p with tapsL := taps, calL := true } else { p with tapsH := taps, calH := true }
  { p with status := putBit p.status 12 (p.faultH || p.faultL) }

theorem measured_good (isL : Bool) (taps : Byte) (now : Nat) (p : Pair) :
    (if isL then (p.measured isL false taps now).tapsL = taps ∧ (p.measured isL false taps now).calL = true ∧ (p.measured isL false taps now).faultL = false
      else (p.measured isL false taps now).tapsH = taps ∧ (p.measured isL false taps now).calH = true ∧ (p.measured isL false taps now).faultH = false) ∧
    (p.measured isL false taps now).line isL = { p.line isL with prev := some taps, calAt := some now, due := true } := by
  have due (b : Bool) : (b || !false) = true := Bool.or_true b
  cases isL
  · exact ⟨⟨rfl, rfl, rfl⟩, congrArg (fun b => { p.dlH with prev := some taps, calAt := some now, due := b }) (due p.dlH.due)⟩
  · exact ⟨⟨rfl, rfl, rfl⟩, congrArg (fun b => { p.dlL with prev := some taps, calAt := some now, due := b }) (due p.dlL.due)⟩

theorem measured_bad (isL : Bool) (taps : Byte) (now : Nat) (p : Pair) :
    (p.measured isL true taps now).tapsL = p.tapsL ∧ (p.measured isL true taps now).tapsH = p.tapsH ∧
    (p.measured isL true taps now).line isL = { p.line isL with prev := some taps, calAt := some now } ∧
    (p.measured isL true taps now).status.getLsbD 12 = true := by
  have due (b : Bool) : (b || !true) = b := Bool.or_false b
  cases isL
  · exact ⟨rfl, rfl, congrArg (fun b => { p.dlH with prev := some taps, calAt := some now, due := b }) (due p.dlH.due), putBit_same _ _ (by decide)⟩
  · refine ⟨rfl, rfl, congrArg (fun b => { p.dlL with prev := some taps, calAt := some now, due := b }) (due p.dlL.due), ?_⟩
    show (putBit p.status 12 (p.faultH || true)).getLsbD 12 = true
    rw [Bool.or_true]
    exact putBit_same _ _ (by decide)

/-- A calibration of a delay line that is due (R278, R279). -/
theorem dlineCalibration_measures {u : Nat} {isL : Bool} {taps : Byte} {l : Live} (up : unitUp 0x10 l = true) (prot : domainUp .prot l = true)
    (precise : u < 16) (due : ((l.pair u).line isL).calDue l.now = true) :
    (dlineCalibration u isL taps l).pair u = (l.pair u).measured isL (((l.pair u).line isL).bad taps.toNat) taps l.now ∧
    (dlineCalibration u isL taps l).mem = l.mem := by
  have held : blockHeld l 0x10 = false := by
    unfold unitUp at up
    exact Bool.not_eq_true' _ |>.mp (Bool.and_eq_true_iff.mp up).2
  have effect : dlineCalibration u isL taps l =
      if ((l.pair u).line isL).bad taps.toNat then
        reportFault (0x2000 + 0x40 * u) 0x52 (5 * 2 ^ 24) 0x5000 (l.setPair u ((l.pair u).measured isL (((l.pair u).line isL).bad taps.toNat) taps l.now))
      else l.setPair u ((l.pair u).measured isL (((l.pair u).line isL).bad taps.toNat) taps l.now) := by
    unfold dlineCalibration
    exact if_neg (by
      rw [held, prot, show (if isL then (l.pair u).dlL else (l.pair u).dlH) = (l.pair u).line isL from rfl, due,
        show isPP u = true from decide_eq_true precise]
      decide)
  rw [effect]
  split
  · rw [reportFault_pair, setPair_same]
    exact ⟨rfl, by simp⟩
  · rw [setPair_same]
    exact ⟨rfl, rfl⟩

/-- Both outputs of a pair turned off. -/
theorem turnOffs (l : Live) (u t : Nat) (p : Pair) :
    (turnOff l u true t (turnOff l u false t p)).state = p.state ∧ (turnOff l u true t (turnOff l u false t p)).startAt = p.startAt ∧
    (turnOff l u true t (turnOff l u false t p)).actH = false ∧ (turnOff l u true t (turnOff l u false t p)).actL = false := by
  obtain ⟨d, o, high⟩ := turnOff_high l u t p
  obtain ⟨d', o', low⟩ := turnOff_low l u t (turnOff l u false t p)
  rw [low, high]
  exact ⟨rfl, rfl, rfl, rfl⟩

/-- The start of a pair (R280, R281). -/
theorem pairStart_starts {u : Nat} {l : Live} (at_ : (l.pair u).startAt = some l.now) (armed_ : l.pwm.arm = .armed) (on : l.flag (0x2400 + u) 1 = true)
    (still : (l.pair u).state ≠ .running) (up : unitUp 0x10 l = true) :
    ((pairStart u l).pair u).state = .running ∧ ((pairStart u l).pair u).startAt = none ∧ ((pairStart u l).pair u).actH = false ∧
    ((pairStart u l).pair u).actL = false ∧
    ((pairStart u l).pair u).nextB = some (l.now * 64 + unitsOf u (l.cfg (0x4400 + u) 0x23) * unitLen l u) ∧ (pairStart u l).mem = l.mem := by
  obtain ⟨q, effect, runs, past⟩ : ∃ q : Pair, pairStart u l = (noteBit (0x3400 + u) 2 0 l).setPair u
      { turnOff l u true (l.now * 64) (turnOff l u false (l.now * 64) q) with
        nextB := some (l.now * 64 + unitsOf u (l.cfg (0x4400 + u) 0x23) * unitLen l u), lastB := none, refEdges := [], refHigh := false, midDone := false } ∧
      q.state = .running ∧ q.startAt = none := by
    unfold pairStart
    dsimp only
    rw [if_pos (by
      unfold armed
      rw [decide_eq_true at_, armed_, on, decide_eq_true still, up]
      decide)]
    exact ⟨_, rfl, rfl, rfl⟩
  obtain ⟨state, start, high, low⟩ := turnOffs l u (l.now * 64) q
  rw [effect, setPair_same]
  exact ⟨state.trans runs, start.trans past, high, low, rfl, rfl⟩

/-- The edges of REF (R270). -/
theorem refEdge_rise (l : Live) (u t : Nat) (p : Pair) : (refEdge l u t true p).refHigh = true ∧ (refEdge l u t true p).actL = false ∧
    (refEdge l u t true p).onL = none ∧ (refEdge l u t true p).onH = some (t + p.eff.dead.toNat) ∧ (refEdge l u t true p).refEdges = p.refEdges ∧
    (refEdge l u t true p).l = driveTo l.now (some (!activeLevel l u true)) false p.l := by
  obtain ⟨d, off, low⟩ := turnOff_low l u t p
  have effect : refEdge l u t true p = { turnOff l u true t p with refHigh := true, onH := some (t + p.eff.dead.toNat) } := by
    unfold refEdge
    exact if_pos rfl
  rw [effect, low]
  exact ⟨rfl, rfl, rfl, rfl, rfl, rfl⟩

theorem refEdge_fall (l : Live) (u t : Nat) (p : Pair) : (refEdge l u t false p).refHigh = false ∧ (refEdge l u t false p).actH = false ∧
    (refEdge l u t false p).onH = none ∧ (refEdge l u t false p).onL = (if complementary l u then some (t + p.eff.dead.toNat) else p.onL) ∧
    (refEdge l u t false p).refEdges = p.refEdges ∧ (refEdge l u t false p).h = driveTo l.now (some (!activeLevel l u false)) false p.h := by
  obtain ⟨d, off, high⟩ := turnOff_high l u t p
  unfold refEdge
  dsimp only
  rw [if_neg Bool.false_ne_true, high]
  split <;> exact ⟨rfl, rfl, rfl, rfl, rfl, rfl⟩

/-- Settles O23. That the fine bits of a beat for a general pair are left out, and that a pair told to stop stops at its boundary, are the
model's choice (log entries 11 and 16). -/
theorem waveformComplete : Obligations.WaveformComplete := by
  intro s u p dead
  refine ⟨fun b next_ runs at_ goes ungrouped => ?_, fun b next_ runs at_ stops => ?_, fun b last runs general mode first at_ => ?_,
    fun i r edge at_ runs => ?_, fun i r edge at_ runs => ?_, fun i on at_ some_ => ?_, fun i on at_ some_ => ?_,
    fun beat up on small due past => ?_, fun beat up on large => ?_, fun isL taps up prot precise => ?_,
    fun at_ armed_ on still up => ?_⟩
  · obtain ⟨eff, boundary, last, state, next', mid, -, mem⟩ := reload_reloads u.val b s.live
    have effect := boundaryCommand_reloads next_ runs at_ goes ungrouped
    refine completes_apply (f := boundaryCommand u.val) rfl ?_
    rw [apply_pair, effect]
    exact ⟨eff, boundary, last, state.trans runs, next', mid, sameMemory_apply (by rw [effect, mem])⟩
  · obtain ⟨x, effect, facts, nextB, high, low, h, l, boundary⟩ := boundaryCommand_stops next_ runs at_ stops
    refine completes_apply (f := boundaryCommand u.val) rfl ?_
    rw [apply_pair, effect, setPair_same]
    exact ⟨facts, nextB, high, low, h, l, boundary, sameMemory_apply (by rw [effect]; rfl)⟩
  · obtain ⟨eff, mid, kept, mem⟩ := pwmMidReload_reloads last runs general mode first at_
    refine completes_apply (f := pwmMidReload u.val) rfl ?_
    rw [apply_pair]
    exact ⟨eff, mid, kept, sameMemory_apply mem⟩
  · have effect := outputEdge_rise edge at_ runs
    obtain ⟨high, act, onL, onH, edges, l⟩ := refEdge_rise s.live u.val i { s.live.pair u.val with refEdges := r }
    refine completes_apply (f := pwmOutputEdge u.val .refRise) rfl ?_
    rw [apply_pair, effect, setPair_same]
    exact ⟨high, act, onL, onH, edges, fun free => by rw [l]; exact driveTo_driven free, sameMemory_apply (by rw [effect]; rfl)⟩
  · have effect := outputEdge_fall edge at_ runs
    obtain ⟨low, act, onH, onL, edges, h⟩ := refEdge_fall s.live u.val i { s.live.pair u.val with refEdges := r }
    refine completes_apply (f := pwmOutputEdge u.val .refFall) rfl ?_
    rw [apply_pair, effect, setPair_same]
    exact ⟨low, act, onH, onL, edges, fun free => by rw [h]; exact driveTo_driven free, sameMemory_apply (by rw [effect]; rfl)⟩
  · have effect := outputEdge_high on at_ some_
    obtain ⟨act, onH, h⟩ := turnOn_high s.live u.val i (s.live.pair u.val)
    refine completes_apply (f := pwmOutputEdge u.val .turnOnH) rfl ?_
    rw [apply_pair, effect, setPair_same]
    exact ⟨act, onH, fun free => by rw [h]; exact driveTo_driven free, sameMemory_apply (by rw [effect]; rfl)⟩
  · have effect := outputEdge_low on at_ some_
    obtain ⟨act, onL, l⟩ := turnOn_low s.live u.val i (s.live.pair u.val)
    refine completes_apply (f := pwmOutputEdge u.val .turnOnL) rfl ?_
    rw [apply_pair, effect, setPair_same]
    exact ⟨act, onL, fun free => by rw [l]; exact driveTo_driven free, sameMemory_apply (by rw [effect]; rfl)⟩
  · have effect := streamBeat_writes up on small due past
    refine completes_apply (f := streamBeat u.val beat) rfl ⟨?_, sameMemory_apply (by rw [effect]; rfl)⟩
    rw [apply_pair, effect, setPair_same]
    rfl
  · obtain ⟨status, mem⟩ := streamBeat_clips up on large
    refine completes_apply (f := streamBeat u.val beat) rfl ⟨?_, sameMemory_apply mem⟩
    rw [apply_pair, status]
  · intro d after due
    obtain ⟨pair, mem⟩ := dlineCalibration_measures (isL := isL) (taps := taps) up prot precise due
    refine ⟨fun good => ?_, fun bad => ?_⟩
    · rw [show ((s.live.pair u.val).line isL).bad taps.toNat = false from good] at pair
      obtain ⟨result, line⟩ := measured_good isL taps s.live.now (s.live.pair u.val)
      rw [← pair] at result line
      refine completes_apply (f := dlineCalibration u.val isL taps) rfl ⟨?_, ?_, sameMemory_apply mem⟩
      · rw [apply_pair]
        exact result
      · show (((s.apply _).live.pair u.val).line isL) = _
        rw [apply_pair]
        exact line
    · rw [show ((s.live.pair u.val).line isL).bad taps.toNat = true from bad] at pair
      obtain ⟨tapsL, tapsH, line, status⟩ := measured_bad isL taps s.live.now (s.live.pair u.val)
      rw [← pair] at tapsL tapsH line status
      refine completes_apply (f := dlineCalibration u.val isL taps) rfl ⟨?_, ?_, ?_, ?_, sameMemory_apply mem⟩
      · rw [apply_pair]
        exact tapsL
      · rw [apply_pair]
        exact tapsH
      · show (((s.apply _).live.pair u.val).line isL) = _
        rw [apply_pair]
        exact line
      · rw [apply_pair]
        exact status
  · obtain ⟨state, start, high, low, next_, mem⟩ := pairStart_starts at_ armed_ on still up
    refine completes_apply (f := pairStart u.val) rfl ?_
    rw [apply_pair]
    exact ⟨state, start, high, low, next_, sameMemory_apply mem⟩

end Sys2Proof.Machine

/-! The end of a TCLK (R27, R34, R41). -/

namespace Sys2Proof.Machine

open Sys2Proof

/-! ### DMA writes into the DMA unit's own control space (R351) -/

theorem dmaUndefine_clock (c : Nat) (l : Live) : (dmaUndefine c l).clock = l.clock := by simp [dmaUndefine]

theorem dmaWrite_clock {idx s v : Nat} {f : Live → Live × Nat} (dma : idx % 256 < 0x20 ∨ idx % 256 = 0x20) (found : dmaWrite idx s v = some f) (l : Live) :
    (f l).1.clock = l.clock := by
  unfold dmaWrite at found
  dsimp only at found
  split at found
  · rw [← Option.some.inj found]
    split
    · unfold dmaStart
      split
      · rfl
      · split <;> rfl
    · unfold done
      split
      · unfold dmaDisable
        dsimp only
        rw [updDc_clock]
        split
        · rw [noteBit_clock, dmaUndefine_clock, dmaCutBurst_clock]
        · rw [dmaUndefine_clock, dmaCutBurst_clock]
      · split
        · rfl
        · unfold dmaSoft
          split
          · rfl
          · rw [updDc_clock]
            split <;> rfl
  · split at found
    · omega
    · exact absurd found (by simp)

/-- A write of an object of the DMA unit leaves the clock. -/
theorem dmaObject_clock {idx : Nat} (dma : isDmaObject idx = true) (s : Nat) (data : List Byte) (l : Live) :
    (writeObject .host idx s data l).1.clock = l.clock := by
  unfold isDmaObject at dma
  rw [Bool.or_eq_true, decide_eq_true_eq, decide_eq_true_eq] at dma
  have bytes : bytesCommand .host idx s data = none := by
    unfold bytesCommand
    rw [if_neg (by omega), if_neg (by omega), if_neg (by omega), if_neg (by omega), if_neg (by omega)]
  unfold writeObject
  rw [bytes]
  dsimp only
  rcases dma with ⟨low, high⟩ | ⟨low, high⟩
  · have number : numberCommand .host idx s (ofBytesLE data) = dmaWrite idx s (ofBytesLE data) := by
      unfold numberCommand
      simp only [show idx / 256 = 0x2A by omega]
    have status : isStatus idx = false := by
      unfold isStatus
      simp
      omega
    have comm : isComm idx = false := by
      unfold isComm
      simp
      omega
    rw [number]
    split
    next f found =>
      split
      · rfl
      · exact dmaWrite_clock (by omega) found l
    next =>
      rw [status, if_neg Bool.false_ne_true, comm, if_neg Bool.false_ne_true]
      have only := stageWrite_onlyGroups idx s data l
      unfold OnlyGroups at only
      rw [only]
      rfl
  · have number : numberCommand .host idx s (ofBytesLE data) = none := by
      unfold numberCommand
      simp only [show idx / 256 = 0x3A by omega]
    have status : isStatus idx = true := by
      unfold isStatus
      simp
      omega
    rw [number]
    dsimp only
    rw [status, if_pos rfl]
    unfold statusWrite
    split
    · rfl
    · split
      · rfl
      · unfold clearStatus
        simp only [show idx / 256 = 0x3A by omega]
        unfold clearDma
        split <;> rfl

theorem dmaSpaceWrite_clock (e : Nat × Word) (l : Live) : (dmaSpaceWrite e l).clock = l.clock := by
  unfold dmaSpaceWrite
  split
  next idx s data _ =>
    split
    next allowed =>
      rw [Bool.and_eq_true, Bool.and_eq_true] at allowed
      exact dmaObject_clock allowed.1.2 s data l
    · rfl
  · rfl

/-! ### What the closing TCLK settles -/

theorem sendOutLinks_offEngines (l : Live) : (sendOutLinks l).offEngines = l.offEngines := by
  unfold sendOutLinks
  refine forAll_offEngines (fun c m => ?_) _ l
  unfold outLinks
  dsimp only
  split
  · exact forAll_offEngines (fun e m => sendLink_offEngines c none _ m) _ m
  · rfl

/-- What the closing TCLK leaves: the clock, and the memory where no DMA write waits. -/
theorem closeTclk_keeps (l : Live) : (closeTclk l).clock = l.clock ∧ (l.dmaPosted = [] → (closeTclk l).mem = l.mem) := by
  have step {α : Type} (read : Live → α) (engines : ∀ a b : Live, b.offEngines = a.offEngines → read b = read a)
      (pe : ∀ (m : Live) e f, read (m.updPe e f) = read m) (seq : ∀ (m : Live) s x, read (m.setSeq s x) = read m)
      (trip : ∀ (m : Live) i x, read (m.setTrip i x) = read m) (irq : ∀ (m : Live) g x, read (m.setIrqGroup g x) = read m) :
      read (closeTclk l) = read (dmaSpaceWrites l) := by
    unfold closeTclk
    have run : read (forAll trackMask (List.range 16) (forAll passBegin (List.range 4) (sendOutLinks (forAll divEnd (List.range 8)
        (forAll peClock (List.range 16) (dmaSpaceWrites l)))))) = read (dmaSpaceWrites l) := by
      refine (forAll_keeps read (fun i m => ?_) _ _).trans ((forAll_keeps read (fun s m => ?_) _ _).trans
        ((engines _ _ (sendOutLinks_offEngines _)).trans ((forAll_keeps read (fun k m => engines _ _ (divEnd_offEngines k m)) _ _).trans
          (forAll_keeps read (fun e m => ?_) _ _))))
      · unfold trackMask
        extract_lets x c since y
        split
        · rfl
        · exact trip _ _ _
      · unfold passBegin
        dsimp only
        split
        · split
          · exact seq _ _ _
          · rfl
        · rfl
      · unfold peClock
        split
        · exact pe _ _ _
        · rfl
    dsimp only
    split
    · exact (forAll_keeps read (fun g m => irq _ _ _) _ _).trans run
    · exact run
  refine ⟨?_, fun none_ => ?_⟩
  · refine (step Live.clock (fun _ _ => clock_of_offEngines) (fun _ _ _ => rfl) (fun _ _ _ => rfl) (fun _ _ _ => rfl) (fun _ _ _ => rfl)).trans ?_
    exact forAll_clock dmaSpaceWrite_clock _ _
  · refine (step Live.mem (fun _ _ => offEngines_mem) (fun _ _ _ => rfl) (fun _ _ _ => rfl) (fun _ _ _ => rfl) (fun _ _ _ => rfl)).trans ?_
    unfold dmaSpaceWrites
    rw [none_]
    rfl

/-! ### The clocks of the next TCLK (R34, R41) -/

/-- DTIME, ATIME with its rate, what falls due by itself, and the memory. -/
def Live.ticked (l : Live) : Word × Int × (BitVec 35 × Nat × Nat) × Option Nat × Option Nat × Memory :=
  (l.time.dtime, l.time.rate, (l.time.seconds, l.time.tick, l.time.frac), l.rst.hostPulseAt, l.conf.tripDue, l.mem)

section

variable {l m : Live} (h : m.ticked = l.ticked)

include h

theorem ticked_dtime : m.time.dtime = l.time.dtime := congrArg Prod.fst h
theorem ticked_rate : m.time.rate = l.time.rate := congrArg (fun x => x.2.1) h
theorem ticked_atime : (m.time.seconds, m.time.tick, m.time.frac) = (l.time.seconds, l.time.tick, l.time.frac) := congrArg (fun x => x.2.2.1) h
theorem ticked_pulse : m.rst.hostPulseAt = l.rst.hostPulseAt := congrArg (fun x => x.2.2.2.1) h
theorem ticked_trip : m.conf.tripDue = l.conf.tripDue := congrArg (fun x => x.2.2.2.2.1) h
theorem ticked_mem : m.mem = l.mem := congrArg (fun x => x.2.2.2.2.2) h

theorem atimeFine_of_ticked : atimeFine m = atimeFine l := by
  obtain ⟨seconds, rest⟩ := Prod.mk.inj (ticked_atime h)
  obtain ⟨tick, frac⟩ := Prod.mk.inj rest
  unfold atimeFine Live.aticks
  rw [seconds, tick, frac]

end

theorem ticked_of_settled {l m : Live} (h : OnlySettled l m) : m.ticked = l.ticked := by
  unfold OnlySettled at h
  rw [h]
  rfl

theorem atimeFine_setAtime {v : Int} (l : Live) (low : 0 ≤ v) (high : v < 2 ^ 35 * 400000000 * 2 ^ 32) : (atimeFine (setAtime v l) : Int) = v := by
  have whole : ((v % ((2 ^ 35 * secondFine : Nat) : Int)).toNat : Int) = v := by
    unfold secondFine second
    rw [Int.emod_eq_of_lt low (by push_cast; omega)]
    omega
  have small : (v % ((2 ^ 35 * secondFine : Nat) : Int)).toNat < 2 ^ 35 * 400000000 * 2 ^ 32 := by omega
  unfold setAtime atimeFine Live.aticks second
  dsimp only
  generalize (v % ((2 ^ 35 * secondFine : Nat) : Int)).toNat = n at whole small
  rw [BitVec.toNat_ofNat]
  omega

theorem laneTicks_only (l : Live) : (forAll laneTick (List.range 4) l).ticked = l.ticked := by
  refine forAll_keeps Live.ticked (fun w m => ?_) _ l
  unfold laneTick
  dsimp only
  split
  · have only := laneReached_onlyEvents
    unfold Live.ticked
    simp only [(only _ _ _ _ _).keeps]
    rfl
  · split <;> rfl

theorem setAtime_keeps (v : Int) (l : Live) : (setAtime v l).time.dtime = l.time.dtime ∧ (setAtime v l).time.rate = l.time.rate ∧
    (setAtime v l).rst.hostPulseAt = l.rst.hostPulseAt ∧ (setAtime v l).conf.tripDue = l.conf.tripDue ∧ (setAtime v l).mem = l.mem :=
  ⟨rfl, rfl, rfl, rfl, rfl⟩

/-- ATIME of the next TCLK. -/
theorem advanceAtime_ticked (l : Live) : (advanceAtime l).ticked = (setAtime ((atimeFine l : Int) + 2 ^ 32 + l.time.rate) l).ticked := by
  unfold advanceAtime
  dsimp only
  split <;> rfl

theorem advance_ticked (l : Live) : (advance l).time.dtime = l.time.dtime + 1 ∧ (advance l).time.rate = l.time.rate ∧
    (domainUp .aon l = true → 0 ≤ (atimeFine l : Int) + 2 ^ 32 + l.time.rate → (atimeFine l : Int) + 2 ^ 32 + l.time.rate < 2 ^ 35 * 400000000 * 2 ^ 32 →
      (atimeFine (advance l) : Int) = (atimeFine l : Int) + 2 ^ 32 + l.time.rate) ∧
    (advance l).rst.hostPulseAt = l.rst.hostPulseAt ∧ (advance l).conf.tripDue = l.conf.tripDue ∧ (advance l).mem = l.mem := by
  have lanes : (advance l).ticked = (if domainUp .aon (advanceDtime l) then advanceAtime (advanceDtime l) else advanceDtime l).ticked := by
    unfold advance
    exact laneTicks_only (if domainUp .aon (advanceDtime l) then advanceAtime (advanceDtime l) else advanceDtime l)
  have host : (advanceDtime l).rst.hostPulseAt = l.rst.hostPulseAt := rfl
  have conf : (advanceDtime l).conf.tripDue = l.conf.tripDue := rfl
  have mem : (advanceDtime l).mem = l.mem := rfl
  have rate : (advanceDtime l).time.rate = l.time.rate := rfl
  have dtime : (advanceDtime l).time.dtime = l.time.dtime + 1 := rfl
  have fine : atimeFine (advanceDtime l) = atimeFine l := rfl
  have same : domainUp .aon (advanceDtime l) = domainUp .aon l := rfl
  rw [same] at lanes
  generalize advanceDtime l = m at lanes host conf mem rate dtime fine
  rcases Bool.eq_false_or_eq_true (domainUp .aon l) with up | down
  · rw [if_pos up, advanceAtime_ticked] at lanes
    have kept := setAtime_keeps ((atimeFine m : Int) + 2 ^ 32 + m.time.rate) m
    refine ⟨(ticked_dtime lanes).trans (kept.1.trans dtime), (ticked_rate lanes).trans (kept.2.1.trans rate), fun _ low high => ?_,
      (ticked_pulse lanes).trans (kept.2.2.1.trans host), (ticked_trip lanes).trans (kept.2.2.2.1.trans conf),
      (ticked_mem lanes).trans (kept.2.2.2.2.trans mem)⟩
    rw [atimeFine_of_ticked lanes, fine, rate]
    exact atimeFine_setAtime m low high
  · rw [if_neg (by rw [down]; decide)] at lanes
    exact ⟨(ticked_dtime lanes).trans dtime, (ticked_rate lanes).trans rate, fun up => absurd up (by rw [down]; decide),
      (ticked_pulse lanes).trans host, (ticked_trip lanes).trans conf, (ticked_mem lanes).trans mem⟩

/-! ### The new TCLK -/

theorem snapFlags_ticked (m : Nat) (l : Live) : (snapFlags m l).ticked = l.ticked := rfl

theorem deferredLive_ticked (l : Live) : (deferredLive l).ticked = l.ticked := by
  unfold deferredLive
  extract_lets snap u turn
  refine (forAll_keeps Live.ticked (f := fun p l => l.updTpdo p turn) (fun _ _ => rfl) (List.range 16) _).trans ?_
  rw [snapFlags_ticked]
  rfl

theorem takeDeferred_ticked (s : State) : (takeDeferred s).live.ticked = s.live.ticked ∧ (takeDeferred s).pending = s.pending := by
  unfold takeDeferred
  split
  · refine ⟨(ticked_of_settled (takeSnap_live _ _)).trans ?_, rfl⟩
    exact deferredLive_ticked s.live
  · exact ⟨rfl, rfl⟩

theorem errorless_keeps {r : ResetUnit} : r.errorless.held = r.held ∧ r.errorless.hostPulseAt = r.hostPulseAt := ⟨rfl, rfl⟩

/-- What falls due in the new TCLK, but for the host port's reset pulse and the trip overlay, leaves the clocks and the memory. -/
theorem openTclk_ticked {l : Live} (pulse : l.rst.hostPulseAt = none) (trip : l.conf.tripDue = none) : (openTclk l).ticked = l.ticked := by
  have raised (rise : Nat) (m : Live) : (ppsOutPulse rise m).ticked = m.ticked := by
    unfold ppsOutPulse
    dsimp only
    split
    · rfl
    · split <;> rfl
  have clock : (ppsOutClock l).ticked = l.ticked := by
    unfold ppsOutClock
    split
    · have late : (ppsOutLate l).ticked = l.ticked := by
        unfold ppsOutLate
        split
        · split
          · exact raised _ _
          · rfl
        · rfl
      rw [← late]
      unfold ppsOutAhead
      split
      · exact raised _ _
      · rfl
    · rfl
  have pulse' : (ppsOutClock l).rst.hostPulseAt = none := (ticked_pulse clock).trans pulse
  have trip' : (ppsOutClock l).conf.tripDue = none := (ticked_trip clock).trans trip
  have still : hostPulse (ppsOutClock l) = ppsOutClock l := by
    unfold hostPulse
    rw [pulse']
  unfold openTclk
  rw [still]
  unfold tripOverlay
  rw [trip']
  exact clock

theorem beginTclk_pending (s : State) : (beginTclk s).pending = s.pending := rfl

/-- Settles O50. That an empty queue ends the TCLK is the model's choice (log entry 1). -/
theorem emptyQueueEndsTclk : Obligations.EmptyQueueEndsTclk := by
  intro s empty
  have run : step s = .next (tick s) := by
    unfold step
    rw [empty]
  refine ⟨fun stopped => ?_, fun locked pulse trip => ⟨tick s, run, ?_⟩⟩
  · rw [run]
    unfold tick
    rw [stopped, if_neg Bool.false_ne_true]
  · obtain ⟨clock, mem⟩ := closeTclk_keeps s.live
    have time := clock_time clock
    have conf := clock_conf clock
    have rst := clock_errorless clock
    have held : domainUp .aon (closeTclk s.live) = domainUp .aon s.live := by
      unfold domainUp
      rw [← errorless_keeps.1, rst, errorless_keeps.1]
    have waits : (closeTclk s.live).rst.hostPulseAt = s.live.rst.hostPulseAt := by
      rw [← errorless_keeps.2, rst, errorless_keeps.2]
    have fine : atimeFine (closeTclk s.live) = atimeFine s.live := by
      unfold atimeFine Live.aticks
      rw [time]
    obtain ⟨dtime, rate, atime, pulse', trip', mem'⟩ := advance_ticked (closeTclk s.live)
    rw [held, fine, time] at atime
    obtain ⟨deferred, pending⟩ := takeDeferred_ticked (beginTclk (s.apply fun l => advance (closeTclk l)))
    have begun : (takeDeferred (beginTclk (s.apply fun l => advance (closeTclk l)))).live.ticked = (advance (closeTclk s.live)).ticked :=
      deferred.trans (ticked_of_settled (apply_only (fun l => advance (closeTclk l)) s))
    have opened := openTclk_ticked ((ticked_pulse begun).trans (pulse'.trans (waits.trans pulse)))
      ((ticked_trip begun).trans (trip'.trans ((congrArg ConfUnit.tripDue conf).trans trip)))
    have ticked : (tick s).live.ticked = (advance (closeTclk s.live)).ticked := by
      unfold tick
      rw [if_pos locked]
      exact ((ticked_of_settled (apply_only _ _)).trans opened).trans begun
    refine ⟨?_, ?_, fun up low high => ?_, fun none_ a => ?_, ?_⟩
    · rw [ticked_dtime ticked, dtime, time]
    · rw [ticked_rate ticked, rate, time]
    · rw [atimeFine_of_ticked ticked]
      exact atime up low high
    · have same : (tick s).live.mem = s.live.mem := (ticked_mem ticked).trans (mem'.trans (mem none_))
      rw [same]
    · unfold tick
      rw [if_pos locked, apply_pending, pending, beginTclk_pending, apply_pending, empty]

end Sys2Proof.Machine

/-! The steps of the start-up (R71, R398, R447, R454). -/

namespace Sys2Proof.Machine

open Sys2Proof

/-! ### The self-test (R454) -/

theorem dueEmcy_keeps (code src payload : Nat) (l : Live) : (dueEmcy code src payload l).rst = { l.rst with dueEmcy := (dueEmcy code src payload l).rst.dueEmcy } ∧
    (dueEmcy code src payload l).log = l.log ∧ (dueEmcy code src payload l).mem = l.mem := ⟨rfl, rfl, rfl⟩

theorem writeRecord_testHold (src kind payload : Nat) (l : Live) : (writeRecord src kind payload l).log.testHold = l.log.testHold := by
  have shown (g : LogUnit) : g.testHold = g.silent.testHold := rfl
  have log := logReports_iff.mp ⟨(writeRecordAt_parts l.now src kind payload l).log, (writeRecordAt_parts l.now src kind payload l).logStatus⟩
  rw [shown, shown l.log]
  exact congrArg LogUnit.testHold log

theorem selfTestRun_runs {l : Live} (up : coreUp l = true) (due : l.rst.selfTestDue = true) (failed : Nat) :
    (selfTestRun failed l).rst.selfTest = BitVec.ofNat 8 (0x80 + failed) ∧ (selfTestRun failed l).rst.selfTestDue = false ∧
    (selfTestRun failed l).rst.status.getLsbD 4 = (l.rst.status.getLsbD 4 || decide (failed % 8 ≠ 0)) ∧
    (selfTestRun failed l).log.testHold = false ∧ (selfTestRun failed l).mem = l.mem := by
  obtain ⟨m, src, kind, pay, effect, test, past, status, hold, mem⟩ : ∃ (m : Live) (src kind pay : Nat),
      selfTestRun failed l = (if failed = 0 then writeRecord src kind pay m else dueEmcy 0xFF13 0x0001 pay (writeRecord src kind pay m)) ∧
      m.rst.selfTest = BitVec.ofNat 8 (0x80 + failed) ∧ m.rst.selfTestDue = false ∧
      m.rst.status.getLsbD 4 = (l.rst.status.getLsbD 4 || decide (failed % 8 ≠ 0)) ∧ m.log.testHold = false ∧ m.mem = l.mem := by
    unfold selfTestRun
    rw [if_neg (by rw [up, due]; decide)]
    refine ⟨_, _, _, _, rfl, rfl, rfl, ?_, rfl, rfl⟩
    show (if failed % 8 = 0 then l.rst.status else setBit l.rst.status 4).getLsbD 4 = _
    split
    next zero => simp [zero]
    next some_ => rw [setBit_same _ (by decide), decide_eq_true some_, Bool.or_true]
  have rst := (writeRecord_keeps src kind pay m)
  have kept : (writeRecord src kind pay m).rst = m.rst ∧ (writeRecord src kind pay m).mem = m.mem := by simp
  have held := (writeRecord_testHold src kind pay m).trans hold
  rw [effect]
  split
  · rw [kept.1, kept.2]
    exact ⟨test, past, status, held, mem⟩
  · obtain ⟨rst', log, mem'⟩ := dueEmcy_keeps 0xFF13 0x0001 pay (writeRecord src kind pay m)
    rw [rst', log, mem', kept.1, kept.2]
    exact ⟨test, past, status, held, mem⟩

/-! ### The start-up commit keeps the requests for snapshots (R447) -/

/-- The snapshot unit, but for the instant of the next periodic one. -/
def Live.asked (l : Live) : SnapUnit := { l.snap with nextPeriodic := 0 }

theorem asked_of_ruled {l m : Live} (h : m.ruled = l.ruled) : m.asked = l.asked := ruled_snap h

/-- A fold over an option that keeps a reading of what it holds. -/
theorem foldl_reads {α β γ : Type} {read : α → γ} {c : γ} {f : Option α → β → Option α}
    (step : ∀ o x, (∀ u, o = some u → read u = c) → ∀ u, f o x = some u → read u = c) :
    ∀ (xs : List β) (o : Option α), (∀ u, o = some u → read u = c) → ∀ u, xs.foldl f o = some u → read u = c
  | [], _, h => h
  | x :: xs, o, h => foldl_reads step xs (f o x) (step o x h)

theorem takeRecord_asked {c : SnapUnit} (rank : Nat) (rs : List ImageRec) (o : Option Live) (r : ImageRec)
    (h : ∀ u, o = some u → u.asked = c) (u : Live) (taken : takeRecord rank rs o r = some u) : u.asked = c := by
  unfold takeRecord at taken
  dsimp only at taken
  split at taken
  · exact h u taken
  · obtain ⟨v, found, taken⟩ := Option.bind_eq_some_iff.mp taken
    rw [← h v found]
    split at taken
    · rw [← Option.some.inj taken]
      rfl
    · split at taken
      · rw [← Option.some.inj taken]
      · obtain ⟨x, -, taken⟩ := Option.map_eq_some_iff.mp taken
        rw [← taken]
        rfl

theorem takeMember_asked {c : SnapUnit} (o : Option Live) (r : ImageRec) (h : ∀ u, o = some u → u.asked = c) (u : Live)
    (taken : takeMember o r = some u) : u.asked = c := by
  unfold takeMember at taken
  obtain ⟨v, found, taken⟩ := Option.bind_eq_some_iff.mp taken
  rw [← h v found]
  split at taken
  · exact absurd taken (by simp)
  · dsimp only at taken
    split at taken
    · rw [← Option.some.inj taken]
      rfl
    · exact absurd taken (by simp)

theorem fromCopy_asked {l u : Live} {b : List Byte} (taken : fromCopy l b = some u) : u.asked = l.asked := by
  unfold fromCopy at taken
  split at taken
  · exact absurd taken (by simp)
  · dsimp only at taken
    split at taken
    · exact absurd taken (by simp)
    next v objects =>
      split at taken
      · refine foldl_reads (read := Live.asked) takeMember_asked _ _ (fun w found => ?_) u taken
        rw [← Option.some.inj found]
        unfold takeObjects at objects
        refine foldl_reads (takeRecord_asked 2 _) _ _ (foldl_reads (takeRecord_asked 1 _) _ _ (foldl_reads (takeRecord_asked 0 _) _ _ fun x base => ?_)) v objects
        rw [← Option.some.inj base]
        rfl
      · exact absurd taken (by simp)

theorem tryCopies_asked (l : Live) : ∀ (cs : List Nat) (refused : Bool), (tryCopies l cs refused).live.asked = l.asked
  | [], _ => rfl
  | c :: r, refused => by
    unfold tryCopies
    split
    next u taken => exact fromCopy_asked taken
    · exact tryCopies_asked l r true

theorem startPlan_asked (l : Live) : (startPlan l).live.asked = l.asked := tryCopies_asked _ _ _

theorem startConf_asked (p : StartPlan) (l : Live) : (startConf p l).asked = l.asked := by
  unfold startConf
  extract_lets cold c c' a
  split <;> rfl

theorem startOverlay_asked (l : Live) : (startOverlay l).asked = l.asked := by
  unfold startOverlay
  dsimp only
  split
  · rfl
  · split
    · exact (asked_of_ruled (writeRecord_ruled _ _ _ _)).trans rfl
    · exact (asked_of_ruled (writeRecord_ruled _ _ _ _)).trans rfl

theorem calibrate_asked (l : Live) : (calibrate l).asked = l.asked := by
  unfold calibrate
  split
  · rfl
  · extract_lets stop m
    have loop : m.asked = l.asked := forAll_keeps (f := stop) Live.asked (fun s m => rfl) (List.range 4) l
    clear_value m
    exact loop

theorem insertImage_asked (l : Live) : (insertImage l).asked = l.asked := by
  unfold insertImage
  dsimp only
  split
  · rfl
  · split
    · refine forAll_keeps Live.asked (fun i m => ?_) _ _
      rfl
    · exact (asked_of_ruled (writeRecord_ruled _ _ _ _)).trans rfl

theorem loadShadows_asked (l : Live) : (loadShadows l).asked = l.asked := by
  unfold loadShadows
  extract_lets ld
  exact forAll_keeps (f := fun u l => l.updPair u (ld l u)) Live.asked (fun u m => rfl) (List.range 24) l

theorem peRelease_asked (e : Nat) (l : Live) : (peRelease e l).asked = l.asked := by
  unfold peRelease
  dsimp only
  split <;> rfl

theorem dmaAutostart_asked (l : Live) : (dmaAutostart l).asked = l.asked := by
  unfold dmaAutostart
  refine forAll_keeps (f := fun c l => if l.flag (0x2A00 + c) 4 then dmaBegin c l else l) Live.asked (fun c m => ?_) (List.range 32) l
  split <;> rfl

theorem startUnits_asked (old l : Live) : (startUnits old l).asked = l.asked := by
  unfold startUnits
  extract_lets ks run hooked loaded
  have hooks : hooked.asked = l.asked := (asked_of_ruled (commitHooks_ruled _ _ _)).trans (forAll_keeps (f := run) Live.asked (fun k m => rfl) _ l)
  have units : loaded.asked = l.asked := by
    rw [← hooks]
    unfold loaded
    rw [insertImage_asked, dmaAutostart_asked, forAll_keeps (f := peRelease) Live.asked peRelease_asked, loadShadows_asked]
  split
  · exact (calibrate_asked _).trans units
  · exact units

theorem startUpCommit_commits {l : Live} (up : coreUp l = true) (first : l.rst.committed = false) (tested : l.rst.selfTestDue = false) :
    (startUpCommit l).rst.committed = true ∧ (startUpCommit l).rst.wipePending = false ∧ (startUpCommit l).rst.wipeStarted = false ∧
    (startUpCommit l).asked = l.asked := by
  have effect : startUpCommit l = { startUnits l (startOverlay (startConf (startPlan l) (startPlan l).live)) with
      rst := { (startUnits l (startOverlay (startConf (startPlan l) (startPlan l).live))).rst with committed := true, wipePending := false, wipeStarted := false } } := by
    unfold startUpCommit
    exact if_neg (by rw [up, first, tested]; decide)
  have asked : (startUnits l (startOverlay (startConf (startPlan l) (startPlan l).live))).asked = l.asked := by
    rw [startUnits_asked, startOverlay_asked, startConf_asked, startPlan_asked]
  generalize startUnits l (startOverlay (startConf (startPlan l) (startPlan l).live)) = m at effect asked
  rw [effect]
  exact ⟨rfl, rfl, rfl, asked⟩

/-! ### The first snapshot (R71) -/

/-- A snapshot is in progress, or no copy is under way. -/
def Fillable (s : State) : Prop :=
  s.live.snap.copying = false ∧ s.live.snap.waiting = false ∨ s.filling.isSome = true ∧ s.live.snap.copying = true ∧ s.live.snap.taken = true

theorem takeSnap_takes (pre : Live) (s : State) : (takeSnap pre s).filling.isSome = true ∧ (takeSnap pre s).live.snap.copying = true ∧
    (takeSnap pre s).live.snap.taken = true := ⟨rfl, rfl, rfl⟩

/-- Serving a request keeps a snapshot in progress, and takes one where no copy is under way. -/
theorem settleSnap_fillable (pre : Live) {s : State} (h : Fillable s) : Fillable (settleSnap pre s) ∧
    (s.live.snap.want = true → (settleSnap pre s).filling.isSome = true ∧ (settleSnap pre s).live.snap.taken = true) := by
  unfold settleSnap
  rcases h with ⟨idle, free⟩ | ⟨filling, copying, taken⟩
  · split
    next unasked => exact ⟨.inl ⟨idle, free⟩, fun asked => absurd asked (by simpa using unasked)⟩
    · rw [if_neg (by unfold snapNow; simp [idle]), if_neg (by unfold snapDeferred snapNow; simp [idle, free])]
      obtain ⟨fills, copies, takes⟩ := takeSnap_takes pre s
      exact ⟨.inr ⟨fills, copies, takes⟩, fun _ => ⟨fills, takes⟩⟩
  · split
    · exact ⟨.inr ⟨filling, copying, taken⟩, fun _ => ⟨filling, taken⟩⟩
    · split
      · exact ⟨.inr ⟨filling, copying, taken⟩, fun _ => ⟨filling, taken⟩⟩
      next older =>
        rw [if_pos (by unfold snapDeferred; simp [copying, older])]
        exact ⟨.inr ⟨filling, copying, taken⟩, fun _ => ⟨filling, taken⟩⟩

/-- The device right before the requests for snapshots are served. -/
def beforeSnap (f : Live → Live) (s : State) : State := settleHold (wipeBanks { s with live := settle s.live (f s.live) })

theorem beforeSnap_snap (f : Live → Live) (s : State) :
    (beforeSnap f s).live.snap = { (f s.live).snap with wipe := false, hold := none, status := (beforeSnap f s).live.snap.status } := by
  have settled : (settle s.live (f s.live)).snap = (f s.live).snap := (settle_only _ _).keeps.2.1
  unfold beforeSnap
  rw [settleHold_snap, wipeBanks_snap, settled]

theorem beforeSnap_filling (f : Live → Live) {s : State} (still : (f s.live).snap.wipe = false) : (beforeSnap f s).filling = s.filling := by
  have settled : (settle s.live (f s.live)).snap = (f s.live).snap := (settle_only _ _).keeps.2.1
  have held (x : State) : (settleHold x).filling = x.filling := by
    unfold settleHold
    dsimp only
    split <;> rfl
  unfold beforeSnap
  rw [held]
  unfold wipeBanks
  rw [if_neg (by rw [show ({ s with live := settle s.live (f s.live) } : State).live.snap = _ from settled, still]; decide)]

/-- The start-up commit is followed by the first snapshot (R71, R447). -/
theorem startUp_snapshot {s : State} {f : Live → Live} (asked : (f s.live).asked = s.live.asked) (idle : s.live.snap.copying = false)
    (free : s.live.snap.waiting = false) :
    ((beginTclk (s.apply f)).apply wantSnapshot).live.snap.taken = true ∧ ((beginTclk (s.apply f)).apply wantSnapshot).filling.isSome = true := by
  have idle' : (f s.live).snap.copying = false := (congrArg SnapUnit.copying asked).trans idle
  have free' : (f s.live).snap.waiting = false := (congrArg SnapUnit.waiting asked).trans free
  have first : Fillable (s.apply f) := by
    have snap := beforeSnap_snap f s
    exact (settleSnap_fillable s.start (s := beforeSnap f s) (.inl ⟨by rw [snap]; exact idle', by rw [snap]; exact free'⟩)).1
  obtain ⟨-, -, unwiped⟩ := apply_settled f s
  have second : Fillable (beforeSnap wantSnapshot (beginTclk (s.apply f))) := by
    have snap := beforeSnap_snap wantSnapshot (beginTclk (s.apply f))
    have filling := beforeSnap_filling wantSnapshot (s := beginTclk (s.apply f)) unwiped
    unfold Fillable
    rw [snap, filling]
    exact first
  have want : (beforeSnap wantSnapshot (beginTclk (s.apply f))).live.snap.want = true := by
    rw [beforeSnap_snap wantSnapshot (beginTclk (s.apply f))]
    rfl
  obtain ⟨fills, takes⟩ := (settleSnap_fillable (beginTclk (s.apply f)).start second).2 want
  exact ⟨takes, fills⟩

end Sys2Proof.Machine

/-! PRE-OPERATIONAL with its boot-up messages, and what O45 states (R398, R447). -/

namespace Sys2Proof.Machine

open Sys2Proof

/-- The NMT state and its options, the reset unit and the memory. -/
def Live.booted (l : Live) : Byte × BusChoice × ResetUnit × Memory := (l.net.nmt, l.net.choice, l.rst, l.mem)

theorem booted_of_reports {l m : Live} (h : OnlyReports l m) (k : PartReports l m) : m.booted = l.booted := by
  have net := netReports_iff.mp k.net
  have nmt (n : NetUnit) : n.nmt = n.silent.nmt := rfl
  have choice (n : NetUnit) : n.choice = n.silent.choice := rfl
  unfold Live.booted
  rw [nmt, choice, net, ← nmt, ← choice]
  simp only [h.keeps]

theorem emcy_booted (code src payload : Nat) (l : Live) : (emcy code src payload l).booted = l.booted :=
  booted_of_reports (emcy_reports _ _ _ _) (emcy_parts _ _ _ _)

theorem reportJournal_booted (src kind payload : Nat) (l : Live) : (reportJournal src kind payload l).booted = l.booted :=
  booted_of_reports (reportJournal_only _ _ _ _) (reportJournal_parts _ _ _ _)

theorem bootUp_booted (b : Nat) (l : Live) : (bootUp b l).booted = l.booted := by
  unfold bootUp
  split <;> rfl

/-- The EMCYs that were due are sent and forgotten; the frames follow those sent before. -/
theorem sendDue_sends (l : Live) : (sendDue l).booted = (l.net.nmt, l.net.choice, { l.rst with dueEmcy := [] }, l.mem) ∧ Extends l (sendDue l) := by
  let one (e : Nat × Nat × Nat) (l : Live) : Live := emcy e.1 e.2.1 e.2.2 l
  unfold sendDue
  constructor
  · exact (forAll_keeps (f := one) Live.booted (fun e m => emcy_booted _ _ _ m) l.rst.dueEmcy _).trans rfl
  · exact Extends.trans (b := { l with rst := { l.rst with dueEmcy := [] } }) (extends_of_buses rfl)
      (forAll_rel (f := one) Extends.refl (fun _ _ _ => Extends.trans) (fun e m => emcy_extends _ _ _ m) l.rst.dueEmcy _)

theorem lifeReport_reports (l : Live) : (lifeReport l).net.nmt = l.net.nmt ∧ (lifeReport l).net.choice = l.net.choice ∧
    (lifeReport l).rst.starting = l.rst.starting ∧ (lifeReport l).rst.dueEmcy = l.rst.dueEmcy ∧ (lifeReport l).rst.lifeRecord = none ∧
    (lifeReport l).mem = l.mem ∧ Extends l (lifeReport l) := by
  unfold lifeReport
  split
  next none_ => exact ⟨rfl, rfl, rfl, rfl, none_, rfl, Extends.refl l⟩
  next new old _ =>
    dsimp only
    have kept (m : Live) := reportJournal_booted 0xF040 0x74 (new.toNat + old.toNat * 256) m
    have sent (m : Live) := reportJournal_extends 0xF040 0x74 (new.toNat + old.toNat * 256) m
    refine ⟨congrArg (fun x => x.1) (kept _), congrArg (fun x => x.2.1) (kept _), ?_, ?_, ?_, congrArg (fun x => x.2.2.2) (kept _),
      Extends.trans (extends_of_buses rfl) (sent _)⟩
    · exact congrArg (fun x => x.2.2.1.starting) (kept _)
    · exact congrArg (fun x => x.2.2.1.dueEmcy) (kept _)
    · exact congrArg (fun x => x.2.2.1.lifeRecord) (kept _)

/-- The boot-up messages of both buses. -/
theorem bootUps_send (l : Live) {b : Nat} (low : b < 2) (conf : busConfigured l b = true) :
    ((forAll bootUp [0, 1] l).bus b).tx = (l.bus b).tx ++ [heartbeatFrame l b 0] := by
  have own (m : Live) (b : Nat) (conf : busConfigured m b = true) : ((bootUp b m).bus b).tx = (m.bus b).tx ++ [heartbeatFrame m b 0] := by
    unfold bootUp
    rw [if_pos conf, updBus_same]
    unfold transmit
    rw [updBus_same]
  have other (m : Live) {a b : Nat} (ne : b ≠ a) : (bootUp a m).bus b = m.bus b := by
    unfold bootUp
    split
    · unfold transmit
      rw [updBus_ne _ _ ne, updBus_ne _ _ ne]
    · rfl
  unfold forAll forAll forAll
  rcases (by omega : b = 0 ∨ b = 1) with rfl | rfl
  · rw [other _ (by decide)]
    exact own l 0 conf
  · have same := other l (a := 0) (b := 1) (by decide)
    rw [own _ 1 (by unfold busConfigured at conf ⊢; rw [same]; exact conf), same]
    unfold heartbeatFrame
    rw [same]

/-- What a bus keeps when a change of the NMT state flags it. -/
theorem nmtTail_bus {α : Type} (read : Bus → α) (flagged : ∀ x : Bus, read { x with status := setBit x.status 2 } = read x)
    (new old : Byte) (src cs : Nat) (l : Live) (b : Nat) : read ((nmtTail new old src cs l).bus b) = read (l.bus b) := by
  let flag (c : Nat) (m : Live) : Live := (noteBus c 2 m).updBus c fun x => { x with status := setBit x.status 2 }
  have one (c : Nat) (m : Live) : read ((flag c m).bus b) = read (m.bus b) := by
    rcases Decidable.em (b = c) with rfl | other
    · show read (((noteBus b 2 m).updBus b _).bus b) = _
      rw [updBus_same]
      exact flagged _
    · show read (((noteBus c 2 m).updBus c _).bus b) = _
      rw [updBus_ne _ _ other]
      rfl
  have buses := forAll_keeps (f := flag) (fun m => read (m.bus b)) one [0, 1] l
  have recorded (m : Live) : read ((nmtRecord src cs new old m).bus b) = read (m.bus b) := by
    unfold nmtRecord Live.bus
    rw [writeRecord_only]
  unfold nmtTail
  extract_lets m fresh m'
  have flagged_ : read (m.bus b) = read (l.bus b) := buses
  rw [recorded]
  unfold m'
  clear_value m
  split
  · exact (forAll_keeps (f := fun p l => l.updTpdo p fresh) (fun m => read (m.bus b)) (fun _ _ => rfl) (List.range 16) m).trans flagged_
  · exact flagged_

theorem nmtNet_leaves (new : Byte) (l : Live) : (nmtNet new l).choice = l.net.choice ∧ (nmtNet new l).buses = l.net.buses := by
  unfold nmtNet
  dsimp only
  split <;> split <;> exact ⟨rfl, rfl⟩

/-- A change of the NMT state from one that is not OPERATIONAL sends no frame. -/
theorem nmtGo_leaves {new : Byte} {l : Live} (differs : l.net.nmt ≠ new) (still : l.net.nmt ≠ nmtOp) (src cs b : Nat) :
    ((nmtGo new src cs l).bus b).tx = (l.bus b).tx ∧ ((nmtGo new src cs l).bus b).nodeId = (l.bus b).nodeId ∧
    (nmtGo new src cs l).net.choice = l.net.choice ∧ (nmtGo new src cs l).rst = l.rst := by
  obtain ⟨choice, buses⟩ := nmtNet_leaves new l
  rw [nmtGo_eq differs, leaveOperational_other still]
  refine ⟨?_, ?_, ?_, ?_⟩
  · rw [nmtTail_bus (fun x => x.tx) (fun _ => rfl)]
    unfold Live.bus
    rw [buses]
  · rw [nmtTail_bus (fun x => x.nodeId) (fun _ => rfl)]
    unfold Live.bus
    rw [buses]
  · rw [nmtTail_read (fun m => m.net.choice) (fun _ _ _ => rfl) (fun _ _ _ => rfl) (fun _ _ _ _ _ => by simp [nmtRecord])]
    exact choice
  · rw [nmtTail_read Live.rst (fun _ _ _ => rfl) (fun _ _ _ => rfl) (fun _ _ _ _ _ => by simp [nmtRecord])]

/-- The device enters PRE-OPERATIONAL and stays there, where it does not start by itself (R398). -/
theorem enterPreOp_enters {l : Live} (held : l.rst.held = []) (committed : l.rst.committed = true) (init : l.net.nmt = 0)
    (unset : l.net.choice.selfStart = false) :
    (enterPreOp l).net.nmt = nmtPre ∧ (enterPreOp l).rst.starting = false ∧ (enterPreOp l).rst.dueEmcy = [] ∧ (enterPreOp l).rst.lifeRecord = none ∧
    (∀ b, b < 2 → busConfigured l b = true → ∃ r, ((enterPreOp l).bus b).tx = (l.bus b).tx ++ heartbeatFrame l b 0 :: r) ∧
    (enterPreOp l).mem = l.mem := by
  obtain ⟨m, effect, nmt, choice, rst, mem, bus⟩ : ∃ m : Live, enterPreOp l =
        (if (lifeReport (sendDue (forAll bootUp [0, 1] m))).net.choice.selfStart && mayOperate (lifeReport (sendDue (forAll bootUp [0, 1] m))) then
          nmtGo nmtOp 0 0 (lifeReport (sendDue (forAll bootUp [0, 1] m))) else lifeReport (sendDue (forAll bootUp [0, 1] m))) ∧
      m.net.nmt = nmtPre ∧ m.net.choice = l.net.choice ∧ m.rst.starting = false ∧ m.mem = l.mem ∧
      ∀ b, (m.bus b).tx = (l.bus b).tx ∧ (m.bus b).nodeId = (l.bus b).nodeId := by
    have differs : ({ l with rst := { l.rst with starting := false } } : Live).net.nmt ≠ nmtPre := by
      show l.net.nmt ≠ nmtPre
      rw [init]
      decide
    have still : ({ l with rst := { l.rst with starting := false } } : Live).net.nmt ≠ nmtOp := by
      show l.net.nmt ≠ nmtOp
      rw [init]
      decide
    have go (b : Nat) := nmtGo_leaves differs still 0 0 b
    refine ⟨nmtGo nmtPre 0 0 { l with rst := { l.rst with starting := false } }, ?_, nmtGo_nmt differs 0 0, (go 0).2.2.1, ?_, nmtGo_mem differs 0 0,
      fun b => ⟨(go b).1, (go b).2.1⟩⟩
    · unfold enterPreOp
      exact if_neg (by rw [held, committed, init]; decide)
    · rw [(go 0).2.2.2]
  have boots : (forAll bootUp [0, 1] m).booted = m.booted := forAll_keeps Live.booted bootUp_booted [0, 1] m
  obtain ⟨due, sends⟩ := sendDue_sends (forAll bootUp [0, 1] m)
  obtain ⟨nmt', choice', starting, dueEmcy, lifeRecord, mem', reports⟩ := lifeReport_reports (sendDue (forAll bootUp [0, 1] m))
  have messages (b : Nat) (low : b < 2) := bootUps_send m low
  generalize forAll bootUp [0, 1] m = x at effect boots due sends nmt' choice' starting dueEmcy lifeRecord mem' reports messages
  have sent_nmt : (sendDue x).net.nmt = x.net.nmt := congrArg (fun y => y.1) due
  have sent_choice : (sendDue x).net.choice = x.net.choice := congrArg (fun y => y.2.1) due
  have sent_rst : (sendDue x).rst = { x.rst with dueEmcy := [] } := congrArg (fun y => y.2.2.1) due
  have sent_mem : (sendDue x).mem = x.mem := congrArg (fun y => y.2.2.2) due
  have boot_nmt : x.net.nmt = m.net.nmt := congrArg (fun y => y.1) boots
  have boot_choice : x.net.choice = m.net.choice := congrArg (fun y => y.2.1) boots
  have boot_rst : x.rst = m.rst := congrArg (fun y => y.2.2.1) boots
  have boot_mem : x.mem = m.mem := congrArg (fun y => y.2.2.2) boots
  rw [if_neg (by rw [choice', sent_choice, boot_choice, choice, unset]; simp)] at effect
  rw [effect]
  refine ⟨?_, ?_, ?_, lifeRecord, fun b low conf => ?_, ?_⟩
  · rw [nmt', sent_nmt, boot_nmt, nmt]
  · rw [starting, sent_rst]
    exact (congrArg ResetUnit.starting boot_rst).trans rst
  · rw [dueEmcy, sent_rst]
  · obtain ⟨tx, node⟩ := bus b
    obtain ⟨⟨r, last⟩, -⟩ := (sends.trans reports) b
    refine ⟨r, ?_⟩
    have frame : heartbeatFrame m b 0 = heartbeatFrame l b 0 := by
      unfold heartbeatFrame
      rw [node]
    rw [last, messages b low (by unfold busConfigured at conf ⊢; rw [node]; exact conf), tx, frame, List.append_assoc]
    rfl
  · rw [mem', sent_mem, boot_mem, mem]

/-- Settles O45. That the first snapshot is taken right after the start-up commit is the model's choice (log entry 59). -/
theorem startUpComplete : Obligations.StartUpComplete := by
  refine ⟨fun s failed up due => ?_, fun s up first tested idle free => ?_, fun s held committed init unset => ?_⟩
  · obtain ⟨test, past, status, hold, mem⟩ := selfTestRun_runs up due failed.toNat
    refine completes_apply (f := selfTestRun failed.toNat) rfl ⟨?_, ?_, ?_, ?_, sameMemory_apply mem⟩
    · rw [apply_rst, test]
    · rw [apply_rst, past]
    · rw [apply_rst, status]
    · simp only [apply_parts_keep, hold]
  · obtain ⟨done_, pending, started, asked⟩ := startUpCommit_commits up first tested
    obtain ⟨taken, filling⟩ := startUp_snapshot asked idle free
    refine ⟨(beginTclk (s.apply startUpCommit)).apply wantSnapshot, ?_, ?_, ?_, ?_, taken, filling⟩
    · show execStartUpCommit s = _
      unfold execStartUpCommit
      rw [if_pos (by rw [up, first, tested]; decide)]
      rfl
    · rw [apply_rst]
      show (s.apply startUpCommit).live.rst.committed = true
      rw [apply_rst, done_]
    · rw [apply_rst]
      show (s.apply startUpCommit).live.rst.wipePending = false
      rw [apply_rst, pending]
    · rw [apply_rst]
      show (s.apply startUpCommit).live.rst.wipeStarted = false
      rw [apply_rst, started]
  · obtain ⟨nmt, starting, dueEmcy, lifeRecord, sends, mem⟩ := enterPreOp_enters held committed init unset
    refine completes_apply (f := enterPreOp) rfl ⟨?_, ?_, ?_, ?_, fun b conf => sends_apply (sends b b.isLt conf), sameMemory_apply mem⟩
    · simp only [apply_parts_keep, nmt]
    · rw [apply_rst, starting]
    · rw [apply_rst, dueEmcy]
    · rw [apply_rst, lifeRecord]

end Sys2Proof.Machine

/-! The frames of the microengines (R129, R136): a routine whose slot lies in another cluster. -/

namespace Sys2Proof.Machine

open Sys2Proof

/-- A committed routine of slot 64. -/
def strayRoutine : Routine :=
  { slot := 64, addr := 0, lastAddr := 0, req := 0, lnkd := 0, capa := 0, capb := 0, start := 0, x := [], z := false, n := false, c := false,
    ah := false, div0 := false, wtoExpired := false, committed := true, used := 0, budget := 0, staged := {}, protect := false, restart := false,
    first := false, stall := none, swRead := 0, result := 0 }

/-- Cluster 0, enabled, runs a routine of slot 64, whose channel belongs to cluster 1 and has a start due; cluster 1 keeps the turn of its
slot 0. -/
def strayed : State :=
  { live := { rst := { held := [] }, conf := { objs := [(key 0x2100 1, some (.num 1))] },
              channels := [(64, { en := true, startDue := some false })],
              clusters := [(0, { state := 1, run := some strayRoutine }), (1, { kept := some 0 })] } }

theorem strayed_keeps : (strayed.live.cluster 1).kept = some 0 := rfl

/-- The end of the routine starts its channel, and so cluster 1 forgets the turn. -/
theorem strayed_forgets : ((onRun 0 (fun _ => endRun 0 0) strayed.live).cluster 1).kept = none := by
  decide

/-- Refutes O56, by its clause on NEXT_END: the statement bounds no routine's slot, and the end of a routine of slot 64 on cluster 0 starts
channel 64, so that cluster 1 forgets a turn it keeps. -/
theorem not_engineFrames : ¬ Obligations.EngineFrames := by
  intro h
  obtain ⟨-, effects, -⟩ := h
  have others := (effects 0 0 0 false 0 0 0 0 (.nextEnd 0 0) (by simp)).2
  have run : exec (.nextEnd 0 0) strayed = .next (strayed.apply (onRun 0 fun _ => endRun 0 0)) := rfl
  have same := congrArg Cluster.kept (others _ _ run 1 (by decide))
  rw [apply_cluster, strayed_forgets, strayed_keeps] at same
  exact absurd same (by simp)

end Sys2Proof.Machine

/-! The flow of a routine (R129, R130, R136, R140–R143, R156): what effects that become visible leave of the engines. -/

namespace Sys2Proof.Machine

open Sys2Proof

/-! ### What visible effects leave of clusters and channels -/

/-- A channel without what effects act on beside its words and flags: matches, mode, output, FIFO, requests, links and status. -/
def Channel.core (x : Channel) : Channel :=
  { x.lessPin with ma := {}, mb := {}, mode := {}, fifo := [], fifoLast := 0, req := 0, fresh := 0, lnkd := 0, linkSampled := false, cstat := 0,
                   linkCnt := 0, thread := .disabled, dreq := false }

theorem core_of_lessPin {x y : Channel} (h : x.lessPin = y.lessPin) : x.core = y.core := by
  unfold Channel.core
  rw [h]

/-- The clusters, and each channel's core. -/
def Live.cores (l : Live) : SMap Cluster × (Nat → Channel) := (l.clusters, fun d => (l.chan d).core)

theorem cores_cluster {l m : Live} (h : m.cores = l.cores) (k : Nat) : m.cluster k = l.cluster k := by
  unfold Live.cluster
  rw [show m.clusters = l.clusters from congrArg Prod.fst h]

theorem cores_core {l m : Live} (h : m.cores = l.cores) (d : Nat) : (m.chan d).core = (l.chan d).core :=
  congrFun (congrArg Prod.snd h) d

theorem cores_of_parts {l m : Live} (clusters : m.clusters = l.clusters) (chan : ∀ d, (m.chan d).core = (l.chan d).core) :
    m.cores = l.cores := Prod.ext clusters (funext chan)

theorem cores_of_same {l m : Live} (clusters : m.clusters = l.clusters) (channels : m.channels = l.channels) : m.cores = l.cores :=
  cores_of_parts clusters fun d => by rw [chan_of_channels channels]

theorem cores_of_reports {l m : Live} (h : OnlyReports l m) : m.cores = l.cores := by
  unfold OnlyReports at h
  rw [h]
  rfl

/-- A change of one channel is seen in its core alone. -/
theorem setChan_cores (l : Live) {c : Nat} {x : Channel} (h : x.core = (l.chan c).core) : (l.setChan c x).cores = l.cores := by
  refine cores_of_parts (by simp) fun d => ?_
  by_cases e : d = c
  · rw [e, setChan_same, h]
  · rw [setChan_ne _ _ e]

theorem updChan_cores (l : Live) {c : Nat} {f : Channel → Channel} (h : (f (l.chan c)).core = (l.chan c).core) :
    (l.updChan c f).cores = l.cores := setChan_cores l h

@[simp] theorem noteFlags_cores (k m : Nat) (l : Live) : (noteFlags k m l).cores = l.cores := rfl
@[simp] theorem noteBit_cores (idx sub b : Nat) (l : Live) : (noteBit idx sub b l).cores = l.cores := rfl

@[simp] theorem drivePin_cores (n : Nat) (l : Live) : (drivePin n l).cores = l.cores := by
  simp only [drivePin, apply_ite Live.cores]
  exact ite_self _

@[simp] theorem pinAction_cores (c fine writer : Nat) (a : PinAct) (l : Live) : (pinAction c fine writer a l).cores = l.cores := by
  refine cores_of_parts ?_ fun d => core_of_lessPin (pinAction_lessPin _ _ _ _ _ _)
  have driven (n : Nat) (m : Live) : (drivePin n m).clusters = m.clusters := congrArg Prod.fst (drivePin_cores n m)
  simp only [pinAction, drivePins, forAll_keeps Live.clusters driven, setChan_keeps, endFailsafe, apply_ite Live.clusters]
  simp [forAll_keeps Live.clusters, driven]

@[simp] theorem popFifo_cores (c : Nat) (l : Live) : (popFifo c l).2.cores = l.cores := by
  unfold popFifo
  dsimp only
  split
  · exact setChan_cores l rfl
  · rfl

@[simp] theorem popMany_cores (c n : Nat) (l : Live) : (popMany c n l).cores = l.cores := by
  induction n generalizing l with
  | zero => rfl
  | succ n ih => rw [popMany, ih, popFifo_cores]

@[simp] theorem raiseReq_cores (c : Nat) (mask : Byte) (l : Live) : (raiseReq c mask l).cores = l.cores := updChan_cores l rfl

@[simp] theorem latchLink_cores (c : Nat) (data : Word) (l : Live) : (latchLink c data l).cores = l.cores := by
  unfold latchLink
  split
  · rfl
  · extract_lets x ovr y noted
    have core : ({ y with lnkd := data, linkSampled := false } : Channel).core = (noted.chan c).core := by
      unfold y noted
      split <;> rfl
    rw [raiseReq_cores, setChan_cores _ core]
    unfold noted
    split <;> rfl

@[simp] theorem sendLink_cores (c : Nat) (one : Option Nat) (data : Word) (l : Live) : (sendLink c one data l).cores = l.cores := by
  cases one with
  | none => simp only [sendLink, apply_ite Live.cores, forAll_keeps Live.cores (fun i => latchLink_cores _ _), ite_self]
  | some n => simp only [sendLink, apply_ite Live.cores, latchLink_cores, ite_self]

@[simp] theorem writeRecordAt_cores (dt src kind payload : Nat) (l : Live) : (writeRecordAt dt src kind payload l).cores = l.cores :=
  cores_of_reports (by unfold OnlyReports; rw [writeRecordAt_only])

@[simp] theorem writeRecord_cores (src kind payload : Nat) (l : Live) : (writeRecord src kind payload l).cores = l.cores :=
  writeRecordAt_cores _ _ _ _ _

@[simp] theorem insertFault_cores (q reason : Nat) (l : Live) : (insertFault q reason l).cores = l.cores :=
  (writeRecord_cores _ _ _ _).trans rfl

@[simp] theorem insertDrop_cores (q reason : Nat) (l : Live) : (insertDrop q reason l).cores = l.cores :=
  (insertFault_cores _ _ _).trans rfl

theorem joinFifo_cores (e : Nat) (reins : Bool) (l : Live) : (joinFifo e reins l).cores = l.cores := by
  unfold joinFifo
  dsimp only
  split <;> rfl

@[simp] theorem postEvent_cores (x6 x7 : Word) (l : Live) : (postEvent x6 x7 l).cores = l.cores := by
  have drawn : (drawFree l).2.cores = l.cores := rfl
  unfold postEvent allocEntry
  dsimp only
  split
  · exact insertFault_cores _ _ _
  · split
    · exact insertDrop_cores _ _ _
    · split
      · rename_i m taken
        rw [(Prod.mk.inj taken).2] at drawn
        exact (insertDrop_cores _ _ _).trans drawn
      · rename_i e m taken
        rw [(Prod.mk.inj taken).2] at drawn
        exact (joinFifo_cores _ _ _).trans drawn

/-- The channel with the words and flags that effects write. -/
def Channel.wrote (fx : StagedFx) (x : Channel) : Channel :=
  { x with sw := fx.sw.foldl (fun m e => m.put 0 e.1 e.2) x.sw, fl := clrMask (x.fl ||| fx.fset) fx.fclr }

/-- Cores seen through a change of one channel. -/
theorem updChan_cores_of {l m : Live} {c : Nat} {f g : Channel → Channel} (h : m.cores = l.cores)
    (same : ∀ x y : Channel, x.core = y.core → (f x).core = (g y).core) : (m.updChan c f).cores = (l.updChan c g).cores := by
  refine cores_of_parts (congrArg Prod.fst h) fun d => ?_
  by_cases e : d = c
  · rw [e, updChan_same, updChan_same, same _ _ (cores_core h c)]
  · rw [updChan_ne _ _ e, updChan_ne _ _ e, cores_core h d]

/-- Effects write words and flags of their channel's core, and nothing else of the engines. -/
theorem applyFx_cores (c : Nat) (fx : StagedFx) (l : Live) : (applyFx c fx l).cores = (l.updChan c (Channel.wrote fx)).cores := by
  unfold applyFx
  extract_lets words matches' pinned popped flagged linked lines latched posted logged faulted
  have early : popped.cores = words.cores := by
    rw [show popped = popMany c fx.pops pinned from rfl, popMany_cores,
      show pinned = forAll (fun p => pinAction c p.2 2 p.1) fx.pins matches' from rfl,
      forAll_keeps Live.cores (fun p => pinAction_cores _ _ _ _) fx.pins matches']
    exact updChan_cores words rfl
  have late : latched.cores = flagged.cores := by
    have sent : linked.cores = flagged.cores := forAll_keeps Live.cores (fun e => sendLink_cores _ _ _) fx.links flagged
    rw [← sent]
    unfold latched
    split <;> rfl
  have reported : faulted.cores = flagged.cores := by
    rw [show faulted = forAll (writeRecord (chanSource c) 0x22) fx.faults logged from rfl,
      forAll_keeps Live.cores (fun p => writeRecord_cores _ _ p) fx.faults logged,
      show logged = forAll (fun p => writeRecord (chanSource c) 0x21 p.toNat) fx.logs posted from rfl,
      forAll_keeps Live.cores (fun p => writeRecord_cores _ _ _) fx.logs posted,
      show posted = forAll (fun e => postEvent e.1 e.2) fx.posts latched from rfl,
      forAll_keeps Live.cores (fun e => postEvent_cores _ _) fx.posts latched, late]
  rw [forAll_keeps Live.cores (fun e => writeRecordAt_cores _ _ _ _) fx.edges faulted, reported]
  have flags : flagged.cores = (words.updChan c fun x => { x with fl := clrMask (x.fl ||| fx.fset) fx.fclr }).cores :=
    updChan_cores_of (l := words) (m := noteFlags _ _ popped) early fun x y same => by
      have fl : x.fl = y.fl := (congrArg Channel.fl same : x.core.fl = y.core.fl)
      calc ({ x with fl := clrMask (x.fl ||| fx.fset) fx.fclr, dreq := x.dreq || fx.dreq } : Channel).core
          = { x.core with fl := clrMask (x.fl ||| fx.fset) fx.fclr } := rfl
        _ = { y.core with fl := clrMask (y.fl ||| fx.fset) fx.fclr } := by rw [same, fl]
  rw [flags]
  refine cores_of_parts rfl fun d => ?_
  by_cases e : d = c
  · rw [e]
    simp only [updChan_same, words]
    rfl
  · rw [updChan_ne _ _ e, updChan_ne _ _ e, updChan_ne _ _ e]

theorem applyFx_cluster (c : Nat) (fx : StagedFx) (l : Live) (k : Nat) : (applyFx c fx l).cluster k = l.cluster k :=
  (cores_cluster (applyFx_cores c fx l) k).trans (by simp)

/-! ### Commit (R143) -/

/-- The first commit of a routine marks it committed, in its cluster alone. -/
theorem commitRun_fresh {l : Live} {k : Nat} {r : Routine} (h : (l.cluster k).run = some r) (fresh : r.committed = false) :
    (commitRun k l).cores =
      ((setRun k { r with committed := true, staged := {} } l).updChan (runChan k r) (Channel.wrote r.staged)).cores := by
  simp only [commitRun, h, fresh, Bool.false_eq_true, if_false]
  rw [applyFx_cores]
  refine cores_of_parts rfl fun d => ?_
  by_cases e : d = runChan k r
  · rw [e]
    simp only [updChan_same]
    rfl
  · simp only [updChan_ne _ _ e]

theorem tableDone_reads {l : Live} {k off : Nat} (first : (l.cluster k).tlost = []) (pend : (l.cluster k).tpend = some off)
    (aligned : off % 8 = 0) (inside : off < tableSize) :
    tableDone k .clean l = l.updCluster k (fun x => { x with
      tpend := none, tready := true, terr := false,
      tdata := BitVec.ofNat 64 (ofBytesLE (readBytes l.mem (tableBase + off) 8)) }) := by
  have good : tableBad off = false := by simp [tableBad, aligned, inside]
  simp [tableDone, first, pend, tableEcc, good]

/-- The routine with which a thread starts: the state its channel has (R130, R136). -/
def startRoutine (l : Live) (k slot : Nat) : Routine :=
  let y := l.chan (64 * k + slot)
  { slot := slot, addr := y.stored, lastAddr := y.stored, req := y.req, lnkd := y.lnkd, capa := y.capa, capb := y.capb,
    start := BitVec.ofNat 48 (l.now / 2 * 2), x := List.replicate 8 0, z := false, n := false, c := false, ah := false,
    div0 := false, wtoExpired := false, committed := false, used := 0, budget := l.cfg (0x4100 + k) 0x20, staged := {},
    protect := protectedRun l k (64 * k + slot), restart := y.restart, first := y.first, stall := none, swRead := 0, result := 0 }

/-- An idle engine that runs takes the thread its scheduler picks. -/
theorem routineStart_takes {l : Live} {k slot : Nat} (up : engineUp l k = true) (on : (l.cluster k).state = 1)
    (paused : (l.cluster k).paused = false) (idle : (l.cluster k).run = none) (pick : pickThread l k = some slot) :
    let y := l.chan (64 * k + slot)
    ∃ m : Live, routineStart k l = m.setChan (64 * k + slot)
        { y with thread := .running, fresh := 0, mcRestart := false, linkSampled := y.linkSampled || y.req.getLsbD 4 } ∧
      (m.cluster k).run = some (startRoutine l k slot) ∧ m.mem = l.mem := by
  intro y
  unfold routineStart
  dsimp only
  rw [if_neg (by simp [up, on, paused, idle]), pick]
  refine ⟨_, rfl, ?_, ?_⟩
  · rw [setCluster_same, apply_ite Cluster.run]
    exact ite_self _
  · split <;> rfl

/-- A committed routine that ends leaves its channel at the address, IDLE or READY, where no start is due. -/
theorem endRun_committed {l : Live} {k : Nat} {r : Routine} (naddr : Nat) (h : (l.cluster k).run = some r) (committed : r.committed = true)
    (en : (l.chan (runChan k r)).en = true) (on : l.flag (0x2100 + k) 1 = true) (due : (l.chan (runChan k r)).startDue = none) :
    let t := endRun k naddr l
    let y := t.chan (runChan k r)
    (t.cluster k).run = none ∧ y.stored = BitVec.ofNat 12 naddr ∧
      y.thread = (if (l.chan (runChan k r)).req = 0 then .idle else .ready) ∧ y.abandons = 0 := by
  have commit : commitRun k l = l := by simp [commitRun, h, committed]
  simp [endRun, commit, h, en, on, due]

/-- Settles O12: the start by `routineStart_takes`, the operations of a word on the running routine one by one, the first commit by
`commitRun_fresh`, END by `endRun_committed`. That the start samples LINK is the model's choice (log entry 109). -/
theorem routineFlow : Obligations.RoutineFlow := by
  refine ⟨fun s k slot up on paused idle pick => ?_, fun s k r h => ?_, fun s k off up first pend aligned inside => ?_⟩
  · obtain ⟨m, effect, run, mem⟩ := routineStart_takes up on paused idle pick
    refine completes_apply (f := routineStart k) rfl ?_
    intro y
    refine ⟨⟨startRoutine s.live k slot, ?_, rfl, rfl, rfl, rfl, rfl, rfl, rfl, rfl, rfl, rfl, rfl⟩, ?_, sameMemory_apply ?_⟩
    · rw [apply_cluster, effect, (setChan_acc _ _ _).2.1, run]
    · rw [apply_chan, effect, setChan_same]
    · rw [effect]
      simpa using mem
  · have run := cluster_run_of_running h
    have goes (addr : Nat) : (updRun k (fun r => { r with addr := BitVec.ofNat 12 addr }) s.live) =
        setRun k { r with addr := BitVec.ofNat 12 addr } s.live := by
      simp [updRun, setRun, Live.updCluster, run]
    intro c goes'
    have went {i : Instr} {f : Live → Live} {addr : Nat} (ran' : exec i s = ran f s)
        (effect : f s.live = setRun k { r with addr := BitVec.ofNat 12 addr } s.live) : Completes i s (goes' addr) := by
      refine completes_apply ran' ⟨?_, ?_, sameMemory_apply ?_⟩
      · rw [apply_cluster, effect, setRun_run]
      all_goals simp [effect]
    refine ⟨fun i => ?_, fun v => ?_, fun naddr => ?_, fun naddr b => ?_, fun naddr => ?_, fun committed en on due naddr => ?_,
      fun fresh => ?_⟩
    · have effect : wordRead k i.toNat s.live = setRun k { r with swRead := seenWord s.live c r i.toNat } s.live := onRun_running h _
      refine completes_apply (f := wordRead k i.toNat) rfl ⟨?_, ?_⟩
      · rw [apply_cluster, effect, setRun_run]
      · simp [effect]
    · have effect : onRun k (fun _ => tableStart k v) s.live = tableStart k v s.live := onRun_running h _
      refine completes_apply (f := onRun k (fun _ => tableStart k v)) rfl ⟨?_, ?_, ?_, ?_⟩
      · rw [apply_cluster, effect]
        simp [tableStart]
      · rw [apply_cluster, effect]
        simp [tableStart]
      · rw [apply_cluster, effect]
        simp [tableStart]
      · simp [effect, tableStart]
    · exact went rfl ((onRun_running h _).trans (goes _))
    · exact went rfl ((onRun_running h _).trans (goes _))
    · exact went rfl ((onRun_running h _).trans (goes _))
    · have effect : onRun k (fun _ => endRun k naddr.toNat) s.live = endRun k naddr.toNat s.live := onRun_running h _
      obtain ⟨over', stored, thread, abandons⟩ := endRun_committed naddr.toNat run committed en on due
      refine completes_apply (f := onRun k (fun _ => endRun k naddr.toNat)) rfl ⟨?_, ?_, ?_, ?_, sameMemory_apply ?_⟩
      · rw [apply_cluster, effect, over']
      · rw [apply_chan, effect, stored, BitVec.ofNat_toNat, BitVec.setWidth_eq]
      · rw [apply_chan, effect, thread]
      · rw [apply_chan, effect, abandons]
      · rw [effect, offEngines_mem (endRun_offEngines _ _ _)]
    · have effect : onRun k (fun _ => commitRun k) s.live = commitRun k s.live := onRun_running h _
      have cores := commitRun_fresh run fresh
      have core := cores_core cores c
      rw [updChan_same] at core
      refine completes_apply (f := onRun k (fun _ => commitRun k)) rfl ⟨?_, ?_, ?_, sameMemory_apply ?_⟩
      · rw [apply_cluster, effect, cores_cluster cores, (updChan_acc _ _ _).2.1, setRun_run]
      · rw [apply_chan, effect]
        exact congrArg Channel.sw core
      · rw [apply_chan, effect]
        exact congrArg Channel.fl core
      · rw [effect, offEngines_mem (commitRun_offEngines _ _)]
  · have effect : (if engineUp s.live k then tableDone k .clean s.live else s.live) = _ :=
      (if_pos up).trans (tableDone_reads first pend aligned inside)
    refine completes_apply (f := fun l => if engineUp l k then tableDone k .clean l else l) rfl ⟨?_, ?_, ?_, ?_, ?_, sameMemory_apply ?_⟩
    · rw [apply_cluster, effect, updCluster_same]
    · rw [apply_cluster, effect, updCluster_same]
    · rw [apply_cluster, effect, updCluster_same]
    · rw [apply_cluster, effect, updCluster_same]
    all_goals simp [effect]

end Sys2Proof.Machine

/-! Microwords (R123–R134, R143, R168): a word executes, stalls or ends its run; ROM functions; machine checks. -/

namespace Sys2Proof.Machine

open Sys2Proof

/-! ### What the parts of a word leave alone -/

/-- A channel without what a commit writes. -/
def Channel.still (x : Channel) : Channel := { x.core with sw := [], fl := 0 }

/-- The busy time of cluster k, and of each channel what no commit writes. -/
def Live.calm (k : Nat) (l : Live) : Nat × (Nat → Channel) := ((l.cluster k).busy, fun d => (l.chan d).still)

theorem calm_of_cores {l m : Live} (h : m.cores = l.cores) (k : Nat) : m.calm k = l.calm k := by
  refine Prod.ext (congrArg Cluster.busy (cores_cluster h k)) (funext fun d => ?_)
  exact congrArg (fun x : Channel => ({ x with sw := [], fl := 0 } : Channel)) (cores_core h d)

theorem calm_busy {l m : Live} {k : Nat} (h : m.calm k = l.calm k) : (m.cluster k).busy = (l.cluster k).busy := congrArg Prod.fst h

theorem calm_still {l m : Live} {k : Nat} (h : m.calm k = l.calm k) (d : Nat) : (m.chan d).still = (l.chan d).still :=
  congrFun (congrArg Prod.snd h) d

theorem calm_of_parts {l m : Live} {k : Nat} (busy : (m.cluster k).busy = (l.cluster k).busy) (channels : m.channels = l.channels) :
    m.calm k = l.calm k :=
  Prod.ext busy (funext fun d => congrArg Channel.still (chan_of_channels channels d))

@[simp] theorem setRun_calm (k : Nat) (r : Routine) (l : Live) : (setRun k r l).calm k = l.calm k :=
  calm_of_parts (by simp [setRun]) (by simp)

theorem wrote_calm {l m : Live} {c k : Nat} {fx : StagedFx} (h : m.cores = (l.updChan c (Channel.wrote fx)).cores) : m.calm k = l.calm k := by
  rw [calm_of_cores h]
  refine Prod.ext (by simp [Live.calm]) (funext fun d => ?_)
  by_cases e : d = c
  · simp only [Live.calm]
    rw [e, updChan_same]
    rfl
  · simp only [Live.calm]
    rw [updChan_ne _ _ e]

theorem applyFx_calm (c k : Nat) (fx : StagedFx) (l : Live) : (applyFx c fx l).calm k = l.calm k := wrote_calm (applyFx_cores c fx l)

/-! ### Effects and commit of a running routine -/

/-- An effect leaves the routine with other staged effects at most, where it has committed or its lists have room. -/
theorem takeFx_runs {l : Live} {k : Nat} {q : Routine} {f : Live → Routine → StagedFx → Option StagedFx}
    (run : (l.cluster k).run = some q) (room : q.committed = true ∨ ∃ fx, f l q q.staged = some fx) :
    (∃ fx, ((takeFx k f l).cluster k).run = some { q with staged := fx }) ∧ (takeFx k f l).calm k = l.calm k := by
  by_cases committed : q.committed = true
  · cases taken : f l q {} with
    | none =>
      have effect : takeFx k f l = l := by simp only [takeFx, run, committed, if_true, taken]
      rw [effect]
      exact ⟨⟨q.staged, run⟩, rfl⟩
    | some fx =>
      have effect : takeFx k f l = applyFx (runChan k q) fx l := by
        simp only [takeFx, run, committed, if_true, taken]
      rw [effect]
      exact ⟨⟨q.staged, (congrArg Cluster.run (applyFx_cluster _ _ _ _)).trans run⟩, applyFx_calm _ _ _ _⟩
  · obtain ⟨fx, taken⟩ := room.resolve_left committed
    have effect : takeFx k f l = setRun k { q with staged := fx } l := by simp [takeFx, run, committed, taken]
    rw [effect]
    exact ⟨⟨fx, setRun_run _ _ _⟩, setRun_calm _ _ _⟩

/-- A commit leaves the routine committed. -/
theorem commitRun_runs {l : Live} {k : Nat} {q : Routine} (run : (l.cluster k).run = some q) :
    (∃ fx, ((commitRun k l).cluster k).run = some { q with committed := true, staged := fx }) ∧ (commitRun k l).calm k = l.calm k := by
  by_cases committed : q.committed = true
  · have effect : commitRun k l = l := by simp [commitRun, run, committed]
    rw [effect]
    refine ⟨⟨q.staged, run.trans (congrArg some ?_)⟩, rfl⟩
    rw [← committed]
  · have cores := commitRun_fresh run (Bool.eq_false_iff.mpr committed)
    refine ⟨⟨{}, ?_⟩, (wrote_calm cores).trans (setRun_calm _ _ _)⟩
    rw [cores_cluster cores, (updChan_acc _ _ _).2.1, setRun_run]

/-! ### The room that a word's effects need (R144) -/

section

variable {l : Live} {r : Routine} {fx : StagedFx} {c : Nat}

/-- The lists of `a` are as short as those of `b` but for its words. -/
def StagedFx.SameLists (a b : StagedFx) : Prop := a.links = b.links ∧ a.posts = b.posts ∧ a.logs = b.logs

theorem fxWord_room (i : Nat) (v : Word) (room : fx.sw.length < 8) :
    ∃ y, fxWord c i v l r fx = some y ∧ y.pops = fx.pops ∧ y.pins = fx.pins ∧ y.SameLists fx := by
  unfold fxWord
  split
  · exact ⟨_, rfl, rfl, rfl, rfl, rfl, rfl⟩
  · have few : (fx.sw.filter (fun e => e.1 ≠ i)).length < 8 := lt_of_le_of_lt (List.length_filter_le _ _) room
    dsimp only
    rw [addLimited_room few]
    exact ⟨_, rfl, rfl, rfl, rfl, rfl, rfl⟩

theorem fxTimer_room (tact v fine : Nat) (room : fx.pops < 4) :
    ∃ y, fxTimer c tact v fine l r fx = some y ∧ y.pins = fx.pins ∧ y.SameLists fx := by
  unfold fxTimer
  split
  case h_10 =>
    unfold fxPop
    split
    · exact ⟨_, rfl, rfl, rfl, rfl, rfl⟩
    · exact ⟨_, rfl, rfl, rfl, rfl, rfl⟩
  all_goals exact ⟨_, rfl, rfl, rfl, rfl, rfl⟩

theorem fxPact_room (pact : Nat) (v : Word) (c' : Bool) (fine : Nat) (room : fx.pins.length < 4) :
    ∃ y, fxPact pact v c' fine l r fx = some y ∧ y.SameLists fx := by
  unfold fxPact fxPin
  rw [addLimited_room room, addLimited_room room, addLimited_room room, addLimited_room room, addLimited_room room]
  split <;> exact ⟨_, rfl, rfl, rfl, rfl⟩

theorem fxLinkField_room (link : Nat) (v : Word) (room : fx.links.length < 2) :
    ∃ y, fxLinkField c link v l r fx = some y ∧ y.posts = fx.posts ∧ y.logs = fx.logs := by
  unfold fxLinkField fxLink
  dsimp only
  rw [addLimited_room room, addLimited_room room]
  split
  · exact ⟨_, rfl, rfl, rfl⟩
  · split <;> exact ⟨_, rfl, rfl, rfl⟩

theorem fxPost_room (b : Bool) (room : fx.posts.length < 2) : ∃ y, fxIf b fxPost l r fx = some y ∧ y.logs = fx.logs := by
  unfold fxIf fxPost
  rw [addLimited_room room]
  split <;> exact ⟨_, rfl, rfl⟩

theorem fxLog_room (b : Bool) (v : Word) (room : fx.logs.length < 4) : ∃ y, fxIf b (fxLog v) l r fx = some y := by
  unfold fxIf fxLog
  rw [addLimited_room room]
  split <;> exact ⟨_, rfl⟩

theorem fxIf_some (b : Bool) {f : Live → Routine → StagedFx → Option StagedFx} {p : StagedFx → Prop} (kept : p fx)
    (given : ∃ y, f l r fx = some y ∧ p y) : ∃ y, fxIf b f l r fx = some y ∧ p y := by
  unfold fxIf
  split
  · exact given
  · exact ⟨fx, rfl, kept⟩

end

/-- A word's effects fit where each staged list has room for one entry more. -/
theorem wordFx_room {l : Live} {r : Routine} (c : Nat) (w : Microword) (v : Word) (c' : Bool) {fx : StagedFx} (words : fx.sw.length < 8)
    (pins : fx.pins.length < 4) (pops : fx.pops < 4) (links : fx.links.length < 2) (posts : fx.posts.length < 2)
    (logs : fx.logs.length < 4) : ∃ y, wordFx c w v c' l r fx = some y := by
  obtain ⟨a, toA, popsA, pinsA, linksA, postsA, logsA⟩ :=
    fxIf_some (p := fun y => y.pops = fx.pops ∧ y.pins = fx.pins ∧ y.SameLists fx) (mwSwr w) ⟨rfl, rfl, rfl, rfl, rfl⟩
      (fxWord_room (l := l) (r := r) (c := c) (mwSaddr w) v words)
  obtain ⟨b, toB, pinsB, linksB, postsB, logsB⟩ :=
    fxTimer_room (l := l) (r := r) (fx := a) (c := c) (mwTact w) v.toNat (mwFine w).toNat (popsA ▸ pops)
  obtain ⟨d, toD, linksD, postsD, logsD⟩ :=
    fxPact_room (l := l) (r := r) (fx := b) (mwPact w) v c' (mwFine w).toNat (by rw [pinsB, pinsA]; exact pins)
  obtain ⟨e, toE, linksE, postsE, logsE⟩ : ∃ e, fxFlags (mwFset w) (mwFclr w) l r d = some e ∧ e.SameLists d := ⟨_, rfl, rfl, rfl, rfl⟩
  obtain ⟨f, toF, postsF, logsF⟩ :=
    fxLinkField_room (l := l) (r := r) (fx := e) (c := c) (mwLink w) v (by rw [linksE, linksD, linksB, linksA]; exact links)
  obtain ⟨g, toG, postsG, logsG⟩ :=
    fxIf_some (l := l) (r := r) (fx := f) (f := fxIrq) (p := fun y => y.posts = f.posts ∧ y.logs = f.logs) (mwBit w 83) ⟨rfl, rfl⟩
      ⟨_, rfl, rfl, rfl⟩
  obtain ⟨h, toH, postsH, logsH⟩ :=
    fxIf_some (l := l) (r := r) (fx := g) (f := fxDreq) (p := fun y => y.posts = g.posts ∧ y.logs = g.logs) (mwBit w 84) ⟨rfl, rfl⟩
      ⟨_, rfl, rfl, rfl⟩
  obtain ⟨i, toI, logsI⟩ :=
    fxPost_room (l := l) (r := r) (fx := h) (mwBit w 85)
      (by rw [postsH, postsG, postsF, postsE, postsD, postsB, postsA]; exact posts)
  obtain ⟨j, toJ⟩ :=
    fxLog_room (l := l) (r := r) (fx := i) (mwBit w 86) v
      (by rw [logsI, logsH, logsG, logsF, logsE, logsD, logsB, logsA]; exact logs)
  exact ⟨j, by simp only [wordFx, toA, toB, toD, toE, toF, toG, toH, toI, toJ, Option.bind_some]⟩

/-! ### The end of a run (R143, R154) -/

/-- A start ends a run on the channel's cluster and begins none, and no cluster's busy time counts it. -/
theorem startNow_cluster (c k : Nat) (l : Live) : ((startNow c l).cluster k).busy = (l.cluster k).busy ∧
    ((l.cluster k).run = none → ((startNow c l).cluster k).run = none) := by
  have dropped (m : Live) : ((dropRoutine c m).cluster k).busy = (m.cluster k).busy ∧
      ((m.cluster k).run = none → ((dropRoutine c m).cluster k).run = none) := by
    unfold dropRoutine
    by_cases e : k = c / 64
    · subst e
      rw [updCluster_same]
      exact ⟨rfl, fun _ => rfl⟩
    · rw [updCluster_ne _ _ e]
      exact ⟨rfl, id⟩
  have forgot (m : Live) : ((forgetTurn c m).cluster k).busy = (m.cluster k).busy ∧ ((forgetTurn c m).cluster k).run = (m.cluster k).run := by
    unfold forgetTurn
    by_cases e : k = c / 64
    · subst e
      rw [updCluster_same]
      exact ⟨rfl, rfl⟩
    · rw [updCluster_ne _ _ e]
      exact ⟨rfl, rfl⟩
  unfold startNow
  extract_lets f m x y z
  have first : (m.cluster k).busy = (l.cluster k).busy ∧ ((l.cluster k).run = none → (m.cluster k).run = none) := by
    unfold m
    split
    · exact dropped l
    · exact ⟨rfl, id⟩
  rw [raiseReq, (updChan_acc _ _ _).2.1, (forgot _).1, (forgot _).2, (setChan_acc _ _ _).2.1]
  exact first

/-- The end of a run: the engine is idle, the channel stands at the address where no start is due. -/
theorem endRun_ends {l : Live} {k : Nat} {q : Routine} (naddr : Nat) (run : (l.cluster k).run = some q) :
    let m := endRun k naddr l
    (m.cluster k).run = none ∧ (m.cluster k).busy = (l.cluster k).busy ∧
      ((l.chan (runChan k q)).startDue = none → (m.chan (runChan k q)).stored = BitVec.ofNat 12 naddr ∧
        (m.chan (runChan k q)).romFn = (l.chan (runChan k q)).romFn) := by
  obtain ⟨⟨fx, committed⟩, calm⟩ := commitRun_runs run
  have still := calm_still calm (runChan k q)
  have busy := calm_busy calm
  have due : ((commitRun k l).chan (runChan k q)).startDue = (l.chan (runChan k q)).startDue :=
    (congrArg Channel.startDue still : ((commitRun k l).chan (runChan k q)).still.startDue = _)
  have fn : ((commitRun k l).chan (runChan k q)).romFn = (l.chan (runChan k q)).romFn :=
    (congrArg Channel.romFn still : ((commitRun k l).chan (runChan k q)).still.romFn = _)
  intro m
  have effect : m = endRun k naddr l := rfl
  unfold endRun at effect
  simp only [committed] at effect
  generalize commitRun k l = n at *
  rw [show runChan k { q with committed := true, staged := fx } = runChan k q from rfl] at effect
  generalize chan : n.setChan (runChan k q) _ = p at effect
  have kept : (p.chan (runChan k q)).stored = BitVec.ofNat 12 naddr ∧ (p.chan (runChan k q)).romFn = (n.chan (runChan k q)).romFn := by
    rw [← chan, setChan_same]
    exact ⟨rfl, rfl⟩
  have idle : ((p.updCluster k (fun x => { x with run := none, lastLo := if hiLane p (runChan k q) then x.lastLo else q.slot })).cluster k).run = none := by
    rw [updCluster_same]
  have count : ((p.updCluster k (fun x => { x with run := none, lastLo := if hiLane p (runChan k q) then x.lastLo else q.slot })).cluster k).busy =
      (n.cluster k).busy := by
    rw [updCluster_same, ← chan, (setChan_acc _ _ _).2.1]
  rw [effect, ← due]
  cases startDue : (n.chan (runChan k q)).startDue with
  | none =>
    refine ⟨idle, count.trans busy, fun _ => ?_⟩
    simp only [(updCluster_acc _ _ _).1]
    exact ⟨kept.1, kept.2.trans fn⟩
  | some sets =>
    refine ⟨?_, ?_, fun h => absurd h (by simp)⟩
    · dsimp only
      split
      · exact idle
      · rw [(updChan_acc _ _ _).2.1]
        exact (startNow_cluster _ _ _).2 idle
    · dsimp only
      split
      · exact count.trans busy
      · rw [(updChan_acc _ _ _).2.1, (startNow_cluster _ _ _).1]
        exact count.trans busy

/-! ### A word executes (R124, R125, R129, R143) -/

theorem goTo_run {l : Live} {k : Nat} {q : Routine} (addr : Nat) (run : (l.cluster k).run = some q) :
    ((goTo k addr l).cluster k).run = some { q with addr := BitVec.ofNat 12 addr } := by
  simp [goTo, updRun, run]

theorem goTo_calm (k addr : Nat) (l : Live) : (goTo k addr l).calm k = l.calm k :=
  calm_of_parts (by simp [goTo, updRun]) (by simp [goTo, updRun])

theorem tableStart_runs {l : Live} {k : Nat} (v : Word) :
    ((tableStart k v l).cluster k).run = (l.cluster k).run ∧ (tableStart k v l).calm k = l.calm k :=
  ⟨by simp [tableStart, Cluster.loseRead], calm_of_parts (by simp [tableStart, Cluster.loseRead]) (by simp [tableStart])⟩

/-- The routine as a word on operands a and b leaves it, before the word's effects and its successor. -/
def Routine.acted (q : Routine) (w : Microword) (waited c' : Bool) (a b : Word) : Routine :=
  let o := alu (mwAop w) (mwWid w) a b c'
  { q with result := o.result, z := o.z, n := o.n, c := o.c, ah := o.ah, div0 := o.div0.getD q.div0, div := none, lastAddr := q.addr,
           wtoExpired := if waited then !c' else q.wtoExpired,
           x := if 8 ≤ mwDsel w ∧ mwDsel w ≤ 15 then setNth q.x (mwDsel w - 8) o.result else q.x }

/-- A word that acts: before its successor the routine runs with its result, committed where the word commits. -/
theorem actWord_acts {l : Live} {k : Nat} {q : Routine} (w : Microword) (waited c' : Bool) (a b : Word) (run : (l.cluster k).run = some q)
    (room : StagingRoom q) :
    ∃ m fx, actWord k w waited c' a b l =
        (if mwNsel w = 3 then endRun k (mwNaddr w).toNat m
         else goTo k (successor (mwNsel w) (mwNaddr w).toNat c' (m.chan (runChan k q)).func.toNat) m) ∧
      (m.cluster k).run = some { q.acted w waited c' a b with committed := q.committed || mwCommit w, staged := fx } ∧
      m.calm k = l.calm k := by
  let o := alu (mwAop w) (mwWid w) a b c'
  let A := if mwDsel w = 5 then tableStart k o.result (setRun k (q.acted w waited c' a b) l) else setRun k (q.acted w waited c' a b) l
  have effect : actWord k w waited c' a b l =
      (let m := if mwCommit w then commitRun k (takeFx k (wordFx (runChan k q) w o.result c') A)
        else takeFx k (wordFx (runChan k q) w o.result c') A
      if mwNsel w = 3 then endRun k (mwNaddr w).toNat m
      else goTo k (successor (mwNsel w) (mwNaddr w).toNat c' (m.chan (runChan k q)).func.toNat) m) := by
    simp only [actWord, run]
    rfl
  have started : (A.cluster k).run = some (q.acted w waited c' a b) ∧ A.calm k = l.calm k := by
    unfold A
    split
    · exact ⟨(tableStart_runs _).1.trans (setRun_run _ _ _), (tableStart_runs _).2.trans (setRun_calm _ _ _)⟩
    · exact ⟨setRun_run _ _ _, setRun_calm _ _ _⟩
  obtain ⟨runA, calmA⟩ := started
  rw [effect]
  clear effect
  clear_value A o
  have fits : (q.acted w waited c' a b).committed = true ∨
      ∃ fx, wordFx (runChan k q) w o.result c' A (q.acted w waited c' a b) (q.acted w waited c' a b).staged = some fx := by
    rcases room with committed | ⟨words, pins, pops, links, posts, logs⟩
    · exact Or.inl committed
    · exact Or.inr (wordFx_room _ _ _ _ words pins pops links posts logs)
  obtain ⟨⟨fx, runB⟩, calmB⟩ := takeFx_runs runA fits
  generalize takeFx k (wordFx (runChan k q) w o.result c') A = B at runB calmB
  by_cases commits : mwCommit w = true
  · obtain ⟨⟨fx', runC⟩, calmC⟩ := commitRun_runs runB
    refine ⟨commitRun k B, fx', by rw [if_pos commits], ?_, (calmC.trans calmB).trans calmA⟩
    rw [runC, commits, Bool.or_true]
  · refine ⟨B, fx, by rw [if_neg commits], ?_, calmB.trans calmA⟩
    rw [runB, Bool.eq_false_iff.mpr commits, Bool.or_false]
    rfl

/-- A word has executed on the live device: `WordDone` but for the memory. -/
def WordRan (l m : Live) (k : Nat) (r : Routine) (w : Microword) (o : AluOut) (c' : Bool) : Prop :=
  (m.cluster k).busy = (l.cluster k).busy + wordTime w ∧
  (mwAop w = 0xA → ∃ q, (m.cluster k).run = some q ∧ q.div.isSome = true ∧ q.stall = none ∧ q.used = r.used + 4 ∧ q.addr = r.addr) ∧
  (mwAop w ≠ 0xA → mwNsel w ≠ 3 → ∃ q, (m.cluster k).run = some q ∧ q.div = none ∧ q.stall = none ∧ q.slot = r.slot ∧
    q.addr = BitVec.ofNat 12 (successor (mwNsel w) (mwNaddr w).toNat c' (l.chan (runChan k r)).func.toNat) ∧
    q.used = r.used + wordTime w ∧ q.lastAddr = r.addr ∧ q.committed = (r.committed || mwCommit w) ∧
    q.result = o.result ∧ q.z = o.z ∧ q.n = o.n) ∧
  (mwAop w ≠ 0xA → mwNsel w = 3 → (m.cluster k).run = none ∧
    ((l.chan (runChan k r)).startDue = none → (m.chan (runChan k r)).stored = mwNaddr w))

theorem spend_run {l : Live} {k n : Nat} {q : Routine} (run : (l.cluster k).run = some q) :
    ((spend k n l).cluster k).run = some { q with used := q.used + n } ∧ ((spend k n l).cluster k).busy = (l.cluster k).busy + n ∧
      (spend k n l).channels = l.channels ∧ (spend k n l).mem = l.mem := by
  simp [spend, updRun, run]

/-- The word of a running routine executes, under the c′ that a WAIT gives, or under its own. -/
theorem execWord_runs {s : State} {k : Nat} {r : Routine} (w : Microword) (waited : Option Bool) (run : (s.live.cluster k).run = some r)
    (room : mwAop w ≠ 0xA → StagingRoom r) :
    ∃ c', (∀ b, waited = some b → c' = b) ∧ WordRan s.live (execWord k w waited s.live) k r w (wordAlu s k r w c') c' := by
  simp only [execWord, run]
  generalize seen : ({ r with swRead := if mwSrd w then seenWord s.live (runChan k r) r (mwSaddr w) else 0, stall := none } : Routine) = q
  have wordAlu' (c' : Bool) : wordAlu s k r w c' =
      alu (mwAop w) (mwWid w) (operand s.live k (runChan k r) q w (mwAsel w)) (operand s.live k (runChan k r) q w (mwBsel w)) c' := by
    rw [← seen]
    rfl
  have own (b : Bool) : waited = some b → waited.getD (condPrime s.live k (runChan k r) q w
      (if mwAop w = 0xE then keptFlags q else alu (mwAop w) (mwWid w) (operand s.live k (runChan k r) q w (mwAsel w))
        (operand s.live k (runChan k r) q w (mwBsel w)) false) (operand s.live k (runChan k r) q w (mwBsel w))) = b := fun h => by
    rw [h, Option.getD_some]
  have fields : q.slot = r.slot ∧ q.addr = r.addr ∧ q.used = r.used ∧ q.committed = r.committed ∧ q.staged = r.staged ∧ q.stall = none := by
    rw [← seen]
    exact ⟨rfl, rfl, rfl, rfl, rfl, rfl⟩
  obtain ⟨slot, addr, used, committed, staged, stall⟩ := fields
  refine ⟨_, own, ?_⟩
  generalize waited.getD _ = c'
  rw [wordAlu']
  generalize operand s.live k (runChan k r) q w (mwAsel w) = a
  generalize operand s.live k (runChan k r) q w (mwBsel w) = b
  obtain ⟨spent, busy, channels, -⟩ := spend_run (n := wordTime w) (setRun_run k q s.live)
  have busy' : ((spend k (wordTime w) (setRun k q s.live)).cluster k).busy = (s.live.cluster k).busy + wordTime w := by
    rw [busy, calm_busy (setRun_calm _ _ _)]
  generalize spend k (wordTime w) (setRun k q s.live) = m at *
  by_cases div : mwAop w = 0xA
  · rw [if_pos div]
    refine ⟨?_, fun _ => ⟨{ q with used := q.used + wordTime w, div := some ⟨w, c', waited.isSome, a, b, divDue m⟩ }, ?_, rfl, stall, ?_, addr⟩,
      fun h => absurd div h, fun h => absurd div h⟩
    · simp [updRun, busy']
    · simp only [updRun, updCluster_same, spent, Option.map_some]
    · show q.used + wordTime w = r.used + 4
      rw [used, wordTime, if_pos div]
  · rw [if_neg div]
    have fits : StagingRoom { q with used := q.used + wordTime w } := by
      have := room div
      unfold StagingRoom at this ⊢
      rw [← committed, ← staged] at this
      exact this
    obtain ⟨n, fx, effect, ran', calm⟩ := actWord_acts w waited.isSome c' a b spent fits
    rw [effect]
    have chan (p : Routine) (h : p.slot = r.slot) : runChan k p = runChan k r := by
      unfold runChan
      rw [h]
    have still (d : Nat) : (n.chan d).still = (s.live.chan d).still := by
      rw [calm_still calm d, chan_of_channels channels d, chan_of_channels (setRun_keeps k q s.live).1 d]
    have count : (n.cluster k).busy = (s.live.cluster k).busy + wordTime w := (calm_busy calm).trans busy'
    refine ⟨?_, fun h => absurd h div, fun _ next => ?_, fun _ ends => ?_⟩
    · split
      · exact (endRun_ends _ ran').2.1.trans count
      · exact (calm_busy (goTo_calm _ _ _)).trans count
    · rw [if_neg next]
      have func : (n.chan (runChan k r)).func = (s.live.chan (runChan k r)).func :=
        (congrArg Channel.func (still (runChan k r)) : (n.chan (runChan k r)).still.func = _)
      refine ⟨_, goTo_run _ ran', rfl, stall, slot, ?_, ?_, addr, ?_, rfl, rfl, rfl⟩
      · show BitVec.ofNat 12 _ = _
        rw [chan _ (by exact slot), func]
      · show q.used + wordTime w = _
        rw [used]
      · show (q.committed || mwCommit w) = _
        rw [committed]
    · rw [if_pos ends]
      obtain ⟨idle, -, stored⟩ := endRun_ends (mwNaddr w).toNat ran'
      refine ⟨idle, fun due => ?_⟩
      have due' : (n.chan (runChan k r)).startDue = none :=
        ((congrArg Channel.startDue (still (runChan k r)) : (n.chan (runChan k r)).still.startDue = _)).trans due
      rw [chan _ (by exact slot)] at stored
      obtain ⟨here, -⟩ := stored due'
      rw [here, BitVec.ofNat_toNat, BitVec.setWidth_eq]

@[simp] theorem spend_offEngines (k n : Nat) (l : Live) : (spend k n l).offEngines = l.offEngines := rfl

@[simp] theorem execWord_offEngines (k : Nat) (w : Microword) (waited : Option Bool) (l : Live) :
    (execWord k w waited l).offEngines = l.offEngines := by
  unfold execWord
  split
  · rfl
  · dsimp only
    split
    · rw [updRun_offEngines, spend_offEngines, setRun_offEngines]
    · rw [actWord_offEngines, spend_offEngines, setRun_offEngines]

section

variable {i : Instr} {s : State} {k : Nat} {r : Routine} {w : Microword} {f : Live → Live}

/-- A command whose work is one word of the running routine. -/
theorem completes_word {waited : Option Bool} (run : exec i s = ran f s) (effect : f s.live = execWord k w waited s.live)
    (running' : running s.live k = some r) (room : mwAop w ≠ 0xA → StagingRoom r) :
    Completes i s fun t => ∃ c', (∀ b, waited = some b → c' = b) ∧ WordDone s t k r w c' := by
  obtain ⟨c', own, busy, div, next, ends⟩ := execWord_runs w waited (cluster_run_of_running running') room
  refine completes_apply run ⟨c', own, ?_, sameMemory_apply ?_, ?_, ?_, ?_⟩
  · rw [apply_cluster, effect, busy]
  · rw [effect, offEngines_mem (execWord_offEngines _ _ _ _)]
  · rw [apply_cluster, effect]
    exact div
  · rw [apply_cluster, effect]
    exact next
  · rw [apply_cluster, apply_chan, effect]
    exact ends

theorem Completes.imp {P Q : State → Prop} (h : Completes i s P) (sub : ∀ t, P t → Q t) : Completes i s Q := by
  obtain ⟨t, ran', p⟩ := h
  exact ⟨t, ran', sub t p⟩

/-- A WAIT word that goes on executes under its condition, where it fits the budget. -/
theorem waitStep_goes (go : (waitCond s.live k r w || waitLast r w) = true) (fits : r.used + wordTime w ≤ r.budget) :
    waitStep k r w s.live = execWord k w (some (waitCond s.live k r w)) s.live := by
  unfold waitStep
  dsimp only
  rw [go, Bool.not_true, if_neg Bool.false_ne_true, if_neg (by omega)]

/-- A WAIT word that neither its condition nor its last ECLK releases stalls. -/
theorem completes_stall (run : exec i s = ran f s) (effect : f s.live = waitStep k r w s.live) (running' : running s.live k = some r)
    (cond : waitCond s.live k r w = false) (last : waitLast r w = false) : Completes i s (WordStalls s k r w) := by
  have stalls : waitStep k r w s.live = spend k 1 (updRun k (fun x => { x with stall := some (waitEclk r), word := w }) s.live) := by
    simp [waitStep, cond, last]
  rw [stalls] at effect
  have held : ((updRun k (fun x => { x with stall := some (waitEclk r), word := w }) s.live).cluster k).run =
      some { r with stall := some (waitEclk r), word := w } := by
    simp [updRun, cluster_run_of_running running']
  obtain ⟨spent, busy, channels, mem⟩ := spend_run (n := 1) held
  refine completes_apply run ⟨?_, ?_, ?_, sameMemory_apply ?_⟩
  · rw [apply_cluster, effect, spent]
  · rw [apply_cluster, effect, busy]
    simp [updRun]
  · simp only [apply_keeps, effect, channels]
    simp [updRun]
  · rw [effect, mem]
    simp [updRun]

end

/-- The word at which the running routine stands fits its budget and passes its check. -/
theorem microwordExecute_fetches {s : State} {k : Nat} {r : Routine} (h : running s.live k = some r) (div : r.div = none)
    (fetched : r.stall = none) (good : fetchCheck s.live k r.addr.toNat false = none) (rom : romFunctionAt r.addr.toNat = none)
    (fits : r.used + wordTime (microFetch s.live k r.addr.toNat).1 ≤ r.budget) :
    microwordExecute k none s.live =
      if mwWait (microFetch s.live k r.addr.toNat).1 then waitStep k r (microFetch s.live k r.addr.toNat).1 s.live
      else execWord k (microFetch s.live k r.addr.toNat).1 none s.live := by
  have time : 1 ≤ wordTime (microFetch s.live k r.addr.toNat).1 := by
    unfold wordTime
    split <;> decide
  have left : ¬r.budget ≤ r.used := by omega
  have inBudget : overBudget s.live k r = false := by
    simp [overBudget, rom, left, fetched]
    omega
  cases waits : mwWait (microFetch s.live k r.addr.toNat).1 <;>
    simp [microwordExecute, h, div, fetched, upsetStore, left, good, rom, fetchedWord, inBudget, waits]

/-- The word at which the running routine stalls fits its budget. -/
theorem microwordExecute_waits {s : State} {k : Nat} {r : Routine} (h : running s.live k = some r) (div : r.div = none)
    (stalled : r.stall.isSome = true) (left : r.used < r.budget) :
    microwordExecute k none s.live = waitStep k r r.word s.live := by
  simp [microwordExecute, h, div, stalled, Nat.not_le.mpr left]

theorem wordTime_pos (w : Microword) : 1 ≤ wordTime w := by
  unfold wordTime
  split <;> decide

/-- MICROWORD_EXECUTE on a word that is no ROM function's entry. -/
theorem microword_executes (s : State) (k : Fin 8) (r : Routine) (h : running s.live k = some r) (div : r.div = none) :
    let w := if r.stall.isSome then r.word else (microFetch s.live k r.addr.toNat).1
    (r.stall = none → fetchCheck s.live k r.addr.toNat false = none ∧ romFunctionAt r.addr.toNat = none) →
    r.used + wordTime w ≤ r.budget →
    ((r.stall = none → mwWait w = false) → (r.stall.isSome = true → waitCond s.live k r w = true ∨ waitLast r w = true) →
      (mwAop w ≠ 0xA → StagingRoom r) →
      Completes (.microwordExecute k none) s fun t => ∃ b, WordDone s t k r w b) ∧
    (r.stall = none → mwWait w = true → waitCond s.live k r w = true ∨ waitLast r w = true → (mwAop w ≠ 0xA → StagingRoom r) →
      Completes (.microwordExecute k none) s fun t => WordDone s t k r w (waitCond s.live k r w)) ∧
    ((r.stall.isSome = true ∨ mwWait w = true) → waitCond s.live k r w = false → waitLast r w = false →
      Completes (.microwordExecute k none) s (WordStalls s k r w)) := by
  intro w good fits
  cases stall : r.stall with
  | none =>
    obtain ⟨passes, rom⟩ := good stall
    have word : w = (microFetch s.live k r.addr.toNat).1 := by
      unfold w
      rw [stall]
      rfl
    have effect := microwordExecute_fetches h div stall passes rom (by rw [← word]; exact fits)
    rw [← word] at effect
    refine ⟨fun plain _ room => ?_, fun _ waits go room => ?_, fun waits cond last => ?_⟩
    · rw [plain rfl, if_neg Bool.false_ne_true] at effect
      exact (completes_word (f := microwordExecute k none) rfl effect h room).imp fun t ⟨b, _, done'⟩ => ⟨b, done'⟩
    · rw [waits, if_pos rfl, waitStep_goes (by simpa using go) fits] at effect
      refine (completes_word (f := microwordExecute k none) rfl effect h room).imp fun t ⟨b, own, done'⟩ => ?_
      rw [own _ rfl] at done'
      exact done'
    · rw [waits.resolve_left (by simp), if_pos rfl] at effect
      exact completes_stall (f := microwordExecute k none) rfl effect h cond last
  | some n =>
    have stalled : r.stall.isSome = true := by rw [stall]; rfl
    have word : w = r.word := if_pos stalled
    have time := wordTime_pos w
    have effect := microwordExecute_waits h div stalled (by omega)
    rw [← word] at effect
    refine ⟨fun _ go room => ?_, fun fetched => absurd fetched (by simp), fun _ cond last => ?_⟩
    · rw [waitStep_goes (by simpa using go rfl) fits] at effect
      exact (completes_word (f := microwordExecute k none) rfl effect h room).imp fun t ⟨b, _, done'⟩ => ⟨b, done'⟩
    · exact completes_stall (f := microwordExecute k none) rfl effect h cond last

/-! ### Runs of ROM functions (R131) -/

/-- A ROM function whose effects fit is staged or applied: the routine goes on, the engine has spent its longest path, the channel runs its
code. -/
theorem romStage_runs {l : Live} {k f : Nat} {r : Routine} (run : (l.cluster k).run = some r)
    (fits : r.committed = true ∨ mergeFits r.staged (romStages k f r l).1 = true) :
    ∃ q : Routine, ((romStage k f l).cluster k).run = some q ∧ q.slot = r.slot ∧
      ((romStage k f l).cluster k).busy = (l.cluster k).busy + romPath f ∧
      ((romStage k f l).chan (runChan k r)).romFn = some f ∧
      ((romStage k f l).chan (runChan k r)).startDue = (l.chan (runChan k r)).startDue := by
  let drawn : Live := { l with freeIdx := l.freeIdx + (romStages k f r l).2 }
  let m := (spend k (romPath f) (updRun k (fun x => { x with lastAddr := r.addr }) drawn)).updChan (runChan k r) fun x => { x with romFn := some f }
  have held : ((updRun k (fun x => { x with lastAddr := r.addr }) drawn).cluster k).run = some { r with lastAddr := r.addr } := by
    unfold updRun
    rw [updCluster_same]
    exact congrArg (Option.map _) run
  obtain ⟨spent, busy, channels, -⟩ := spend_run (n := romPath f) held
  have runM : (m.cluster k).run = some { r with lastAddr := r.addr, used := r.used + romPath f } := by
    unfold m
    rw [(updChan_acc _ _ _).2.1, spent]
  have busyM : (m.cluster k).busy = (l.cluster k).busy + romPath f := by
    unfold m
    rw [(updChan_acc _ _ _).2.1, busy]
    unfold updRun
    rw [updCluster_same]
    rfl
  have chanM : m.chan (runChan k r) = { l.chan (runChan k r) with romFn := some f } := by
    unfold m
    rw [updChan_same, chan_of_channels channels]
    rfl
  by_cases committed : r.committed = true
  · have effect : romStage k f l = applyFx (runChan k r) (romStages k f r l).1 m := by
      simp only [romStage, run, committed, if_true]
      rfl
    have still := calm_still (applyFx_calm (runChan k r) k (romStages k f r l).1 m) (runChan k r)
    rw [effect, applyFx_cluster]
    refine ⟨_, runM, rfl, busyM, ?_, ?_⟩
    · calc ((applyFx (runChan k r) (romStages k f r l).1 m).chan (runChan k r)).romFn
          = (m.chan (runChan k r)).romFn := (congrArg Channel.romFn still : (Channel.still _).romFn = _)
        _ = some f := by rw [chanM]
    · calc ((applyFx (runChan k r) (romStages k f r l).1 m).chan (runChan k r)).startDue
          = (m.chan (runChan k r)).startDue := (congrArg Channel.startDue still : (Channel.still _).startDue = _)
        _ = (l.chan (runChan k r)).startDue := by rw [chanM]
  · have effect : romStage k f l = updRun k (fun x => { x with staged := mergeFx r.staged (romStages k f r l).1 }) m := by
      simp only [romStage, run, committed, fits.resolve_left committed, if_true]
      rfl
    rw [effect]
    unfold updRun
    rw [updCluster_same, (updCluster_acc _ _ _).1, runM, chanM]
    exact ⟨_, rfl, rfl, busyM, rfl, rfl⟩

theorem romStage_offEngines (k f : Nat) (l : Live) : (romStage k f l).offEngines = l.offEngines := by
  unfold romStage
  split
  · rfl
  · extract_lets c st drawn spent
    have kept : spent.offEngines = l.offEngines := by
      unfold spent
      rw [spend_offEngines, updRun_offEngines]
      rfl
    clear_value spent
    split
    · rw [applyFx_offEngines, updChan_offEngines, kept]
    · split
      · rw [updRun_offEngines, updChan_offEngines, kept]
      · rw [enterRunaway_offEngines, kept]

/-- The ROM function at which the running routine stands runs to its END where its path fits the budget. -/
theorem microwordExecute_rom {s : State} {k f : Nat} {r : Routine} (h : running s.live k = some r) (div : r.div = none)
    (fetched : r.stall = none) (good : fetchCheck s.live k r.addr.toNat false = none) (rom : romFunctionAt r.addr.toNat = some f)
    (left : r.used < r.budget) (fits : r.used + romPath f ≤ r.budget) :
    microwordExecute k none s.live = execRom k f s.live := by
  have inBudget : overBudget s.live k r = false := by
    simp [overBudget, rom, Nat.not_le.mpr left, fetched]
    omega
  simp [microwordExecute, h, div, fetched, upsetStore, Nat.not_le.mpr left, good, rom, fetchedWord, inBudget]

/-- MICROWORD_EXECUTE on the entry word of a ROM function. -/
theorem rom_executes (s : State) (k : Fin 8) (r : Routine) (f : Nat) (h : running s.live k = some r) (div : r.div = none)
    (fetched : r.stall = none) (rom : romFunctionAt r.addr.toNat = some f) (good : fetchCheck s.live k r.addr.toNat false = none)
    (left : r.used < r.budget) (fits : r.used + romPath f ≤ r.budget)
    (room : r.committed = true ∨ mergeFits r.staged (romStages k f r s.live).1 = true) :
    Completes (.microwordExecute k none) s fun t =>
      (t.live.cluster k).run = none ∧ (t.live.cluster k).busy = (s.live.cluster k).busy + romPath f ∧
      ((s.live.chan (runChan k r)).startDue = none →
        (t.live.chan (runChan k r)).stored = BitVec.ofNat 12 (romEntry f) ∧ (t.live.chan (runChan k r)).romFn = some f) ∧
      SameMemory s t := by
  obtain ⟨q, run, slot, busy, fn, due⟩ := romStage_runs (f := f) (cluster_run_of_running h) room
  have chan : runChan k q = runChan k r := by
    unfold runChan
    rw [slot]
  obtain ⟨idle, count, ends⟩ := endRun_ends (romEntry f) run
  rw [chan] at ends
  have effect := microwordExecute_rom h div fetched good rom left fits
  refine completes_apply (f := microwordExecute k none) rfl ⟨?_, ?_, fun free => ?_, sameMemory_apply ?_⟩
  · rw [apply_cluster, effect, execRom, idle]
  · rw [apply_cluster, effect, execRom, count, busy]
  · obtain ⟨stored, romFn⟩ := ends (due.trans free)
    rw [apply_chan, effect, execRom, stored, romFn, fn]
    exact ⟨rfl, rfl⟩
  · rw [effect, execRom, offEngines_mem (endRun_offEngines _ _ _), offEngines_mem (romStage_offEngines _ _ _)]

/-! ### Machine checks (R168) -/

/-- Failsafe changes status words of channels, and pins. -/
theorem goFailsafe_parts (cause c : Nat) (l : Live) : (goFailsafe cause c l).clusters = l.clusters ∧
    ∀ d, ((goFailsafe cause c l).chan d).thread = (l.chan d).thread := by
  have pins (n : Nat) (m : Live) :
      (drivePin n (m.updTpin n fun t => { t with failsafe := true })).clusters = m.clusters ∧
        (drivePin n (m.updTpin n fun t => { t with failsafe := true })).channels = m.channels :=
    ⟨(congrArg Prod.fst (drivePin_cores _ _)).trans rfl, (drivePin_channels _ _).trans rfl⟩
  unfold goFailsafe
  refine ⟨?_, fun d => ?_⟩
  · rw [forAll_keeps Live.clusters (fun n m => (pins n m).1)]
    simp
  · rw [chan_of_channels (forAll_keeps Live.channels (fun n m => (pins n m).2) (pinsOf _ c) _)]
    by_cases e : d = c
    · rw [e, updChan_same]
    · rw [updChan_ne _ _ e]

theorem offEngines_micro {l m : Live} (h : m.offEngines = l.offEngines) : m.micro = l.micro :=
  congrArg (fun p : Live × (Nat → Bus) => p.1.micro) h

theorem reported_parts {l m : Live} (h : OnlyReports l m) : m.clusters = l.clusters ∧ m.channels = l.channels := by
  unfold OnlyReports at h
  rw [h]
  exact ⟨rfl, rfl⟩

/-- A machine check without one in the second before. -/
theorem machineCheck_stops {l : Live} {k addr cause : Nat} {r : Routine} (run : (l.cluster k).run = some r)
    (quiet : ∀ t, l.micro.lastMcAt = some t → t + 400000000 ≤ l.now) :
    let m := machineCheck k addr cause l
    (m.cluster k).run = none ∧ (m.cluster k).state = 2 ∧ (m.cluster k).status.getLsbD 2 = true ∧
      (m.cluster k).recovery = some ⟨BitVec.ofNat 12 addr, cause⟩ ∧
      (cause = 2 → (m.chan (runChan k r)).thread = .halted) ∧ m.mem = l.mem := by
  unfold machineCheck
  extract_lets x slot payload halted y z0 z stopped reported soon unit marked result
  have off : reported.offEngines = l.offEngines := by
    have first : halted.offEngines = l.offEngines := by
      unfold halted
      split <;> rfl
    unfold reported stopped
    rw [reportFault_offEngines, forAll_offEngines (goFailsafe_offEngines 3), noteBit_offEngines, setCluster_offEngines, first]
  have only : OnlyReports stopped reported := reportFault_only _ _ _ _ stopped
  have quiet' : soon = false := by
    unfold soon
    rw [offEngines_micro off]
    unfold Live.now
    rw [offEngines_time off]
    split
    · rename_i t last
      exact decide_eq_false (Nat.not_lt.mpr (quiet t last))
    · rfl
  have failed : stopped.clusters = (halted.setCluster k z).clusters :=
    (forAll_keeps Live.clusters (fun c m => (goFailsafe_parts 3 c m).1) (failsafeChans halted k)
      (noteBit (0x3100 + k) 3 2 (halted.setCluster k z))).trans rfl
  have threads : (stopped.chan (runChan k r)).thread = (halted.chan (runChan k r)).thread :=
    (forAll_keeps (fun m : Live => (m.chan (runChan k r)).thread) (fun c m => (goFailsafe_parts 3 c m).2 (runChan k r))
      (failsafeChans halted k) (noteBit (0x3100 + k) 3 2 (halted.setCluster k z))).trans rfl
  have thread : cause = 2 → (halted.chan (runChan k r)).thread = .halted := fun reserved => by
    unfold halted
    rw [show x.run = some r from run]
    dsimp only
    rw [updChan_same, reserved, decide_eq_true rfl, Bool.or_true, if_pos rfl]
  have mem : reported.mem = l.mem := offEngines_mem off
  clear_value reported stopped halted
  obtain ⟨told, toldChans⟩ := reported_parts only
  have cluster : marked.cluster k = z :=
    calc marked.cluster k = reported.cluster k := rfl
      _ = (halted.setCluster k z).cluster k := by
        unfold Live.cluster
        rw [told, failed]
      _ = z := setCluster_same _ _ _
  have stands : cause = 2 → (marked.chan (runChan k r)).thread = .halted := fun reserved =>
    calc (marked.chan (runChan k r)).thread = (reported.chan (runChan k r)).thread := rfl
      _ = .halted := by rw [chan_of_channels toldChans, threads, thread reserved]
  have same : result = marked := if_neg (by rw [quiet']; exact Bool.false_ne_true)
  rw [same, cluster]
  exact ⟨rfl, rfl, setBit_same _ (by decide), rfl, stands, mem⟩

end Sys2Proof.Machine

/-! Microwords: machine checks at a fetch, WAIT words, and the whole statement. -/

namespace Sys2Proof.Machine

open Sys2Proof

/-- No ROM function begins at a reserved address. -/
theorem romFunctionAt_reserved {addr : Nat} (reserved : 0xC00 ≤ addr) : romFunctionAt addr = none := by
  unfold romFunctionAt
  rw [List.find?_eq_none]
  intro f inside
  have small : f < 12 := List.mem_range.mp inside
  have entry : romEntry f < 0xC00 := by
    interval_cases f <;> decide
  simp
  omega

/-- A fetch from a reserved address is a machine check. -/
theorem reserved_checks (s : State) (k : Fin 8) (r : Routine) (h : running s.live k = some r) (div : r.div = none) (fetched : r.stall = none)
    (reserved : 0xC00 ≤ r.addr.toNat) (left : r.used < r.budget)
    (quiet : ∀ t', s.live.micro.lastMcAt = some t' → t' + 400000000 ≤ s.live.now) :
    Completes (.microwordExecute k none) s fun t =>
      (t.live.cluster k).run = none ∧ (t.live.cluster k).state = 2 ∧ (t.live.cluster k).status.getLsbD 2 = true ∧
      (t.live.cluster k).recovery = some ⟨r.addr, 2⟩ ∧ (t.live.chan (runChan k r)).thread = .halted ∧ SameMemory s t := by
  have bad : fetchCheck s.live k r.addr.toNat false = some 2 := if_pos reserved
  have effect : microwordExecute k none s.live = machineCheck k r.addr.toNat 2 s.live := by
    simp [microwordExecute, h, div, fetched, upsetStore, Nat.not_le.mpr left, bad, romFunctionAt_reserved reserved]
  obtain ⟨idle, state, status, recovery, halted, mem⟩ :=
    machineCheck_stops (addr := r.addr.toNat) (cause := 2) (cluster_run_of_running h) quiet
  refine completes_apply (f := microwordExecute k none) rfl ⟨?_, ?_, ?_, ?_, ?_, sameMemory_apply ?_⟩
  · rw [apply_cluster, effect, idle]
  · rw [apply_cluster, effect, state]
  · rw [apply_cluster, effect, status]
  · rw [apply_cluster, effect, recovery, BitVec.ofNat_toNat, BitVec.setWidth_eq]
  · rw [apply_chan, effect, halted rfl]
  · rw [effect, mem]

/-- The WAIT word at which a routine stands is that of the running routine. -/
theorem waitWord_running {l : Live} {k : Nat} {r : Routine} {w : Microword} (h : waitWord l k = some (r, w)) : running l k = some r := by
  unfold waitWord at h
  split at h
  · rename_i q held
    dsimp only at h
    rw [held, (Prod.mk.inj (Option.some.inj (Option.ite_none_right_eq_some.mp h).2)).1]
  · exact absurd h (by simp)

/-- A WAIT word that fails its check: the routine runs, and no WAIT word of its stands. -/
theorem badWait_running {l : Live} {k addr cause : Nat} (h : badWait l k = some (addr, cause)) :
    (∃ r, running l k = some r) ∧ waitWord l k = none := by
  unfold badWait at h
  split at h
  · rename_i q held
    refine ⟨⟨q, held⟩, ?_⟩
    dsimp only at h
    split at h
    · rename_i fetched
      obtain ⟨cause', check, -⟩ := Option.map_eq_some_iff.mp h
      have stall : q.stall = none := by
        simp only [Bool.and_eq_true, Option.isNone_iff_eq_none] at fetched
        exact fetched.1.1.1
      simp [waitWord, held, stall, check]
    · exact absurd h (by simp)
  · exact absurd h (by simp)

/-- MICROWORD_WAIT on a word that fails its check. -/
theorem badWait_checks (s : State) (k : Fin 8) (addr cause : Nat) (h : badWait s.live k = some (addr, cause))
    (quiet : ∀ t', s.live.micro.lastMcAt = some t' → t' + 400000000 ≤ s.live.now) :
    Completes (.microwordWait k) s fun t =>
      (t.live.cluster k).run = none ∧ (t.live.cluster k).state = 2 ∧ (t.live.cluster k).status.getLsbD 2 = true ∧
      (t.live.cluster k).recovery = some ⟨BitVec.ofNat 12 addr, cause⟩ ∧ SameMemory s t := by
  obtain ⟨⟨r, held⟩, noWait⟩ := badWait_running h
  have effect : microwordWait k s.live = machineCheck k addr cause s.live := by
    simp [microwordWait, h, noWait]
  obtain ⟨idle, state, status, recovery, -, mem⟩ :=
    machineCheck_stops (addr := addr) (cause := cause) (cluster_run_of_running held) quiet
  refine completes_apply (f := microwordWait k) rfl ⟨?_, ?_, ?_, ?_, sameMemory_apply ?_⟩
  · rw [apply_cluster, effect, idle]
  · rw [apply_cluster, effect, state]
  · rw [apply_cluster, effect, status]
  · rw [apply_cluster, effect, recovery]
  · rw [effect, mem]

/-- A release and a timeout of a WAIT word execute it under its condition. -/
theorem wait_ends (s : State) (k : Fin 8) (r : Routine) (w : Microword) (h : waitWord s.live k = some (r, w)) (stalled : r.stall.isSome = true)
    (fits : r.used + wordTime w ≤ r.budget) (room : mwAop w ≠ 0xA → StagingRoom r) :
    (waitCond s.live k r w = true → Completes (.waitRelease k) s fun t => WordDone s t k r w true) ∧
    (waitCond s.live k r w = false → waitLast r w = true → Completes (.waitTimeout k) s fun t => WordDone s t k r w false) := by
  have held := waitWord_running h
  refine ⟨fun cond => ?_, fun cond last => ?_⟩
  · have effect : waitRelease k s.live = execWord k w (some true) s.live := by
      have go := waitStep_goes (s := s) (k := k) (r := r) (w := w) (by rw [cond]; rfl) fits
      rw [cond] at go
      simpa [waitRelease, h, stalled, cond] using go
    refine (completes_word (f := waitRelease k) rfl effect held room).imp fun t ⟨b, own, done'⟩ => ?_
    rw [own _ rfl] at done'
    exact done'
  · have effect : waitTimeout k s.live = execWord k w (some false) s.live := by
      have go := waitStep_goes (s := s) (k := k) (r := r) (w := w) (by rw [last, Bool.or_true]) fits
      rw [cond] at go
      simpa [waitTimeout, h, stalled, cond, last] using go
    refine (completes_word (f := waitTimeout k) rfl effect held room).imp fun t ⟨b, own, done'⟩ => ?_
    rw [own _ rfl] at done'
    exact done'

/-- Settles O13, a lemma for each clause: words by `execWord_runs`, ROM functions by `romStage_runs`, machine checks by
`machineCheck_stops`. A ROM function as one command that takes the ECLK of its longest path, and the flags that a WAIT samples, are the
model's choice (log entries 47 and 50). -/
theorem microwordsComplete : Obligations.MicrowordsComplete := by
  refine ⟨microword_executes, rom_executes, reserved_checks, fun s k r w h cond last => ?_, badWait_checks, wait_ends⟩
  have effect : microwordWait k s.live = waitStep k r w s.live := by
    simp [microwordWait, h, cond, last]
  exact completes_stall (f := microwordWait k) rfl effect (waitWord_running h) cond last

end Sys2Proof.Machine

/-! The upkeep of the microengines (R158–R161, R167, R170–R172, R176–R178). -/

namespace Sys2Proof.Machine

open Sys2Proof

/-! ### Abandonment and RUNAWAY (R158–R161) -/

/-- A LO routine that has not committed, while a HI thread is READY: it is dropped, its thread READY to restart. -/
theorem routineAbandon_drops {l : Live} {k : Nat} {r : Routine} (h : running l k = some r) (lo : hiLane l (runChan k r) = false)
    (fresh : r.committed = false) (open' : r.protect = false) (div : r.div = none) (paused : (l.cluster k).paused = false)
    (slot : r.slot < 64) (hi : (firstReady l k true (l.cluster k).lastHi).isSome = true) :
    routineAbandon k l = ((l.updCluster k fun x => { x.loseRead with run := none, kept := some (runChan k r % 64) }).updChan (runChan k r) fun x =>
        { x with thread := .ready, restart := true, abandons := if x.abandons < 255 then x.abandons + 1 else 255 }).updCluster k
      fun x => { x with abandonCnt := x.abandonCnt + 1 } := by
  have own : runChan k r / 64 = k := by
    unfold runChan
    omega
  have waits : (firstReady l k true (l.cluster k).lastHi).isNone = false := by
    rw [← Option.not_isSome, hi]
    rfl
  simp [routineAbandon, h, lo, fresh, open', div, paused, waits, dropRoutine, own]

theorem routineAbandon_settles (s : State) (k : Fin 8) (r : Routine) (h : running s.live k = some r)
    (lo : hiLane s.live (runChan k r) = false) (fresh : r.committed = false) (open' : r.protect = false) (div : r.div = none)
    (paused : (s.live.cluster k).paused = false) (slot : r.slot < 64)
    (hi : (firstReady s.live k true (s.live.cluster k).lastHi).isSome = true) :
    Completes (.routineAbandon k) s fun t =>
      (t.live.cluster k).run = none ∧ (t.live.cluster k).kept = some (runChan k r % 64) ∧
      (t.live.cluster k).abandonCnt = (s.live.cluster k).abandonCnt + 1 ∧
      t.live.chan (runChan k r) = { s.live.chan (runChan k r) with
        thread := .ready, restart := true,
        abandons := if (s.live.chan (runChan k r)).abandons < 255 then (s.live.chan (runChan k r)).abandons + 1 else 255 } ∧
      (∀ d, d ≠ runChan k r → t.live.chan d = s.live.chan d) ∧ t.live.tpins = s.live.tpins ∧ t.live.irq = s.live.irq ∧
      SameMemory s t := by
  have effect := routineAbandon_drops h lo fresh open' div paused slot hi
  refine completes_apply (f := routineAbandon k) rfl ⟨?_, ?_, ?_, ?_, fun d other => ?_, ?_, ?_, sameMemory_apply ?_⟩
  · simp [effect]
  · simp [effect]
  · simp [effect, Cluster.loseRead]
  · simp [effect]
  · rw [apply_chan, effect]
    simp [updChan_ne _ _ other]
  all_goals simp [effect]

@[simp] theorem disarm_clusters (cause : Nat) (l : Live) : (disarm cause l).clusters = l.clusters := by
  have trips (mask c : Nat) (m : Live) : (tripPairs mask c m).clusters = m.clusters := by
    unfold tripPairs
    exact forAll_keeps Live.clusters (fun u m => by simp [tripPair, apply_ite Live.clusters]) _ m
  unfold disarm
  extract_lets w st w1 w2 noted idle tripped recorded
  have idle_clusters : idle.clusters = noted.clusters := forAll_keeps Live.clusters (fun u m => by simp) _ noted
  have kept : recorded.clusters = l.clusters := by simp [recorded, tripped, trips, idle_clusters, noted]
  split
  · rfl
  · split <;> simp [kept]

/-- Failsafe marks its cause in the channel's status (R101). -/
theorem goFailsafe_chan (cause c : Nat) (l : Live) : (goFailsafe cause c l).chan c =
    { l.chan c with cstat := clrMask (l.chan c).cstat 0x0780 ||| BitVec.ofNat 16 (0x80 + cause * 256) } := by
  have pins (n : Nat) (m : Live) : (drivePin n (m.updTpin n fun t => { t with failsafe := true })).channels = m.channels :=
    (drivePin_channels _ _).trans rfl
  unfold goFailsafe
  dsimp only
  rw [chan_of_channels (forAll_keeps Live.channels pins _ _), updChan_same]

/-- A routine that ends in RUNAWAY: its channel is in failsafe, the device disarmed (R159). -/
theorem enterRunaway_ends {l : Live} {k reason : Nat} {r : Routine} (run : (l.cluster k).run = some r) :
    let m := enterRunaway k reason l
    (m.cluster k).run = none ∧ (m.cluster k).status = setBit (l.cluster k).status 0 ∧
      (m.cluster k).runawayCnt = (l.cluster k).runawayCnt + 1 ∧ (m.chan (runChan k r)).thread = .runaway ∧
      (m.chan (runChan k r)).cstat.getLsbD 7 = true ∧ (m.chan (runChan k r)).sw = (l.chan (runChan k r)).sw ∧
      m.pwm.arm = .disarmed ∧ m.mem = l.mem := by
  intro m
  have mem : m.mem = l.mem := offEngines_mem (enterRunaway_offEngines k reason l)
  have effect : m = enterRunaway k reason l := rfl
  clear_value m
  simp only [enterRunaway, run] at effect
  generalize disarmed : reportJournal _ _ _ _ = p at effect
  generalize safe : goFailsafe _ _ _ = n at disarmed
  generalize marked : Live.updChan _ _ _ = q at safe
  have only : OnlyReports n p := disarmed ▸ reportJournal_only _ _ _ n
  obtain ⟨clusters, channels⟩ := reported_parts only
  have cluster : m.cluster k = q.cluster k := by
    unfold Live.cluster
    rw [effect, disarm_clusters, clusters, ← safe, (goFailsafe_parts _ _ _).1]
  have chan : m.chan (runChan k r) = (goFailsafe 2 (runChan k r) q).chan (runChan k r) := by
    rw [safe]
    unfold Live.chan
    rw [effect, disarm_channels, channels]
  rw [goFailsafe_chan] at chan
  rw [cluster, chan, mem, effect, disarm_arm, ← marked, (updChan_acc _ _ _).2.1, updCluster_same, updChan_same, (updCluster_acc _ _ _).1]
  refine ⟨rfl, rfl, rfl, rfl, ?_, rfl, rfl, rfl⟩
  rw [BitVec.getLsbD_or]
  simp

theorem runaway_ends (s : State) (k : Fin 8) (r : Routine) (h : running s.live k = some r) (div : r.div = none)
    (late : overBudget s.live k r = true) :
    Completes (.runaway k) s fun t =>
      (t.live.cluster k).run = none ∧ (t.live.cluster k).status = setBit (s.live.cluster k).status 0 ∧
      (t.live.cluster k).runawayCnt = (s.live.cluster k).runawayCnt + 1 ∧ (t.live.chan (runChan k r)).thread = .runaway ∧
      (t.live.chan (runChan k r)).cstat.getLsbD 7 = true ∧ (t.live.chan (runChan k r)).sw = (s.live.chan (runChan k r)).sw ∧
      t.live.pwm.arm = .disarmed ∧ SameMemory s t := by
  have effect : runawayStep k s.live = enterRunaway k 0 s.live := by
    simp [runawayStep, h, div, late]
  obtain ⟨idle, status, count, thread, safe, words, disarmed, mem⟩ := enterRunaway_ends (reason := 0) (cluster_run_of_running h)
  refine completes_apply (f := runawayStep k) rfl ⟨?_, ?_, ?_, ?_, ?_, ?_, ?_, sameMemory_apply ?_⟩
  · rw [apply_cluster, effect, idle]
  · rw [apply_cluster, effect, status]
  · rw [apply_cluster, effect, count]
  · rw [apply_chan, effect, thread]
  · rw [apply_chan, effect, safe]
  · rw [apply_chan, effect, words]
  · simp only [apply_keeps, effect, disarmed]
  · rw [effect, mem]

/-! ### Recovery and the scrubber (R170–R172) -/

@[simp] theorem putWord_offEngines (k addr : Nat) (w : Microword × Byte) (l : Live) : (putWord k addr w l).offEngines = l.offEngines := rfl

@[simp] theorem reloadBad_offEngines (k : Nat) (l : Live) : (reloadBad k l).offEngines = l.offEngines := by
  unfold reloadBad
  rw [updCluster_offEngines]
  exact forAll_offEngines (fun a m => by rw [apply_ite Live.offEngines, putWord_offEngines, ite_self]) (List.range 0x800) l

theorem offEngines_conf {l m : Live} (h : m.offEngines = l.offEngines) : m.conf = l.conf := congrArg (fun p : Live × (Nat → Bus) => p.1.conf) h

theorem resumeCluster_cluster (k : Nat) (l : Live) : ((resumeCluster k l).cluster k).recovery = none ∧
    ((resumeCluster k l).cluster k).state = if l.flag (0x2100 + k) 1 then 1 else 0 := by
  unfold resumeCluster
  rw [updCluster_same]
  exact ⟨rfl, rfl⟩

theorem mcRecoveryDone_resumes {l : Live} {k : Nat} {addr : BitVec 12} (h : (l.cluster k).recovery = some ⟨addr, 0⟩) (up : engineUp l k = true)
    (good : bitOf (l.cluster k).status.toNat 5 = false) (policy : l.cfg (0x4100 + k) 0x21 ≠ 1) (rom : BitVec 3) :
    ∃ m, mcRecoveryDone k true true rom l = resumeCluster k m ∧ m.offEngines = l.offEngines := by
  let m := writeRecord (mcSource k) 0x24 (0xF * 2 ^ 28 + addr.toNat) (reloadBad k (putWord k addr.toNat (recoveryWord l k addr.toNat) l))
  have kept : m.offEngines = l.offEngines := by
    unfold m
    rw [writeRecord_offEngines, reloadBad_offEngines, putWord_offEngines]
  have policy' : m.cfg (0x4100 + k) 0x21 ≠ 1 := by
    rw [cfg_of_conf (offEngines_conf kept)]
    exact policy
  refine ⟨m, ?_, kept⟩
  simp only [mcRecoveryDone, h]
  rw [if_neg (by simp [up]), if_neg (by simp), if_neg (by simp)]
  simp only [if_true]
  rw [if_neg (by rw [good]; exact Bool.false_ne_true), if_neg policy']

theorem recovery_ends (s : State) (k : Fin 8) (addr : BitVec 12) (rom : BitVec 3) (h : (s.live.cluster k).recovery = some ⟨addr, 0⟩)
    (up : engineUp s.live k = true) (good : bitOf (s.live.cluster k).status.toNat 5 = false) (policy : s.live.cfg (0x4100 + k.val) 0x21 ≠ 1) :
    Completes (.mcRecoveryDone k true true rom) s fun t =>
      (t.live.cluster k).recovery = none ∧ (t.live.cluster k).state = (if s.live.flag (0x2100 + k.val) 1 then 1 else 0) ∧
      SameMemory s t := by
  obtain ⟨m, effect, kept⟩ := mcRecoveryDone_resumes h up good policy rom
  obtain ⟨recovery, state⟩ := resumeCluster_cluster k m
  refine completes_apply (f := mcRecoveryDone k true true rom) rfl ⟨?_, ?_, sameMemory_apply ?_⟩
  · rw [apply_cluster, effect, recovery]
  · rw [apply_cluster, effect, state, show m.flag (0x2100 + k.val) 1 = s.live.flag (0x2100 + k.val) 1 by
      unfold Live.flag
      rw [cfg_of_conf (offEngines_conf kept)]]
  · rw [effect, ← offEngines_mem kept]
    simp [resumeCluster]

theorem scrub_passes (s : State) (k : Fin 8) (up : engineUp s.live k = true) (store : (s.live.cluster k).scrubPos < 0x800)
    (good : parityHolds (storeWordAt s.live k (s.live.cluster k).scrubPos) = true) :
    Completes (.scrubRead k none) s fun t =>
      t.live.cluster k = { s.live.cluster k with scrubPos := ((s.live.cluster k).scrubPos + 1) % 3072 } ∧
      t.live.channels = s.live.channels ∧ SameMemory s t := by
  have held : storeWordAt (s.live.updCluster k fun x => { x with scrubPos := ((s.live.cluster k).scrubPos + 1) % 3072 }) k
      (s.live.cluster k).scrubPos = storeWordAt s.live k (s.live.cluster k).scrubPos := by
    simp [storeWordAt]
  have effect : scrubRead k none s.live = s.live.updCluster k fun x => { x with scrubPos := ((s.live.cluster k).scrubPos + 1) % 3072 } := by
    simp [scrubRead, upsetStore, up, Nat.not_le.mpr store, held, good]
  refine completes_apply (f := scrubRead k none) rfl ⟨?_, ?_, sameMemory_apply ?_⟩
  · rw [apply_cluster, effect, updCluster_same]
  all_goals simp [effect]

theorem scrub_repairs (s : State) (k : Fin 8) (a : Nat) (r : List Nat) (up : engineUp s.live k = true)
    (bad : (s.live.cluster k).poisoned = a :: r) :
    Completes (.scrubRepairDone k true) s fun t =>
      (t.live.cluster k).poisoned = r ∧ t.live.channels = s.live.channels ∧ SameMemory s t := by
  have effect : scrubRepair k true s.live =
      (putWord k a (recoveryWord s.live k a) s.live).updCluster k (fun x => { x with poisoned := r }) := by
    simp [scrubRepair, bad, up]
  refine completes_apply (f := scrubRepair k true) rfl ⟨?_, ?_, sameMemory_apply ?_⟩
  · rw [apply_cluster, effect, updCluster_same]
  all_goals simp [effect, putWord]

/-! ### The load figure (R167) -/

/-- The load of a busy time, where it fits its register (R167; the rounding is log entry 5's). -/
def loadFigure (busy : Nat) : Nat := (divFree ((busy * 65536 : Nat) : Int) 2000000).toNat

/-- The load figure of a cluster is written, its busy time begins anew. -/
def Measured (x y : Cluster) : Prop := y.busy = 0 ∧ (loadFigure x.busy < 65536 → y.load = BitVec.ofNat 16 (loadFigure x.busy))

theorem loadOne_measures (k : Nat) (l : Live) : Measured (l.cluster k) ((loadOne k l).cluster k) := by
  unfold loadOne
  dsimp only
  rw [updCluster_same]
  exact ⟨rfl, fun fits => if_pos fits⟩

theorem loadOne_other {j k : Nat} (other : k ≠ j) (l : Live) : (loadOne j l).cluster k = l.cluster k := by
  unfold loadOne
  dsimp only
  rw [updCluster_ne _ _ other]
  split <;> rfl

theorem loadOne_mem (k : Nat) (l : Live) : (loadOne k l).mem = l.mem := by
  unfold loadOne
  dsimp only
  split <;> rfl

theorem forAll_loadOne_other {k : Nat} (js : List Nat) (l : Live) (out : k ∉ js) : (forAll loadOne js l).cluster k = l.cluster k := by
  induction js generalizing l with
  | nil => rfl
  | cons j js ih =>
    obtain ⟨here, later⟩ := not_or.mp fun h => out (List.mem_cons.mpr h)
    exact (ih _ later).trans (loadOne_other here l)

/-- A pass over different clusters measures each of them once. -/
theorem forAll_loadOne {k : Nat} {js : List Nat} (once : js.Nodup) (l : Live) (inside : k ∈ js) :
    Measured (l.cluster k) ((forAll loadOne js l).cluster k) := by
  induction js generalizing l with
  | nil => exact absurd inside List.not_mem_nil
  | cons j js ih =>
    obtain ⟨out, once'⟩ := List.nodup_cons.mp once
    show Measured _ ((forAll loadOne js (loadOne j l)).cluster k)
    by_cases here : k = j
    · subst here
      rw [forAll_loadOne_other _ _ out]
      exact loadOne_measures k l
    · have later := ih once' (loadOne j l) ((List.mem_cons.mp inside).resolve_left here)
      rw [loadOne_other here] at later
      exact later

theorem load_measured (s : State) (up : schedUp s.live = true) :
    Completes .loadMeasure s fun t => ∀ k : Fin 8,
      (t.live.cluster k).busy = 0 ∧
      ((divFree (((s.live.cluster k).busy * 65536 : Nat) : Int) 2000000).toNat < 65536 →
        (t.live.cluster k).load = BitVec.ofNat 16 (divFree (((s.live.cluster k).busy * 65536 : Nat) : Int) 2000000).toNat) ∧
      SameMemory s t := by
  refine completes_apply (f := fun l => if schedUp l then forAll loadOne (List.range 8) l else l) rfl fun k => ?_
  obtain ⟨busy, load⟩ := forAll_loadOne List.nodup_range s.live (List.mem_range.mpr k.isLt)
  have mem := forAll_keeps Live.mem loadOne_mem (List.range 8) s.live
  generalize effect : forAll loadOne (List.range 8) s.live = m at *
  have effect' : (if schedUp s.live then forAll loadOne (List.range 8) s.live else s.live) = m := (if_pos up).trans effect
  refine ⟨?_, fun fits => ?_, sameMemory_apply ?_⟩
  · rw [apply_cluster, effect', busy]
  · rw [apply_cluster, effect']
    exact load fits
  · rw [effect', mem]

/-! ### Images and their activation (R176–R178) -/

theorem image_written (s : State) (conn : Conn) (data : List Byte) (reaches : Reaches conn 0x5E31 1 s)
    (state : s.live.net.nmt = nmtPre ∨ s.live.net.nmt = nmtOp) (free : s.live.micro.todo = []) (short : data.length ≤ 278528) :
    Completes (.microcodeImageWrite conn data) s fun t =>
      (if s.live.micro.activeCopy = 0 then t.live.mram.microB else t.live.mram.microA) = data ∧
      t.live.micro.accepted = microImageOk data ∧ t.live.clusters = s.live.clusters ∧ AnsweredDone conn t ∧ SameMemory s t := by
  have touched : (touch conn s.live).micro = s.live.micro ∧ (touch conn s.live).net.nmt = s.live.net.nmt ∧
      (touch conn s.live).mram = s.live.mram ∧ (touch conn s.live).clusters = s.live.clusters ∧ (touch conn s.live).mem = s.live.mem :=
    ⟨rfl, rfl, rfl, rfl, rfl⟩
  obtain ⟨micro, nmt, mram, clusters, mem⟩ := touched
  have allowed : ¬((touch conn s.live).net.nmt ≠ nmtPre ∧ (touch conn s.live).net.nmt ≠ nmtOp) := by
    rw [nmt]
    exact fun h => state.elim h.1 h.2
  obtain ⟨m, effect, hmram, hmicro, hclusters, hmem⟩ : ∃ m : Live, microImageWrite data (touch conn s.live) = (m, 0) ∧
      (if s.live.micro.activeCopy = 0 then m.mram.microB else m.mram.microA) = data ∧ m.micro.accepted = microImageOk data ∧
      m.clusters = s.live.clusters ∧ m.mem = s.live.mem := by
    generalize touch conn s.live = l at *
    have served' : ((decide (l.net.nmt ≠ nmtPre) && decide (l.net.nmt ≠ nmtOp)) || !l.micro.todo.isEmpty) = false := by
      rw [micro, free]
      simpa using allowed
    refine ⟨_, (if_neg (by rw [served']; exact Bool.false_ne_true)).trans (if_neg (by omega)), ?_, rfl, clusters, mem⟩
    show (if s.live.micro.activeCopy = 0 then (if spareCopy l = 1 then { l.mram with microB := data } else { l.mram with microA := data }).microB
      else (if spareCopy l = 1 then { l.mram with microB := data } else { l.mram with microA := data }).microA) = data
    unfold spareCopy
    rw [micro]
    by_cases zero : s.live.micro.activeCopy = 0
    · simp only [if_pos zero, if_true]
    · simp only [if_neg zero]
      rw [if_neg (by decide)]
  refine completes_object rfl reaches effect ⟨?_, ?_, ?_, answeredDone_reply _ _ _, sameMemory_reply hmem⟩
  · simpa using hmram
  · simpa using hmicro
  · simpa using hclusters

/-- An activation that may go on begins with the first cluster of the image: it pauses. -/
theorem microActivate_begins {l : Live} {k : Nat} {ks : List Nat} (free : l.micro.todo = []) (accepted : activateReason l = 0)
    (some_ : (List.range 8).filter (fun k => bitOf (imgMask (microCopy l (spareCopy l))) k) = k :: ks) :
    microActivate l =
      (({ l with micro := { l.micro with status := 4, todo := k :: ks } } : Live).updCluster k fun x => { x with paused := true }, 0) := by
  unfold microActivate
  dsimp only
  rw [if_neg (by simp [free]), if_neg (by simp [accepted]), some_]
  rfl

theorem activation_begins (s : State) (conn : Conn) (k : Nat) (ks : List Nat) (reaches : Reaches conn 0x5E31 2 s)
    (free : s.live.micro.todo = []) (accepted : activateReason s.live = 0)
    (some_ : (List.range 8).filter (fun k => bitOf (imgMask (microCopy s.live (spareCopy s.live))) k) = k :: ks) :
    Completes (.microcodeActivate conn) s fun t =>
      t.live.micro.todo = k :: ks ∧ t.live.micro.status = 4 ∧ (t.live.cluster k).paused = true ∧ AnsweredDone conn t ∧
      SameMemory s t := by
  have effect := microActivate_begins (l := touch conn s.live) free accepted some_
  refine completes_object rfl reaches effect ⟨?_, ?_, ?_, answeredDone_reply _ _ _, sameMemory_reply ?_⟩
  · simp
  · simp
  · simp
  · simp

theorem swapThreads_keeps (k : Nat) (l : Live) : (swapThreads k l).clusters = l.clusters ∧ (swapThreads k l).rst = l.rst ∧
    (swapThreads k l).mem = l.mem := by
  have swap (i : Nat) (m : Live) (f : Channel → Channel) : (m.updChan (64 * k + i) f).clusters = m.clusters ∧
      (m.updChan (64 * k + i) f).rst = m.rst ∧ (m.updChan (64 * k + i) f).mem = m.mem := by simp
  unfold swapThreads
  exact ⟨forAll_keeps Live.clusters (fun i m => (swap i m _).1) (List.range 64) l,
    forAll_keeps Live.rst (fun i m => (swap i m _).2.1) (List.range 64) l, forAll_keeps Live.mem (fun i m => (swap i m _).2.2) (List.range 64) l⟩

/-- The end of an activation, or the pause of its next cluster. -/
theorem activationNext_parts (rest : List Nat) (k : Nat) (l : Live) : (activationNext rest l).micro.todo = rest ∧
    ((activationNext rest l).cluster k).status = (l.cluster k).status ∧ (activationNext rest l).mem = l.mem := by
  cases rest with
  | nil =>
    unfold activationNext activationEnd
    extract_lets c b unit m
    have told (j : Nat) (x : Live) : (if bitOf (imgMask b) j then writeRecord (mcSource j) 0x24 (0xE * 2 ^ 28 + imgGen b) x else x).offEngines
        = x.offEngines := by
      rw [apply_ite Live.offEngines, writeRecord_offEngines, ite_self]
    have cores (j : Nat) (x : Live) : (if bitOf (imgMask b) j then writeRecord (mcSource j) 0x24 (0xE * 2 ^ 28 + imgGen b) x else x).cores
        = x.cores := by
      rw [apply_ite Live.cores, writeRecord_cores, ite_self]
    have off := forAll_offEngines told (List.range 8) m
    have same := forAll_keeps Live.cores cores (List.range 8) m
    generalize forAll _ (List.range 8) m = n at off same
    rw [offEngines_micro off, cores_cluster same, offEngines_mem off]
    exact ⟨rfl, rfl, rfl⟩
  | cons j ks =>
    unfold activationNext
    refine ⟨by simp, ?_, by simp⟩
    by_cases here : k = j
    · subst here
      rw [updCluster_same]
      rfl
    · rw [updCluster_ne _ _ here]
      rfl

theorem activation_goes_on (s : State) (k : Nat) (rest : List Nat) (up : coreUp s.live = true) (todo : s.live.micro.todo = k :: rest)
    (idle : (s.live.cluster k).run = none) :
    Completes (.activationClusterDone true) s fun t =>
      t.live.micro.todo = rest ∧ (t.live.cluster k).status.getLsbD 4 = true ∧ SameMemory s t := by
  let swapped := swapThreads k (loadStore (spareCopy s.live) k s.live)
  let stored := (noteBit (0x3100 + k) 3 4 swapped).updCluster k (fun x => { x with paused := false, status := setBit x.status 4 })
  let resumed := if bitOf (s.live.cluster k).status.toNat 5 && !bitOf (s.live.cluster k).status.toNat 6 then resumeCluster k stored else stored
  obtain ⟨-, rst, mem⟩ := swapThreads_keeps k (loadStore (spareCopy s.live) k s.live)
  have paused (m : Live) (f : Cluster → Cluster) : ((noteBit (0x3100 + k) 3 4 m).updCluster k f).rst = m.rst ∧
      ((noteBit (0x3100 + k) 3 4 m).updCluster k f).mem = m.mem := by simp
  have loaded : (loadStore (spareCopy s.live) k s.live).rst = s.live.rst ∧ (loadStore (spareCopy s.live) k s.live).mem = s.live.mem := by
    simp [loadStore]
  have storedUp : coreUp stored = coreUp s.live := by
    unfold coreUp domainUp
    rw [(paused swapped _).1, rst, loaded.1]
  have storedMem : stored.mem = s.live.mem := by rw [(paused swapped _).2, mem, loaded.2]
  have storedBit : (stored.cluster k).status.getLsbD 4 = true := by
    unfold stored
    rw [updCluster_same]
    exact setBit_same _ (by decide)
  have effect : activationDone true s.live = if coreUp resumed then activationNext rest resumed else resumed := by
    simp only [activationDone, todo, idle]
    rfl
  clear_value stored
  have kept : coreUp resumed = true ∧ resumed.mem = s.live.mem ∧ (resumed.cluster k).status.getLsbD 4 = true := by
    unfold resumed
    split
    · refine ⟨storedUp.trans up, storedMem, ?_⟩
      unfold resumeCluster
      rw [updCluster_same]
      simpa [clrBit, clrMask] using storedBit
    · exact ⟨storedUp.trans up, storedMem, storedBit⟩
  obtain ⟨up', mem', bit⟩ := kept
  rw [if_pos up'] at effect
  obtain ⟨todo', status, mem''⟩ := activationNext_parts rest k resumed
  have effect' : (if coreUp s.live then activationDone true s.live else s.live) = activationNext rest resumed := (if_pos up).trans effect
  refine completes_apply (f := fun l => if coreUp l then activationDone true l else l) rfl ⟨?_, ?_, sameMemory_apply ?_⟩
  · simp only [apply_keeps, effect', todo']
  · rw [apply_cluster, effect', status, bit]
  · rw [effect', mem'', mem']

/-- Settles O14, a lemma for each clause. The copy written where none is active and the rounding of the load figure are the model's choice
(log entries 49 and 5). -/
theorem engineUpkeepComplete : Obligations.EngineUpkeepComplete := by
  exact ⟨routineAbandon_settles, runaway_ends, fun s k addr rom h up good policy => recovery_ends s k addr rom h up good policy, scrub_passes,
    scrub_repairs, load_measured, image_written, activation_begins, activation_goes_on⟩

end Sys2Proof.Machine

/-! The actions of event entries (R184, R185). -/

namespace Sys2Proof.Machine

open Sys2Proof

section

variable {i : Instr} {s : State} {f : Live → Live} {P : State → Prop}

/-- An action of a queue, while the core runs. -/
theorem completes_action (run : exec i s = queueAction f s) (up : schedUp s.live = true) (h : P (s.apply f)) : Completes i s P := by
  refine completes_apply run ?_
  rw [apply_congr (f := fun l => if schedUp l then f l else l) (g := f) (s := s) (if_pos up)]
  exact h

end

/-! ### Pins (R185) -/

theorem drivePin_latch (n : Nat) (l : Live) : ((drivePin n l).tpin n).latch = (l.tpin n).latch := by
  rw [drivePin_tpin]
  split <;> rfl

@[simp] theorem drivePin_mem (n : Nat) (l : Live) : (drivePin n l).mem = l.mem := offEngines_mem (drivePin_offEngines _ _)

/-- A T-pin that its own latch drives: the action is done on the latch. -/
theorem actPin_latch {q n fine : Nat} {a : PinAct} {l : Live} (own : driverOf l n = 0xFFFE) :
    ((actPin q n fine a l).tpin n).latch = applyAct a (l.tpin n).latch ∧ (actPin q n fine a l).channels = l.channels ∧
      (actPin q n fine a l).mem = l.mem := by
  have effect : actPin q n fine a l = drivePin n (l.updTpin n (fun t => { t with latch := applyAct a t.latch })) := by
    simp [actPin, own]
  rw [effect, drivePin_latch, updTpin_same, drivePin_channels, drivePin_mem]
  simp

/-- A pin action that comes first in its TCLK acts on OUT as it stands. -/
theorem pinAction_first (c fine writer : Nat) (a : PinAct) (l : Live) (h : (l.chan c).outTclk ≠ l.now) :
    ((pinAction c fine writer a l).chan c).out = applyAct a (l.chan c).out := by
  unfold pinAction
  extract_lets x same base acts out y z m
  have once : ¬same := h
  have set : out = applyAct a x.out := by simp [out, acts, base, once, insertAct]
  rw [chan_of_channels (drivePins_channels _ _), setChan_same]
  show z.out = applyAct a x.out
  unfold z
  split <;> exact set

/-- A T-pin that a channel drives: the action is done on the channel's output. -/
theorem actPin_channel {q n fine : Nat} {a : PinAct} {l : Live} (drives : driverOf l n < 512) (on : blockHeld l (driverOf l n / 64) = false)
    (first : (l.chan (driverOf l n)).outTclk ≠ l.now) :
    ((actPin q n fine a l).chan (driverOf l n)).out = applyAct a (l.chan (driverOf l n)).out ∧ (actPin q n fine a l).mem = l.mem := by
  have effect : actPin q n fine a l = pinAction (driverOf l n) fine 3 a l := by
    simp [actPin, on, show ¬driverOf l n = 0xFFFF by omega, show ¬driverOf l n = 0xFFFE by omega]
  rw [effect, pinAction_first _ _ _ _ _ first]
  exact ⟨rfl, offEngines_mem (pinAction_offEngines _ _ _ _ _)⟩

/-! ### Records and what the end of a command writes beside them (R362) -/

/-- The records of a log unit that wait. -/
def Live.waitingOf (u : Nat) (l : Live) : List LogRec := l.log.waiting.get [] u

theorem waitingOf_of_log {l m : Live} {u : Nat} (h : m.log = l.log) : m.waitingOf u = l.waitingOf u := by
  unfold Live.waitingOf
  rw [h]

theorem writeRecord_other {u src kind payload : Nat} (l : Live) (other : u ≠ src % 2 ^ 16 / 64) :
    (writeRecord src kind payload l).waitingOf u = l.waitingOf u := by
  unfold writeRecord writeRecordAt
  split
  · rfl
  · extract_lets r v w
    have apart : u ≠ v := by
      unfold v r logUnitOf
      rw [BitVec.toNat_ofNat]
      exact other
    split
    · exact SMap.get_put_ne _ _ _ apart
    · unfold lose
      dsimp only
      split
      · rfl
      · split <;> rfl

theorem emcyOnBus_waiting (data : List Byte) (b u : Nat) (l : Live) : (emcyOnBus data b l).waitingOf u = l.waitingOf u := by
  unfold emcyOnBus
  dsimp only
  split
  · split
    · rfl
    · split <;> rfl
  · rfl

theorem emcy_other {u code src payload : Nat} (l : Live) (other : u ≠ src % 2 ^ 16 / 64) : (emcy code src payload l).waitingOf u = l.waitingOf u := by
  unfold emcy
  extract_lets unit sticky reg errs unit' m data
  rw [forAll_keeps (Live.waitingOf u) (fun b x => emcyOnBus_waiting data b u x) [0, 1], writeRecord_other m other]
  show sticky.waitingOf u = l.waitingOf u
  unfold sticky
  split <;> rfl

theorem journalEntry_other {u src kind payload code : Nat} (l : Live) (other : u ≠ 962) :
    (journalEntry src kind payload code l).waitingOf u = l.waitingOf u := by
  have kept : (journal src kind payload code l).waitingOf u = l.waitingOf u := waitingOf_of_log (by rw [journal_only])
  unfold journalEntry
  split
  · exact kept
  · exact (emcy_other (code := 0xFF14) (src := 0xF080) (payload := 0) _ other).trans kept

/-- The units of the event table are not those in which the end of a command may write. -/
theorem apply_waiting (f : Live → Live) (s : State) {u : Nat} (low : 576 ≤ u) (high : u < 592) :
    (s.apply f).live.waitingOf u = (f s.live).waitingOf u := by
  have loss (before : Byte) (l : Live) : (lossReport before l).waitingOf u = l.waitingOf u := by
    unfold lossReport
    split
    · rfl
    · rw [journalEntry_other _ (by omega), emcy_other _ (by omega)]
  have err (l : Live) : (errSettle l).waitingOf u = l.waitingOf u := by
    unfold errSettle
    extract_lets reg
    split
    · rw [forAll_keeps (Live.waitingOf u) (fun b x => emcyOnBus_waiting _ b u x) [0, 1], writeRecord_other _ (by omega)]
      rfl
    · rfl
  have wipe (t : State) : (wipeBanks t).live.waitingOf u = t.live.waitingOf u := by
    unfold wipeBanks
    split <;> rfl
  have hold (t : State) : (settleHold t).live.waitingOf u = t.live.waitingOf u := by
    unfold settleHold
    dsimp only
    split <;> rfl
  have wrap (l : Live) : (seqWrap l).waitingOf u = l.waitingOf u := by
    unfold seqWrap
    split
    · rw [writeRecord_other _ (by omega)]
      rfl
    · rfl
  have snap (t : State) : (settleSnap s.start t).live.waitingOf u = t.live.waitingOf u := by
    unfold settleSnap
    split
    · rfl
    · split
      · rfl
      · split
        · rfl
        · exact wrap t.live
  unfold State.apply
  rw [snap, hold, wipe]
  exact (err _).trans (loss _ _)

/-- A record of a unit with room waits behind the unit's others. -/
theorem writeRecord_waits {l : Live} {src kind payload : Nat} (on : l.logOn = true) (small : src < 2 ^ 16)
    (room : (l.waitingOf (src / 64)).length < 16) :
    (writeRecord src kind payload l).waitingOf (src / 64) =
      l.waitingOf (src / 64) ++ [⟨BitVec.ofNat 16 src, BitVec.ofNat 8 kind, BitVec.ofNat 32 payload, BitVec.ofNat 64 l.now⟩] := by
  have unit' : logUnitOf (BitVec.ofNat 16 src) = src / 64 := by
    unfold logUnitOf
    rw [BitVec.toNat_ofNat, Nat.mod_eq_of_lt small]
  unfold writeRecord writeRecordAt
  rw [if_neg (by simp [on])]
  dsimp only
  rw [unit', if_pos (show (SMap.get [] l.log.waiting (src / 64)).length < 16 from room)]
  exact SMap.get_put_same _ _ _ _

/-! ### The other targets (R184) -/

theorem ssiRequest_keeps (n : Nat) (l : Live) : (ssiRequest n l).events = l.events ∧ (ssiRequest n l).mem = l.mem := by
  unfold ssiRequest
  extract_lets p busy q
  split
  · exact ⟨rfl, rfl⟩
  · split
    · simp
    · split
      · simp
      · simp [fbFault]

theorem dmaSoft_keeps (c : Nat) (l : Live) : (dmaSoft c l).events = l.events ∧ (dmaSoft c l).mem = l.mem := by
  unfold dmaSoft
  split
  · exact ⟨rfl, rfl⟩
  · split <;> simp

theorem actFlags_flags {q e : Nat} (m n : Byte) {l : Live} (up : unitUp (0x30 + e) l = true) :
    ((actFlags q e m n l).pe e).flags = clearedFlags l (l.pe e) n ||| m ∧ (actFlags q e m n l).events = l.events ∧
      (actFlags q e m n l).mem = l.mem := by
  have on : blockHeld l (0x30 + e) = false := by
    simp only [unitUp, Bool.and_eq_true, Bool.not_eq_true'] at up
    exact up.2
  have up' : unitUp (peUnit e) (l.updPe e fun x => { x with flags := clearedFlags l x n }) = true := up
  have effect : actFlags q e m n l = peSetFlags e m (l.updPe e fun x => { x with flags := clearedFlags l x n }) := by
    simp [actFlags, on, peClearFlags, show unitUp (peUnit e) l = true from up]
  rw [effect]
  unfold peSetFlags
  rw [if_neg (by rw [up']; decide)]
  dsimp only
  rw [setPe_same, updPe_same]
  simp

/-- A commit that a queue triggers (R76, R184). -/
theorem actCommit_commits {q g : Nat} {l : Live} (armed : groupArmed l g = true) (trigger : l.cfg (0x2C00 + g) 1 = 1)
    (free : memberHeld l g = false) (rules : commitBreaks l g = false) : actCommit q g l = commitGroup g false l := by
  have state : ¬(l.group g).state ≠ .armed := by
    unfold groupArmed at armed
    simpa using armed
  simp [actCommit, armed, trigger, triggerGroup, state, free, rules]

/-- An overlay that a queue applies (R184, R435). -/
theorem actOverlay_applies {q slot : Nat} {l : Live} (used : slot = 0 ∨ slotUsed l slot = true) (valid : (overlayReason slot l).1 = 0) :
    actOverlay q slot l = overlayCommit slot 2 (overlayReason slot l).2 l := by
  have target : (decide (slot ≠ 0) && !slotUsed l slot) = false := by
    rcases used with zero | used
    · simp [zero]
    · simp [used]
  unfold actOverlay
  rw [target, if_neg Bool.false_ne_true]
  unfold applyOverlay
  dsimp only
  rw [if_pos valid]

/-- Settles O18: each action as its own effect, a target that is not there by `noTarget`. -/
theorem eventActionsComplete : Obligations.EventActionsComplete := by
  intro s q up
  refine ⟨fun c on => ?_, fun n fine own => ?_, fun n fine drives on first => ?_, fun g armed trigger free rules => ?_,
    fun n on unit enabled free idle => ?_, fun n mode on => ?_, fun slot used valid => ?_, fun c runs on => ?_, fun c stopped => ?_,
    fun e m n on => ?_, fun arg on room => ?_, fun copying waiting => ?_⟩
  · have effect : actKick q c s.live = raiseReq c 0x40 s.live := if_neg (by rw [on]; decide)
    refine completes_action (f := actKick q c) rfl up ⟨?_, ?_, sameMemory_apply ?_⟩
    · rw [apply_chan, effect, raiseReq_chan]
      rfl
    · simp only [apply_keeps, effect, raiseReq, updChan_keeps]
    · rw [effect, raiseReq]
      simp
  · have act (a : PinAct) : ((s.apply (actPin q n fine.toNat a)).live.tpin n).latch = applyAct a (s.live.tpin n).latch ∧
        (s.apply (actPin q n fine.toNat a)).live.channels = s.live.channels ∧ SameMemory s (s.apply (actPin q n fine.toNat a)) := by
      obtain ⟨latch, channels, mem⟩ := actPin_latch (q := q) (fine := fine.toNat) (a := a) own
      rw [apply_tpin]
      refine ⟨latch, ?_, sameMemory_apply mem⟩
      simp only [apply_keeps]
      exact channels
    exact ⟨completes_action (f := actPin q n fine.toNat .set) rfl up (act _), completes_action (f := actPin q n fine.toNat .clear) rfl up (act _),
      completes_action (f := actPin q n fine.toNat .toggle) rfl up (act _)⟩
  · have act (a : PinAct) : ((s.apply (actPin q n fine.toNat a)).live.chan (driverOf s.live n)).out =
        applyAct a (s.live.chan (driverOf s.live n)).out ∧ SameMemory s (s.apply (actPin q n fine.toNat a)) := by
      obtain ⟨out, mem⟩ := actPin_channel (q := q) (fine := fine.toNat) (a := a) drives on first
      rw [apply_chan]
      exact ⟨out, sameMemory_apply mem⟩
    exact ⟨completes_action (f := actPin q n fine.toNat .set) rfl up (act _), completes_action (f := actPin q n fine.toNat .clear) rfl up (act _),
      completes_action (f := actPin q n fine.toNat .toggle) rfl up (act _)⟩
  · have effect : actCommit q g s.live = commitGroup g false s.live := actCommit_commits armed trigger free rules
    obtain ⟨-, gen, state, staged, -, -, -, -⟩ := commitGroup_done g false s.live
    refine completes_action (f := actCommit q g) rfl up ⟨?_, ?_, ?_⟩
    · rw [apply_group, effect, state]
    · rw [apply_group, effect, staged]
    · rw [apply_conf, effect, gen]
  · have began : seqStart n (pclkAt s.live.now) s.live = beginPass n (pclkAt s.live.now) s.live := seqStart_begins unit enabled free idle
    have effect : actSequence q n s.live = beginPass n (pclkAt s.live.now) s.live := by
      unfold actSequence
      dsimp only
      rw [began]
      exact if_neg (by rw [show blockHeld (beginPass n (pclkAt s.live.now) s.live) 0x18 = blockHeld s.live 0x18 from rfl, on]; decide)
    obtain ⟨⟨p, run, step, started, -⟩, notBefore, -, -⟩ := beginPass_begins n (pclkAt s.live.now) s.live
    refine completes_action (f := actSequence q n) rfl up ⟨⟨p, ?_, step, started⟩, ?_, sameMemory_apply ?_⟩
    · rw [apply_seq, effect, run]
    · rw [apply_seq, effect, notBefore]
    · rw [effect]
      rfl
  · have effect : actSsi q n s.live = ssiRequest n s.live := if_neg (by rw [mode, on]; decide)
    obtain ⟨events, mem⟩ := ssiRequest_keeps n s.live
    refine completes_action (f := actSsi q n) rfl up ⟨?_, ?_, sameMemory_apply ?_⟩
    · rw [apply_port, effect]
    · simp only [apply_keeps, effect, events]
    · rw [effect, mem]
  · have effect : actOverlay q slot s.live = _ := actOverlay_applies used valid
    have applied := overlayCommit_applied slot 2 (overlayReason slot s.live).2 s.live
    generalize overlayCommit slot 2 (overlayReason slot s.live).2 s.live = m at effect applied
    obtain ⟨active, -, -, ovl, -⟩ := by
      simpa only [ConfUnit.applied, Prod.mk.injEq] using applied
    refine completes_action (f := actOverlay q slot) rfl up ⟨?_, ?_⟩
    · rw [apply_conf, effect, active]
    · rw [apply_conf, effect, ovl]
  · have effect : actDma q c s.live = dmaSoft c s.live := if_neg (by rw [runs, on]; decide)
    obtain ⟨events, mem⟩ := dmaSoft_keeps c s.live
    refine completes_action (f := actDma q c) rfl up ⟨?_, ?_, sameMemory_apply ?_⟩
    · rw [apply_dc, effect]
    · simp only [apply_keeps, effect, events]
    · rw [effect, mem]
  · have effect : actDma q c s.live = noTarget q s.live := if_pos (by simp [stopped])
    refine completes_action (f := actDma q c) rfl up ⟨?_, ?_, ?_, sameMemory_apply ?_⟩
    · rw [apply_dc, effect]
      rfl
    · rw [apply_queue, effect, noTarget, queueFault, updQueue_same]
      rfl
    · rw [apply_queue, effect, noTarget, queueFault, updQueue_same]
      rfl
    · rw [effect]
      rfl
  · obtain ⟨flags, events, mem⟩ := actFlags_flags (q := q) m n on
    refine completes_action (f := actFlags q e m n) rfl up ⟨?_, ?_, sameMemory_apply mem⟩
    · rw [apply_pe, flags]
    · simp only [apply_keeps, events]
  · have source : (0x9000 + 0x40 * q.val) / 64 = 576 + q.val := by omega
    have waits := writeRecord_waits (l := s.live) (src := 0x9000 + 0x40 * q.val) (kind := 0x33) (payload := arg.toNat) on (by omega)
      (by rw [source]; exact room)
    rw [source] at waits
    refine completes_action (f := actMark q arg.toNat) rfl up ⟨?_, sameMemory_apply ?_⟩
    · refine (apply_waiting (actMark q arg.toNat) s (by omega) (by omega)).trans (waits.trans ?_)
      simp [Live.waitingOf, Live.now]
    · exact offEngines_mem (writeRecord_offEngines _ _ _ _)
  · obtain ⟨filling, -, -, -⟩ := apply_takes (s := s) (f := wantSnapshot) rfl copying waiting
    refine completes_action (f := wantSnapshot) rfl up ?_
    rw [filling]
    rfl

end Sys2Proof.Machine

/-! The event table: entries that leave it, flush, the scheduler (R185, R186, R195, R196, R202, R208). -/

namespace Sys2Proof.Machine

open Sys2Proof

/-! ### Taking an entry out (R186, R202) -/

/-- A queue but for its order. -/
def Live.counts (q : Nat) (l : Live) : EvQueue := { l.queue q with order := [] }

/-- An entry has no place in the insert FIFO, and none before it. -/
def Unqueued (e : Nat) (l : Live) : Prop := e ∉ l.events.fifo ∧ e ∉ l.events.waiting

theorem admitWaiting_keeps (l : Live) : (admitWaiting l).events.entries = l.events.entries ∧
    (admitWaiting l).events.queues = l.events.queues ∧ (admitWaiting l).events.listing = l.events.listing ∧
    (admitWaiting l).events.slotAt = l.events.slotAt := by
  unfold admitWaiting
  split
  · split <;> exact ⟨rfl, rfl, rfl, rfl⟩
  · exact ⟨rfl, rfl, rfl, rfl⟩

theorem admitWaiting_unqueued {e : Nat} {l : Live} (h : Unqueued e l) : Unqueued e (admitWaiting l) := by
  obtain ⟨fifo, waiting⟩ := h
  unfold admitWaiting
  split
  · rename_i x r first
    rw [first, List.mem_cons, not_or] at waiting
    split
    · exact ⟨fifo, by rw [first, List.mem_cons, not_or]; exact waiting⟩
    · refine ⟨fun inside => ?_, waiting.2⟩
      rcases List.mem_append.mp inside with old | new
      · exact fifo old
      · exact waiting.1 (List.mem_singleton.mp new)
  · exact ⟨fifo, waiting⟩

section

variable (e : Nat) (l : Live)

/-- What an entry's removal from the lists leaves before the next insert is admitted. -/
theorem unlist_parts : ∃ m : Live, unlist e l = admitWaiting m ∧ m.events.entries = l.events.entries ∧
    m.events.queues = (l.updQueue (l.entry e).queue fun x => { x with order := x.order.filter (· ≠ e) }).events.queues ∧
    m.events.listing = l.events.listing ∧ m.events.slotAt = l.events.slotAt ∧ m.events.fifo = l.events.fifo.filter (· ≠ e) ∧
    m.events.waiting = l.events.waiting.filter (· ≠ e) :=
  ⟨_, rfl, rfl, rfl, rfl, rfl, rfl, rfl⟩

theorem unlist_entry (j : Nat) : (unlist e l).entry j = l.entry j := by
  obtain ⟨m, effect, entries, -⟩ := unlist_parts e l
  unfold Live.entry
  rw [effect, (admitWaiting_keeps m).1, entries]

theorem unlist_counts (q : Nat) : (unlist e l).counts q = l.counts q := by
  obtain ⟨m, effect, -, queues, -⟩ := unlist_parts e l
  have queue : (unlist e l).queue q = (l.updQueue (l.entry e).queue fun x => { x with order := x.order.filter (· ≠ e) }).queue q := by
    unfold Live.queue
    rw [effect, (admitWaiting_keeps m).2.1, queues]
  unfold Live.counts
  rw [queue]
  by_cases own : q = (l.entry e).queue
  · rw [own, updQueue_same]
  · rw [updQueue_ne _ _ own]

theorem unlist_slot : (unlist e l).events.listing = l.events.listing ∧ (unlist e l).events.slotAt = l.events.slotAt := by
  obtain ⟨m, effect, -, -, listing, slot, -⟩ := unlist_parts e l
  rw [effect, (admitWaiting_keeps m).2.2.1, (admitWaiting_keeps m).2.2.2]
  exact ⟨listing, slot⟩

/-- The entry taken out has no place in the engine, and no other gets one. -/
theorem unlist_unqueued (j : Nat) (h : j = e ∨ Unqueued j l) : Unqueued j (unlist e l) := by
  obtain ⟨m, effect, -, -, -, -, fifo, waiting⟩ := unlist_parts e l
  rw [effect]
  refine admitWaiting_unqueued ?_
  unfold Unqueued
  rw [fifo, waiting, List.mem_filter, List.mem_filter]
  rcases h with same | ⟨out, out'⟩
  · simp [same]
  · exact ⟨fun inside => out inside.1, fun inside => out' inside.1⟩

/-- What a freed entry is then: wiped, or leaving while its queue is being listed. -/
def Live.freed (l : Live) (e : Nat) : EvEntry :=
  if listed l (l.entry e).queue then { (l.entry e).withdraw with phase := .leaving } else {}

theorem freeEntry_frees (used : (l.entry e).phase ≠ .free) : freeEntry e l = (unlist e l).setEntry e (l.freed e) := by
  have same : listed (unlist e l) (l.entry e).queue = listed l (l.entry e).queue := by
    unfold listed
    rw [(unlist_slot e l).1]
  unfold freeEntry Live.freed
  dsimp only
  rw [if_neg used, same]
  split <;> rfl

theorem freeEntry_entry (used : (l.entry e).phase ≠ .free) : (freeEntry e l).entry e = l.freed e := by
  rw [freeEntry_frees e l used, setEntry_same]

theorem freeEntry_other {j : Nat} (other : j ≠ e) : (freeEntry e l).entry j = l.entry j := by
  by_cases free : (l.entry e).phase = .free
  · unfold freeEntry
    rw [if_pos free]
  · rw [freeEntry_frees e l free, setEntry_ne _ _ other, unlist_entry]

theorem freeEntry_counts (q : Nat) : (freeEntry e l).counts q = l.counts q := by
  by_cases free : (l.entry e).phase = .free
  · unfold freeEntry
    rw [if_pos free]
  · rw [freeEntry_frees e l free]
    exact unlist_counts e l q

theorem freeEntry_slot : (freeEntry e l).events.listing = l.events.listing ∧ (freeEntry e l).events.slotAt = l.events.slotAt := by
  by_cases free : (l.entry e).phase = .free
  · unfold freeEntry
    rw [if_pos free]
    exact ⟨rfl, rfl⟩
  · rw [freeEntry_frees e l free]
    exact unlist_slot e l

theorem freeEntry_unqueued (used : (l.entry e).phase ≠ .free) (j : Nat) (h : j = e ∨ Unqueued j l) : Unqueued j (freeEntry e l) := by
  rw [freeEntry_frees e l used]
  exact unlist_unqueued e l j h

end

/-! ### Flush (R186) -/

/-- A flush of queue q hits an entry: it is live, or a post or reinsertion that waits or walks. -/
def FlushHits (q : Nat) (x : EvEntry) : Prop := x.queue = q ∧ (x.phase = .live ∨ ∃ b, x.phase = .walking none b)

/-- One entry of a flush. -/
def flushOne (q e : Nat) (l : Live) : Live :=
  let x := l.entry e
  if x.queue ≠ q then l
  else match x.phase with
    | .live => freeEntry e l
    | .walking none _ => freeEntry e l
    | _ => l

theorem flushOne_hit {q e : Nat} {l : Live} (h : FlushHits q (l.entry e)) : flushOne q e l = freeEntry e l := by
  obtain ⟨queue, phase⟩ := h
  unfold flushOne
  dsimp only
  rw [if_neg (not_not_intro queue)]
  rcases phase with live_ | ⟨b, walking⟩
  · rw [live_]
  · rw [walking]

theorem flushOne_miss {q e : Nat} {l : Live} (h : ¬FlushHits q (l.entry e)) : flushOne q e l = l := by
  unfold flushOne
  dsimp only
  split
  · rfl
  · rename_i queue
    split
    · rename_i live_
      exact absurd ⟨not_not.mp queue, Or.inl live_⟩ h
    · rename_i b walking
      exact absurd ⟨not_not.mp queue, Or.inr ⟨b, walking⟩⟩ h
    · rfl

theorem flushHits_used {q : Nat} {x : EvEntry} (h : FlushHits q x) : x.phase ≠ .free := by
  obtain ⟨-, live_ | ⟨b, walking⟩⟩ := h
  · rw [live_]
    decide
  · rw [walking]
    exact EvPhase.noConfusion

/-- A freed entry of the queue is hit no more. -/
theorem freed_missed (q e : Nat) (l : Live) : ¬FlushHits q (l.freed e) := by
  unfold Live.freed
  rintro ⟨-, phase⟩
  split at phase <;> simp at phase

theorem flushOne_other {q e j : Nat} {l : Live} (other : j ≠ e) : (flushOne q e l).entry j = l.entry j := by
  by_cases h : FlushHits q (l.entry e)
  · rw [flushOne_hit h, freeEntry_other e l other]
  · rw [flushOne_miss h]

theorem flushOne_unqueued {q e j : Nat} {l : Live} (h : Unqueued j l) : Unqueued j (flushOne q e l) := by
  by_cases hit : FlushHits q (l.entry e)
  · rw [flushOne_hit hit]
    exact freeEntry_unqueued e l (flushHits_used hit) j (Or.inr h)
  · rw [flushOne_miss hit]
    exact h

theorem flushOne_listing (q e : Nat) (l : Live) : (flushOne q e l).events.listing = l.events.listing := by
  by_cases h : FlushHits q (l.entry e)
  · rw [flushOne_hit h, (freeEntry_slot e l).1]
  · rw [flushOne_miss h]

theorem flushOne_counts (q e j : Nat) (l : Live) : (flushOne q e l).counts j = l.counts j := by
  by_cases h : FlushHits q (l.entry e)
  · rw [flushOne_hit h, freeEntry_counts]
  · rw [flushOne_miss h]

theorem flushOne_mem (q e : Nat) (l : Live) : (flushOne q e l).mem = l.mem := by
  by_cases h : FlushHits q (l.entry e)
  · rw [flushOne_hit h, show freeEntry e l = _ from freeEntry_onlyEvents e l]
  · rw [flushOne_miss h]

theorem freed_congr {l m : Live} {e : Nat} (listing : m.events.listing = l.events.listing) (entry : m.entry e = l.entry e) :
    m.freed e = l.freed e := by
  unfold Live.freed listed
  rw [listing, entry]

/-- A flush over some entries leaves those that it does not hit. -/
theorem flush_leaves {q : Nat} (es : List Nat) {e : Nat} (l : Live) (h : ¬FlushHits q (l.entry e)) :
    (forAll (flushOne q) es l).entry e = l.entry e ∧ (Unqueued e l → Unqueued e (forAll (flushOne q) es l)) := by
  induction es generalizing l with
  | nil => exact ⟨rfl, id⟩
  | cons d es ih =>
    show (forAll (flushOne q) es (flushOne q d l)).entry e = _ ∧ (_ → Unqueued e (forAll (flushOne q) es (flushOne q d l)))
    have kept : (flushOne q d l).entry e = l.entry e := by
      by_cases own : e = d
      · subst own
        rw [flushOne_miss h]
      · exact flushOne_other own
    obtain ⟨entry, out⟩ := ih (flushOne q d l) (by rw [kept]; exact h)
    exact ⟨entry.trans kept, fun was => out (flushOne_unqueued was)⟩

/-- A flush over some entries frees those that it hits, and takes them out of the engine. -/
theorem flush_frees {q : Nat} (es : List Nat) {e : Nat} (l : Live) (inside : e ∈ es) (h : FlushHits q (l.entry e)) :
    (forAll (flushOne q) es l).entry e = l.freed e ∧ Unqueued e (forAll (flushOne q) es l) := by
  induction es generalizing l with
  | nil => exact absurd inside List.not_mem_nil
  | cons d es ih =>
    show (forAll (flushOne q) es (flushOne q d l)).entry e = _ ∧ Unqueued e (forAll (flushOne q) es (flushOne q d l))
    by_cases own : e = d
    · subst own
      have freed : (flushOne q e l).entry e = l.freed e := by
        rw [flushOne_hit h, freeEntry_entry e l (flushHits_used h)]
      have out : Unqueued e (flushOne q e l) := by
        rw [flushOne_hit h]
        exact freeEntry_unqueued e l (flushHits_used h) e (Or.inl rfl)
      obtain ⟨entry, kept⟩ := flush_leaves (q := q) es (flushOne q e l) (by rw [freed]; exact freed_missed q e l)
      exact ⟨entry.trans freed, kept out⟩
    · have kept : (flushOne q d l).entry e = l.entry e := flushOne_other own
      obtain ⟨entry, out⟩ := ih (flushOne q d l) ((List.mem_cons.mp inside).resolve_left own) (by rw [kept]; exact h)
      exact ⟨entry.trans (freed_congr (flushOne_listing q d l) kept), out⟩

theorem mem_keys_of_get {α : Type} {d : α} {m : SMap α} {k : Nat} (h : m.get d k ≠ d) : k ∈ m.map (fun e => e.1) := by
  induction m with
  | nil => exact absurd rfl h
  | cons e r ih =>
    obtain ⟨j, x⟩ := e
    by_cases own : k = j
    · rw [own]
      exact List.mem_cons_self
    · refine List.mem_cons_of_mem _ (ih fun default => h ?_)
      simpa [SMap.get, own] using default

/-- An entry that is not free is in use. -/
theorem mem_usedEntries {l : Live} {e : Nat} (used : (l.entry e).phase ≠ .free) : e ∈ usedEntries l :=
  mem_keys_of_get fun default => used (congrArg EvEntry.phase default)

/-- Settles O16: `flush_frees` for the entries that the flush hits, `flush_leaves` for every other. -/
theorem flushFreesQueue : Obligations.FlushFreesQueue := by
  intro s conn q reaches
  let l := touch conn s.live
  let m := forAll (flushOne q) (usedEntries l) l
  have effect : done (flushQueue q) l = (queueFlag q 6 m, 0) := rfl
  have entries (e : Nat) : (s.apply fun _ => reply conn 0 (queueFlag q 6 m)).live.entry e = m.entry e := by
    rw [apply_entry, (reply_acc _ _ _).2.2.2.2.1]
    exact (updQueue_acc _ _ _).2.2.2.2.1 e
  have events : (s.apply fun _ => reply conn 0 (queueFlag q 6 m)).live.events.fifo = m.events.fifo ∧
      (s.apply fun _ => reply conn 0 (queueFlag q 6 m)).live.events.waiting = m.events.waiting := by
    rw [show (s.apply fun _ => reply conn 0 (queueFlag q 6 m)).live.events = (reply conn 0 (queueFlag q 6 m)).events by simp only [apply_keeps]]
    exact ⟨rfl, rfl⟩
  have counts : m.counts q = l.counts q := forAll_keeps (Live.counts q) (fun e x => flushOne_counts q e q x) (usedEntries l) l
  have mem : m.mem = l.mem := forAll_keeps Live.mem (flushOne_mem q) (usedEntries l) l
  have leaves (e : Nat) (miss : ¬FlushHits q (s.live.entry e)) : m.entry e = s.live.entry e := (flush_leaves (usedEntries l) l miss).1
  have frees (e : Nat) (hit : FlushHits q (s.live.entry e)) : m.entry e = s.live.freed e ∧ Unqueued e m :=
    flush_frees (usedEntries l) l (mem_usedEntries (flushHits_used hit)) hit
  clear_value m
  refine completes_object rfl reaches effect ⟨?_, fun e queue phase => ?_, fun e queue notLive notWalking => ?_, fun e other => ?_,
    answeredDone_reply _ _ _, sameMemory_reply ?_⟩
  · rw [apply_queue, (reply_acc _ _ _).2.2.2.2.2.1, queueFlag, updQueue_same]
    have status : (m.counts q).status = (l.counts q).status := congrArg EvQueue.status counts
    exact congrArg (fun w => setBit w 6) status
  · obtain ⟨freed, out⟩ := frees e ⟨queue, phase⟩
    rw [entries, freed, events.1, events.2]
    unfold Live.freed
    rw [queue]
    refine ⟨?_, ?_, out⟩
    · split <;> rfl
    · split <;> rfl
  · rw [entries]
    exact leaves e fun hit => hit.2.elim notLive fun ⟨b, walking⟩ => notWalking b walking
  · rw [entries]
    exact leaves e fun hit => other hit.1
  · exact mem.trans rfl

end Sys2Proof.Machine

/-! The scheduler of the event table (R185, R195, R196, R202). -/

namespace Sys2Proof.Machine

open Sys2Proof

/-! ### Pre-arming (R195) -/

theorem eventPrearm_arms {l : Live} {e : Nat} {d : Due} (up : schedUp l = true) (free : l.events.prearmAt ≠ some (l.now / 2))
    (room : armedEntries l < 32) (first : earliest l (List.range 16) = some (e, d)) :
    ∃ m : Live, m = l.updEntry e (fun x => { x with armed := some (if d.late then l.now else d.at_), fine := d.fine, late := d.late }) ∧
      eventPrearm l = { m with events := { m.events with prearmAt := some (l.now / 2) } } := by
  refine ⟨_, rfl, ?_⟩
  unfold eventPrearm
  rw [if_neg (by simp [up, free, room]), first]
  rfl

/-! ### Firing (R196, R202) -/

/-- The entries, channels, listing, slot and memory: what reports and counts of a queue leave alone. -/
def Live.fixed (l : Live) : SMap EvEntry × SMap Channel × Option (Nat × List Byte) × Option Nat × Memory :=
  (l.events.entries, l.channels, l.events.listing, l.events.slotAt, l.mem)

theorem writeRecord_fixed (src kind payload : Nat) (l : Live) : (writeRecord src kind payload l).fixed = l.fixed := by
  simp [Live.fixed]

theorem writeRecord_counts (src kind payload q : Nat) (l : Live) : (writeRecord src kind payload l).counts q = l.counts q := by
  simp [Live.counts, Live.queue]

/-- An entry that is not late and not periodic takes the slot, with an action that leaves the event table alone: it is counted, its action
done, and it is freed. -/
theorem takeSlot_fires {l : Live} {e due : Nat} (onTime : (l.entry e).late = false) (once : (l.entry e).per = 0)
    (plain : pinActOf (l.entry e) = none) (calm : ∀ m : Live, m.rst = l.rst → (doAction (l.entry e) m).events = m.events) :
    ∃ m : Live, m.fixed = ({ l with events := { l.events with slotAt := some (l.now / 2) } } : Live).fixed ∧
      (m.counts (l.entry e).queue).fired = (l.counts (l.entry e).queue).fired + 1 ∧ m.rst = l.rst ∧
      takeSlot e due l = freeEntry e (doAction (l.entry e) m) := by
  let taken : Live := { l with events := { l.events with slotAt := some (l.now / 2) } }
  let slipped := taken.updQueue (l.entry e).queue (fun y =>
    { y with lastSlip := BitVec.ofNat 8 (satTo 8 (l.now / 2 - due / 2)),
             lastLate := if (l.entry e).late then BitVec.ofNat 32 (satTo 32 (latenessOf l (l.entry e))) else y.lastLate })
  let counted := slipped.updQueue (l.entry e).queue fun y => { y with fired := y.fired + 1 }
  let m := if (l.entry e).logf then firingRecord e (latenessOf l (l.entry e)) 0x30 counted else counted
  have fixed : m.fixed = taken.fixed := by
    unfold m
    split
    · exact (writeRecord_fixed _ _ _ _).trans rfl
    · rfl
  have fired : (m.counts (l.entry e).queue).fired = (l.counts (l.entry e).queue).fired + 1 := by
    have here : (counted.counts (l.entry e).queue).fired = (l.counts (l.entry e).queue).fired + 1 := by
      unfold counted slipped Live.counts
      rw [updQueue_same, updQueue_same]
      rfl
    rw [← here]
    unfold m
    split
    · unfold firingRecord
      rw [writeRecord_counts]
    · rfl
  have rst : m.rst = l.rst := by
    unfold m
    split
    · unfold firingRecord
      simp [counted, slipped, taken]
    · rfl
  have entry : m.entry e = l.entry e := by
    unfold Live.entry
    rw [show m.events.entries = l.events.entries from congrArg Prod.fst fixed]
  have after : (doAction (l.entry e) m).entry e = l.entry e :=
    (congrArg (fun u : EventUnit => SMap.get ({} : EvEntry) u.entries e) (calm m rst)).trans entry
  have effect : takeSlot e due l = afterFiring e (doAction (l.entry e) m) := by
    have late : ((l.entry e).late && skipLate slipped (l.entry e) (latenessOf l (l.entry e))) = false := by
      rw [onTime]
      rfl
    have same : slipped.entry e = l.entry e := rfl
    have fire : fireEntry e (latenessOf l (l.entry e)) slipped = afterFiring e (doAction (l.entry e) m) := by
      unfold fireEntry
      dsimp only
      rw [same, plain, onTime]
      rfl
    exact (if_neg (by rw [late]; exact Bool.false_ne_true)).trans fire
  refine ⟨m, fixed, fired, rst, effect.trans ?_⟩
  unfold afterFiring
  dsimp only
  rw [after]
  exact if_pos (by simp [once])

/-- The entry that wins the slot takes it in its due TCLK, where no boundary's commit is still to come. -/
theorem eventFire_takes {l : Live} {e due : Nat} (up : schedUp l = true) (free : l.events.slotAt ≠ some (l.now / 2))
    (first : slotWinner l = some (e, due)) (now : l.now = due) (none' : boundaryCommitDue l = false) :
    eventFire e l = takeSlot e due l := by
  have taker : slotTaker l = some (e, due) := by
    unfold slotTaker
    rw [if_neg (by simp [up, free]), first]
    simp [now]
  unfold eventFire
  rw [taker]
  simp [none']

/-- EVENT_FIRE of an entry whose action leaves the event table alone. -/
theorem completes_fire {s : State} {e : BitVec 12} {due : Nat} (up : schedUp s.live = true) (free : s.live.events.slotAt ≠ some (s.live.now / 2))
    (first : slotWinner s.live = some (e.toNat, due)) (now : s.live.now = due) (onTime : (s.live.entry e.toNat).late = false)
    (once : (s.live.entry e.toNat).per = 0) (live_ : (s.live.entry e.toNat).phase = .live) (none' : boundaryCommitDue s.live = false)
    (unlisted : listed s.live (s.live.entry e.toNat).queue = false) (plain : pinActOf (s.live.entry e.toNat) = none)
    (calm : ∀ m : Live, m.rst = s.live.rst → (doAction (s.live.entry e.toNat) m).events = m.events ∧ (doAction (s.live.entry e.toNat) m).mem = m.mem)
    {P : State → Prop}
    (h : ∀ m : Live, m.channels = s.live.channels → m.rst = s.live.rst →
      ∀ t : State, t.live.channels = (doAction (s.live.entry e.toNat) m).channels → t.live.entry e.toNat = {} →
        (t.live.queue (s.live.entry e.toNat).queue).fired = (s.live.queue (s.live.entry e.toNat).queue).fired + 1 →
        t.live.events.slotAt = some (s.live.now / 2) → SameMemory s t → P t) :
    Completes (.eventFire e) s P := by
  obtain ⟨m, fixed, fired, rst, effect⟩ := takeSlot_fires (due := due) onTime once plain fun m rst => (calm m rst).1
  obtain ⟨events, mem⟩ := calm m rst
  have took := (eventFire_takes up free first now none').trans effect
  have entries : m.events.entries = s.live.events.entries := congrArg Prod.fst fixed
  have channels : m.channels = s.live.channels := congrArg (·.2.1) fixed
  have listing : m.events.listing = s.live.events.listing := congrArg (·.2.2.1) fixed
  have slot : m.events.slotAt = some (s.live.now / 2) := congrArg (·.2.2.2.1) fixed
  have mem' : m.mem = s.live.mem := congrArg (·.2.2.2.2) fixed
  have h' := h m channels rst
  generalize doAction (s.live.entry e.toNat) m = n at *
  have entry : n.entry e.toNat = s.live.entry e.toNat := by
    unfold Live.entry
    rw [events, entries]
  have used : (n.entry e.toNat).phase ≠ .free := by
    rw [entry, live_]
    exact EvPhase.noConfusion
  have wiped : n.freed e.toNat = {} := by
    unfold Live.freed listed at *
    rw [entry, events, listing, unlisted]
    rfl
  have only : freeEntry e.toNat n = _ := freeEntry_onlyEvents e.toNat n
  refine completes_apply (f := eventFire e.toNat) rfl (h' _ ?_ ?_ ?_ ?_ (sameMemory_apply ?_))
  · simp only [apply_keeps, took]
    rw [only]
  · rw [apply_entry, took, freeEntry_entry e.toNat n used, wiped]
  · rw [apply_queue, took]
    have count := freeEntry_counts e.toNat n (s.live.entry e.toNat).queue
    have same : n.counts (s.live.entry e.toNat).queue = m.counts (s.live.entry e.toNat).queue := by
      unfold Live.counts Live.queue
      rw [events]
    rw [same] at count
    exact (congrArg EvQueue.fired count : ((freeEntry e.toNat n).counts _).fired = _).trans fired
  · simp only [apply_keeps, took]
    rw [(freeEntry_slot e.toNat n).2, events, slot]
  · rw [took, only]
    exact mem.trans mem'

/-! ### Landing (R185, R196) -/

theorem eventPinLand_lands {l : Live} {e : Nat} {a : PinAct} (up : schedUp l = true) (act : pinActOf (l.entry e) = some a)
    (ready : readyAt l e = some l.now) (onTime : (l.entry e).late = false) (first : (l.entry e).landed = false)
    (free : commitFirst l = false) :
    eventPinLand e l = actPin (l.entry e).queue (l.entry e).tgt (l.entry e).fine a (l.setEntry e { l.entry e with landed := true }) := by
  unfold eventPinLand
  dsimp only
  rw [act, ready]
  exact if_pos (by simp [up, onTime, first, free])

@[simp] theorem drivePin_events (n : Nat) (l : Live) : (drivePin n l).events = l.events := by
  simp [drivePin, apply_ite Live.events]

/-- Settles O17: the pre-arming by `eventPrearm_arms`, the firing by `completes_fire`, the landing by `eventPinLand_lands`. That a late entry
falls due at once, and the order of ties, are the model's choice (log entry 45). -/
theorem schedulerCompletes : Obligations.SchedulerCompletes := by
  refine ⟨fun s e d up free room first => ?_, fun s e due up free first now onTime once live_ none' unlisted => ⟨fun act => ?_, fun act on => ?_⟩,
    fun s e a up act ready onTime fresh own free => ?_⟩
  · obtain ⟨m, armed, effect⟩ := eventPrearm_arms up free room first
    refine completes_apply (f := eventPrearm) rfl ⟨?_, ?_, ?_, sameMemory_apply ?_⟩
    · rw [apply_entry, effect]
      show m.entry e = _
      rw [armed, updEntry_same]
    · simp only [apply_keeps, effect]
    · simp [effect, armed]
    · simp [effect, armed]
  · have action (m : Live) : doAction (s.live.entry e.toNat) m = m := by
      unfold doAction
      dsimp only
      rw [act]
      rfl
    have plain : pinActOf (s.live.entry e.toNat) = none := by
      unfold pinActOf
      rw [act]
      rfl
    refine completes_fire up free first now onTime once live_ none' unlisted plain (fun m _ => by rw [action]; exact ⟨rfl, rfl⟩) ?_
    intro m channels rst t same entry fired slot mem
    exact ⟨entry, fired, slot, same.trans (by rw [action, channels]), mem⟩
  · have action (m : Live) : doAction (s.live.entry e.toNat) m = actKick (s.live.entry e.toNat).queue (s.live.entry e.toNat).tgt m := by
      unfold doAction
      dsimp only
      rw [act]
      rfl
    have plain : pinActOf (s.live.entry e.toNat) = none := by
      unfold pinActOf
      rw [act]
      rfl
    have held (m : Live) (rst : m.rst = s.live.rst) : doAction (s.live.entry e.toNat) m = raiseReq (s.live.entry e.toNat).tgt 0x40 m := by
      rw [action]
      refine if_neg ?_
      unfold blockHeld at on ⊢
      rw [rst, on]
      decide
    refine completes_fire up free first now onTime once live_ none' unlisted plain
      (fun m rst => by rw [held m rst, raiseReq]; simp) ?_
    intro m channels rst t same entry fired slot mem
    refine ⟨entry, ?_, fired, mem⟩
    rw [chan_of_channels same, held m rst, raiseReq_chan, chan_of_channels channels]
    rfl
  · have effect := eventPinLand_lands up act ready onTime fresh free
    let landed := s.live.setEntry e.toNat { s.live.entry e.toNat with landed := true }
    have own' : driverOf landed (s.live.entry e.toNat).tgt = 0xFFFE := own
    obtain ⟨latch, channels, mem⟩ := actPin_latch (q := (s.live.entry e.toNat).queue) (fine := (s.live.entry e.toNat).fine) (a := a) own'
    have act' : actPin (s.live.entry e.toNat).queue (s.live.entry e.toNat).tgt (s.live.entry e.toNat).fine a landed =
        drivePin (s.live.entry e.toNat).tgt (landed.updTpin (s.live.entry e.toNat).tgt fun t => { t with latch := applyAct a t.latch }) := by
      simp [actPin, own']
    refine completes_apply (f := eventPinLand e.toNat) rfl ⟨?_, ?_, ?_, sameMemory_apply ?_⟩
    · rw [apply_tpin, effect]
      exact latch
    · rw [apply_entry, effect, act']
      unfold Live.entry
      rw [drivePin_events]
      exact setEntry_same _ _ _
    · simp only [apply_keeps, effect]
      exact channels
    · rw [effect]
      exact mem

end Sys2Proof.Machine

/-! Inserts, cancels, walks, read requests and the stored image of the event table (R182, R183, R191–R194, R204, R208). -/

namespace Sys2Proof.Machine

open Sys2Proof

/-! ### Inserts (R183, R194) -/

theorem beginStaging_events (g : Nat) (l : Live) : (beginStaging g l).events = l.events ∧ (beginStaging g l).net = l.net ∧
    (beginStaging g l).mem = l.mem := ⟨rfl, rfl, rfl⟩

theorem find_free {l : Live} {xs : List Nat} {e : Nat} (h : xs.find? (fun e => (l.entry e).phase = .free) = some e) :
    (l.entry e).phase = .free := by
  simpa using List.find?_some h

/-- The entry that an allocation gives is free. -/
theorem allocEntry_free {l : Live} {e : Nat} (h : (allocEntry l).1 = some e) : (l.entry e).phase = .free := by
  simp only [allocEntry, firstFree] at h
  generalize List.map _ (List.range 4096) = xs at h
  exact find_free h

/-- An insert that takes a free entry counts in the FIFO as the free entry did. -/
theorem fifoFull_setEntry {l m : Live} {e g : Nat} {x : EvEntry} (free : (l.entry e).phase = .free) (phase : x.phase = .walking (some g) false)
    (entries : m.events.entries = (l.setEntry e x).events.entries) (fifo : m.events.fifo = l.events.fifo) : fifoFull m = fifoFull l := by
  have entry (d : Nat) : m.entry d = (l.setEntry e x).entry d := by
    unfold Live.entry
    rw [entries]
  unfold fifoFull fifoInserts
  rw [fifo]
  congr 3
  refine List.filter_congr fun d _ => ?_
  rw [entry]
  by_cases own : d = e
  · rw [own, setEntry_same, free, phase]
  · rw [setEntry_ne _ _ own]

theorem joinFifo_insert (e : Nat) (l : Live) : (joinFifo e false l).events.fifo = l.events.fifo ++ [e] ∧
    (joinFifo e false l).events.waiting = l.events.waiting ∧ (joinFifo e false l).events.entries = l.events.entries ∧
    (joinFifo e false l).net = l.net ∧ (joinFifo e false l).mem = l.mem := by
  unfold joinFifo
  dsimp only
  split
  · rename_i empty
    rw [empty]
    exact ⟨rfl, rfl, rfl, rfl, rfl⟩
  · rename_i h r some_
    rw [some_]
    exact ⟨rfl, rfl, rfl, rfl, rfl⟩

/-- An insert of the dictionary path joins the FIFO, or those that wait for a place in it (R183). -/
theorem joinOrWait_joins (e : Nat) (l : Live) :
    (joinOrWait e l).events.fifo = (if fifoFull l then l.events.fifo else l.events.fifo ++ [e]) ∧
    (joinOrWait e l).events.waiting = (if fifoFull l then l.events.waiting ++ [e] else l.events.waiting) ∧
    (joinOrWait e l).events.entries = l.events.entries ∧ (joinOrWait e l).net = l.net ∧ (joinOrWait e l).mem = l.mem := by
  unfold joinOrWait
  split
  · exact ⟨rfl, rfl, rfl, rfl, rfl⟩
  · exact joinFifo_insert e l

/-- An insert that passes its checks takes the entry that the allocation gives (R182, R183, R194). -/
theorem eventInsert_takes {l : Live} {i e : Nat} {data : List Byte} (length : data.length = 17) (group : fieldLE data 0 1 < 64)
    (open' : groupArmed l (fieldLE data 0 1) = false) (valid : insertReason l (fieldLE data 1 16) = 0) (given : (allocEntry l).1 = some e) :
    ∃ m : Live, eventInsert i data l = (m, 0) ∧
      m.entry e = { entryOf (fieldLE data 1 16) with phase := .walking (some (fieldLE data 0 1)) false } ∧
      m.events.fifo = (if fifoFull l then l.events.fifo else l.events.fifo ++ [e]) ∧
      m.events.waiting = (if fifoFull l then l.events.waiting ++ [e] else l.events.waiting) ∧
      (m.connSt i).lastAlloc = BitVec.ofNat 16 e ∧ m.mem = l.mem := by
  let x : EvEntry := { entryOf (fieldLE data 1 16) with phase := .walking (some (fieldLE data 0 1)) false }
  let taken := ((drawFree l).2.setEntry e x).updConnSt i fun c => { c with lastAlloc := BitVec.ofNat 16 e }
  have effect : eventInsert i data l = (beginStaging (fieldLE data 0 1) (joinOrWait e taken), 0) := by
    unfold eventInsert
    dsimp only
    rw [if_neg (not_not_intro length), if_neg (by omega), if_neg (by rw [open']; decide), if_neg (not_not_intro valid),
      show allocEntry l = (some e, (drawFree l).2) from Prod.ext given rfl]
  have full : fifoFull taken = fifoFull l := fifoFull_setEntry (allocEntry_free given) rfl rfl rfl
  obtain ⟨fifo, waiting, entries, net, mem⟩ := joinOrWait_joins e taken
  rw [full] at fifo waiting
  refine ⟨_, effect, ?_, fifo, waiting, ?_, mem⟩
  · have entry : (beginStaging (fieldLE data 0 1) (joinOrWait e taken)).entry e = taken.entry e := by
      unfold Live.entry
      rw [(beginStaging_events _ _).1, entries]
    rw [entry]
    exact setEntry_same _ _ _
  · have conn : (beginStaging (fieldLE data 0 1) (joinOrWait e taken)).connSt i = taken.connSt i := by
      unfold Live.connSt
      rw [(beginStaging_events _ _).2.1, net]
    rw [conn]
    unfold taken
    rw [updConnSt_same]

theorem insert_settles (s : State) (conn : Conn) (data : List Byte) (e : Nat) (reaches : Reaches conn 0x2810 1 s) (length : data.length = 17)
    (group : fieldLE data 0 1 < 64) (open' : groupArmed s.live (fieldLE data 0 1) = false) (valid : insertReason s.live (fieldLE data 1 16) = 0)
    (given : (allocEntry s.live).1 = some e) :
    Completes (.eventInsert conn data) s fun t =>
      t.live.entry e = { entryOf (fieldLE data 1 16) with phase := .walking (some (fieldLE data 0 1)) false } ∧
      t.live.events.fifo = (if fifoFull s.live then s.live.events.fifo else s.live.events.fifo ++ [e]) ∧
      t.live.events.waiting = (if fifoFull s.live then s.live.events.waiting ++ [e] else s.live.events.waiting) ∧
      (t.live.connSt (connId conn)).lastAlloc = BitVec.ofNat 16 e ∧ AnsweredDone conn t ∧ SameMemory s t := by
  obtain ⟨m, effect, entry, fifo, waiting, alloc, mem⟩ :=
    eventInsert_takes (l := touch conn s.live) (i := connId conn) length group open' valid given
  refine completes_object rfl reaches effect ⟨?_, ?_, ?_, ?_, answeredDone_reply _ _ _, sameMemory_reply (mem.trans rfl)⟩
  · rw [apply_entry, (reply_acc _ _ _).2.2.2.2.1, entry]
  · rw [(apply_keeps _ _).2.2.2.2.2.2.2.1]
    exact fifo
  · rw [(apply_keeps _ _).2.2.2.2.2.2.2.1]
    exact waiting
  · rw [apply_connSt, reply_connSt]
    exact alloc

/-! ### Cancels (R192) -/

theorem cancel_settles (s : State) (conn : Conn) (value : BitVec 32) (reaches : Reaches conn 0x2810 2 s) (zero : field value.toNat 23 12 = 0)
    (group : field value.toNat 31 24 < 64) (open' : groupArmed s.live (field value.toNat 31 24) = false)
    (used : (s.live.entry (field value.toNat 11 0)).phase ≠ .free) :
    Completes (.eventCancel conn value) s fun t =>
      let g := field value.toNat 31 24
      (t.live.group g).staged.cancels = (s.live.group g).staged.cancels ++ [field value.toNat 11 0] ∧
      t.live.events.entries = s.live.events.entries ∧ AnsweredDone conn t ∧ SameMemory s t := by
  let l := touch conn s.live
  have effect : eventCancel value.toNat l = (beginStaging (field value.toNat 31 24) (l.updGroup (field value.toNat 31 24) fun x =>
      { x with staged := { x.staged with cancels := x.staged.cancels ++ [field value.toNat 11 0] } }), 0) := by
    unfold eventCancel
    dsimp only
    rw [if_neg (by simp [zero]; omega), if_neg (by rw [show groupArmed l _ = false from open']; decide),
      if_neg (show ¬(l.entry (field value.toNat 11 0)).phase = .free from used)]
  refine completes_object rfl reaches effect ⟨?_, ?_, answeredDone_reply _ _ _, sameMemory_reply rfl⟩
  · rw [apply_group, (reply_acc _ _ _).2.2.2.1, beginStaging, updGroup_same, updGroup_same, apply_ite Group.staged]
    rw [ite_self]
    rfl
  · rw [(apply_keeps _ _).2.2.2.2.2.2.2.1]
    rfl

/-! ### The end of a walk (R191, R192, R194) -/

theorem mem_placeBy (rank : Nat → Int) (e : Nat) (xs : List Nat) : e ∈ placeBy rank e xs := by
  induction xs with
  | nil => exact List.mem_singleton_self e
  | cons x r ih =>
    unfold placeBy
    split
    · exact List.mem_cons_self
    · exact List.mem_cons_of_mem _ ih

/-- What becomes of an entry at the end of its walk. -/
def walkedPhase : Option Nat → EvPhase
  | some g => .dormant g
  | none => .live

theorem walk_settles (s : State) (e : Nat) (rest : List Nat) (g : Option Nat) (b : Bool) (up : schedUp s.live = true)
    (head : s.live.events.fifo = e :: rest) (phase : (s.live.entry e).phase = .walking g b)
    (unlisted : listed s.live (s.live.entry e).queue = false) (walked : s.live.events.walkFrom + 2 * walkTime s.live e ≤ s.live.now) :
    Completes .insertWalkDone s fun t =>
      (s.live.events.waiting = [] → t.live.events.fifo = rest) ∧ e ∈ (t.live.queue (s.live.entry e).queue).order ∧
      (t.live.entry e).phase = walkedPhase g ∧ SameMemory s t := by
  let started : Live := { s.live with events := { s.live.events with fifo := rest, walkFrom := s.live.now } }
  let m := enlist e (admitWaiting started)
  have entries : m.events.entries = s.live.events.entries := (admitWaiting_keeps started).1
  have entry : m.entry e = s.live.entry e := by
    unfold Live.entry
    rw [entries]
  have admitted : (admitWaiting started).entry e = s.live.entry e := by
    unfold Live.entry
    rw [(admitWaiting_keeps started).1]
  have place : e ∈ (m.queue (s.live.entry e).queue).order := by
    unfold m enlist
    dsimp only
    rw [admitted, updQueue_same]
    exact mem_placeBy _ _ _
  have fifo : s.live.events.waiting = [] → m.events.fifo = rest := fun empty => by
    have same : admitWaiting started = started := by
      unfold admitWaiting
      rw [show started.events.waiting = [] from empty]
    unfold m
    rw [same]
    rfl
  have mem : m.mem = s.live.mem := by
    unfold m
    rw [show (enlist e (admitWaiting started)).mem = (admitWaiting started).mem from rfl,
      show admitWaiting started = _ from admitWaiting_onlyEvents started]
  have effect : insertWalkDone s.live = (match (s.live.entry e).phase with
      | .walking (some g) _ => m.setEntry e { s.live.entry e with phase := .dormant g }
      | _ => becomeLive e m) := by
    unfold insertWalkDone
    rw [head]
    exact if_neg (by simp [unlisted]; omega)
  clear_value m
  obtain ⟨x, last, settled⟩ : ∃ x : EvEntry, insertWalkDone s.live = m.setEntry e x ∧ x.phase = walkedPhase g := by
    rw [effect, phase]
    cases g with
    | some g => exact ⟨_, rfl, rfl⟩
    | none => exact ⟨_, rfl, rfl⟩
  have effect' : (if schedUp s.live then insertWalkDone s.live else s.live) = m.setEntry e x := (if_pos up).trans last
  refine completes_apply (f := fun l => if schedUp l then insertWalkDone l else l) rfl ⟨fun empty => ?_, ?_, ?_, sameMemory_apply ?_⟩
  · rw [(apply_keeps _ _).2.2.2.2.2.2.2.1, effect']
    exact fifo empty
  · rw [apply_queue, effect', (setEntry_acc _ _ _).2.2.2.2.1]
    exact place
  · rw [apply_entry, effect', setEntry_same, settled]
  · rw [effect', ← mem]
    simp

/-! ### Read requests (R208) -/

theorem read_settles (s : State) (conn : Conn) (value : BitVec 16) (reaches : Reaches conn 0x2811 3 s) (small : value.toNat < 0x1010)
    (free : s.live.events.listing = none) :
    Completes (.eventReadRequest conn value) s fun t =>
      t.live.events.listing.isSome = true ∧ t.live.events.poolStatus = setBit s.live.events.poolStatus 2 ∧
      t.live.events.entries = s.live.events.entries ∧ AnsweredDone conn t ∧ SameMemory s t := by
  let l := touch conn s.live
  obtain ⟨r, effect⟩ : ∃ r, eventReadRequest value.toNat l =
      ({ l with events := { l.events with listing := some r, poolStatus := setBit l.events.poolStatus 2 } }, 0) := by
    unfold eventReadRequest
    rw [if_neg (by omega), if_neg (by rw [show l.events.listing = none from free]; decide)]
    exact ⟨_, rfl⟩
  refine completes_object rfl reaches effect ⟨?_, ?_, ?_, answeredDone_reply _ _ _, sameMemory_reply rfl⟩
  · rw [(apply_keeps _ _).2.2.2.2.2.2.2.1]
    rfl
  · rw [(apply_keeps _ _).2.2.2.2.2.2.2.1]
    rfl
  · rw [(apply_keeps _ _).2.2.2.2.2.2.2.1]
    rfl

/-- An entry that the copy held back leaves; nothing else of the table differs. -/
theorem leave_keeps (e : Nat) (l : Live) :
    let m := if (l.entry e).phase = .leaving then l.setEntry e {} else l
    (m.events.listing, m.events.listResult, m.events.poolStatus, m.mem) =
      (l.events.listing, l.events.listResult, l.events.poolStatus, l.mem) := by
  dsimp only
  split <;> rfl

theorem listing_ends (s : State) (q : Nat) (r : List Byte) (copied : s.live.events.listing = some (q, r)) :
    Completes .eventListingDone s fun t =>
      t.live.events.listing = none ∧ t.live.events.listResult = r ∧
      t.live.events.poolStatus = clrBit s.live.events.poolStatus 2 ∧ SameMemory s t := by
  let ended : Live := { s.live with events := { s.live.events with
    listing := none, listResult := r, poolStatus := clrBit s.live.events.poolStatus 2 } }
  have effect : eventListingDone s.live =
      forAll (fun e l => if (l.entry e).phase = .leaving then l.setEntry e {} else l) (usedEntries ended) ended := by
    unfold eventListingDone
    rw [copied]
  have kept := forAll_keeps (fun m : Live => (m.events.listing, m.events.listResult, m.events.poolStatus, m.mem)) leave_keeps
    (usedEntries ended) ended
  rw [← effect] at kept
  obtain ⟨listing, result, status, mem⟩ : _ ∧ _ ∧ _ ∧ _ := by simpa only [Prod.mk.injEq] using kept
  refine completes_apply (f := eventListingDone) rfl ⟨?_, ?_, ?_, sameMemory_apply mem⟩
  · rw [(apply_keeps _ _).2.2.2.2.2.2.2.1]
    exact listing
  · rw [(apply_keeps _ _).2.2.2.2.2.2.2.1]
    exact result
  · rw [(apply_keeps _ _).2.2.2.2.2.2.2.1]
    exact status

/-! ### The stored image (R204) -/

theorem image_settles (s : State) (conn : Conn) (data : List Byte) (reaches : Reaches conn 0x2811 1 s) (good : eventImageOk s.live data = true) :
    Completes (.eventImageWrite conn data) s fun t =>
      t.live.mram = { s.live.mram with eventImage := data } ∧ t.live.events = { s.live.events with imageStatus := 1 } ∧
      AnsweredDone conn t ∧ SameMemory s t := by
  let l := touch conn s.live
  have effect : eventImageWrite data l =
      ({ l with mram := { l.mram with eventImage := data }, events := { l.events with imageStatus := 1 } }, 0) :=
    if_pos (show eventImageOk l data = true from good)
  refine completes_object rfl reaches effect ⟨?_, ?_, answeredDone_reply _ _ _, sameMemory_reply rfl⟩
  · simp only [apply_keeps, reply_keeps]
    rfl
  · simp only [apply_keeps, reply_keeps]
    rfl

/-- Settles O15, a lemma for each clause. The answer and the wait of an insert at a full FIFO, the free entry that is given, and an entry
made live at the end of its walk are the model's choice (log entries 112, 20 and 21). -/
theorem insertsAndReadsComplete : Obligations.InsertsAndReadsComplete := by
  refine ⟨insert_settles, cancel_settles, fun s e rest g b up head phase unlisted walked => ?_, read_settles, listing_ends, image_settles⟩
  have settles := walk_settles s e rest g b up head phase unlisted walked
  cases g with
  | some g => exact settles
  | none => exact settles

end Sys2Proof.Machine
